-- ==== Sys2Proof/Word.lean ====
section
/-! DEFINITION. The word types of the LY9600: bytes, 32-bit register words and 256-bit strand tokens. -/
namespace Sys2Proof

/-- One byte of a memory or of a packet. -/
abbrev Byte := BitVec 8

/-- The content of one BAR0 register. -/
abbrev Word := BitVec 32

/-- One 256-bit token of a strand (R69). -/
abbrev Token := BitVec 256

end Sys2Proof
end

