-- ==== Sys2Proof/Operand.lean ====
section
/-! DEFINITION. The operand forms of the commands. The table of operations gives its rows no operands, so these are the
model's: what comes with an event from outside the device, or which register value a writer gives. -/
namespace Sys2Proof

/-- A master of register accesses: PCIe functions PF0 and PF1, or the management processors (R499). -/
inductive Master where
  | pf0 | pf1 | mgt
deriving DecidableEq, Repr

/-- A read or a write of memory through a window. `poisonedTlp` marks a write that arrives as a poisoned TLP (R503). -/
inductive MemAccess where
  | read (len : Nat)
  | write (data : List Byte) (poisonedTlp : Bool)
deriving DecidableEq, Repr

/-- The items of a function's configuration space that R494 gives; the spec gives no offsets for its capabilities. -/
inductive CfgItem where
  | vendorId | deviceId | revisionId | classCode | subsystemVendorId | subsystemId
  | busMaster | msixEnable | msixFunctionMask | powerState
  | maxPayloadSupported | maxPayload | msixTableSize | serialNumber
  | bar0 | bar2 | bar4 | flrCapable | initiateFlr
deriving DecidableEq, Repr

/-- The levels on a serial audio port's FS and data line at the two edges of one BCLK period (R421). -/
structure SapPeriod where
  fsRise : Bool
  dataRise : Bool
  fsFall : Bool
  dataFall : Bool
deriving DecidableEq, Repr

/-- What a read of a line or word finds (R480, R483). -/
inductive EccResult where
  | clean | correctable | uncorrectable
deriving DecidableEq, Repr

/-- A DRAM request at a channel controller: its identity, address, length, data when it writes, its service class
(0 LIVE to 3 BACKGROUND, R474), and the Anchor time in ns from which its age runs (R475). -/
structure DramReq where
  id : Nat
  addr : Nat
  len : Nat
  data : Option (List Byte)
  cls : Nat
  since : Nat
deriving DecidableEq, Repr

/-- Who presents a request to a pool bank (R484): an engine port of an island, or a host-side master 0–6 (R486). -/
inductive PoolMaster where
  | engine (island port : Nat)
  | hostSide (m : Nat)
deriving DecidableEq, Repr

/-- A pool request: its master, the byte address and the access, and what a read finds. -/
structure PoolReq where
  master : PoolMaster
  addr : Nat
  acc : MemAccess
  ecc : EccResult
deriving DecidableEq, Repr

/-- What an SSD's NVMe controller reports and supports (R443): its version as the VS property gives it, MQES, the I/O queue
pairs it grants, MSI-X, its active namespaces, the data and metadata bytes of the active LBA format, DLFEAT, the Identify
CNS values, the admin and I/O opcodes, the log pages and the features it supports; and `power`, the number and the EXLAT in
µs of each of its non-operational power states from the shallowest to the deepest (R460). -/
structure NvmeCtl where
  version : Nat
  mqes : Nat
  ioQueues : Nat
  msix : Bool
  namespaces : List Nat
  lbaBytes : Nat
  metaBytes : Nat
  dlfeat : Nat
  cns : List Nat
  admin : List Nat
  io : List Nat
  logs : List Nat
  features : List Nat
  power : List (Nat × Nat)
deriving DecidableEq, Repr

/-- What a member slot of the root port holds when the clip store is enabled (R438, R443, R444, R461): the link's generation
and width, the member blocks, the controller, whether it has a volatile write cache, the ns from SSD power to its being
ready; and `swap`, the contents by byte address of an SSD other than the one that was there (none: the same one). -/
structure Ssd where
  slot : Nat
  gen : Nat
  width : Nat
  blocks : Nat
  ctl : NvmeCtl
  cache : Bool
  wake : Nat
  swap : Option (List (Nat × List Byte))
deriving DecidableEq, Repr

/-- What the release work of an island finds (R471, R486, R488, R535): the channels whose DRAM training fails, as a mask;
the base and size of the interrupt-handler area that the boot firmware declares; the rows that fail the boot march, by bank
and row; and the device slots whose copy fails its CRC check, as a mask. -/
structure BootIn where
  trainFail : Nat
  areaBase : Nat
  areaSize : Nat
  failRows : List (Nat × Nat)
  copyBad : Nat
deriving DecidableEq, Repr

end Sys2Proof
end

