-- ==== Sys2Proof/Syntax.lean ====
section
/-! DEFINITION. The commands of the LY9600: one constructor per row of the table of operations and events. -/
namespace Sys2Proof

/-- A command. The docstring of a constructor gives its row's mnemonic and what its operands are.
[assumption 1, DESIGN CHOICE] -/
inductive Instr where
  /-- RIG_LOAD: a write of RIG_LOAD_CTRL with go (R56, R57). -/
  | rigLoad (m : Master) (v : Word)
  /-- LOAD_COPY_COMPLETE: the image copy has completed (R57). -/
  | loadCopyComplete
  /-- SWITCH: a go write of RIG_CHANGE_CTRL with kind 1 (R61). -/
  | switch (m : Master) (v : Word)
  /-- RE_RIG: a go write of RIG_CHANGE_CTRL with kind 2 (R61). -/
  | reRig (m : Master) (v : Word)
  /-- CANCEL: a write of RIG_CHANGE_CTRL with cancel (R62). -/
  | cancel (m : Master) (v : Word)
  /-- CHANGE_DONE: every old work unit has completed and every moved bank is zeroed (R63). -/
  | changeDone
  /-- BANK_ZERO_COMPLETE: zeroing of a moved bank completes (R66). -/
  | bankZeroComplete (bank : Nat)
  /-- CLAIM: a write of RIG_CLAIM_CTRL with op 0 (R78). -/
  | claim (m : Master) (v : Word)
  /-- CLAIM_RELEASE: a write of RIG_CLAIM_CTRL with op 1 (R78). -/
  | claimRelease (m : Master) (v : Word)
  /-- TOKEN: the oldest token of a strand crosses to its receiver (R69). -/
  | token (strand : Nat)
  /-- PITCH: a shared engine visits its next calendar entry (R74). -/
  | pitch (engine : Nat)
  /-- JNL_ENABLE: a write of RIG_JNL_CTRL with enable 1 (R99). -/
  | jnlEnable (m : Master) (v : Word)
  /-- JNL_INJECT: a write of RIG_JNL_INJ7 (R107). -/
  | jnlInject (m : Master) (v : Word)
  /-- JNL_HOLD_EXPIRE: the hold of the decision point at place k of those blocked runs out (R106). -/
  | jnlHoldExpire (k : Nat)
  /-- DIG_FRAME_READ: a read of RIG_DIG_FRAME (R112). -/
  | digFrameRead (m : Master)
  /-- PORT_ENABLE: a write of HEADn_CFG with enable 1 while enable is 0 (R141). -/
  | portEnable (m : Master) (port : Nat) (v : Word)
  /-- PORT_DISABLE: a write of HEADn_CFG with enable 0 while enable is 1 (R143). -/
  | portDisable (m : Master) (port : Nat) (v : Word)
  /-- HEAD_CFG_RECONFIGURE: a write of HEADn_CFG while enable is 1 (R144). -/
  | headCfgReconfigure (m : Master) (port : Nat) (v : Word)
  /-- BLOCK_LOCK: a lane shows 64 consecutive valid sync headers (R141). -/
  | blockLock (port lane : Nat)
  /-- ALIGN: an ALIGN block of a lane at a block position, with the skew of the lanes and the block's 8 bytes (R125, R141). -/
  | align (port lane pos skew : Nat) (block : List Byte)
  /-- CAPABILITY: a CAPABILITY packet: the bytes after ptype, to the end of the trailer (R136, R142). -/
  | capability (port t : Nat) (rest : List Byte)
  /-- CAP_REQUEST_TIMEOUT: 10 ms without CAPABILITY (R141). -/
  | capRequestTimeout (port : Nat)
  /-- TRAIN_TIMEOUT: 200 ms without READY (R141). -/
  | trainTimeout (port : Nat)
  /-- LOCK_LOSS: a port loses lock at an Anchor ns (R143). -/
  | lockLoss (port t : Nat)
  /-- FRAME_START: a FRAME_START packet whose START block arrives at an Anchor ns (R133, R145, R146). -/
  | frameStart (port t : Nat) (rest : List Byte)
  /-- LINE: a LINE packet (R132, R146). -/
  | line (port t : Nat) (rest : List Byte)
  /-- FRAME_END: a FRAME_END packet (R134, R146). -/
  | frameEnd (port t : Nat) (rest : List Byte)
  /-- INGRESS_DEADLINE: the head ingress deadline of a frame passes; also gives the arg_b bits of events in the same cycle (R147, R148). -/
  | ingressDeadline (ctx tag also : Nat)
  /-- EXPOSURE: a go write of HEADn_VSv_EXP_CTRL (R151, R152). -/
  | exposure (m : Master) (port vs : Nat) (v : Word)
  /-- ACK: an ACK packet (R135, R151). -/
  | ack (port t : Nat) (rest : List Byte)
  /-- ACK_TIMEOUT: 2 ms without ACK (R151). -/
  | ackTimeout (port : Nat)
  /-- CONTROL_START: a write of HEADn_VSv_MAP with enable 1 (R159). -/
  | controlStart (m : Master) (port vs : Nat) (v : Word)
  /-- CONTROL_STOP: a write of HEADn_VSv_MAP with enable 0 (R159). -/
  | controlStop (m : Master) (port vs : Nat) (v : Word)
  /-- DEV_COMMIT: a commit write of DEV_CTX_CTRL (R171, R230). -/
  | devCommit (m : Master) (ctx : Nat) (v : Word)
  /-- STRIPE: the next ready stripe of a context (R169, R196). -/
  | stripe (ctx : Nat)
  /-- CONTACT_SHEET_RECORD: the record of the oldest finished frame is written (R190). -/
  | contactSheetRecord (ctx : Nat)
  /-- OUTPUT_FRAME_COMPLETE: the oldest finished output frame of a stream completes (R234). -/
  | outputFrameComplete (stream : Nat)
  /-- RAWC_SQ_TAIL: a write of RAWC_Qq_SQ_TAIL (R255). -/
  | rawcSqTail (m : Master) (q : Nat) (v : Word)
  /-- RAWC_CQ_HEAD: a write of RAWC_Qq_CQ_HEAD (R255). -/
  | rawcCqHead (m : Master) (q : Nat) (v : Word)
  /-- COMPRESS: a MEM queue takes a COMPRESS descriptor, or one whose op is neither (R255, R257). -/
  | compress (q : Nat)
  /-- DECOMPRESS: a MEM queue takes a DECOMPRESS descriptor (R255, R257, R262). -/
  | decompress (q : Nat)
  /-- TAP_FRAME: a raw-tap frame arrives at a TAP queue (R252). -/
  | tapFrame (q : Nat)
  /-- NEGATIVE_BLOCK: the next block of a queue is coded or decoded (R251). -/
  | negativeBlock (q : Nat)
  /-- RAWC_COMPLETION: a finished job posts its completion (R258, R264). -/
  | rawcCompletion (q : Nat)
  /-- RAWC_QUEUE_ENABLE: a write of RAWC_Qq_CTRL.enable (R254, R267). -/
  | rawcQueueEnable (m : Master) (q : Nat) (v : Word)
  /-- RAWC_QUEUE_RESET: a write of RAWC_Qq_CTRL with reset (R268). -/
  | rawcQueueReset (m : Master) (q : Nat) (v : Word)
  /-- HEVC_COMMIT: a commit write of HEVC_SESs_CTRL (R282). -/
  | hevcCommit (m : Master) (k : Nat) (v : Word)
  /-- HEVC_SESSION_RESET: a reset write of HEVC_SESs_CTRL (R304). -/
  | hevcSessionReset (m : Master) (k : Nat) (v : Word)
  /-- HEVC_POOL_ENABLE: a write of HEVC_POOL_CTRL (R286). -/
  | hevcPoolEnable (m : Master) (v : Word)
  /-- QUOTA_WRITE: a write of HEVC_SESs_QUOTA (R287). -/
  | quotaWrite (m : Master) (k : Nat) (v : Word)
  /-- HEVC_SQ_TAIL: a write of HEVC_SESs_SQ_TAIL (R299). -/
  | hevcSqTail (m : Master) (k : Nat) (v : Word)
  /-- PICTURE: a memory-fed session takes a PICTURE descriptor, or one whose op is not AU (R290, R299). -/
  | picture (k : Nat)
  /-- AU: a decode session takes an access unit, from a descriptor or from its strand (R296, R297). -/
  | au (k : Nat)
  /-- ENCODE_INPUT: a frame arrives at a strand-fed encode session (R283, R290). -/
  | encodeInput (k : Nat)
  /-- CTU_ROW: the next row of coding tree units of a session (R279, R293). -/
  | ctuRow (k : Nat)
  /-- HEVC_RECORD: the oldest record of a session is posted (R291, R298, R300). -/
  | hevcRecord (k : Nat)
  /-- WALL_ENABLE: a write of WALL_CTRL with enable 1 (R312). -/
  | wallEnable (m : Master)
  /-- WALL_DISABLE: a write of WALL_CTRL with enable 0 (R312). -/
  | wallDisable (m : Master)
  /-- MODE_COMMIT: a write of WALL_MODE_CTRL with commit (R313). -/
  | modeCommit (m : Master)
  /-- MODE_CHANGE_EFFECT: Anchor time reaches S (R313). -/
  | modeChangeEffect
  /-- SURFACE_ENABLE: a write of WALL_SURFs_CFG with enable 1 (R315). -/
  | surfaceEnable (m : Master) (surf : Nat) (v : Word)
  /-- SURFACE_DISABLE: a write of WALL_SURFs_CFG with enable 0 (R317). -/
  | surfaceDisable (m : Master) (surf : Nat) (v : Word)
  /-- SURFACE_COMMIT: a go write of WALL_SURFs_COMMIT with a buffer (R314). -/
  | surfaceCommit (m : Master) (surf buf : Nat)
  /-- SURFACE_DONE: the token that WALL input port 0–7 takes next is SURFACE_DONE, at an Anchor ns (R314). -/
  | surfaceDone (port t : Nat)
  /-- PICTURE_DONE: the next token of WALL input port 8 + k is taken, at an Anchor ns (R314). -/
  | pictureDone (k t : Nat)
  /-- RX_DONE: the next token of WALL input port 72 is taken, at an Anchor ns (R319). -/
  | rxDone (t : Nat)
  /-- DIRECT_FRAME_START: the token that WALL input port 0–7 takes next is FRAME_START, at an Anchor ns (R314). -/
  | directFrameStart (port t : Nat)
  /-- LATCH_POINT: the frame clock reaches its next latch point (R311). -/
  | latchPoint
  /-- PUSH_DEADLINE: the frame clock reaches the push deadline of the oldest frame before its own; context, block and pixels already fetched (R340). -/
  | pushDeadline (fetched : List (Nat × Nat × Nat))
  /-- PRESENT_TIME: the frame clock reaches the present time of the oldest frame past its deadline (R418). -/
  | presentTime
  /-- PUSH_PASS: the oldest push pass of a tile context runs (R337). -/
  | pushPass (ctx : Nat)
  /-- WALL_COMMIT: a go write of WALL_COMMIT_CTRL (R333). -/
  | wallCommit (m : Master) (layers : Bool)
  /-- PRESENT: the PRESENT packets of the oldest frame that owes them leave (R341, R358). -/
  | present
  /-- FENMAS_ENABLE: a write of FEN_CFG with enable 1 (R387). -/
  | fenmasEnable (m : Master) (v : Word)
  /-- BEACON: an Ethernet frame with a BEACON arrives on a logical port at an Anchor ns (R372). -/
  | beacon (port t : Nat) (frame : List Byte)
  /-- FORCE_LEAD: a write of FEN_BELAY_CTRL with force_lead (R378). -/
  | forceLead (m : Master)
  /-- FORCE_SECOND: a write of FEN_BELAY_CTRL with force_second (R378). -/
  | forceSecond (m : Master)
  /-- DIGEST: an Ethernet frame with a DIGEST arrives (R385). -/
  | digest (port t : Nat) (frame : List Byte)
  /-- JOURNAL: an Ethernet frame with a JOURNAL packet arrives (R383). -/
  | journal (port t : Nat) (frame : List Byte)
  /-- JOURNAL_SEND_TIMER: 10 µs after the oldest waiting entry, or after a packet with no new entry (R382). -/
  | journalSendTimer
  /-- CAL_SUBMIT: a go write of FEN_CAL_CTRL (R363). -/
  | calSubmit (m : Master) (v : Word)
  /-- ETHERNET_LINK_CHANGE: a logical Ethernet port goes up or down (R350). -/
  | ethernetLinkChange (port : Nat) (up : Bool)
  /-- RX_STREAM_ENABLE: a write of NET_RXr_CFG (R395). -/
  | rxStreamEnable (m : Master) (r : Nat) (v : Word)
  /-- TX_STREAM_ENABLE: a write of NET_TXt_CFG (R402). -/
  | txStreamEnable (m : Master) (t : Nat) (v : Word)
  /-- MEDIA_FRAME: an Ethernet frame arrives that neither Fenmas nor PTP takes (R394). -/
  | mediaFrame (port t : Nat) (frame : List Byte)
  /-- RX_FRAME_DEADLINE: the oldest open video frame of a receive stream reaches its deadline (R396). -/
  | rxFrameDeadline (r : Nat)
  /-- AU_DEADLINE: the oldest open access unit of a receive stream reaches its deadline (R295). -/
  | auDeadline (r : Nat)
  /-- AUDIO_BLOCK_DECISION: audio receive stream 56 + r decides its next block (R398). -/
  | audioBlockDecision (r : Nat)
  /-- TX_VIDEO_FRAME: the frame at NET input port 8 + v is sent (R399). -/
  | txVideoFrame (v : Nat)
  /-- TX_ACCESS_UNIT: the access unit at NET input port 16 + k is sent (R400). -/
  | txAccessUnit (k : Nat)
  /-- TX_AUDIO_PACKET: the next packet of audio send stream 72 + j leaves (R401). -/
  | txAudioPacket (j : Nat)
  /-- PTP_SYNC: an Ethernet frame with a Sync arrives on a logical port, at an Anchor ns and a fraction in 2^-16 ns (R413). -/
  | ptpSync (port t frac : Nat) (frame : List Byte)
  /-- PTP_FOLLOW_UP: an Ethernet frame with a Follow_Up arrives on a logical port, at an Anchor ns and a fraction in 2^-16 ns (R413). -/
  | ptpFollowUp (port t frac : Nat) (frame : List Byte)
  /-- PTP_DELAY_REQ: an Ethernet frame with a Delay_Req arrives on a logical port, at an Anchor ns and a fraction in 2^-16 ns (R413). -/
  | ptpDelayReq (port t frac : Nat) (frame : List Byte)
  /-- PTP_DELAY_RESP: an Ethernet frame with a Delay_Resp arrives on a logical port, at an Anchor ns and a fraction in 2^-16 ns (R413). -/
  | ptpDelayResp (port t frac : Nat) (frame : List Byte)
  /-- PTP_ANNOUNCE: an Ethernet frame with a Announce arrives on a logical port, at an Anchor ns and a fraction in 2^-16 ns (R413). -/
  | ptpAnnounce (port t frac : Nat) (frame : List Byte)
  /-- PTP_IGNORED_MESSAGE: an Ethernet frame with a PTP message that R413 ignores arrives on a logical port, at an Anchor ns and a fraction in 2^-16 ns (R413). -/
  | ptpIgnoredMessage (port t frac : Nat) (frame : List Byte)
  /-- PTP_SYNC_INTERVAL: the Sync interval of a port expires; the departure of the Sync in Anchor ns and 2^-16 ns (R416). -/
  | ptpSyncInterval (port t frac : Nat)
  /-- PTP_ANNOUNCE_INTERVAL: the Announce interval of a port expires (R413). -/
  | ptpAnnounceInterval (port t : Nat)
  /-- PTP_DELAY_REQ_INTERVAL: the Delay_Req interval of a port expires; the departure of the Delay_Req (R413). -/
  | ptpDelayReqInterval (port t frac : Nat)
  /-- PTP_SYNC_LOSS: no Sync for four Sync intervals (R411). -/
  | ptpSyncLoss
  /-- ANNOUNCE_RECEIPT_TIMEOUT: the announce receipt timeout of a port expires (R411). -/
  | announceReceiptTimeout (port : Nat)
  /-- PTP_CFG_WRITE: a write of the PTP register at 0x000F_0040 + 4 × reg, reg 0 to 6 (R433). -/
  | ptpCfgWrite (m : Master) (reg : Nat) (v : Word)
  /-- ANCHOR_SRC_WRITE: a write of ANCHOR_CTRL (R408). -/
  | anchorSrcWrite (m : Master) (v : Word)
  /-- ANCHOR_NS_READ: a read of ANCHOR_NS (R407). -/
  | anchorNsRead (m : Master)
  /-- PPS_EDGE: a rising edge of the PPS input, at an Anchor ns and a fraction in 2^-16 ns (R412). -/
  | ppsEdge (t frac : Nat)
  /-- PPS_LOSS: two expected PPS edges are missed (R411). -/
  | ppsLoss
  /-- REF10_LOSS: no 10 MHz edge for 1 µs (R411). -/
  | ref10Loss
  /-- REF10_RESTORE: the 10 MHz input has run for 1 s without a gap (R411). -/
  | ref10Restore
  /-- SET_TIME: a go write of ANCHOR_SET_CTRL (R410). -/
  | setTime (m : Master)
  /-- TSQ_POP: a read of ANCHOR_TSQp_ID (R434). -/
  | tsqPop (m : Master) (q : Nat)
  /-- TXI_GO: a go write of ANCHOR_TXI_CTRL (R417). -/
  | txiGo (m : Master) (v : Word)
  /-- TXI_SENT: the injected frame departs at an Anchor ns and a fraction in 2^-16 ns (R417). -/
  | txiSent (t frac : Nat)
  /-- TIMER_ENABLE: a write of ANCHOR_TMRt_CTRL (R419). -/
  | timerEnable (m : Master) (t : Nat) (v : Word)
  /-- TIMER_FIRE: a timer reaches its target (R419). -/
  | timerFire (t : Nat)
  /-- PULSE_END: the output pulse of a timer ends (R419). -/
  | pulseEnd (t : Nat)
  /-- SAMPLE_FRAME: a sample frame that started at an Anchor ns and a fraction in 2^-16 ns ends on a port: the BCLK periods from its frame start to the next one, and one more where the first data bit comes one BCLK after the FS edge (R421, R425). -/
  | sampleFrame (port t frac : Nat) (line : List SapPeriod)
  /-- CLOCK_LOST: no BCLK edge for 8 expected periods (R429). -/
  | clockLost (port : Nat)
  /-- RATE_WINDOW: 64 frames of a port took so long, in 2^-16 ns (R406, R430). -/
  | rateWindow (port dur : Nat)
  /-- GROUP_ENABLE: a write of AUD_GRPg_CFG with enable 1 (R423). -/
  | groupEnable (m : Master) (g : Nat) (v : Word)
  /-- GROUP_DISABLE: a write of AUD_GRPg_CFG with enable 0 (R437). -/
  | groupDisable (m : Master) (g : Nat) (v : Word)
  /-- GROUP_ORIGIN: Anchor time reaches G0 of a group (R424). -/
  | groupOrigin (g : Nat)
  /-- GROUP_BOUNDARY: the boundary instant of a group's next block (R426). -/
  | groupBoundary (g : Nat)
  /-- OUTPUT_BLOCK_LEAVE: the first frame of an output block leaves, with its frame start in Anchor time, in 2^-16 ns (R406, R428). -/
  | outputBlockLeave (g t : Nat)
  /-- STORE_ENABLE: a write of CLIP_STORE_CTRL with enable 1; what the slots hold, and the members that are lost on the way, by slot, with the step of R444, 6 or 7, at which each is. -/
  | storeEnable (m : Master) (v : Word) (ssds : List Ssd) (lost : List (Nat × Nat))
  /-- STORE_FORMAT: a write of CLIP_STORE_CTRL with format 1; what the slots hold, and the members that the enable after it loses, as in STORE_ENABLE (R444). -/
  | storeFormat (m : Master) (v : Word) (ssds : List Ssd) (lost : List (Nat × Nat))
  /-- STORE_DISABLE: a write of CLIP_STORE_CTRL with enable 0 (R465). -/
  | storeDisable (m : Master) (v : Word)
  /-- MEMBER_LOST: the SSD of a slot leaves its link or reports a fatal status (R444). -/
  | memberLost (slot : Nat)
  /-- CLIP_SQ_TAIL: a write of CLIP_Qq_SQ_TAIL (R445). -/
  | clipSqTail (m : Master) (q : Nat) (v : Word)
  /-- CLIP_CQ_HEAD: a write of CLIP_Qq_CQ_HEAD (R445). -/
  | clipCqHead (m : Master) (q : Nat) (v : Word)
  /-- WRITE: the command that the store takes next is a WRITE (R445). -/
  | write
  /-- READ: the command that the store takes next is a READ (R445). -/
  | read
  /-- FLUSH: the command that the store takes next is a FLUSH (R445). -/
  | flush
  /-- DEALLOCATE: the command that the store takes next is a DEALLOCATE (R445). -/
  | deallocate
  /-- IDENTIFY: the command that the store takes next is a IDENTIFY (R445). -/
  | identify
  /-- GET_LOG: the command that the store takes next is a GET_LOG (R445). -/
  | getLog
  /-- COMMAND_COMPLETE: the command at place k of those in progress, in taken order, finishes; the logical blocks that its members fail to read, each with its NVMe status (R449). -/
  | commandComplete (k : Nat) (errs : List (Nat × Nat))
  /-- STAGING_DRAIN: so many staged blocks are written to their members (R451). -/
  | stagingDrain (count : Nat)
  /-- DEFERRED_ERROR: the staged blocks of a range fail at their member, with its NVMe status (R455). -/
  | deferredError (lba count status : Nat)
  /-- CLIP_QUEUE_ENABLE: a write of CLIP_Qq_CTRL with enable 1 (R464). -/
  | clipQueueEnable (m : Master) (q : Nat) (v : Word)
  /-- CLIP_QUEUE_RESET: a write of CLIP_Qq_CTRL with reset 1 (R457). -/
  | clipQueueReset (m : Master) (q : Nat) (v : Word)
  /-- CS1_ENTRY: the idle time of CS0 has passed at an Anchor ns (R460). -/
  | cs1Entry (t : Nat)
  /-- CS2_ENTRY: the idle time of CS1 has passed at an Anchor ns (R460). -/
  | cs2Entry (t : Nat)
  /-- DRAM_REQUEST: a command slot of one subchannel: the requests that arrived since the last, the queued ids DRAM timing does not allow now, what the read finds, and the (bank, row) of the ACTIVATE it needs, if any (R474). -/
  | dramRequest (arrivals : List DramReq) (ch sub : Nat) (notAllowed : List Nat) (ecc : EccResult) (row : Option (Nat × Nat))
  /-- AGE_PROMOTION: a request has waited past its limit (R475). -/
  | agePromotion (ch id : Nat)
  /-- ECC_WRITE_BACK: a corrected line is written back (R480). -/
  | eccWriteBack (line : Nat)
  /-- REFRESH: the refresh interval of a channel ends (R477). -/
  | refresh (ch : Nat)
  /-- MR4_READ: the 1 ms MR4 read of a channel (R477). -/
  | mr4Read (ch : Nat) (hot : Bool)
  /-- TRACKER_CLEAR: every 32 ms (R478). -/
  | trackerClear
  /-- ZQ_CALIBRATION: every 128 ms (R473). -/
  | zqCalibration (ch : Nat)
  /-- DQS_DRIFT: every 100 ms (R473). -/
  | dqsDrift (ch : Nat)
  /-- SELF_REFRESH_ENTRY: a channel has been idle for idle_us (R479). -/
  | selfRefreshEntry (ch : Nat)
  /-- PATROL_SCRUB: one batch of 1 MiB of one channel: the lines that showed errors (R482). -/
  | patrolScrub (ch : Nat) (found : List (Nat × EccResult))
  /-- POOL_ACCESS: the requests that meet at one bank in one cycle (R484). -/
  | poolAccess (reqs : List PoolReq)
  /-- POOL_WRITE_BACK: a corrected pool word is written back (R483). -/
  | poolWriteBack (word : Nat)
  /-- MARCH_GO: a write of POOL_MARCH_CTRL with go (R488). -/
  | marchGo (m : Master) (v : Word)
  /-- MARCH_STOP: a write of POOL_MARCH_CTRL with stop (R488). -/
  | marchStop (m : Master) (v : Word)
  /-- MARCH_SEGMENT: the test of the oldest borrowed segment, or of a bank, ends: the rows that failed a comparison (R487, R489). -/
  | marchSegment (failRows : List Nat)
  /-- REPAIR_FUSE: a write of POOL_REPAIR_CTRL with fuse (R489). -/
  | repairFuse (m : Master) (v : Word)
  /-- REGION_ENABLE: a write of POOL_Mm_RGNr_BASE with enable 1 (R486). -/
  | regionEnable (m : Master) (mst rgn : Nat) (v : Word)
  /-- REGISTER_WRITE: a BAR0 write of one DWORD, with its byte enables (R498, R499). -/
  | registerWrite (m : Master) (off : Nat) (be : Nat) (v : Word)
  /-- COUNTER_READ: a BAR0 read of a register with RC fields (R19). -/
  | counterRead (m : Master) (off : Nat)
  /-- APERTURE_ACCESS: a BAR4 access of one function at an offset (R502). -/
  | apertureAccess (fn : Nat) (off : Nat) (acc : MemAccess)
  /-- CONFIG_REQUEST: a configuration read, or a write of a value (R494, R495). -/
  | configRequest (fn : Nat) (item : CfgItem) (write : Option Nat)
  /-- LINK_TRAINING: the host link trains to a speed code 1–5 and a width (R495). -/
  | linkTraining (speed width : Nat)
  /-- FUNCTION_LEVEL_RESET: an FLR of one function (R505). -/
  | functionLevelReset (fn : Nat)
  /-- D3HOT_EXIT: D3hot to D0 of one function (R505). -/
  | d3hotExit (fn : Nat)
  /-- MBOX_CLAIM: a claim write of MBOX_m_CLAIM (R510). -/
  | mboxClaim (m : Master) (mb : Nat)
  /-- MBOX_RELEASE: a release write of MBOX_m_CLAIM (R510). -/
  | mboxRelease (m : Master) (mb : Nat)
  /-- MBOX_SEND: a write of MBOX_m_CTRL with go (R511). -/
  | mboxSend (m : Master) (mb : Nat) (v : Word)
  /-- MBOX_WORD_READ: a read of MBOX_m_Wn (R511, R512). -/
  | mboxWordRead (m : Master) (mb n : Nat)
  /-- DOORBELL_RING: a write of MBOX_DB_RING_LO or _HI (R513). -/
  | doorbellRing (m : Master) (hi : Bool) (v : Word)
  /-- FWACT: a go write of MBOX_FWACT_CTRL (R515). -/
  | fwact (m : Master)
  /-- FW_READY: the new firmware reports ready, ms after step 1 (R516). -/
  | fwReady (ms : Nat)
  /-- FWACT_TAKING_RESUME: 50 ms after the hold began (R516 step 5). -/
  | fwactTakingResume
  /-- FWACT_FALLBACK: 500 ms without ready (R516 step 6). -/
  | fwactFallback
  /-- POWER_ON_DETECT: a rail falls below its threshold, or all three have been back for 10 ms (R523). -/
  | powerOnDetect (below : Bool)
  /-- PWR_OK: PWR_OK falls (and stays low lowNs), or rises (R525). -/
  | pwrOkBall (level : Bool) (lowNs : Nat)
  /-- SYS_RST_N: SYS_RST_N falls, or rises (R525). -/
  | sysRstN (level : Bool) (lowNs : Nat)
  /-- PCIE_PERST_N: PCIE_PERST_N falls, or rises (R526). -/
  | pciePerstN (level : Bool) (lowNs : Nat)
  /-- HOT_RESET: a hot reset or link-down on the host link begins or ends (R506). -/
  | hotReset (active : Bool)
  /-- WDT_KICK: a write of SYS_WDT_KICK (R527). -/
  | wdtKick (m : Master) (v : Word)
  /-- WDT_TIMEOUT: the watchdog expires (R527). -/
  | wdtTimeout
  /-- SOFTWARE_RESET: a go write of SYS_RST_CTRL (R528). -/
  | softwareReset (m : Master) (v : Word)
  /-- EPISODE_RELEASE: the last source releases (R530). -/
  | episodeRelease
  /-- ISLAND_RELEASE: CLK_GOOD of an island due for release has come, its gap has run and its release work is done (R533, R534), with what that work found outside the part. -/
  | islandRelease (island : Nat) (b : BootIn)
  /-- RELEASE_GAP: the SYS_RST_GAP count ends (R533). -/
  | releaseGap
  /-- RELEASE_STALL: CLK_GOOD does not come within 1 ms (R538). -/
  | releaseStall (island : Nat)
  /-- REF_LOST: a 2 µs gap in the 25 MHz reference (R541). -/
  | refLost
  /-- REF_RESUME: the reference has run 1 ms without a gap (R541). -/
  | refResume
  /-- REF_STOP: 100 ms without the reference (R541). -/
  | refStop
  /-- THERM_SAMPLE: the 1 ms sensor read, in °C (R549). -/
  | thermSample (diodes : List Int) (rings : List Int)
  /-- THERMAL_TRIP: a sensor reaches 125 °C (R551). -/
  | thermalTrip
  /-- FUSE_PULSE_END: a fuse programming pulse ends (R531). -/
  | fusePulseEnd
  /-- LC_ASCENT: a go write of SYS_LC_CTRL with to 1 (R543). -/
  | lcAscent (m : Master)
  /-- LC_RESCUE: a go write of SYS_LC_CTRL with to 2 (R544). -/
  | lcRescue (m : Master)
  /-- LC_DESCENT: a go write of SYS_LC_CTRL with to 3 (R543). -/
  | lcDescent (m : Master)
  /-- KEY_PROVISION: a go write of SYS_KEY_CTRL with op 1 (R546). -/
  | keyProvision (m : Master) (slot : Nat)
  /-- KEY_REVOKE: a go write of SYS_KEY_CTRL with op 2 (R546). -/
  | keyRevoke (m : Master) (slot : Nat)
  /-- CSK_EXPORT: a go write of SYS_CSK_CTRL with op 1 (R548). -/
  | cskExport (m : Master)
  /-- CSK_IMPORT: a go write of SYS_CSK_CTRL with op 2 (R548). -/
  | cskImport (m : Master)
  /-- EXTEST: JTAG EXTEST (R574). -/
  | extest (cells : List Bool) (pins : List Bool)
  /-- SAMPLE_PRELOAD: JTAG SAMPLE/PRELOAD (R574). -/
  | samplePreload (cells : List Bool) (pins : List Bool)
  /-- IDCODE: JTAG IDCODE (R574). -/
  | idcode
  /-- CLAMP: JTAG CLAMP (R574). -/
  | clamp
  /-- HIGHZ: JTAG HIGHZ (R574). -/
  | highz
  /-- BYPASS: JTAG BYPASS, one bit shifted (R574). -/
  | bypass (tdi : Bool)
  /-- TRST_N: TRST_N falls or rises (R574). -/
  | trstN (level : Bool)
  /-- SMB_SYS_ID: an SMBus Block Read (R575). -/
  | smbSysId
  /-- SMB_THERM_STATUS: an SMBus Block Read (R575). -/
  | smbThermStatus
  /-- SMB_STATUS: an SMBus Block Read (R575). -/
  | smbStatus
  /-- SMB_RST_CAUSE: an SMBus Block Read (R575). -/
  | smbRstCause
  /-- SMB_OTHER_COMMAND: any other SMBus command (R575). -/
  | smbOtherCommand (code : Nat)
  /-- BAD_HEAD_PACKET: a received packet, with whether its blocks are framed as R127 says (R131). -/
  | badHeadPacket (port t : Nat) (pkt : List Byte) (framed : Bool)
  /-- INVALID_FENMAS_PACKET: an Ethernet frame with an invalid Fenmas packet arrives (R353). -/
  | invalidFenmasPacket (port t : Nat) (frame : List Byte)
  /-- REFUSED_REGISTER_READ: a BAR0 read that meets R500 or R501. -/
  | refusedRegisterRead (m : Master) (off : Nat)
  /-- FWACT_HANDOVER: the old firmware has written its handover area (R516 step 2). -/
  | fwactHandover (area : List Byte)
deriving DecidableEq, Repr

end Sys2Proof
end

