-- ==== Sys2Proof/Decode.lean ====
section
/-! DEFINITION. Decoding of table words. The table of operations and events gives no row any bits, so that no word spells a
command. -/
namespace Sys2Proof

/-- The command that a word of `nbits` bits spells by the table: none, since no row has bits.
[assumption 1, DESIGN CHOICE] -/
def decodeTableWord (_nbits _w : Nat) : Option Instr := none

end Sys2Proof
end

