-- ==== Sys2Proof/Machine/Bits.lean ====
section
/-! DEFINITION. Bit fields, byte orders, signed values, rounding and saturation, and the cyclic redundancy checks that
several chapters share. -/
namespace Sys2Proof.Machine

/-- Bits `hi:lo` of a number (R4). -/
def bitsOf (n hi lo : Nat) : Nat := (n >>> lo) % 2 ^ (hi + 1 - lo)

/-- `n` with its bits `hi:lo` replaced by the low bits of `v`. -/
def putBits (n hi lo v : Nat) : Nat :=
  n - (bitsOf n hi lo <<< lo) + ((v % 2 ^ (hi + 1 - lo)) <<< lo)

/-- The two's-complement value of the low `w` bits of `n` (R8). -/
def signedOf (w n : Nat) : Int :=
  let m := n % 2 ^ w
  if m < 2 ^ (w - 1) then (m : Int) else (m : Int) - (2 ^ w : Nat)

/-- The low `w` bits of an integer. -/
def wrapTo (w : Nat) (x : Int) : Nat := (x % ((2 ^ w : Nat) : Int)).toNat

/-- Saturation to an unsigned `w`-bit range (R10). -/
def satU (w : Nat) (x : Int) : Nat := min x.toNat (2 ^ w - 1)

/-- Saturation to `[lo, hi]` (R10). -/
def clampI (lo hi x : Int) : Int := if x < lo then lo else if hi < x then hi else x

/-- Saturation of a natural number to `[lo, hi]`. -/
def clampN (lo hi x : Nat) : Nat := if x < lo then lo else if hi < x then hi else x

/-- Division by `2 ^ n` under the common rounding rule: add one half, then truncate towards minus infinity (R9). -/
def roundShift (n : Nat) (x : Int) : Int :=
  if n = 0 then x else (x + ((2 ^ (n - 1) : Nat) : Int)) / ((2 ^ n : Nat) : Int)

/-- The least whole number not below `a / b`. -/
def ceilDiv (a b : Nat) : Nat := (a + b - 1) / b

/-- Whether count `a` of width `w` is later than count `b` (R12). -/
def laterThan (w a b : Nat) : Bool :=
  let d := (a % 2 ^ w + 2 ^ w - b % 2 ^ w) % 2 ^ w
  decide (1 ≤ d) && decide (d < 2 ^ (w - 1))

/-- The latest of a set of counts, the members visited in the order of the list (R12). -/
def latestOf (w first : Nat) (rest : List Nat) : Nat :=
  rest.foldl (fun r x => if laterThan w x r then x else r) first

/-- The value of bytes, least significant first (R5). -/
def leNat : List Byte → Nat
  | [] => 0
  | b :: r => b.toNat + 256 * leNat r

/-- The value of bytes, most significant first (R6). -/
def beNat (l : List Byte) : Nat := l.foldl (fun n b => 256 * n + b.toNat) 0

/-- `k` bytes of a value, least significant first (R5). -/
def leBytes : Nat → Nat → List Byte
  | 0, _ => []
  | k + 1, n => BitVec.ofNat 8 n :: leBytes k (n / 256)

/-- `k` bytes of a value, most significant first (R6). -/
def beBytes (k n : Nat) : List Byte := (leBytes k n).reverse

/-- Bytes `a` to `a + n - 1` of a list. -/
def slice (l : List Byte) (a n : Nat) : List Byte := (l.drop a).take n

/-- The little-endian field of `n` bytes at byte `a` of a structure (R5). -/
def leAt (l : List Byte) (a n : Nat) : Nat := leNat (slice l a n)

/-- The big-endian field of `n` bytes at byte `a` of a packet (R6). -/
def beAt (l : List Byte) (a n : Nat) : Nat := beNat (slice l a n)

/-- Exclusive or of a list by another, byte by byte. -/
def xorBytes (a b : List Byte) : List Byte := List.zipWith (fun x y => x ^^^ y) a b

/-- `n` zero bytes. -/
def zeroBytes (n : Nat) : List Byte := List.replicate n 0

/-- A list cut or padded with zero bytes to `n` bytes. -/
def fitBytes (n : Nat) (l : List Byte) : List Byte := (l ++ zeroBytes n).take n

/-- `k` steps of a reflected cyclic redundancy check with the reflected polynomial `poly`. -/
def crcSteps (poly : Nat) : Nat → Nat → Nat
  | 0, r => r
  | k + 1, r => crcSteps poly k (if r % 2 = 1 then (r / 2) ^^^ poly else r / 2)

/-- One reflected check over bytes, from a register value. -/
def crcReflected (poly : Nat) (init : Nat) (l : List Byte) : Nat :=
  l.foldl (fun r b => crcSteps poly 8 (r ^^^ b.toNat)) init

/-- CRC-32C: polynomial 0x1EDC_6F41 reflected, initial value and final exclusive-or 0xFFFF_FFFF (R26). -/
def crc32c (l : List Byte) : Nat := crcReflected 0x82F63B78 0xFFFFFFFF l ^^^ 0xFFFFFFFF

/-- `k` steps of an unreflected check of width `w`. -/
def crcMsbSteps (w poly : Nat) : Nat → Nat → Nat
  | 0, r => r
  | k + 1, r =>
    crcMsbSteps w poly k
      (if r / 2 ^ (w - 1) = 1 then ((2 * r) % 2 ^ w) ^^^ poly else (2 * r) % 2 ^ w)

/-- One unreflected check of width `w` over bytes, from a register value. -/
def crcMsb (w poly init : Nat) (l : List Byte) : Nat :=
  l.foldl (fun r b => crcMsbSteps w poly 8 (r ^^^ (b.toNat <<< (w - 8)))) init

/-- The bits of a number, least significant first. -/
def bitsList : Nat → Nat → List Bool
  | 0, _ => []
  | k + 1, n => decide (n % 2 = 1) :: bitsList k (n / 2)

/-- The number that bits spell, least significant first. -/
def ofBits : List Bool → Nat
  | [] => 0
  | b :: r => (if b then 1 else 0) + 2 * ofBits r

end Sys2Proof.Machine
end

