-- ==== Sys2Proof/Machine/DevMath.lean ====
section
/-! DEFINITION. The arithmetic of the Developer, as functions of values alone: reflection, the raw front end (R176 to R181),
colour (R197 to R209), the enlargers (R216 to R218) and the output formats (R220 to R223). -/
namespace Sys2Proof.Machine

/-- The in-frame position that a position reads, reflected periodically (R168). -/
def reflect (n : Nat) (r : Int) : Nat :=
  let m := (r % ((2 * n - 2 : Nat) : Int)).toNat
  if m < n then m else 2 * n - 2 - m

/-- Lines of values, the first of them line `top`; columns and lines are read through the reflection of R168. -/
structure Window where
  top : Int
  width : Nat
  rows : Array (Array Int)

/-- A value of a window. -/
def Window.px (w : Window) (x y : Int) : Int := (w.rows.getD (y - w.top).toNat #[]).getD (reflect w.width x) 0

/-- The window of lines `lo` to `hi`, each computed at its reflected position. -/
def buildWindow (w h : Nat) (lo hi : Int) (f : Nat → Nat → Int) : Window :=
  ⟨lo, w, ((List.range (hi + 1 - lo).toNat).map (fun (i : Nat) =>
    let y := reflect h (lo + i)
    ((List.range w).map (fun x => f x y)).toArray)).toArray⟩

/-- The largest U4.20 value. -/
def max24 : Int := 0xFFFFFF

/-! ## The raw front end -/

/-- The phase of a photosite (R176): 0 for a monochrome layout. -/
def phaseOf (cfa x y : Nat) : Nat := if cfa = 4 then 0 else 2 * (y % 2) + x % 2

/-- The colour of a photosite: 0 red, 1 green, 2 blue (R137, R176); monochrome counts as green. -/
def colourAt (cfa x y : Nat) : Nat :=
  match cfa with
  | 0 => [0, 1, 1, 2].getD (phaseOf cfa x y) 1
  | 1 => [1, 0, 2, 1].getD (phaseOf cfa x y) 1
  | 2 => [1, 2, 0, 1].getD (phaseOf cfa x y) 1
  | 3 => [2, 1, 1, 0].getD (phaseOf cfa x y) 1
  | _ => 1

/-- The distance to neighbours of the same colour (R178). -/
def sameStep (cfa : Nat) : Int := if cfa = 4 then 1 else 2

/-- Insertion into an ascending list. -/
def insertUp (a : Int) : List Int → List Int
  | [] => [a]
  | b :: r => if a ≤ b then a :: b :: r else b :: insertUp a r

/-- A list in ascending order. -/
def sortUp (l : List Int) : List Int := l.foldl (fun acc a => insertUp a acc) []

/-- The largest and the smallest of a list of code values. -/
def maxOf (l : List Int) : Int := l.foldl max 0
@[inherit_doc maxOf] def minOf (l : List Int) : Int := l.foldl min 65535

/-- The replacement of a photosite (R179). -/
def replaceSite (raw : Window) (cfa x y : Nat) : Int :=
  let d := sameStep cfa
  let l := sortUp [raw.px (x - d) y, raw.px (x + d) y, raw.px x (y - d), raw.px x (y + d)]
  (l.getD 1 0 + l.getD 2 0 + 1) / 2

/-- The dynamic test of R178. -/
def dynamicDefect (raw : Window) (cfa x y : Nat) (hot cold : Int) : Bool :=
  let d := sameStep cfa
  let x' : Int := x
  let y' : Int := y
  let l := [raw.px (x' - d) y', raw.px (x' + d) y', raw.px x' (y' - d), raw.px x' (y' + d),
    raw.px (x' - d) (y' - d), raw.px (x' + d) (y' - d), raw.px (x' - d) (y' + d), raw.px (x' + d) (y' + d)]
  let p := raw.px x' y'
  decide (maxOf l + hot < p) || decide (p + cold < minOf l)

/-- Black level and normalisation (R180). -/
def normalise (p black norm : Int) : Int := clampI 0 max24 (((p - black) * norm + 8192) / 16384)

/-- Shading by the grid of R181; `knot k j i` is a U2.14 gain. -/
def shade (knot : Nat → Nat → Nat → Nat) (w h k x y : Nat) (v : Int) : Int :=
  let fx := x * 32 * 65536 / w
  let fy := y * 16 * 65536 / h
  let i := fx / 65536
  let a := fx % 65536
  let j := fy / 65536
  let b := fy % 65536
  let top := knot k j i * (65536 - a) + knot k j (i + 1) * a
  let bot := knot k (j + 1) i * (65536 - a) + knot k (j + 1) (i + 1) * a
  let g : Nat := (top * (65536 - b) + bot * b + 2 ^ 31) / 2 ^ 32
  min ((v * g + 8192) / 16384) max24

/-! ## Colour -/

/-- White balance (R197). -/
def balance (v gain : Int) : Int := min ((v * gain + 32768) / 65536) max24

/-- The green estimate at a red or blue site (R198). -/
def greenAt (p : Window) (x y : Int) : Int :=
  let c := p.px x y
  let gh := 2 * p.px (x - 1) y + 2 * p.px (x + 1) y + 2 * c - p.px (x - 2) y - p.px (x + 2) y
  let gv := 2 * p.px x (y - 1) + 2 * p.px x (y + 1) + 2 * c - p.px x (y - 2) - p.px x (y + 2)
  let dh := (p.px (x - 1) y - p.px (x + 1) y).natAbs + (2 * c - p.px (x - 2) y - p.px (x + 2) y).natAbs
  let dv := (p.px x (y - 1) - p.px x (y + 1)).natAbs + (2 * c - p.px x (y - 2) - p.px x (y + 2)).natAbs
  let g := if dh < dv then (gh + 2) / 4 else if dv < dh then (gv + 2) / 4 else (gh + gv + 4) / 8
  clampI 0 max24 g

/-- The output pixel at a position (R199, R200): `p` and the green plane `gr`. -/
def demosaicAt (cfa : Nat) (p gr : Window) (x y : Nat) : Int × Int × Int :=
  let xi : Int := x
  let yi : Int := y
  let v := p.px xi yi
  if cfa = 4 then (v, v, v)
  else
    let d := fun (u w : Int) => p.px u w - gr.px u w
    let g := gr.px xi yi
    let diag := clampI 0 max24 (g + (d (xi - 1) (yi - 1) + d (xi + 1) (yi - 1) + d (xi - 1) (yi + 1) + d (xi + 1) (yi + 1) + 2) / 4)
    let hor := clampI 0 max24 (g + (d (xi - 1) yi + d (xi + 1) yi + 1) / 2)
    let ver := clampI 0 max24 (g + (d xi (yi - 1) + d xi (yi + 1) + 1) / 2)
    match colourAt cfa x y with
    | 0 => (v, g, diag)
    | 2 => (diag, g, v)
    | _ => if colourAt cfa (x + 1) y = 0 then (hor, v, ver) else (ver, v, hor)

/-- One output of the colour matrix (R201). -/
def matrixOut (cr cg cb off : Int) (r g b : Int) : Int :=
  clampI 0 max24 ((cr * r + cg * g + cb * b + off * 65536 + 32768) / 65536)

/-- The place of the leading one of a value. -/
def leadingOne : Nat → Nat → Nat
  | 0, _ => 0
  | n + 1, v => if v < 2 then 0 else leadingOne n (v / 2) + 1

/-- The bin of a value (R187). -/
def binOf (v : Nat) : Nat :=
  if v = 0 then 0
  else
    let e := leadingOne 32 v
    let m := if e < 3 then (v * 2 ^ (3 - e)) % 8 else (v / 2 ^ (e - 3)) % 8
    8 * e + m

/-- The gain of dodge and burn at a pixel (R204). -/
def dodgeGain (prev cur : Nat → Nat) (nb s x y : Nat) : Nat :=
  let t := min (x - 32) (64 * (nb - 1))
  let bx := t / 64
  let f := t % 64
  let n := min (bx + 1) (nb - 1)
  let hp := prev bx * (64 - f) + prev n * f
  let hc := cur bx * (64 - f) + cur n * f
  let w := y - 64 * s + 1
  (hp * (64 - w) + hc * w + 2048) / 4096

/-- A component under a dodge and burn gain. -/
def applyDodge (v : Int) (g : Nat) : Int := min ((v * g + 2048) / 4096) max24

/-- A tone curve with points `t` (R206). -/
def toneCurve (t : Nat → Nat) (v : Nat) : Nat :=
  let ix := if v < 4096 then (v / 4, (v % 4) * 1024)
    else
      let e := leadingOne 32 v
      (1024 + 256 * (e - 12) + v / 2 ^ (e - 8) % 256, v * 4096 / 2 ^ (e - 8) % 4096)
  (t ix.1 * (4096 - ix.2) + t (ix.1 + 1) * ix.2 + 2048) / 4096

/-- The linear map that stands for a disabled tone stage (R207). -/
def toneLinear (v : Nat) : Nat := min ((v + 8) / 16) 65535

/-- The cube LUT at one pixel; `entry k r g b` is component k of an entry (R208). -/
def cubeLut (entry : Nat → Nat → Nat → Nat → Nat) (r g b : Nat) : Nat × Nat × Nat :=
  let cell := fun (v : Nat) => let u := v + v / 32768; (min (u / 2048) 31, u - 2048 * min (u / 2048) 31)
  let (ir, fr) := cell r
  let (ig, fg) := cell g
  let (ib, fb) := cell b
  let pick : (Nat × Nat × Nat) × (Nat × Nat × Nat) × (Nat × Nat × Nat) :=
    if fr ≥ fg ∧ fg ≥ fb then ((fr, fg, fb), (1, 0, 0), (1, 1, 0))
    else if fr ≥ fb ∧ fb > fg then ((fr, fb, fg), (1, 0, 0), (1, 0, 1))
    else if fb > fr ∧ fr ≥ fg then ((fb, fr, fg), (0, 0, 1), (1, 0, 1))
    else if fg > fr ∧ fr ≥ fb then ((fg, fr, fb), (0, 1, 0), (1, 1, 0))
    else if fg ≥ fb ∧ fb > fr then ((fg, fb, fr), (0, 1, 0), (0, 1, 1))
    else ((fb, fg, fr), (0, 0, 1), (0, 1, 1))
  let (f1, f2, f3) := pick.1
  let (ar, ag, ab) := pick.2.1
  let (br, bg, bb) := pick.2.2
  let out := fun k =>
    ((2048 - f1) * entry k ir ig ib + (f1 - f2) * entry k (ir + ar) (ig + ag) (ib + ab)
      + (f2 - f3) * entry k (ir + br) (ig + bg) (ib + bb) + f3 * entry k (ir + 1) (ig + 1) (ib + 1) + 1024) / 2048
  (out 0, out 1, out 2)

/-! ## Enlargers -/

/-- Position and phase of output index `j`: `n` input samples to `o` outputs (R218). -/
def scalePos (n o j : Nat) : Int × Nat :=
  let step := n * 65536 / o
  let sx : Int := (j * step + step / 2 : Nat) - (32768 : Int)
  (sx / 65536, (sx / 1024 % 64).toNat)

/-- The coefficient of a tap (R218); `table` holds the phases of a filter table, 8 signed words each. -/
def filterTap (filter : Nat) (table : Nat → Nat → Int) (q k : Nat) : Int :=
  match filter with
  | 0 => if (k = 3 ∧ q < 32) ∨ (k = 4 ∧ 32 ≤ q) then 1024 else 0
  | 1 => if k = 3 then 16 * (64 - (q : Int)) else if k = 4 then 16 * q else 0
  | _ => clampI (-2048) 2047 (table q k)

/-- One filtered sample before its clamp (R218): taps of `src` around a position. -/
def filterAt (coef : Nat → Int) (src : Nat → Int) (n : Nat) (ix : Int) : Int :=
  ((List.range 8).map (fun k => coef k * src (clampI 0 ((n : Int) - 1) (ix - 3 + k)).toNat)).sum

/-- The clamp of the horizontal stage, and of the vertical one (R218). -/
def filterH (v : Int) (sum : Int) : Int := clampI (-v) (2 * v - 1) ((sum + 512) / 1024)
@[inherit_doc filterH] def filterV (v : Int) (sum : Int) : Int := clampI 0 (v - 1) ((sum + 512) / 1024)

/-! ## Output formats -/

/-- A matrix row of R221. -/
def yccRow (r g b off : Int) (x y z : Int) : Int := clampI 0 65535 ((r * x + g * y + b * z + 32768) / 65536 + off)

/-- Y, Cb and Cr of a pixel by `matrix` 1 or 2 (R221). -/
def toYcc (matrix : Nat) (r g b : Int) : Int × Int × Int :=
  if matrix = 1 then
    (yccRow 13933 46871 4732 0 r g b, yccRow (-7509) (-25259) 32768 32768 r g b, yccRow 32768 (-29763) (-3005) 32768 r g b)
  else
    (yccRow 17216 44434 3886 0 r g b, yccRow (-9151) (-23617) 32768 32768 r g b, yccRow 32768 (-30133) (-2635) 32768 r g b)

/-- A U16 value quantised to `n` bits (R223). -/
def quantise (n : Nat) (narrow chroma : Bool) (v : Int) : Int :=
  if narrow then
    if chroma then ((v - 32768) * 224 * 2 ^ (n - 8) + 32768) / 65536 + 128 * 2 ^ (n - 8)
    else (v * 219 * 2 ^ (n - 8) + 32768) / 65536 + 16 * 2 ^ (n - 8)
  else if n = 16 then v
  else if chroma then ((v - 32768) * (2 ^ n - 1) + 32768) / 65536 + 2 ^ (n - 1)
  else (v * (2 ^ n - 1) + 32768) / 65536

/-- The bits of a format (R220). -/
def formatBits (fmt : Nat) : Nat :=
  match fmt with
  | 0 | 3 | 4 | 6 => 10
  | 1 | 5 => 12
  | 2 => 16
  | 7 => 8
  | _ => 24

/-- Horizontally subsampled chroma at an even column of a line (R222). -/
def subsample (c : Nat → Int) (n m : Nat) : Int :=
  (2 * c (2 * m) + c (2 * m - 1) + c (min (2 * m + 1) (n - 1)) + 2) / 4

end Sys2Proof.Machine
end

