-- ==== Sys2Proof/Config.lean ====
section
/-! DEFINITION. What an implementation fixes and what the spec leaves open, as constants without a body: no proof can see
their values, so every claim holds whatever they are. -/
namespace Sys2Proof

/-- A value the spec leaves open, one for each draw (assumption 2). [assumption 2, DESIGN CHOICE] -/
opaque Config.freeValue : Nat → Nat

/-- The part's transport public key, x then y, as SYS_XPUB reports it from fuses (R552). [assumption 2, DESIGN CHOICE] -/
opaque Config.transportKey : Nat

/-- The private scalar of the transport key. [assumption 2, DESIGN CHOICE] -/
opaque Config.transportSecret : Nat

/-- The 256-bit root key generated at manufacture and readable by nothing (R547). [assumption 2, DESIGN CHOICE] -/
opaque Config.rootKey : List Byte

/-- Plovold's manufacturing key in boot ROM, 96 bytes x then y (R542). [assumption 2, DESIGN CHOICE] -/
opaque Config.manufacturingKey : List Byte

/-- Plovold's rescue key in boot ROM, 96 bytes (R544). [assumption 2, DESIGN CHOICE] -/
opaque Config.rescueKey : List Byte

/-- The firmware-package format: what the boot ROM reads of a package (its key index, stepping range and whether its
signature verifies), which the spec does not lay out (R515). [assumption 12, DESIGN CHOICE] -/
opaque Config.packageKeyIndex : List Byte → Nat
/-- [assumption 12, DESIGN CHOICE] -/
opaque Config.packageSigned : List Byte → List Byte → Bool
/-- [assumption 12, DESIGN CHOICE] -/
opaque Config.packageStepMin : List Byte → Nat
/-- [assumption 12, DESIGN CHOICE] -/
opaque Config.packageStepMax : List Byte → Nat

/-- How the encoder codes a coding tree unit: as the decision model chose, or as R292 states for a fill row. -/
inductive CtuCode where
  /-- The partitioning, modes, vectors, coefficients and filter offsets that the decision model chose. -/
  | decided (choice : Nat)
  /-- SAO off, one 64 x 64 skipped coding unit with merge index 0. -/
  | skipped
  /-- SAO off, one 64 x 64 intra coding unit in DC mode, chroma derived from luma, every coded block flag 0. -/
  | intraDc
deriving DecidableEq, Repr

/-- The encoder decision model (R275), a document of its own: the choice for a coding tree unit of a row. Arguments: the
session's bank, what the previous pictures left, whether the picture is an IDR picture, the input lines so far, the rows
before with their QPs, the row's QP, and the unit's column. [assumption 33, DESIGN CHOICE] -/
opaque Config.encChoice : List Nat → Nat → Bool → List (List Nat) → List (Int × List CtuCode) → Int → Nat → Nat

/-- The entropy coding of H.265 (clause 9.3) of a row of coding tree units, with wavefronts: the rows before with their QPs,
the row's QP, its coding tree units. [assumption 33, PRESUMED] -/
opaque Config.encEntropy : List Nat → Nat → Bool → List (Int × List CtuCode) → Int → List CtuCode → List Byte

/-- The samples that a decoder gives for an encoded picture, plane by plane in raster order, by the decoding process of
H.265. [assumption 33, PRESUMED] -/
opaque Config.encRecon : List Nat → Nat → Bool → List (Int × List CtuCode) → List Nat

/-- What an encoded picture leaves for the next: its reference samples and motion. [assumption 33, PRESUMED] -/
opaque Config.encNext : List Nat → Nat → Bool → List (Int × List CtuCode) → Nat

/-- The bits of the syntax elements of parameter sets and slice headers that the table of R275 does not name, by their
place. Arguments: the session's bank, what the previous pictures left, whether the picture is an IDR picture, the place.
[assumption 33, DESIGN CHOICE] -/
opaque Config.encOpen : List Nat → Nat → Bool → Nat → List Bool

/-- The QP that the picture parameter set names, from which slice headers count `slice_qp_delta`.
[assumption 33, DESIGN CHOICE] -/
opaque Config.encInitQp : List Nat → Int

/-! The parsing and decoding processes of ITU-T H.265, which the spec cites and does not lay out. Each takes the decoding
context (the parameter sets and the counts that earlier access units left) and the NAL units that the decoder uses of the
access unit. -/

/-- What a parameter set says, after the units before it: 0 whether it parses with every value in its range, 1 and 2 the tile
columns and rows of a picture parameter set. [assumption 33, PRESUMED] -/
opaque Config.decParams : Nat → List (List Byte) → List Byte → Nat → Nat

/-- What an access unit says (`DecInfo` lists the questions). [assumption 33, PRESUMED] -/
opaque Config.decInfo : Nat → List (List Byte) → Nat → Nat

/-- `PicOrderCntVal`. [assumption 33, PRESUMED] -/
opaque Config.decPoc : Nat → List (List Byte) → Int

/-- What a slice segment says, by its number among the NAL units (`SegInfo` lists the questions). [assumption 33, PRESUMED] -/
opaque Config.decSegment : Nat → List (List Byte) → Nat → Nat → Nat

/-- Bits (question 0) and bins (question 1) of a coding tree unit of a slice segment. [assumption 33, PRESUMED] -/
opaque Config.decCtu : Nat → List (List Byte) → Nat → Nat → Nat → Nat

/-- The raster address of a coding tree block from its address in tile scan. [assumption 33, PRESUMED] -/
opaque Config.decScan : Nat → List (List Byte) → Nat → Nat

/-- The picture order counts of the short-term and of the long-term reference picture set. [assumption 33, PRESUMED] -/
opaque Config.decRefs : Nat → List (List Byte) → List Int × List Int

/-- The samples before the loop filters, plane by plane in raster order, from the reference pictures and their samples, with
every coding tool that the profiles of R273 permit (R274). [assumption 33, PRESUMED] -/
opaque Config.decSamples : Nat → List (List Byte) → List (Int × List Nat) → List Nat

/-- The samples after deblocking and SAO, which leave out the inside of the listed coding tree units and the edges that they
share with others (R302). [assumption 33, PRESUMED] -/
opaque Config.decFilter : Nat → List (List Byte) → List Nat → List Nat → List Nat

/-- The decoding context after an access unit that gave these samples. [assumption 33, PRESUMED] -/
opaque Config.decNext : Nat → List (List Byte) → List Nat → Nat

/-- The activates of a bank after which the mode registers of the DDR5 devices require a Refresh Management command, 0 when
they require none (R478, JESD79-5). [assumption 54, PRESUMED] -/
opaque Config.rfmLimit : Nat

/-- By how much one all-bank refresh lowers the rolling activates of a bank (R478, JESD79-5). [assumption 54, PRESUMED] -/
opaque Config.rfmPerRefresh : Nat

end Sys2Proof
end

