-- ==== Sys2Proof/Machine/Fields.lean ====
section
/-! DEFINITION. Names of the register offsets (R.) and of their fields (F.), written from the same register tables. -/
namespace Sys2Proof.Machine

/-- A field of one register: the register's BAR0 offset and the field's bits `hi:lo`. -/
structure Fld where
  off : Nat
  hi : Nat
  lo : Nat
deriving DecidableEq, Repr

namespace R
def SYS_ID : Nat := 0x0
def SYS_STRAP : Nat := 0x4
def SYS_STATUS : Nat := 0x8
def SYS_RST_CTRL : Nat := 0x10
def SYS_RST_STATUS : Nat := 0x14
def SYS_RST_CAUSE : Nat := 0x18
def SYS_RST_COUNT : Nat := 0x1c
def SYS_PERST_CFG : Nat := 0x20
def SYS_RST_GAP : Nat := 0x24
def SYS_WDT_CTRL : Nat := 0x30
def SYS_WDT_KICK : Nat := 0x34
def SYS_EVT : Nat := 0x40
def SYS_EVT_MASK : Nat := 0x44
def SYS_THERM_CFG : Nat := 0x50
def SYS_THERM_STATUS : Nat := 0x54
def SYS_THERM_D (i : Nat) : Nat := 0x60 + 0x4 * i
def SYS_THERM_R (i : Nat) : Nat := 0xa0 + 0x4 * i
def SYS_LC_STATE : Nat := 0xc0
def SYS_LC_CTRL : Nat := 0xc4
def SYS_LC_CONFIRM : Nat := 0xc8
def SYS_LC_STATUS : Nat := 0xcc
def SYS_LC_SRC : Nat := 0xd0
def SYS_LC_NONCE (i : Nat) : Nat := 0xe0 + 0x4 * i
def SYS_KEY_STATE : Nat := 0x100
def SYS_KEY_CTRL : Nat := 0x104
def SYS_KEY_SRC : Nat := 0x108
def SYS_CSK_CTRL : Nat := 0x110
def SYS_CSK_SRC : Nat := 0x114
def SYS_CSK_DST : Nat := 0x118
def SYS_CSK_EPOCH : Nat := 0x11c
def SYS_XPUB (i : Nat) : Nat := 0x140 + 0x4 * i
def RIG_STATUS : Nat := 0x10000
def RIG_ACTIVE_CLASS_LO : Nat := 0x10004
def RIG_ACTIVE_CLASS_HI : Nat := 0x10008
def RIG_SLOT_STATE : Nat := 0x1000c
def RIG_LOAD_SRC : Nat := 0x10010
def RIG_LOAD_LEN : Nat := 0x10014
def RIG_LOAD_CTRL : Nat := 0x10018
def RIG_LOAD_STATUS : Nat := 0x1001c
def RIG_LOAD_ERR_OFS : Nat := 0x10020
def RIG_BOOT_SEL : Nat := 0x10024
def RIG_CHANGE_FRAME : Nat := 0x10030
def RIG_CHANGE_CTRL : Nat := 0x10034
def RIG_CHANGE_STATUS : Nat := 0x10038
def RIG_CLAIM_CTRL : Nat := 0x10040
def RIG_CLAIM_STATUS : Nat := 0x10044
def RIG_STRAND_FLUSH : Nat := 0x10048
def RIG_CAL_POS (i : Nat) : Nat := 0x10050 + 0x4 * i
def RIG_ISL_STATE0 : Nat := 0x10100
def RIG_ISL_STATE (i : Nat) : Nat := 0x10104 + 0x4 * i
def RIG_JNL_CTRL : Nat := 0x18000
def RIG_JNL_STATUS : Nat := 0x18004
def RIG_JNL_BASE_LO : Nat := 0x18008
def RIG_JNL_BASE_HI : Nat := 0x1800c
def RIG_JNL_SIZE : Nat := 0x18010
def RIG_JNL_WR_SEQ : Nat := 0x18014
def RIG_JNL_RING_DROP : Nat := 0x18018
def RIG_JNL_HOLD_US : Nat := 0x1801c
def RIG_JNL_OVERRIDES : Nat := 0x18020
def RIG_JNL_CRC_BAD : Nat := 0x18024
def RIG_JNL_SRC_SEQ : Nat := 0x18028
def RIG_JNL_INJ (i : Nat) : Nat := 0x18080 + 0x4 * i
def RIG_DIG_SEL : Nat := 0x18100
def RIG_DIG_FRAME : Nat := 0x18104
def RIG_DIG_LO : Nat := 0x18108
def RIG_DIG_HI : Nat := 0x1810c
def RIG_DIG_FLAGS : Nat := 0x18110
def HEAD_CFG (i : Nat) : Nat := 0x20000 + 0x400 * i
def HEAD_STATE (i : Nat) : Nat := 0x20004 + 0x400 * i
def HEAD_ERR (i : Nat) : Nat := 0x20008 + 0x400 * i
def HEAD_HCRC_BAD (i : Nat) : Nat := 0x20010 + 0x400 * i
def HEAD_PCRC_BAD (i : Nat) : Nat := 0x20014 + 0x400 * i
def HEAD_FRAMING (i : Nat) : Nat := 0x20018 + 0x400 * i
def HEAD_LEN_BAD (i : Nat) : Nat := 0x2001c + 0x400 * i
def HEAD_LATE_DROP (i : Nat) : Nat := 0x20020 + 0x400 * i
def HEAD_LOCK_LOSS (i : Nat) : Nat := 0x20024 + 0x400 * i
def HEAD_TRAIN_FAIL (i : Nat) : Nat := 0x20028 + 0x400 * i
def HEAD_SOF_ADJ (i : Nat) : Nat := 0x20030 + 0x400 * i
def HEAD_CAP (i : Nat) (j : Nat) : Nat := 0x20100 + 0x400 * i + 0x4 * j
def HEAD_VS_MAP (i : Nat) (j : Nat) : Nat := 0x20200 + 0x400 * i + 0x40 * j
def HEAD_VS_STATUS (i : Nat) (j : Nat) : Nat := 0x20204 + 0x400 * i + 0x40 * j
def HEAD_VS_FRAME (i : Nat) (j : Nat) : Nat := 0x20208 + 0x400 * i + 0x40 * j
def HEAD_VS_EXP_NS (i : Nat) (j : Nat) : Nat := 0x20210 + 0x400 * i + 0x40 * j
def HEAD_VS_EXP_GAIN (i : Nat) (j : Nat) : Nat := 0x20214 + 0x400 * i + 0x40 * j
def HEAD_VS_EXP_PARAM0 (i : Nat) (j : Nat) : Nat := 0x20218 + 0x400 * i + 0x40 * j
def HEAD_VS_EXP_PARAM1 (i : Nat) (j : Nat) : Nat := 0x2021c + 0x400 * i + 0x40 * j
def HEAD_VS_EXP_CTRL (i : Nat) (j : Nat) : Nat := 0x20220 + 0x400 * i + 0x40 * j
def HEAD_VS_EXP_STATUS (i : Nat) (j : Nat) : Nat := 0x20224 + 0x400 * i + 0x40 * j
def DEV_EVT : Nat := 0x40000
def DEV_EVT_MASK : Nat := 0x40004
def DEV_CTX_CTRL (i : Nat) : Nat := 0x50000 + 0x1000 * i
def DEV_CTX_STATUS (i : Nat) : Nat := 0x50004 + 0x1000 * i
def DEV_CTX_GEN (i : Nat) : Nat := 0x50008 + 0x1000 * i
def DEV_CTX_GEN_PEND (i : Nat) : Nat := 0x5000c + 0x1000 * i
def DEV_CTX_SIZE (i : Nat) : Nat := 0x50010 + 0x1000 * i
def DEV_CTX_FMT (i : Nat) : Nat := 0x50014 + 0x1000 * i
def DEV_CTX_PAD (i : Nat) : Nat := 0x50018 + 0x1000 * i
def DEV_CTX_BLACK (i : Nat) (j : Nat) : Nat := 0x50020 + 0x1000 * i + 0x4 * j
def DEV_CTX_NORM (i : Nat) (j : Nat) : Nat := 0x50030 + 0x1000 * i + 0x4 * j
def DEV_CTX_DPC_CTRL (i : Nat) : Nat := 0x50040 + 0x1000 * i
def DEV_CTX_DPC_THR (i : Nat) : Nat := 0x50044 + 0x1000 * i
def DEV_CTX_DPC_MAP_LO (i : Nat) : Nat := 0x50048 + 0x1000 * i
def DEV_CTX_DPC_MAP_HI (i : Nat) : Nat := 0x5004c + 0x1000 * i
def DEV_CTX_DPC_MAP_COUNT (i : Nat) : Nat := 0x50050 + 0x1000 * i
def DEV_CTX_SHD_CTRL (i : Nat) : Nat := 0x50060 + 0x1000 * i
def DEV_CTX_SHD_LO (i : Nat) : Nat := 0x50064 + 0x1000 * i
def DEV_CTX_SHD_HI (i : Nat) : Nat := 0x50068 + 0x1000 * i
def DEV_CTX_STAT_CTRL (i : Nat) : Nat := 0x50080 + 0x1000 * i
def DEV_CTX_STAT_LO (i : Nat) : Nat := 0x50084 + 0x1000 * i
def DEV_CTX_STAT_HI (i : Nat) : Nat := 0x50088 + 0x1000 * i
def DEV_CTX_STAT_SEQ (i : Nat) : Nat := 0x50090 + 0x1000 * i
def DEV_CTX_LAST (i : Nat) : Nat := 0x50094 + 0x1000 * i
def DEV_CTX_DPC_IGNORED (i : Nat) : Nat := 0x50098 + 0x1000 * i
def DEV_CTX_TRUNC_COUNT (i : Nat) : Nat := 0x5009c + 0x1000 * i
def DEV_CTX_WB_GAIN (i : Nat) (j : Nat) : Nat := 0x50100 + 0x1000 * i + 0x4 * j
def DEV_CTX_CM_DIAG (i : Nat) (j : Nat) : Nat := 0x50110 + 0x1000 * i + 0x10 * j
def DEV_CTX_CM_RG_RB_GR (i : Nat) (j : Nat) : Nat := 0x50114 + 0x1000 * i + 0x4 * j
def DEV_CTX_CM_GB_BR_BG (i : Nat) (j : Nat) : Nat := 0x50124 + 0x1000 * i + 0x4 * j
def DEV_CTX_CM_OFF (i : Nat) (j : Nat) : Nat := 0x50140 + 0x1000 * i + 0x4 * j
def DEV_CTX_DB_CTRL (i : Nat) : Nat := 0x50150 + 0x1000 * i
def DEV_CTX_DB_LO (i : Nat) : Nat := 0x50154 + 0x1000 * i
def DEV_CTX_DB_HI (i : Nat) : Nat := 0x50158 + 0x1000 * i
def DEV_CTX_TONE_CTRL (i : Nat) : Nat := 0x50160 + 0x1000 * i
def DEV_CTX_TONE_LO (i : Nat) : Nat := 0x50164 + 0x1000 * i
def DEV_CTX_TONE_HI (i : Nat) : Nat := 0x50168 + 0x1000 * i
def DEV_CTX_LUT_CTRL (i : Nat) : Nat := 0x50170 + 0x1000 * i
def DEV_CTX_LUT_LO (i : Nat) : Nat := 0x50174 + 0x1000 * i
def DEV_CTX_LUT_HI (i : Nat) : Nat := 0x50178 + 0x1000 * i
def DEV_CTX_RAW_TAP (i : Nat) : Nat := 0x50180 + 0x1000 * i
def DEV_REFUSE_DETAIL (i : Nat) : Nat := 0x40100 + 0x4 * i
def DEV_OS_CTRL (i : Nat) : Nat := 0x41000 + 0x100 * i
def DEV_OS_CROP_XY (i : Nat) : Nat := 0x41004 + 0x100 * i
def DEV_OS_CROP_WH (i : Nat) : Nat := 0x41008 + 0x100 * i
def DEV_OS_OUT_WH (i : Nat) : Nat := 0x4100c + 0x100 * i
def DEV_OS_FMT (i : Nat) : Nat := 0x41010 + 0x100 * i
def DEV_OS_BASE_LO (i : Nat) : Nat := 0x4101c + 0x100 * i
def DEV_OS_BASE_HI (i : Nat) : Nat := 0x41020 + 0x100 * i
def DEV_OS_PITCH (i : Nat) : Nat := 0x41024 + 0x100 * i
def DEV_OS_BUF (i : Nat) : Nat := 0x41028 + 0x100 * i
def DEV_OS_STRIDE (i : Nat) : Nat := 0x4102c + 0x100 * i
def DEV_OS_STATUS (i : Nat) : Nat := 0x41040 + 0x100 * i
def DEV_OS_FILT_LO (i : Nat) : Nat := 0x41014 + 0x100 * i
def DEV_OS_FILT_HI (i : Nat) : Nat := 0x41018 + 0x100 * i
def DEV_OS_GEN (i : Nat) : Nat := 0x41044 + 0x100 * i
def DEV_OS_UNWIRED (i : Nat) : Nat := 0x41048 + 0x100 * i
def RAWC_EVT : Nat := 0x80000
def RAWC_EVT_MASK : Nat := 0x80004
def RAWC_CBLK : Nat := 0x80008
def RAWC_DBLK : Nat := 0x8000c
def RAWC_Q_CTRL (i : Nat) : Nat := 0x81000 + 0x80 * i
def RAWC_Q_STATUS (i : Nat) : Nat := 0x81004 + 0x80 * i
def RAWC_Q_SQ_LO (i : Nat) : Nat := 0x81008 + 0x80 * i
def RAWC_Q_SQ_HI (i : Nat) : Nat := 0x8100c + 0x80 * i
def RAWC_Q_CQ_LO (i : Nat) : Nat := 0x81010 + 0x80 * i
def RAWC_Q_CQ_HI (i : Nat) : Nat := 0x81014 + 0x80 * i
def RAWC_Q_SIZE (i : Nat) : Nat := 0x81018 + 0x80 * i
def RAWC_Q_SLOT_LO (i : Nat) : Nat := 0x81030 + 0x80 * i
def RAWC_Q_SLOT_HI (i : Nat) : Nat := 0x81034 + 0x80 * i
def RAWC_Q_SLOT_SIZE (i : Nat) : Nat := 0x81038 + 0x80 * i
def RAWC_Q_SLOT_COUNT (i : Nat) : Nat := 0x8103c + 0x80 * i
def RAWC_Q_SQ_TAIL (i : Nat) : Nat := 0x8101c + 0x80 * i
def RAWC_Q_SQ_HEAD (i : Nat) : Nat := 0x81020 + 0x80 * i
def RAWC_Q_CQ_HEAD (i : Nat) : Nat := 0x81024 + 0x80 * i
def RAWC_Q_CQ_TAIL (i : Nat) : Nat := 0x81028 + 0x80 * i
def RAWC_Q_DROPPED (i : Nat) : Nat := 0x8102c + 0x80 * i
def RAWC_Q_JOBS (i : Nat) : Nat := 0x81040 + 0x80 * i
def RAWC_Q_FAILED (i : Nat) : Nat := 0x81044 + 0x80 * i
def RAWC_Q_DAMAGED (i : Nat) : Nat := 0x81048 + 0x80 * i
def RAWC_Q_IGNORED (i : Nat) : Nat := 0x81050 + 0x80 * i
def RAWC_Q_NEXT_SEQ (i : Nat) : Nat := 0x8104c + 0x80 * i
def HEVC_EVT (i : Nat) : Nat := 0xa0000 + 0x4 * i
def HEVC_EVT_MASK (i : Nat) : Nat := 0xa0008 + 0x4 * i
def HEVC_PREEMPT : Nat := 0xa0010
def HEVC_POOL_BASE_LO : Nat := 0xa0020
def HEVC_POOL_BASE_HI : Nat := 0xa0024
def HEVC_POOL_BUF_SIZE : Nat := 0xa0028
def HEVC_POOL_COUNT : Nat := 0xa002c
def HEVC_POOL_CTRL : Nat := 0xa0030
def HEVC_POOL_STATUS : Nat := 0xa0034
def HEVC_POOL_MARK (i : Nat) : Nat := 0xa0800 + 0x4 * i
def HEVC_SES_CTRL (i : Nat) : Nat := 0xa1000 + 0x100 * i
def HEVC_SES_STATUS (i : Nat) : Nat := 0xa1004 + 0x100 * i
def HEVC_SES_GEN (i : Nat) : Nat := 0xa1008 + 0x100 * i
def HEVC_SES_GEN_PEND (i : Nat) : Nat := 0xa100c + 0x100 * i
def HEVC_SES_QUOTA (i : Nat) : Nat := 0xa1010 + 0x100 * i
def HEVC_SES_PRIO (i : Nat) : Nat := 0xa1014 + 0x100 * i
def HEVC_SES_HELD (i : Nat) : Nat := 0xa1018 + 0x100 * i
def HEVC_SES_SIZE (i : Nat) : Nat := 0xa1020 + 0x100 * i
def HEVC_SES_MODE (i : Nat) : Nat := 0xa1024 + 0x100 * i
def HEVC_SES_GOP (i : Nat) : Nat := 0xa1028 + 0x100 * i
def HEVC_SES_RC (i : Nat) : Nat := 0xa102c + 0x100 * i
def HEVC_SES_CAP (i : Nat) : Nat := 0xa1030 + 0x100 * i
def HEVC_SES_VUI (i : Nat) : Nat := 0xa1034 + 0x100 * i
def HEVC_SES_BS_LO (i : Nat) : Nat := 0xa1038 + 0x100 * i
def HEVC_SES_BS_HI (i : Nat) : Nat := 0xa103c + 0x100 * i
def HEVC_SES_BS_SIZE (i : Nat) : Nat := 0xa1040 + 0x100 * i
def HEVC_SES_OUT_LO (i : Nat) : Nat := 0xa1044 + 0x100 * i
def HEVC_SES_OUT_HI (i : Nat) : Nat := 0xa1048 + 0x100 * i
def HEVC_SES_OUT_PITCH (i : Nat) : Nat := 0xa104c + 0x100 * i
def HEVC_SES_OUT_BUF (i : Nat) : Nat := 0xa1050 + 0x100 * i
def HEVC_SES_OUT_STRIDE (i : Nat) : Nat := 0xa1054 + 0x100 * i
def HEVC_SES_SQ_LO (i : Nat) : Nat := 0xa1080 + 0x100 * i
def HEVC_SES_SQ_HI (i : Nat) : Nat := 0xa1084 + 0x100 * i
def HEVC_SES_CQ_LO (i : Nat) : Nat := 0xa1088 + 0x100 * i
def HEVC_SES_CQ_HI (i : Nat) : Nat := 0xa108c + 0x100 * i
def HEVC_SES_RING_SIZE (i : Nat) : Nat := 0xa1090 + 0x100 * i
def HEVC_SES_SQ_TAIL (i : Nat) : Nat := 0xa1094 + 0x100 * i
def HEVC_SES_SQ_HEAD (i : Nat) : Nat := 0xa1098 + 0x100 * i
def HEVC_SES_NEXT_SEQ (i : Nat) : Nat := 0xa109c + 0x100 * i
def HEVC_SES_DROPPED (i : Nat) : Nat := 0xa10a0 + 0x100 * i
def HEVC_SES_DISCARDED (i : Nat) : Nat := 0xa10a4 + 0x100 * i
def HEVC_SES_CONCEALED (i : Nat) : Nat := 0xa10a8 + 0x100 * i
def HEVC_SES_SEI_BAD (i : Nat) : Nat := 0xa10ac + 0x100 * i
def HEVC_SES_PKT_DROP (i : Nat) : Nat := 0xa10b0 + 0x100 * i
def HEVC_SES_EPB (i : Nat) : Nat := 0xa10b4 + 0x100 * i
def WALL_CTRL : Nat := 0xc0000
def WALL_STATUS : Nat := 0xc0004
def WALL_FRAME : Nat := 0xc0008
def WALL_MODE_RATE : Nat := 0xc0010
def WALL_MODE_PHASE : Nat := 0xc0014
def WALL_MODE_LEAD : Nat := 0xc0018
def WALL_MODE_CTRL : Nat := 0xc001c
def WALL_MODE_STATUS : Nat := 0xc0020
def WALL_MODE_ORG_FRAME : Nat := 0xc0024
def WALL_MODE_ORG_SEC (i : Nat) : Nat := 0xc0028 + 0x4 * i
def WALL_MODE_GEN : Nat := 0xc0030
def WALL_REFRESH : Nat := 0xc0034
def WALL_COMMIT_RANGE : Nat := 0xc0040
def WALL_COMMIT_CTRL : Nat := 0xc0044
def WALL_COMMIT_STATUS : Nat := 0xc0048
def WALL_HASH_LO : Nat := 0xc0050
def WALL_HASH_HI : Nat := 0xc0054
def WALL_SEAM_LO : Nat := 0xc0058
def WALL_SEAM_HI : Nat := 0xc005c
def WALL_LUT_LO : Nat := 0xc0060
def WALL_LUT_HI : Nat := 0xc0064
def WALL_DECODE_LO : Nat := 0xc0068
def WALL_DECODE_HI : Nat := 0xc006c
def WALL_UNDERRUN : Nat := 0xc0070
def WALL_PUSHED : Nat := 0xc0074
def WALL_PRINT_BAD : Nat := 0xc0078
def WALL_SURF_CFG (i : Nat) : Nat := 0xc1000 + 0x40 * i
def WALL_SURF_SIZE (i : Nat) : Nat := 0xc1004 + 0x40 * i
def WALL_SURF_BASE_LO (i : Nat) : Nat := 0xc1008 + 0x40 * i
def WALL_SURF_BASE_HI (i : Nat) : Nat := 0xc100c + 0x40 * i
def WALL_SURF_PITCH (i : Nat) : Nat := 0xc1010 + 0x40 * i
def WALL_SURF_STRIDE (i : Nat) : Nat := 0xc1014 + 0x40 * i
def WALL_SURF_BUF (i : Nat) : Nat := 0xc1018 + 0x40 * i
def WALL_SURF_HDR_LO (i : Nat) : Nat := 0xc101c + 0x40 * i
def WALL_SURF_HDR_HI (i : Nat) : Nat := 0xc1020 + 0x40 * i
def WALL_SURF_COMMIT (i : Nat) : Nat := 0xc1024 + 0x40 * i
def WALL_SURF_AVAIL (i : Nat) : Nat := 0xc1028 + 0x40 * i
def WALL_SURF_BOUND (i : Nat) : Nat := 0xc102c + 0x40 * i
def WALL_SURF_STATUS (i : Nat) : Nat := 0xc1030 + 0x40 * i
def WALL_LAYER_CTRL (i : Nat) : Nat := 0xc8000 + 0x10 * i
def WALL_LAYER_SRC (i : Nat) : Nat := 0xc8004 + 0x10 * i
def WALL_LAYER_DST (i : Nat) : Nat := 0xc8008 + 0x10 * i
def WALL_LAYER_SIZE (i : Nat) : Nat := 0xc800c + 0x10 * i
def WALL_TCTX_CTRL (i : Nat) : Nat := 0x400000 + 0x80 * i
def WALL_TCTX_ID (i : Nat) : Nat := 0x400004 + 0x80 * i
def WALL_TCTX_XY (i : Nat) : Nat := 0x400008 + 0x80 * i
def WALL_TCTX_WH (i : Nat) : Nat := 0x40000c + 0x80 * i
def WALL_TCTX_KM (i : Nat) (j : Nat) : Nat := 0x400010 + 0x80 * i + 0x4 * j
def WALL_TCTX_BG0 (i : Nat) : Nat := 0x400034 + 0x80 * i
def WALL_TCTX_BG1 (i : Nat) : Nat := 0x400038 + 0x80 * i
def WALL_TCTX_RSV (i : Nat) (j : Nat) : Nat := 0x40003c + 0x80 * i + 0x4 * j
def WALL_TCTX_GEN (i : Nat) : Nat := 0x400060 + 0x80 * i
def WALL_TCTX_LAST (i : Nat) : Nat := 0x400064 + 0x80 * i
def WALL_TCTX_PUSHED (i : Nat) : Nat := 0x400068 + 0x80 * i
def WALL_TCTX_RSV2 (i : Nat) : Nat := 0x40006c + 0x80 * i
def WALL_TCTX_REPUSH (i : Nat) (j : Nat) : Nat := 0x400070 + 0x80 * i + 0x4 * j
def WALL_TCTX_RSV3 (i : Nat) (j : Nat) : Nat := 0x400078 + 0x80 * i + 0x4 * j
def NET_PHY_CFG (i : Nat) : Nat := 0xe0000 + 0x4 * i
def NET_IP (i : Nat) : Nat := 0xe1000 + 0x4 * i
def NET_RX_UNMATCHED : Nat := 0xe1020
def NET_RX_FRAG : Nat := 0xe1024
def NET_RX_CFG (i : Nat) : Nat := 0xe2000 + 0x40 * i
def NET_RX_DST_IP (i : Nat) : Nat := 0xe2004 + 0x40 * i
def NET_RX_SRC_IP (i : Nat) : Nat := 0xe2008 + 0x40 * i
def NET_RX_MEDIA (i : Nat) : Nat := 0xe200c + 0x40 * i
def NET_RX_BUF_LO (i : Nat) : Nat := 0xe2010 + 0x40 * i
def NET_RX_BUF_HI (i : Nat) : Nat := 0xe2014 + 0x40 * i
def NET_RX_BUF_SIZE (i : Nat) : Nat := 0xe2018 + 0x40 * i
def NET_RX_PKTS (i : Nat) : Nat := 0xe2020 + 0x40 * i
def NET_RX_DROP (i : Nat) : Nat := 0xe2024 + 0x40 * i
def NET_RX_CUT (i : Nat) : Nat := 0xe2028 + 0x40 * i
def NET_RX_STATUS (i : Nat) : Nat := 0xe202c + 0x40 * i
def NET_TX_CFG (i : Nat) : Nat := 0xe4000 + 0x40 * i
def NET_TX_DST_IP (i : Nat) : Nat := 0xe4004 + 0x40 * i
def NET_TX_DST_MAC_LO (i : Nat) : Nat := 0xe4008 + 0x40 * i
def NET_TX_DST_MAC_HI (i : Nat) : Nat := 0xe400c + 0x40 * i
def NET_TX_SSRC (i : Nat) : Nat := 0xe4010 + 0x40 * i
def NET_TX_MEDIA_V (i : Nat) : Nat := 0xe4014 + 0x40 * i
def NET_TX_MEDIA_H (i : Nat) : Nat := 0xe4214 + 0x40 * i
def NET_TX_MEDIA_A (i : Nat) : Nat := 0xe5214 + 0x40 * i
def NET_TX_IPH (i : Nat) : Nat := 0xe4018 + 0x40 * i
def NET_TX_GAP (i : Nat) : Nat := 0xe401c + 0x40 * i
def NET_TX_PKTS (i : Nat) : Nat := 0xe4020 + 0x40 * i
def NET_TX_DROP (i : Nat) : Nat := 0xe4024 + 0x40 * i
def NET_TX_STATUS (i : Nat) : Nat := 0xe402c + 0x40 * i
def FEN_CFG : Nat := 0xe8000
def FEN_ETYPE : Nat := 0xe8004
def FEN_ADDR : Nat := 0xe8008
def FEN_TILE_MAC_LO : Nat := 0xe800c
def FEN_TILE_MAC_HI : Nat := 0xe8010
def FEN_BELAY_MAC_LO : Nat := 0xe8014
def FEN_BELAY_MAC_HI : Nat := 0xe8018
def FEN_SRC_MAC_LO : Nat := 0xe801c
def FEN_SRC_MAC_HI : Nat := 0xe8020
def FEN_PORTS : Nat := 0xe8024
def FEN_BELAY_CFG : Nat := 0xe8030
def FEN_BELAY_CTRL : Nat := 0xe8034
def FEN_BELAY_STATUS : Nat := 0xe8038
def FEN_EPOCH_SEED : Nat := 0xe803c
def FEN_FOLLOW : Nat := 0xe8040
def FEN_EVT : Nat := 0xe8044
def FEN_EVT_MASK : Nat := 0xe8048
def FEN_CUR_EPOCH : Nat := 0xe8050
def FEN_LEAD : Nat := 0xe8054
def FEN_TAKEOVERS : Nat := 0xe8060
def FEN_ROLE_LOST_COUNT : Nat := 0xe8064
def FEN_BEACON_MISS : Nat := 0xe8068
def FEN_STALE : Nat := 0xe806c
def FEN_JNL_TX : Nat := 0xe8070
def FEN_JNL_RX : Nat := 0xe8074
def FEN_JNL_DUP : Nat := 0xe8078
def FEN_RX_BAD : Nat := 0xe807c
def FEN_DIG_MATCH : Nat := 0xe80a0
def FEN_DIG_MISMATCH : Nat := 0xe80a4
def FEN_CAL_ADDR_LO : Nat := 0xe8080
def FEN_CAL_ADDR_HI : Nat := 0xe8084
def FEN_CAL_DESC : Nat := 0xe8088
def FEN_CAL_CTRL : Nat := 0xe808c
def FEN_CAL_STATUS : Nat := 0xe8090
def FEN_DIG_LAST_BAD : Nat := 0xe80a8
def FEN_P_PUSH (i : Nat) : Nat := 0xe8100 + 0x10 * i
def FEN_P_PRESENT (i : Nat) : Nat := 0xe8104 + 0x10 * i
def FEN_P_CTRL (i : Nat) : Nat := 0xe8108 + 0x10 * i
def FEN_P_DOWN (i : Nat) : Nat := 0xe810c + 0x10 * i
def ANCHOR_CTRL : Nat := 0xf0000
def ANCHOR_STATUS : Nat := 0xf0004
def ANCHOR_NS : Nat := 0xf0008
def ANCHOR_SEC (i : Nat) : Nat := 0xf000c + 0x4 * i
def ANCHOR_FRAC : Nat := 0xf0014
def ANCHOR_RATE : Nat := 0xf0018
def ANCHOR_OFFSET : Nat := 0xf001c
def ANCHOR_SET_NS : Nat := 0xf0020
def ANCHOR_SET_SEC (i : Nat) : Nat := 0xf0024 + 0x4 * i
def ANCHOR_SET_CTRL : Nat := 0xf002c
def ANCHOR_PPS_SEC (i : Nat) : Nat := 0xf0030 + 0x4 * i
def ANCHOR_PPS_BAD : Nat := 0xf0038
def ANCHOR_SERVO : Nat := 0xf003c
def ANCHOR_PTP_CFG : Nat := 0xf0040
def ANCHOR_PTP_PORTS : Nat := 0xf0044
def ANCHOR_PTP_INTV : Nat := 0xf0048
def ANCHOR_PTP_DS : Nat := 0xf004c
def ANCHOR_PTP_ID (i : Nat) : Nat := 0xf0050 + 0x4 * i
def ANCHOR_PTP_IP : Nat := 0xf0058
def ANCHOR_PTP_STATE : Nat := 0xf005c
def ANCHOR_PTP_RX_IGN : Nat := 0xf0060
def ANCHOR_FC_FRAME : Nat := 0xf0080
def ANCHOR_EVT : Nat := 0xf0090
def ANCHOR_EVT_MASK : Nat := 0xf0094
def ANCHOR_TMR_EVT : Nat := 0xf0098
def ANCHOR_TMR_EVT_MASK : Nat := 0xf009c
def ANCHOR_TSQ_ID (i : Nat) : Nat := 0xf0100 + 0x20 * i
def ANCHOR_TSQ_NS (i : Nat) : Nat := 0xf0104 + 0x20 * i
def ANCHOR_TSQ_SEC (i : Nat) (j : Nat) : Nat := 0xf0108 + 0x20 * i + 0x4 * j
def ANCHOR_TSQ_FRAC (i : Nat) : Nat := 0xf0110 + 0x20 * i
def ANCHOR_TSQ_OVF (i : Nat) : Nat := 0xf0114 + 0x20 * i
def ANCHOR_TXI_CTRL : Nat := 0xf0200
def ANCHOR_TXI_ID : Nat := 0xf0204
def ANCHOR_TXI_BUF (i : Nat) : Nat := 0xf0800 + 0x4 * i
def ANCHOR_TMR_CTRL (i : Nat) : Nat := 0xf1000 + 0x20 * i
def ANCHOR_TMR_T_NS (i : Nat) : Nat := 0xf1004 + 0x20 * i
def ANCHOR_TMR_T_SEC (i : Nat) (j : Nat) : Nat := 0xf1008 + 0x20 * i + 0x4 * j
def ANCHOR_TMR_PERIOD_NS (i : Nat) : Nat := 0xf1010 + 0x20 * i
def ANCHOR_TMR_PERIOD_FRAC (i : Nat) : Nat := 0xf1014 + 0x20 * i
def ANCHOR_TMR_STATUS (i : Nat) : Nat := 0xf1018 + 0x20 * i
def AUD_SAP_CFG (i : Nat) : Nat := 0xf8000 + 0x40 * i
def AUD_SAP_STATUS (i : Nat) : Nat := 0xf8004 + 0x40 * i
def AUD_SAP_TS_ADJ (i : Nat) : Nat := 0xf8008 + 0x40 * i
def AUD_SAP_SLIP (i : Nat) : Nat := 0xf800c + 0x40 * i
def AUD_SAP_GLITCH (i : Nat) : Nat := 0xf8010 + 0x40 * i
def AUD_SAP_CLOST (i : Nat) : Nat := 0xf8014 + 0x40 * i
def AUD_GRP_CFG (i : Nat) : Nat := 0xf8400 + 0x40 * i
def AUD_GRP_STATUS (i : Nat) : Nat := 0xf8404 + 0x40 * i
def AUD_GRP_RING_LO (i : Nat) : Nat := 0xf8408 + 0x40 * i
def AUD_GRP_RING_HI (i : Nat) : Nat := 0xf840c + 0x40 * i
def AUD_GRP_SIZE (i : Nat) : Nat := 0xf8410 + 0x40 * i
def AUD_GRP_BLOCK (i : Nat) : Nat := 0xf8414 + 0x40 * i
def AUD_GRP_SLIPS (i : Nat) : Nat := 0xf8418 + 0x40 * i
def AUD_EVT : Nat := 0xf8800
def AUD_EVT_MASK : Nat := 0xf8804
def CLIP_Q_SQ_TAIL (i : Nat) : Nat := 0x200000 + 0x8 * i
def CLIP_Q_CQ_HEAD (i : Nat) : Nat := 0x200004 + 0x8 * i
def CLIP_Q_CTRL (i : Nat) : Nat := 0x201000 + 0x40 * i
def CLIP_Q_STATUS (i : Nat) : Nat := 0x201004 + 0x40 * i
def CLIP_Q_SQ_LO (i : Nat) : Nat := 0x201008 + 0x40 * i
def CLIP_Q_SQ_HI (i : Nat) : Nat := 0x20100c + 0x40 * i
def CLIP_Q_CQ_LO (i : Nat) : Nat := 0x201010 + 0x40 * i
def CLIP_Q_CQ_HI (i : Nat) : Nat := 0x201014 + 0x40 * i
def CLIP_Q_SIZE (i : Nat) : Nat := 0x201018 + 0x40 * i
def CLIP_Q_SQ_HEAD (i : Nat) : Nat := 0x20101c + 0x40 * i
def CLIP_Q_CQ_TAIL (i : Nat) : Nat := 0x201020 + 0x40 * i
def CLIP_Q_NEXT_SEQ (i : Nat) : Nat := 0x201024 + 0x40 * i
def CLIP_Q_ABORTED (i : Nat) : Nat := 0x201028 + 0x40 * i
def CLIP_Q_OWNER (i : Nat) : Nat := 0x20102c + 0x40 * i
def CLIP_STORE_CTRL : Nat := 0x208000
def CLIP_STORE_STATUS : Nat := 0x208004
def CLIP_CAPACITY (i : Nat) : Nat := 0x208008 + 0x4 * i
def CLIP_STAGE_LO : Nat := 0x208010
def CLIP_STAGE_HI : Nat := 0x208014
def CLIP_STAGE_SIZE : Nat := 0x208018
def CLIP_STAGE_USED : Nat := 0x20801c
def CLIP_PWR : Nat := 0x208020
def CLIP_PWR_STATUS : Nat := 0x208024
def CLIP_LOG_SEQ : Nat := 0x208028
def CLIP_FAILED_RANGES : Nat := 0x20802c
def CLIP_EVT_CQ (i : Nat) : Nat := 0x208030 + 0x4 * i
def CLIP_EVT : Nat := 0x208038
def CLIP_EVT_MASK : Nat := 0x20803c
def CLIP_MEMBER_STATUS (i : Nat) : Nat := 0x208040 + 0x4 * i
def MEMC_CFG : Nat := 0x300000
def MEMC_STATUS : Nat := 0x300004
def MEMC_CAPACITY : Nat := 0x300008
def MEMC_AGE_BULK : Nat := 0x300010
def MEMC_AGE_HOST : Nat := 0x300014
def MEMC_AGE_BG : Nat := 0x300018
def MEMC_TRACKER : Nat := 0x300020
def MEMC_SR : Nat := 0x300024
def MEMC_SCRUB : Nat := 0x300028
def MEMC_SCRUB_POS : Nat := 0x30002c
def MEMC_EVT : Nat := 0x300030
def MEMC_EVT_MASK : Nat := 0x300034
def MEMC_x_STATUS (i : Nat) : Nat := 0x301000 + 0x100 * i
def MEMC_x_ERR_LO (i : Nat) : Nat := 0x30100c + 0x100 * i
def MEMC_x_ERR_HI (i : Nat) : Nat := 0x301010 + 0x100 * i
def MEMC_x_CE (i : Nat) : Nat := 0x301004 + 0x100 * i
def MEMC_x_UE (i : Nat) : Nat := 0x301008 + 0x100 * i
def MEMC_x_NBR_REFRESH (i : Nat) : Nat := 0x301014 + 0x100 * i
def MEMC_x_SR_ENTRIES (i : Nat) : Nat := 0x301018 + 0x100 * i
def POOL_CE : Nat := 0x340000
def POOL_UE : Nat := 0x340004
def POOL_ERR : Nat := 0x340008
def POOL_VIOL : Nat := 0x340010
def POOL_VIOL_INFO : Nat := 0x340014
def POOL_MARCH_CTRL : Nat := 0x340020
def POOL_MARCH_RANGE : Nat := 0x340024
def POOL_MARCH_STATUS : Nat := 0x340028
def POOL_MARCH_FAILS : Nat := 0x34002c
def POOL_MARCH_ABANDON : Nat := 0x340030
def POOL_MARCH_SKIPPED : Nat := 0x340034
def POOL_MARCH_BOOT : Nat := 0x340038
def POOL_REPAIR_CTRL : Nat := 0x340040
def POOL_REPAIR_STATUS : Nat := 0x340044
def POOL_EVT : Nat := 0x340050
def POOL_EVT_MASK : Nat := 0x340054
def POOL_BANK (i : Nat) : Nat := 0x341000 + 0x4 * i
def POOL_BANK_RIG (i : Nat) : Nat := 0x341f80 + 0x4 * i
def POOL_RGN_BASE (i : Nat) (j : Nat) : Nat := 0x348000 + 0x400 * i + 0x10 * j
def POOL_RGN_SIZE (i : Nat) (j : Nat) : Nat := 0x348004 + 0x400 * i + 0x10 * j
def MBOX_W (i : Nat) (j : Nat) : Nat := 0x380000 + 0x80 * i + 0x4 * j
def MBOX_CLAIM (i : Nat) : Nat := 0x380040 + 0x80 * i
def MBOX_CTRL (i : Nat) : Nat := 0x380044 + 0x80 * i
def MBOX_STATUS (i : Nat) : Nat := 0x380048 + 0x80 * i
def MBOX_DB_RING (i : Nat) : Nat := 0x381000 + 0x4 * i
def MBOX_DB_PEND (i : Nat) : Nat := 0x381008 + 0x4 * i
def MBOX_FWACT_SRC : Nat := 0x382000
def MBOX_FWACT_LEN : Nat := 0x382004
def MBOX_FWACT_CTRL : Nat := 0x382008
def MBOX_FWACT_STATUS : Nat := 0x38200c
def HOST_LINK : Nat := 0x3c0000
def HOST_EVT : Nat := 0x3c0004
def HOST_EVT_MASK : Nat := 0x3c0008
def HOST_ACC_BAD : Nat := 0x3c000c
def HOST_VIOL_COUNT : Nat := 0x3c0010
def HOST_VIOL_INFO : Nat := 0x3c0014
def HOST_DEAD_COUNT : Nat := 0x3c0018
def HOST_DEAD_INFO : Nat := 0x3c001c
def HOST_AP_VIOL : Nat := 0x3c0020
def HOST_POISON : Nat := 0x3c0024
def HOST_AP0_BASE : Nat := 0x3c0030
def HOST_AP1_BASE : Nat := 0x3c0034
def HOST_ROUTE0 : Nat := 0x3c0100
def HOST_ROUTE1 : Nat := 0x3c0104
def HOST_ROUTE2 : Nat := 0x3c0108
def HOST_ROUTE3 : Nat := 0x3c010c
def HOST_ROUTE4 : Nat := 0x3c0110
def HOST_ROUTE5 : Nat := 0x3c0114
def HOST_ROUTE6 : Nat := 0x3c0118
def HOST_ROUTE7 : Nat := 0x3c011c
def HOST_ROUTE8 : Nat := 0x3c0120
def HOST_ROUTE9 : Nat := 0x3c0124
def HOST_ROUTE10 : Nat := 0x3c0128
end R

namespace F
def SYS_ID_part : Fld := ⟨0x0, 31, 16⟩
def SYS_ID_step_letter : Fld := ⟨0x0, 15, 12⟩
def SYS_ID_step_digit : Fld := ⟨0x0, 11, 8⟩
def SYS_ID_img_major : Fld := ⟨0x0, 7, 4⟩
def SYS_ID_img_minor : Fld := ⟨0x0, 3, 0⟩
def SYS_STRAP_rstmode : Fld := ⟨0x4, 0, 0⟩
def SYS_STATUS_ready : Fld := ⟨0x8, 0, 0⟩
def SYS_STATUS_alert_therm : Fld := ⟨0x8, 1, 1⟩
def SYS_STATUS_alert_ref : Fld := ⟨0x8, 2, 2⟩
def SYS_STATUS_ref_lost : Fld := ⟨0x8, 3, 3⟩
def SYS_STATUS_fuse_busy : Fld := ⟨0x8, 4, 4⟩
def SYS_RST_CTRL_reach : Fld := ⟨0x10, 2, 0⟩
def SYS_RST_CTRL_target : Fld := ⟨0x10, 15, 8⟩
def SYS_RST_CTRL_go : Fld := ⟨0x10, 31, 31⟩
def SYS_RST_STATUS_result : Fld := ⟨0x14, 1, 0⟩
def SYS_RST_CAUSE_reach : Fld := ⟨0x18, 2, 0⟩
def SYS_RST_CAUSE_source : Fld := ⟨0x18, 5, 3⟩
def SYS_RST_CAUSE_target : Fld := ⟨0x18, 15, 8⟩
def SYS_RST_CAUSE_sources : Fld := ⟨0x18, 22, 16⟩
def SYS_RST_COUNT_episodes : Fld := ⟨0x1c, 31, 0⟩
def SYS_PERST_CFG_reach : Fld := ⟨0x20, 2, 0⟩
def SYS_PERST_CFG_group : Fld := ⟨0x20, 11, 8⟩
def SYS_RST_GAP_gap : Fld := ⟨0x24, 12, 0⟩
def SYS_WDT_CTRL_enable : Fld := ⟨0x30, 0, 0⟩
def SYS_WDT_CTRL_timeout_ms : Fld := ⟨0x30, 31, 16⟩
def SYS_WDT_KICK_kick : Fld := ⟨0x34, 31, 0⟩
def SYS_EVT_warn : Fld := ⟨0x40, 0, 0⟩
def SYS_EVT_throttle : Fld := ⟨0x40, 1, 1⟩
def SYS_EVT_ref_glitch : Fld := ⟨0x40, 2, 2⟩
def SYS_EVT_ref_stop : Fld := ⟨0x40, 3, 3⟩
def SYS_EVT_release_stall : Fld := ⟨0x40, 4, 4⟩
def SYS_EVT_sensor_fault : Fld := ⟨0x40, 5, 5⟩
def SYS_EVT_lc_done : Fld := ⟨0x40, 6, 6⟩
def SYS_EVT_MASK_mask : Fld := ⟨0x44, 31, 0⟩
def SYS_THERM_CFG_warn : Fld := ⟨0x50, 7, 0⟩
def SYS_THERM_CFG_thr : Fld := ⟨0x50, 15, 8⟩
def SYS_THERM_STATUS_t : Fld := ⟨0x54, 7, 0⟩
def SYS_THERM_STATUS_level : Fld := ⟨0x54, 10, 8⟩
def SYS_THERM_STATUS_ring_only : Fld := ⟨0x54, 11, 11⟩
def SYS_THERM_D_t (i : Nat) : Fld := ⟨0x60 + 0x4 * i, 7, 0⟩
def SYS_THERM_D_fault (i : Nat) : Fld := ⟨0x60 + 0x4 * i, 8, 8⟩
def SYS_THERM_R_t (i : Nat) : Fld := ⟨0xa0 + 0x4 * i, 7, 0⟩
def SYS_LC_STATE_state : Fld := ⟨0xc0, 1, 0⟩
def SYS_LC_CTRL_to : Fld := ⟨0xc4, 1, 0⟩
def SYS_LC_CTRL_go : Fld := ⟨0xc4, 31, 31⟩
def SYS_LC_CONFIRM_confirm : Fld := ⟨0xc8, 31, 0⟩
def SYS_LC_STATUS_state : Fld := ⟨0xcc, 2, 0⟩
def SYS_LC_SRC_addr : Fld := ⟨0xd0, 26, 3⟩
def SYS_LC_NONCE_nonce (i : Nat) : Fld := ⟨0xe0 + 0x4 * i, 31, 0⟩
def SYS_KEY_STATE_slots : Fld := ⟨0x100, 7, 0⟩
def SYS_KEY_CTRL_slot : Fld := ⟨0x104, 1, 0⟩
def SYS_KEY_CTRL_op : Fld := ⟨0x104, 3, 2⟩
def SYS_KEY_CTRL_state : Fld := ⟨0x104, 6, 4⟩
def SYS_KEY_CTRL_go : Fld := ⟨0x104, 31, 31⟩
def SYS_KEY_SRC_addr : Fld := ⟨0x108, 26, 3⟩
def SYS_CSK_CTRL_op : Fld := ⟨0x110, 1, 0⟩
def SYS_CSK_CTRL_state : Fld := ⟨0x110, 5, 2⟩
def SYS_CSK_CTRL_go : Fld := ⟨0x110, 31, 31⟩
def SYS_CSK_SRC_addr : Fld := ⟨0x114, 26, 3⟩
def SYS_CSK_DST_addr : Fld := ⟨0x118, 26, 3⟩
def SYS_CSK_EPOCH_epoch : Fld := ⟨0x11c, 7, 0⟩
def SYS_XPUB_xpub (i : Nat) : Fld := ⟨0x140 + 0x4 * i, 31, 0⟩
def RIG_STATUS_active : Fld := ⟨0x10000, 1, 0⟩
def RIG_STATUS_no_image : Fld := ⟨0x10000, 2, 2⟩
def RIG_STATUS_change_pending : Fld := ⟨0x10000, 3, 3⟩
def RIG_STATUS_shape_miss : Fld := ⟨0x10000, 4, 4⟩
def RIG_STATUS_fragment_applied : Fld := ⟨0x10000, 5, 5⟩
def RIG_STATUS_load_busy : Fld := ⟨0x10000, 6, 6⟩
def RIG_ACTIVE_CLASS_LO_value : Fld := ⟨0x10004, 31, 0⟩
def RIG_ACTIVE_CLASS_HI_value : Fld := ⟨0x10008, 31, 0⟩
def RIG_SLOT_STATE_slot_a : Fld := ⟨0x1000c, 3, 0⟩
def RIG_SLOT_STATE_slot_b : Fld := ⟨0x1000c, 7, 4⟩
def RIG_LOAD_SRC_value : Fld := ⟨0x10010, 31, 0⟩
def RIG_LOAD_LEN_value : Fld := ⟨0x10014, 31, 0⟩
def RIG_LOAD_CTRL_go : Fld := ⟨0x10018, 0, 0⟩
def RIG_LOAD_CTRL_slot : Fld := ⟨0x10018, 1, 1⟩
def RIG_LOAD_STATUS_code : Fld := ⟨0x1001c, 3, 0⟩
def RIG_LOAD_ERR_OFS_ofs : Fld := ⟨0x10020, 31, 0⟩
def RIG_BOOT_SEL_first : Fld := ⟨0x10024, 0, 0⟩
def RIG_BOOT_SEL_fallback : Fld := ⟨0x10024, 1, 1⟩
def RIG_CHANGE_FRAME_value : Fld := ⟨0x10030, 31, 0⟩
def RIG_CHANGE_CTRL_go : Fld := ⟨0x10034, 0, 0⟩
def RIG_CHANGE_CTRL_cancel : Fld := ⟨0x10034, 1, 1⟩
def RIG_CHANGE_CTRL_kind : Fld := ⟨0x10034, 3, 2⟩
def RIG_CHANGE_CTRL_slot : Fld := ⟨0x10034, 4, 4⟩
def RIG_CHANGE_CTRL_region : Fld := ⟨0x10034, 23, 16⟩
def RIG_CHANGE_STATUS_state : Fld := ⟨0x10038, 2, 0⟩
def RIG_CLAIM_CTRL_index : Fld := ⟨0x10040, 15, 0⟩
def RIG_CLAIM_CTRL_res : Fld := ⟨0x10040, 19, 16⟩
def RIG_CLAIM_CTRL_op : Fld := ⟨0x10040, 20, 20⟩
def RIG_CLAIM_STATUS_code : Fld := ⟨0x10044, 1, 0⟩
def RIG_STRAND_FLUSH_count : Fld := ⟨0x10048, 31, 0⟩
def RIG_CAL_POS_entry (i : Nat) : Fld := ⟨0x10050 + 0x4 * i, 11, 0⟩
def RIG_ISL_STATE0_present : Fld := ⟨0x10100, 0, 0⟩
def RIG_ISL_STATE0_in_reset : Fld := ⟨0x10100, 1, 1⟩
def RIG_ISL_STATE0_clk_good : Fld := ⟨0x10100, 2, 2⟩
def RIG_ISL_STATE0_release_stall : Fld := ⟨0x10100, 3, 3⟩
def RIG_ISL_STATE0_throttle : Fld := ⟨0x10100, 5, 4⟩
def RIG_ISL_STATE0_skip_n : Fld := ⟨0x10100, 10, 6⟩
def RIG_ISL_STATE0_clk_mhz : Fld := ⟨0x10100, 31, 16⟩
def RIG_ISL_STATE_present (i : Nat) : Fld := ⟨0x10104 + 0x4 * i, 0, 0⟩
def RIG_ISL_STATE_in_reset (i : Nat) : Fld := ⟨0x10104 + 0x4 * i, 1, 1⟩
def RIG_ISL_STATE_clk_good (i : Nat) : Fld := ⟨0x10104 + 0x4 * i, 2, 2⟩
def RIG_ISL_STATE_release_stall (i : Nat) : Fld := ⟨0x10104 + 0x4 * i, 3, 3⟩
def RIG_ISL_STATE_throttle (i : Nat) : Fld := ⟨0x10104 + 0x4 * i, 5, 4⟩
def RIG_ISL_STATE_skip_n (i : Nat) : Fld := ⟨0x10104 + 0x4 * i, 10, 6⟩
def RIG_ISL_STATE_clk_mhz (i : Nat) : Fld := ⟨0x10104 + 0x4 * i, 31, 16⟩
def RIG_JNL_CTRL_enable : Fld := ⟨0x18000, 0, 0⟩
def RIG_JNL_CTRL_forward : Fld := ⟨0x18000, 1, 1⟩
def RIG_JNL_CTRL_mode : Fld := ⟨0x18000, 3, 2⟩
def RIG_JNL_CTRL_follow_mask : Fld := ⟨0x18000, 23, 16⟩
def RIG_JNL_STATUS_ring_ok : Fld := ⟨0x18004, 0, 0⟩
def RIG_JNL_STATUS_bad_cfg : Fld := ⟨0x18004, 1, 1⟩
def RIG_JNL_STATUS_following : Fld := ⟨0x18004, 2, 2⟩
def RIG_JNL_STATUS_gap : Fld := ⟨0x18004, 3, 3⟩
def RIG_JNL_STATUS_override : Fld := ⟨0x18004, 4, 4⟩
def RIG_JNL_STATUS_crc_bad : Fld := ⟨0x18004, 5, 5⟩
def RIG_JNL_STATUS_conflict : Fld := ⟨0x18004, 6, 6⟩
def RIG_JNL_BASE_LO_base_lo : Fld := ⟨0x18008, 31, 12⟩
def RIG_JNL_BASE_HI_base_hi : Fld := ⟨0x1800c, 5, 0⟩
def RIG_JNL_SIZE_log_size : Fld := ⟨0x18010, 4, 0⟩
def RIG_JNL_WR_SEQ_value : Fld := ⟨0x18014, 31, 0⟩
def RIG_JNL_RING_DROP_count : Fld := ⟨0x18018, 31, 0⟩
def RIG_JNL_HOLD_US_hold : Fld := ⟨0x1801c, 16, 0⟩
def RIG_JNL_OVERRIDES_count : Fld := ⟨0x18020, 31, 0⟩
def RIG_JNL_CRC_BAD_count : Fld := ⟨0x18024, 31, 0⟩
def RIG_JNL_SRC_SEQ_value : Fld := ⟨0x18028, 31, 0⟩
def RIG_JNL_INJ_bytes (i : Nat) : Fld := ⟨0x18080 + 0x4 * i, 31, 0⟩
def RIG_DIG_SEL_scope : Fld := ⟨0x18100, 3, 0⟩
def RIG_DIG_SEL_index : Fld := ⟨0x18100, 15, 8⟩
def RIG_DIG_FRAME_value : Fld := ⟨0x18104, 31, 0⟩
def RIG_DIG_LO_value : Fld := ⟨0x18108, 31, 0⟩
def RIG_DIG_HI_value : Fld := ⟨0x1810c, 31, 0⟩
def RIG_DIG_FLAGS_excluded : Fld := ⟨0x18110, 0, 0⟩
def RIG_DIG_FLAGS_replayed : Fld := ⟨0x18110, 1, 1⟩
def RIG_DIG_FLAGS_override : Fld := ⟨0x18110, 2, 2⟩
def HEAD_CFG_enable (i : Nat) : Fld := ⟨0x20000 + 0x400 * i, 0, 0⟩
def HEAD_CFG_members (i : Nat) : Fld := ⟨0x20000 + 0x400 * i, 2, 1⟩
def HEAD_CFG_member (i : Nat) : Fld := ⟨0x20000 + 0x400 * i, 4, 3⟩
def HEAD_STATE_state (i : Nat) : Fld := ⟨0x20004 + 0x400 * i, 2, 0⟩
def HEAD_STATE_lock0 (i : Nat) : Fld := ⟨0x20004 + 0x400 * i, 3, 3⟩
def HEAD_STATE_lock1 (i : Nat) : Fld := ⟨0x20004 + 0x400 * i, 4, 4⟩
def HEAD_STATE_skew (i : Nat) : Fld := ⟨0x20004 + 0x400 * i, 15, 8⟩
def HEAD_ERR_hcrc (i : Nat) : Fld := ⟨0x20008 + 0x400 * i, 0, 0⟩
def HEAD_ERR_pcrc (i : Nat) : Fld := ⟨0x20008 + 0x400 * i, 1, 1⟩
def HEAD_ERR_framing (i : Nat) : Fld := ⟨0x20008 + 0x400 * i, 2, 2⟩
def HEAD_ERR_len (i : Nat) : Fld := ⟨0x20008 + 0x400 * i, 3, 3⟩
def HEAD_ERR_late (i : Nat) : Fld := ⟨0x20008 + 0x400 * i, 4, 4⟩
def HEAD_ERR_lock_loss (i : Nat) : Fld := ⟨0x20008 + 0x400 * i, 5, 5⟩
def HEAD_ERR_no_ack (i : Nat) : Fld := ⟨0x20008 + 0x400 * i, 6, 6⟩
def HEAD_ERR_align_cfg (i : Nat) : Fld := ⟨0x20008 + 0x400 * i, 7, 7⟩
def HEAD_HCRC_BAD_count (i : Nat) : Fld := ⟨0x20010 + 0x400 * i, 31, 0⟩
def HEAD_PCRC_BAD_count (i : Nat) : Fld := ⟨0x20014 + 0x400 * i, 31, 0⟩
def HEAD_FRAMING_count (i : Nat) : Fld := ⟨0x20018 + 0x400 * i, 31, 0⟩
def HEAD_LEN_BAD_count (i : Nat) : Fld := ⟨0x2001c + 0x400 * i, 31, 0⟩
def HEAD_LATE_DROP_count (i : Nat) : Fld := ⟨0x20020 + 0x400 * i, 31, 0⟩
def HEAD_LOCK_LOSS_count (i : Nat) : Fld := ⟨0x20024 + 0x400 * i, 31, 0⟩
def HEAD_TRAIN_FAIL_count (i : Nat) : Fld := ⟨0x20028 + 0x400 * i, 31, 0⟩
def HEAD_SOF_ADJ_adj_ns (i : Nat) : Fld := ⟨0x20030 + 0x400 * i, 15, 0⟩
def HEAD_CAP_value (i : Nat) (j : Nat) : Fld := ⟨0x20100 + 0x400 * i + 0x4 * j, 31, 0⟩
def HEAD_VS_MAP_ctx (i : Nat) (j : Nat) : Fld := ⟨0x20200 + 0x400 * i + 0x40 * j, 3, 0⟩
def HEAD_VS_MAP_enable (i : Nat) (j : Nat) : Fld := ⟨0x20200 + 0x400 * i + 0x40 * j, 4, 4⟩
def HEAD_VS_STATUS_last_tag (i : Nat) (j : Nat) : Fld := ⟨0x20204 + 0x400 * i + 0x40 * j, 15, 0⟩
def HEAD_VS_STATUS_echo_tag (i : Nat) (j : Nat) : Fld := ⟨0x20204 + 0x400 * i + 0x40 * j, 31, 16⟩
def HEAD_VS_FRAME_lines (i : Nat) (j : Nat) : Fld := ⟨0x20208 + 0x400 * i + 0x40 * j, 15, 0⟩
def HEAD_VS_FRAME_flags (i : Nat) (j : Nat) : Fld := ⟨0x20208 + 0x400 * i + 0x40 * j, 31, 16⟩
def HEAD_VS_EXP_NS_value (i : Nat) (j : Nat) : Fld := ⟨0x20210 + 0x400 * i + 0x40 * j, 31, 0⟩
def HEAD_VS_EXP_GAIN_gain (i : Nat) (j : Nat) : Fld := ⟨0x20214 + 0x400 * i + 0x40 * j, 15, 0⟩
def HEAD_VS_EXP_PARAM0_value (i : Nat) (j : Nat) : Fld := ⟨0x20218 + 0x400 * i + 0x40 * j, 31, 0⟩
def HEAD_VS_EXP_PARAM1_value (i : Nat) (j : Nat) : Fld := ⟨0x2021c + 0x400 * i + 0x40 * j, 31, 0⟩
def HEAD_VS_EXP_CTRL_tag (i : Nat) (j : Nat) : Fld := ⟨0x20220 + 0x400 * i + 0x40 * j, 15, 0⟩
def HEAD_VS_EXP_CTRL_explicit (i : Nat) (j : Nat) : Fld := ⟨0x20220 + 0x400 * i + 0x40 * j, 16, 16⟩
def HEAD_VS_EXP_CTRL_go (i : Nat) (j : Nat) : Fld := ⟨0x20220 + 0x400 * i + 0x40 * j, 31, 31⟩
def HEAD_VS_EXP_STATUS_target (i : Nat) (j : Nat) : Fld := ⟨0x20224 + 0x400 * i + 0x40 * j, 15, 0⟩
def HEAD_VS_EXP_STATUS_state (i : Nat) (j : Nat) : Fld := ⟨0x20224 + 0x400 * i + 0x40 * j, 18, 16⟩
def HEAD_VS_EXP_STATUS_seq_lo (i : Nat) (j : Nat) : Fld := ⟨0x20224 + 0x400 * i + 0x40 * j, 31, 24⟩
def DEV_EVT_stat : Fld := ⟨0x40000, 15, 0⟩
def DEV_EVT_refused : Fld := ⟨0x40000, 31, 16⟩
def DEV_EVT_MASK_mask : Fld := ⟨0x40004, 31, 0⟩
def DEV_CTX_CTRL_commit (i : Nat) : Fld := ⟨0x50000 + 0x1000 * i, 0, 0⟩
def DEV_CTX_STATUS_commit_state (i : Nat) : Fld := ⟨0x50004 + 0x1000 * i, 2, 0⟩
def DEV_CTX_STATUS_running (i : Nat) : Fld := ⟨0x50004 + 0x1000 * i, 3, 3⟩
def DEV_CTX_GEN_value (i : Nat) : Fld := ⟨0x50008 + 0x1000 * i, 31, 0⟩
def DEV_CTX_GEN_PEND_value (i : Nat) : Fld := ⟨0x5000c + 0x1000 * i, 31, 0⟩
def DEV_CTX_SIZE_width (i : Nat) : Fld := ⟨0x50010 + 0x1000 * i, 14, 0⟩
def DEV_CTX_SIZE_height (i : Nat) : Fld := ⟨0x50010 + 0x1000 * i, 29, 16⟩
def DEV_CTX_FMT_depth (i : Nat) : Fld := ⟨0x50014 + 0x1000 * i, 1, 0⟩
def DEV_CTX_FMT_cfa (i : Nat) : Fld := ⟨0x50014 + 0x1000 * i, 6, 4⟩
def DEV_CTX_FMT_run (i : Nat) : Fld := ⟨0x50014 + 0x1000 * i, 8, 8⟩
def DEV_CTX_PAD_pad (i : Nat) : Fld := ⟨0x50018 + 0x1000 * i, 15, 0⟩
def DEV_CTX_BLACK_black (i : Nat) (j : Nat) : Fld := ⟨0x50020 + 0x1000 * i + 0x4 * j, 15, 0⟩
def DEV_CTX_NORM_norm (i : Nat) (j : Nat) : Fld := ⟨0x50030 + 0x1000 * i + 0x4 * j, 23, 0⟩
def DEV_CTX_DPC_CTRL_static (i : Nat) : Fld := ⟨0x50040 + 0x1000 * i, 0, 0⟩
def DEV_CTX_DPC_CTRL_dynamic (i : Nat) : Fld := ⟨0x50040 + 0x1000 * i, 1, 1⟩
def DEV_CTX_DPC_THR_hot (i : Nat) : Fld := ⟨0x50044 + 0x1000 * i, 15, 0⟩
def DEV_CTX_DPC_THR_cold (i : Nat) : Fld := ⟨0x50044 + 0x1000 * i, 31, 16⟩
def DEV_CTX_DPC_MAP_LO_addr_lo (i : Nat) : Fld := ⟨0x50048 + 0x1000 * i, 31, 6⟩
def DEV_CTX_DPC_MAP_HI_addr_hi (i : Nat) : Fld := ⟨0x5004c + 0x1000 * i, 5, 0⟩
def DEV_CTX_DPC_MAP_COUNT_count (i : Nat) : Fld := ⟨0x50050 + 0x1000 * i, 16, 0⟩
def DEV_CTX_SHD_CTRL_enable (i : Nat) : Fld := ⟨0x50060 + 0x1000 * i, 0, 0⟩
def DEV_CTX_SHD_LO_addr_lo (i : Nat) : Fld := ⟨0x50064 + 0x1000 * i, 31, 6⟩
def DEV_CTX_SHD_HI_addr_hi (i : Nat) : Fld := ⟨0x50068 + 0x1000 * i, 5, 0⟩
def DEV_CTX_STAT_CTRL_enable (i : Nat) : Fld := ⟨0x50080 + 0x1000 * i, 0, 0⟩
def DEV_CTX_STAT_CTRL_log_slots (i : Nat) : Fld := ⟨0x50080 + 0x1000 * i, 7, 4⟩
def DEV_CTX_STAT_LO_addr_lo (i : Nat) : Fld := ⟨0x50084 + 0x1000 * i, 31, 16⟩
def DEV_CTX_STAT_HI_addr_hi (i : Nat) : Fld := ⟨0x50088 + 0x1000 * i, 5, 0⟩
def DEV_CTX_STAT_SEQ_value (i : Nat) : Fld := ⟨0x50090 + 0x1000 * i, 31, 0⟩
def DEV_CTX_LAST_tag (i : Nat) : Fld := ⟨0x50094 + 0x1000 * i, 15, 0⟩
def DEV_CTX_LAST_lines (i : Nat) : Fld := ⟨0x50094 + 0x1000 * i, 31, 16⟩
def DEV_CTX_DPC_IGNORED_count (i : Nat) : Fld := ⟨0x50098 + 0x1000 * i, 31, 0⟩
def DEV_CTX_TRUNC_COUNT_count (i : Nat) : Fld := ⟨0x5009c + 0x1000 * i, 31, 0⟩
def DEV_CTX_WB_GAIN_gain (i : Nat) (j : Nat) : Fld := ⟨0x50100 + 0x1000 * i + 0x4 * j, 19, 0⟩
def DEV_CTX_CM_DIAG_cm (i : Nat) (j : Nat) : Fld := ⟨0x50110 + 0x1000 * i + 0x10 * j, 18, 0⟩
def DEV_CTX_CM_RG_RB_GR_cm (i : Nat) (j : Nat) : Fld := ⟨0x50114 + 0x1000 * i + 0x4 * j, 18, 0⟩
def DEV_CTX_CM_GB_BR_BG_cm (i : Nat) (j : Nat) : Fld := ⟨0x50124 + 0x1000 * i + 0x4 * j, 18, 0⟩
def DEV_CTX_CM_OFF_off (i : Nat) (j : Nat) : Fld := ⟨0x50140 + 0x1000 * i + 0x4 * j, 24, 0⟩
def DEV_CTX_DB_CTRL_enable (i : Nat) : Fld := ⟨0x50150 + 0x1000 * i, 0, 0⟩
def DEV_CTX_DB_LO_addr_lo (i : Nat) : Fld := ⟨0x50154 + 0x1000 * i, 31, 6⟩
def DEV_CTX_DB_HI_addr_hi (i : Nat) : Fld := ⟨0x50158 + 0x1000 * i, 5, 0⟩
def DEV_CTX_TONE_CTRL_enable (i : Nat) : Fld := ⟨0x50160 + 0x1000 * i, 0, 0⟩
def DEV_CTX_TONE_LO_addr_lo (i : Nat) : Fld := ⟨0x50164 + 0x1000 * i, 31, 6⟩
def DEV_CTX_TONE_HI_addr_hi (i : Nat) : Fld := ⟨0x50168 + 0x1000 * i, 5, 0⟩
def DEV_CTX_LUT_CTRL_enable (i : Nat) : Fld := ⟨0x50170 + 0x1000 * i, 0, 0⟩
def DEV_CTX_LUT_LO_addr_lo (i : Nat) : Fld := ⟨0x50174 + 0x1000 * i, 31, 6⟩
def DEV_CTX_LUT_HI_addr_hi (i : Nat) : Fld := ⟨0x50178 + 0x1000 * i, 5, 0⟩
def DEV_CTX_RAW_TAP_enable (i : Nat) : Fld := ⟨0x50180 + 0x1000 * i, 0, 0⟩
def DEV_REFUSE_DETAIL_detail (i : Nat) : Fld := ⟨0x40100 + 0x4 * i, 3, 0⟩
def DEV_REFUSE_DETAIL_stream (i : Nat) : Fld := ⟨0x40100 + 0x4 * i, 6, 4⟩
def DEV_REFUSE_DETAIL_tap (i : Nat) : Fld := ⟨0x40100 + 0x4 * i, 7, 7⟩
def DEV_OS_CTRL_enable (i : Nat) : Fld := ⟨0x41000 + 0x100 * i, 0, 0⟩
def DEV_OS_CTRL_to_dram (i : Nat) : Fld := ⟨0x41000 + 0x100 * i, 1, 1⟩
def DEV_OS_CTRL_to_strand (i : Nat) : Fld := ⟨0x41000 + 0x100 * i, 2, 2⟩
def DEV_OS_CTRL_notify (i : Nat) : Fld := ⟨0x41000 + 0x100 * i, 3, 3⟩
def DEV_OS_CTRL_fuse (i : Nat) : Fld := ⟨0x41000 + 0x100 * i, 4, 4⟩
def DEV_OS_CTRL_src (i : Nat) : Fld := ⟨0x41000 + 0x100 * i, 11, 8⟩
def DEV_OS_CTRL_filter (i : Nat) : Fld := ⟨0x41000 + 0x100 * i, 13, 12⟩
def DEV_OS_CTRL_prebin (i : Nat) : Fld := ⟨0x41000 + 0x100 * i, 15, 14⟩
def DEV_OS_CROP_XY_x0 (i : Nat) : Fld := ⟨0x41004 + 0x100 * i, 14, 0⟩
def DEV_OS_CROP_XY_y0 (i : Nat) : Fld := ⟨0x41004 + 0x100 * i, 29, 16⟩
def DEV_OS_CROP_WH_cw (i : Nat) : Fld := ⟨0x41008 + 0x100 * i, 14, 0⟩
def DEV_OS_CROP_WH_ch (i : Nat) : Fld := ⟨0x41008 + 0x100 * i, 29, 16⟩
def DEV_OS_OUT_WH_ow (i : Nat) : Fld := ⟨0x4100c + 0x100 * i, 14, 0⟩
def DEV_OS_OUT_WH_oh (i : Nat) : Fld := ⟨0x4100c + 0x100 * i, 29, 16⟩
def DEV_OS_FMT_fmt (i : Nat) : Fld := ⟨0x41010 + 0x100 * i, 4, 0⟩
def DEV_OS_FMT_matrix (i : Nat) : Fld := ⟨0x41010 + 0x100 * i, 9, 8⟩
def DEV_OS_FMT_narrow (i : Nat) : Fld := ⟨0x41010 + 0x100 * i, 10, 10⟩
def DEV_OS_FMT_layout (i : Nat) : Fld := ⟨0x41010 + 0x100 * i, 12, 12⟩
def DEV_OS_BASE_LO_base_lo (i : Nat) : Fld := ⟨0x4101c + 0x100 * i, 31, 12⟩
def DEV_OS_BASE_HI_base_hi (i : Nat) : Fld := ⟨0x41020 + 0x100 * i, 5, 0⟩
def DEV_OS_PITCH_pitch (i : Nat) : Fld := ⟨0x41024 + 0x100 * i, 23, 6⟩
def DEV_OS_BUF_bufs (i : Nat) : Fld := ⟨0x41028 + 0x100 * i, 2, 0⟩
def DEV_OS_STRIDE_stride (i : Nat) : Fld := ⟨0x4102c + 0x100 * i, 31, 12⟩
def DEV_OS_STATUS_tag (i : Nat) : Fld := ⟨0x41040 + 0x100 * i, 15, 0⟩
def DEV_OS_STATUS_buf (i : Nat) : Fld := ⟨0x41040 + 0x100 * i, 17, 16⟩
def DEV_OS_STATUS_active_src (i : Nat) : Fld := ⟨0x41040 + 0x100 * i, 23, 20⟩
def DEV_OS_STATUS_active_en (i : Nat) : Fld := ⟨0x41040 + 0x100 * i, 24, 24⟩
def DEV_OS_FILT_LO_addr_lo (i : Nat) : Fld := ⟨0x41014 + 0x100 * i, 31, 6⟩
def DEV_OS_FILT_HI_addr_hi (i : Nat) : Fld := ⟨0x41018 + 0x100 * i, 5, 0⟩
def DEV_OS_GEN_value (i : Nat) : Fld := ⟨0x41044 + 0x100 * i, 31, 0⟩
def DEV_OS_UNWIRED_count (i : Nat) : Fld := ⟨0x41048 + 0x100 * i, 31, 0⟩
def RAWC_EVT_done : Fld := ⟨0x80000, 31, 0⟩
def RAWC_EVT_MASK_mask : Fld := ⟨0x80004, 31, 0⟩
def RAWC_CBLK_count : Fld := ⟨0x80008, 31, 0⟩
def RAWC_DBLK_count : Fld := ⟨0x8000c, 31, 0⟩
def RAWC_Q_CTRL_enable (i : Nat) : Fld := ⟨0x81000 + 0x80 * i, 0, 0⟩
def RAWC_Q_CTRL_reset (i : Nat) : Fld := ⟨0x81000 + 0x80 * i, 1, 1⟩
def RAWC_Q_STATUS_kind (i : Nat) : Fld := ⟨0x81004 + 0x80 * i, 1, 0⟩
def RAWC_Q_STATUS_dirs (i : Nat) : Fld := ⟨0x81004 + 0x80 * i, 3, 2⟩
def RAWC_Q_STATUS_port (i : Nat) : Fld := ⟨0x81004 + 0x80 * i, 7, 4⟩
def RAWC_Q_STATUS_busy (i : Nat) : Fld := ⟨0x81004 + 0x80 * i, 8, 8⟩
def RAWC_Q_STATUS_resetting (i : Nat) : Fld := ⟨0x81004 + 0x80 * i, 9, 9⟩
def RAWC_Q_STATUS_bad_tail (i : Nat) : Fld := ⟨0x81004 + 0x80 * i, 10, 10⟩
def RAWC_Q_STATUS_bad_cfg (i : Nat) : Fld := ⟨0x81004 + 0x80 * i, 11, 11⟩
def RAWC_Q_SQ_LO_base_lo (i : Nat) : Fld := ⟨0x81008 + 0x80 * i, 31, 12⟩
def RAWC_Q_SQ_HI_base_hi (i : Nat) : Fld := ⟨0x8100c + 0x80 * i, 5, 0⟩
def RAWC_Q_CQ_LO_base_lo (i : Nat) : Fld := ⟨0x81010 + 0x80 * i, 31, 12⟩
def RAWC_Q_CQ_HI_base_hi (i : Nat) : Fld := ⟨0x81014 + 0x80 * i, 5, 0⟩
def RAWC_Q_SIZE_log_size (i : Nat) : Fld := ⟨0x81018 + 0x80 * i, 3, 0⟩
def RAWC_Q_SLOT_LO_base_lo (i : Nat) : Fld := ⟨0x81030 + 0x80 * i, 31, 12⟩
def RAWC_Q_SLOT_HI_base_hi (i : Nat) : Fld := ⟨0x81034 + 0x80 * i, 5, 0⟩
def RAWC_Q_SLOT_SIZE_slot_size (i : Nat) : Fld := ⟨0x81038 + 0x80 * i, 31, 12⟩
def RAWC_Q_SLOT_COUNT_slot_count (i : Nat) : Fld := ⟨0x8103c + 0x80 * i, 8, 0⟩
def RAWC_Q_SQ_TAIL_index (i : Nat) : Fld := ⟨0x8101c + 0x80 * i, 15, 0⟩
def RAWC_Q_SQ_HEAD_index (i : Nat) : Fld := ⟨0x81020 + 0x80 * i, 15, 0⟩
def RAWC_Q_CQ_HEAD_index (i : Nat) : Fld := ⟨0x81024 + 0x80 * i, 15, 0⟩
def RAWC_Q_CQ_TAIL_index (i : Nat) : Fld := ⟨0x81028 + 0x80 * i, 15, 0⟩
def RAWC_Q_DROPPED_index (i : Nat) : Fld := ⟨0x8102c + 0x80 * i, 15, 0⟩
def RAWC_Q_JOBS_count (i : Nat) : Fld := ⟨0x81040 + 0x80 * i, 31, 0⟩
def RAWC_Q_FAILED_count (i : Nat) : Fld := ⟨0x81044 + 0x80 * i, 31, 0⟩
def RAWC_Q_DAMAGED_count (i : Nat) : Fld := ⟨0x81048 + 0x80 * i, 31, 0⟩
def RAWC_Q_IGNORED_count (i : Nat) : Fld := ⟨0x81050 + 0x80 * i, 31, 0⟩
def RAWC_Q_NEXT_SEQ_value (i : Nat) : Fld := ⟨0x8104c + 0x80 * i, 31, 0⟩
def HEVC_EVT_bits (i : Nat) : Fld := ⟨0xa0000 + 0x4 * i, 31, 0⟩
def HEVC_EVT_MASK_value (i : Nat) : Fld := ⟨0xa0008 + 0x4 * i, 31, 0⟩
def HEVC_PREEMPT_max_rows : Fld := ⟨0xa0010, 7, 0⟩
def HEVC_POOL_BASE_LO_base_lo : Fld := ⟨0xa0020, 31, 12⟩
def HEVC_POOL_BASE_HI_base_hi : Fld := ⟨0xa0024, 5, 0⟩
def HEVC_POOL_BUF_SIZE_buf_size : Fld := ⟨0xa0028, 31, 12⟩
def HEVC_POOL_COUNT_count : Fld := ⟨0xa002c, 9, 0⟩
def HEVC_POOL_CTRL_enable : Fld := ⟨0xa0030, 0, 0⟩
def HEVC_POOL_STATUS_free : Fld := ⟨0xa0034, 9, 0⟩
def HEVC_POOL_STATUS_bad_cfg : Fld := ⟨0xa0034, 10, 10⟩
def HEVC_POOL_STATUS_quota_busy : Fld := ⟨0xa0034, 11, 11⟩
def HEVC_POOL_STATUS_quota_sum : Fld := ⟨0xa0034, 25, 16⟩
def HEVC_POOL_MARK_current (i : Nat) : Fld := ⟨0xa0800 + 0x4 * i, 0, 0⟩
def HEVC_POOL_MARK_short_ref (i : Nat) : Fld := ⟨0xa0800 + 0x4 * i, 1, 1⟩
def HEVC_POOL_MARK_long_ref (i : Nat) : Fld := ⟨0xa0800 + 0x4 * i, 2, 2⟩
def HEVC_POOL_MARK_output_wait (i : Nat) : Fld := ⟨0xa0800 + 0x4 * i, 3, 3⟩
def HEVC_POOL_MARK_session (i : Nat) : Fld := ⟨0xa0800 + 0x4 * i, 13, 8⟩
def HEVC_SES_CTRL_commit (i : Nat) : Fld := ⟨0xa1000 + 0x100 * i, 0, 0⟩
def HEVC_SES_CTRL_reset (i : Nat) : Fld := ⟨0xa1000 + 0x100 * i, 1, 1⟩
def HEVC_SES_STATUS_commit_state (i : Nat) : Fld := ⟨0xa1004 + 0x100 * i, 3, 0⟩
def HEVC_SES_STATUS_running (i : Nat) : Fld := ⟨0xa1004 + 0x100 * i, 4, 4⟩
def HEVC_SES_STATUS_resetting (i : Nat) : Fld := ⟨0xa1004 + 0x100 * i, 5, 5⟩
def HEVC_SES_STATUS_bad_tail (i : Nat) : Fld := ⟨0xa1004 + 0x100 * i, 6, 6⟩
def HEVC_SES_STATUS_bad_cfg (i : Nat) : Fld := ⟨0xa1004 + 0x100 * i, 7, 7⟩
def HEVC_SES_STATUS_unsupported (i : Nat) : Fld := ⟨0xa1004 + 0x100 * i, 8, 8⟩
def HEVC_SES_GEN_value (i : Nat) : Fld := ⟨0xa1008 + 0x100 * i, 31, 0⟩
def HEVC_SES_GEN_PEND_value (i : Nat) : Fld := ⟨0xa100c + 0x100 * i, 31, 0⟩
def HEVC_SES_QUOTA_quota (i : Nat) : Fld := ⟨0xa1010 + 0x100 * i, 9, 0⟩
def HEVC_SES_PRIO_live (i : Nat) : Fld := ⟨0xa1014 + 0x100 * i, 0, 0⟩
def HEVC_SES_HELD_held (i : Nat) : Fld := ⟨0xa1018 + 0x100 * i, 9, 0⟩
def HEVC_SES_SIZE_width (i : Nat) : Fld := ⟨0xa1020 + 0x100 * i, 13, 0⟩
def HEVC_SES_SIZE_height (i : Nat) : Fld := ⟨0xa1020 + 0x100 * i, 28, 16⟩
def HEVC_SES_MODE_run (i : Nat) : Fld := ⟨0xa1024 + 0x100 * i, 0, 0⟩
def HEVC_SES_MODE_chroma (i : Nat) : Fld := ⟨0xa1024 + 0x100 * i, 1, 1⟩
def HEVC_SES_MODE_hash (i : Nat) : Fld := ⟨0xa1024 + 0x100 * i, 2, 2⟩
def HEVC_SES_MODE_gop (i : Nat) : Fld := ⟨0xa1024 + 0x100 * i, 3, 3⟩
def HEVC_SES_MODE_refs (i : Nat) : Fld := ⟨0xa1024 + 0x100 * i, 6, 4⟩
def HEVC_SES_MODE_idr_req (i : Nat) : Fld := ⟨0xa1024 + 0x100 * i, 7, 7⟩
def HEVC_SES_MODE_effort (i : Nat) : Fld := ⟨0xa1024 + 0x100 * i, 9, 8⟩
def HEVC_SES_MODE_level (i : Nat) : Fld := ⟨0xa1024 + 0x100 * i, 23, 16⟩
def HEVC_SES_GOP_idr_period (i : Nat) : Fld := ⟨0xa1028 + 0x100 * i, 15, 0⟩
def HEVC_SES_GOP_rows_per_slice (i : Nat) : Fld := ⟨0xa1028 + 0x100 * i, 23, 16⟩
def HEVC_SES_RC_qp_base (i : Nat) : Fld := ⟨0xa102c + 0x100 * i, 7, 0⟩
def HEVC_SES_RC_qp_i_off (i : Nat) : Fld := ⟨0xa102c + 0x100 * i, 15, 8⟩
def HEVC_SES_RC_qp_min (i : Nat) : Fld := ⟨0xa102c + 0x100 * i, 23, 16⟩
def HEVC_SES_RC_qp_max (i : Nat) : Fld := ⟨0xa102c + 0x100 * i, 31, 24⟩
def HEVC_SES_CAP_cap_bytes (i : Nat) : Fld := ⟨0xa1030 + 0x100 * i, 26, 0⟩
def HEVC_SES_VUI_primaries (i : Nat) : Fld := ⟨0xa1034 + 0x100 * i, 7, 0⟩
def HEVC_SES_VUI_transfer (i : Nat) : Fld := ⟨0xa1034 + 0x100 * i, 15, 8⟩
def HEVC_SES_VUI_matrix (i : Nat) : Fld := ⟨0xa1034 + 0x100 * i, 23, 16⟩
def HEVC_SES_VUI_full_range (i : Nat) : Fld := ⟨0xa1034 + 0x100 * i, 24, 24⟩
def HEVC_SES_VUI_vui (i : Nat) : Fld := ⟨0xa1034 + 0x100 * i, 25, 25⟩
def HEVC_SES_BS_LO_base_lo (i : Nat) : Fld := ⟨0xa1038 + 0x100 * i, 31, 12⟩
def HEVC_SES_BS_HI_base_hi (i : Nat) : Fld := ⟨0xa103c + 0x100 * i, 5, 0⟩
def HEVC_SES_BS_SIZE_bs_size (i : Nat) : Fld := ⟨0xa1040 + 0x100 * i, 31, 12⟩
def HEVC_SES_OUT_LO_base_lo (i : Nat) : Fld := ⟨0xa1044 + 0x100 * i, 31, 12⟩
def HEVC_SES_OUT_HI_base_hi (i : Nat) : Fld := ⟨0xa1048 + 0x100 * i, 5, 0⟩
def HEVC_SES_OUT_PITCH_out_pitch (i : Nat) : Fld := ⟨0xa104c + 0x100 * i, 23, 6⟩
def HEVC_SES_OUT_BUF_out_bufs (i : Nat) : Fld := ⟨0xa1050 + 0x100 * i, 2, 0⟩
def HEVC_SES_OUT_STRIDE_out_stride (i : Nat) : Fld := ⟨0xa1054 + 0x100 * i, 31, 12⟩
def HEVC_SES_SQ_LO_base_lo (i : Nat) : Fld := ⟨0xa1080 + 0x100 * i, 31, 12⟩
def HEVC_SES_SQ_HI_base_hi (i : Nat) : Fld := ⟨0xa1084 + 0x100 * i, 5, 0⟩
def HEVC_SES_CQ_LO_base_lo (i : Nat) : Fld := ⟨0xa1088 + 0x100 * i, 31, 12⟩
def HEVC_SES_CQ_HI_base_hi (i : Nat) : Fld := ⟨0xa108c + 0x100 * i, 5, 0⟩
def HEVC_SES_RING_SIZE_log_size (i : Nat) : Fld := ⟨0xa1090 + 0x100 * i, 3, 0⟩
def HEVC_SES_SQ_TAIL_index (i : Nat) : Fld := ⟨0xa1094 + 0x100 * i, 15, 0⟩
def HEVC_SES_SQ_HEAD_index (i : Nat) : Fld := ⟨0xa1098 + 0x100 * i, 15, 0⟩
def HEVC_SES_NEXT_SEQ_value (i : Nat) : Fld := ⟨0xa109c + 0x100 * i, 31, 0⟩
def HEVC_SES_DROPPED_dropped (i : Nat) : Fld := ⟨0xa10a0 + 0x100 * i, 15, 0⟩
def HEVC_SES_DISCARDED_count (i : Nat) : Fld := ⟨0xa10a4 + 0x100 * i, 31, 0⟩
def HEVC_SES_CONCEALED_count (i : Nat) : Fld := ⟨0xa10a8 + 0x100 * i, 31, 0⟩
def HEVC_SES_SEI_BAD_count (i : Nat) : Fld := ⟨0xa10ac + 0x100 * i, 31, 0⟩
def HEVC_SES_PKT_DROP_count (i : Nat) : Fld := ⟨0xa10b0 + 0x100 * i, 31, 0⟩
def HEVC_SES_EPB_value (i : Nat) : Fld := ⟨0xa10b4 + 0x100 * i, 31, 0⟩
def WALL_CTRL_enable : Fld := ⟨0xc0000, 0, 0⟩
def WALL_STATUS_running : Fld := ⟨0xc0004, 0, 0⟩
def WALL_STATUS_bad_cfg : Fld := ⟨0xc0004, 1, 1⟩
def WALL_FRAME_value : Fld := ⟨0xc0008, 31, 0⟩
def WALL_MODE_RATE_num : Fld := ⟨0xc0010, 17, 0⟩
def WALL_MODE_RATE_den : Fld := ⟨0xc0010, 27, 18⟩
def WALL_MODE_PHASE_phase : Fld := ⟨0xc0014, 29, 0⟩
def WALL_MODE_LEAD_lead : Fld := ⟨0xc0018, 15, 0⟩
def WALL_MODE_LEAD_margin : Fld := ⟨0xc0018, 31, 16⟩
def WALL_MODE_CTRL_commit : Fld := ⟨0xc001c, 0, 0⟩
def WALL_MODE_STATUS_state : Fld := ⟨0xc0020, 2, 0⟩
def WALL_MODE_ORG_FRAME_value : Fld := ⟨0xc0024, 31, 0⟩
def WALL_MODE_ORG_SEC_value (i : Nat) : Fld := ⟨0xc0028 + 0x4 * i, 31, 0⟩
def WALL_MODE_GEN_value : Fld := ⟨0xc0030, 31, 0⟩
def WALL_REFRESH_period : Fld := ⟨0xc0034, 15, 0⟩
def WALL_COMMIT_RANGE_first : Fld := ⟨0xc0040, 13, 0⟩
def WALL_COMMIT_RANGE_count : Fld := ⟨0xc0040, 30, 16⟩
def WALL_COMMIT_CTRL_go : Fld := ⟨0xc0044, 0, 0⟩
def WALL_COMMIT_CTRL_layers : Fld := ⟨0xc0044, 1, 1⟩
def WALL_COMMIT_STATUS_state : Fld := ⟨0xc0048, 3, 0⟩
def WALL_COMMIT_STATUS_ctx : Fld := ⟨0xc0048, 29, 16⟩
def WALL_HASH_LO_addr_lo : Fld := ⟨0xc0050, 31, 6⟩
def WALL_HASH_HI_addr_hi : Fld := ⟨0xc0054, 5, 0⟩
def WALL_SEAM_LO_addr_lo : Fld := ⟨0xc0058, 31, 6⟩
def WALL_SEAM_HI_addr_hi : Fld := ⟨0xc005c, 5, 0⟩
def WALL_LUT_LO_addr_lo : Fld := ⟨0xc0060, 31, 6⟩
def WALL_LUT_HI_addr_hi : Fld := ⟨0xc0064, 5, 0⟩
def WALL_DECODE_LO_addr_lo : Fld := ⟨0xc0068, 31, 6⟩
def WALL_DECODE_HI_addr_hi : Fld := ⟨0xc006c, 5, 0⟩
def WALL_UNDERRUN_count : Fld := ⟨0xc0070, 31, 0⟩
def WALL_PUSHED_count : Fld := ⟨0xc0074, 31, 0⟩
def WALL_PRINT_BAD_count : Fld := ⟨0xc0078, 31, 0⟩
def WALL_SURF_CFG_enable (i : Nat) : Fld := ⟨0xc1000 + 0x40 * i, 0, 0⟩
def WALL_SURF_CFG_feed (i : Nat) : Fld := ⟨0xc1000 + 0x40 * i, 3, 1⟩
def WALL_SURF_CFG_src (i : Nat) : Fld := ⟨0xc1000 + 0x40 * i, 10, 4⟩
def WALL_SURF_CFG_fmt (i : Nat) : Fld := ⟨0xc1000 + 0x40 * i, 15, 11⟩
def WALL_SURF_CFG_layout (i : Nat) : Fld := ⟨0xc1000 + 0x40 * i, 17, 16⟩
def WALL_SURF_CFG_matrix (i : Nat) : Fld := ⟨0xc1000 + 0x40 * i, 19, 18⟩
def WALL_SURF_CFG_narrow (i : Nat) : Fld := ⟨0xc1000 + 0x40 * i, 20, 20⟩
def WALL_SURF_CFG_decode (i : Nat) : Fld := ⟨0xc1000 + 0x40 * i, 25, 21⟩
def WALL_SURF_SIZE_width (i : Nat) : Fld := ⟨0xc1004 + 0x40 * i, 14, 0⟩
def WALL_SURF_SIZE_height (i : Nat) : Fld := ⟨0xc1004 + 0x40 * i, 30, 16⟩
def WALL_SURF_BASE_LO_base_lo (i : Nat) : Fld := ⟨0xc1008 + 0x40 * i, 31, 12⟩
def WALL_SURF_BASE_HI_base_hi (i : Nat) : Fld := ⟨0xc100c + 0x40 * i, 5, 0⟩
def WALL_SURF_PITCH_pitch (i : Nat) : Fld := ⟨0xc1010 + 0x40 * i, 23, 6⟩
def WALL_SURF_STRIDE_stride (i : Nat) : Fld := ⟨0xc1014 + 0x40 * i, 31, 12⟩
def WALL_SURF_BUF_bufs (i : Nat) : Fld := ⟨0xc1018 + 0x40 * i, 2, 0⟩
def WALL_SURF_HDR_LO_base_lo (i : Nat) : Fld := ⟨0xc101c + 0x40 * i, 31, 12⟩
def WALL_SURF_HDR_HI_base_hi (i : Nat) : Fld := ⟨0xc1020 + 0x40 * i, 5, 0⟩
def WALL_SURF_COMMIT_buf (i : Nat) : Fld := ⟨0xc1024 + 0x40 * i, 1, 0⟩
def WALL_SURF_COMMIT_go (i : Nat) : Fld := ⟨0xc1024 + 0x40 * i, 31, 31⟩
def WALL_SURF_AVAIL_value (i : Nat) : Fld := ⟨0xc1028 + 0x40 * i, 31, 0⟩
def WALL_SURF_BOUND_value (i : Nat) : Fld := ⟨0xc102c + 0x40 * i, 31, 0⟩
def WALL_SURF_STATUS_idle (i : Nat) : Fld := ⟨0xc1030 + 0x40 * i, 0, 0⟩
def WALL_SURF_STATUS_bad_cfg (i : Nat) : Fld := ⟨0xc1030 + 0x40 * i, 1, 1⟩
def WALL_SURF_STATUS_mismatch (i : Nat) : Fld := ⟨0xc1030 + 0x40 * i, 2, 2⟩
def WALL_LAYER_CTRL_enable (i : Nat) : Fld := ⟨0xc8000 + 0x10 * i, 0, 0⟩
def WALL_LAYER_CTRL_surface (i : Nat) : Fld := ⟨0xc8000 + 0x10 * i, 15, 8⟩
def WALL_LAYER_SRC_sx (i : Nat) : Fld := ⟨0xc8004 + 0x10 * i, 14, 0⟩
def WALL_LAYER_SRC_sy (i : Nat) : Fld := ⟨0xc8004 + 0x10 * i, 30, 16⟩
def WALL_LAYER_DST_cx (i : Nat) : Fld := ⟨0xc8008 + 0x10 * i, 15, 0⟩
def WALL_LAYER_DST_cy (i : Nat) : Fld := ⟨0xc8008 + 0x10 * i, 29, 16⟩
def WALL_LAYER_SIZE_w (i : Nat) : Fld := ⟨0xc800c + 0x10 * i, 14, 0⟩
def WALL_LAYER_SIZE_h (i : Nat) : Fld := ⟨0xc800c + 0x10 * i, 30, 16⟩
def WALL_TCTX_CTRL_tctrl (i : Nat) : Fld := ⟨0x400000 + 0x80 * i, 31, 0⟩
def WALL_TCTX_ID_tile_id (i : Nat) : Fld := ⟨0x400004 + 0x80 * i, 31, 0⟩
def WALL_TCTX_XY_xy (i : Nat) : Fld := ⟨0x400008 + 0x80 * i, 31, 0⟩
def WALL_TCTX_WH_wh (i : Nat) : Fld := ⟨0x40000c + 0x80 * i, 31, 0⟩
def WALL_TCTX_KM_km (i : Nat) (j : Nat) : Fld := ⟨0x400010 + 0x80 * i + 0x4 * j, 31, 0⟩
def WALL_TCTX_BG0_bg_rg (i : Nat) : Fld := ⟨0x400034 + 0x80 * i, 31, 0⟩
def WALL_TCTX_BG1_bg_b (i : Nat) : Fld := ⟨0x400038 + 0x80 * i, 31, 0⟩
def WALL_TCTX_RSV_reserved (i : Nat) (j : Nat) : Fld := ⟨0x40003c + 0x80 * i + 0x4 * j, 31, 0⟩
def WALL_TCTX_GEN_gen (i : Nat) : Fld := ⟨0x400060 + 0x80 * i, 31, 0⟩
def WALL_TCTX_LAST_last_frame (i : Nat) : Fld := ⟨0x400064 + 0x80 * i, 31, 0⟩
def WALL_TCTX_PUSHED_pushed (i : Nat) : Fld := ⟨0x400068 + 0x80 * i, 15, 0⟩
def WALL_TCTX_PUSHED_underruns (i : Nat) : Fld := ⟨0x400068 + 0x80 * i, 31, 16⟩
def WALL_TCTX_RSV2_reserved (i : Nat) : Fld := ⟨0x40006c + 0x80 * i, 31, 0⟩
def WALL_TCTX_REPUSH_repush (i : Nat) (j : Nat) : Fld := ⟨0x400070 + 0x80 * i + 0x4 * j, 31, 0⟩
def WALL_TCTX_RSV3_reserved (i : Nat) (j : Nat) : Fld := ⟨0x400078 + 0x80 * i + 0x4 * j, 31, 0⟩
def NET_PHY_CFG_enable (i : Nat) : Fld := ⟨0xe0000 + 0x4 * i, 0, 0⟩
def NET_PHY_CFG_split (i : Nat) : Fld := ⟨0xe0000 + 0x4 * i, 1, 1⟩
def NET_PHY_CFG_kr (i : Nat) : Fld := ⟨0xe0000 + 0x4 * i, 2, 2⟩
def NET_PHY_CFG_link_a (i : Nat) : Fld := ⟨0xe0000 + 0x4 * i, 3, 3⟩
def NET_PHY_CFG_link_b (i : Nat) : Fld := ⟨0xe0000 + 0x4 * i, 4, 4⟩
def NET_IP_value (i : Nat) : Fld := ⟨0xe1000 + 0x4 * i, 31, 0⟩
def NET_RX_UNMATCHED_count : Fld := ⟨0xe1020, 31, 0⟩
def NET_RX_FRAG_count : Fld := ⟨0xe1024, 31, 0⟩
def NET_RX_CFG_enable (i : Nat) : Fld := ⟨0xe2000 + 0x40 * i, 0, 0⟩
def NET_RX_CFG_type (i : Nat) : Fld := ⟨0xe2000 + 0x40 * i, 2, 1⟩
def NET_RX_CFG_port (i : Nat) : Fld := ⟨0xe2000 + 0x40 * i, 5, 3⟩
def NET_RX_CFG_member (i : Nat) : Fld := ⟨0xe2000 + 0x40 * i, 6, 6⟩
def NET_RX_CFG_pt (i : Nat) : Fld := ⟨0xe2000 + 0x40 * i, 13, 7⟩
def NET_RX_CFG_udp_port (i : Nat) : Fld := ⟨0xe2000 + 0x40 * i, 31, 16⟩
def NET_RX_DST_IP_value (i : Nat) : Fld := ⟨0xe2004 + 0x40 * i, 31, 0⟩
def NET_RX_SRC_IP_value (i : Nat) : Fld := ⟨0xe2008 + 0x40 * i, 31, 0⟩
def NET_RX_MEDIA_session (i : Nat) : Fld := ⟨0xe200c + 0x40 * i, 5, 0⟩
def NET_RX_MEDIA_chans (i : Nat) : Fld := ⟨0xe200c + 0x40 * i, 11, 6⟩
def NET_RX_MEDIA_l24 (i : Nat) : Fld := ⟨0xe200c + 0x40 * i, 12, 12⟩
def NET_RX_MEDIA_group (i : Nat) : Fld := ⟨0xe200c + 0x40 * i, 15, 13⟩
def NET_RX_MEDIA_offset (i : Nat) : Fld := ⟨0xe200c + 0x40 * i, 31, 16⟩
def NET_RX_BUF_LO_base_lo (i : Nat) : Fld := ⟨0xe2010 + 0x40 * i, 31, 12⟩
def NET_RX_BUF_HI_base_hi (i : Nat) : Fld := ⟨0xe2014 + 0x40 * i, 5, 0⟩
def NET_RX_BUF_SIZE_buf_size (i : Nat) : Fld := ⟨0xe2018 + 0x40 * i, 27, 12⟩
def NET_RX_PKTS_count (i : Nat) : Fld := ⟨0xe2020 + 0x40 * i, 31, 0⟩
def NET_RX_DROP_count (i : Nat) : Fld := ⟨0xe2024 + 0x40 * i, 31, 0⟩
def NET_RX_CUT_count (i : Nat) : Fld := ⟨0xe2028 + 0x40 * i, 31, 0⟩
def NET_RX_STATUS_active (i : Nat) : Fld := ⟨0xe202c + 0x40 * i, 0, 0⟩
def NET_RX_STATUS_bad_cfg (i : Nat) : Fld := ⟨0xe202c + 0x40 * i, 1, 1⟩
def NET_RX_STATUS_last_seq (i : Nat) : Fld := ⟨0xe202c + 0x40 * i, 31, 16⟩
def NET_TX_CFG_enable (i : Nat) : Fld := ⟨0xe4000 + 0x40 * i, 0, 0⟩
def NET_TX_CFG_port (i : Nat) : Fld := ⟨0xe4000 + 0x40 * i, 5, 3⟩
def NET_TX_CFG_pt (i : Nat) : Fld := ⟨0xe4000 + 0x40 * i, 13, 7⟩
def NET_TX_CFG_dst_port (i : Nat) : Fld := ⟨0xe4000 + 0x40 * i, 31, 16⟩
def NET_TX_DST_IP_value (i : Nat) : Fld := ⟨0xe4004 + 0x40 * i, 31, 0⟩
def NET_TX_DST_MAC_LO_value (i : Nat) : Fld := ⟨0xe4008 + 0x40 * i, 31, 0⟩
def NET_TX_DST_MAC_HI_mac_hi (i : Nat) : Fld := ⟨0xe400c + 0x40 * i, 15, 0⟩
def NET_TX_SSRC_value (i : Nat) : Fld := ⟨0xe4010 + 0x40 * i, 31, 0⟩
def NET_TX_MEDIA_V_pkt_px (i : Nat) : Fld := ⟨0xe4014 + 0x40 * i, 13, 0⟩
def NET_TX_MEDIA_H_max_payload (i : Nat) : Fld := ⟨0xe4214 + 0x40 * i, 10, 0⟩
def NET_TX_MEDIA_H_ts_step (i : Nat) : Fld := ⟨0xe4214 + 0x40 * i, 31, 16⟩
def NET_TX_MEDIA_A_count (i : Nat) : Fld := ⟨0xe5214 + 0x40 * i, 5, 0⟩
def NET_TX_MEDIA_A_first (i : Nat) : Fld := ⟨0xe5214 + 0x40 * i, 12, 6⟩
def NET_TX_MEDIA_A_l24 (i : Nat) : Fld := ⟨0xe5214 + 0x40 * i, 13, 13⟩
def NET_TX_MEDIA_A_short (i : Nat) : Fld := ⟨0xe5214 + 0x40 * i, 14, 14⟩
def NET_TX_MEDIA_A_group (i : Nat) : Fld := ⟨0xe5214 + 0x40 * i, 17, 15⟩
def NET_TX_IPH_dscp (i : Nat) : Fld := ⟨0xe4018 + 0x40 * i, 5, 0⟩
def NET_TX_IPH_ttl (i : Nat) : Fld := ⟨0xe4018 + 0x40 * i, 15, 8⟩
def NET_TX_IPH_src_port (i : Nat) : Fld := ⟨0xe4018 + 0x40 * i, 31, 16⟩
def NET_TX_GAP_gap_ns (i : Nat) : Fld := ⟨0xe401c + 0x40 * i, 15, 0⟩
def NET_TX_PKTS_count (i : Nat) : Fld := ⟨0xe4020 + 0x40 * i, 31, 0⟩
def NET_TX_DROP_count (i : Nat) : Fld := ⟨0xe4024 + 0x40 * i, 31, 0⟩
def NET_TX_STATUS_active (i : Nat) : Fld := ⟨0xe402c + 0x40 * i, 0, 0⟩
def NET_TX_STATUS_bad_cfg (i : Nat) : Fld := ⟨0xe402c + 0x40 * i, 1, 1⟩
def FEN_CFG_enable : Fld := ⟨0xe8000, 0, 0⟩
def FEN_CFG_vlan : Fld := ⟨0xe8000, 1, 1⟩
def FEN_CFG_pcp : Fld := ⟨0xe8000, 4, 2⟩
def FEN_CFG_vid : Fld := ⟨0xe8000, 27, 16⟩
def FEN_ETYPE_etype : Fld := ⟨0xe8004, 15, 0⟩
def FEN_ADDR_wall_id : Fld := ⟨0xe8008, 15, 0⟩
def FEN_ADDR_pair : Fld := ⟨0xe8008, 23, 16⟩
def FEN_ADDR_unit : Fld := ⟨0xe8008, 31, 24⟩
def FEN_TILE_MAC_LO_mac_lo : Fld := ⟨0xe800c, 31, 0⟩
def FEN_TILE_MAC_HI_mac_hi : Fld := ⟨0xe8010, 15, 0⟩
def FEN_BELAY_MAC_LO_mac_lo : Fld := ⟨0xe8014, 31, 0⟩
def FEN_BELAY_MAC_HI_mac_hi : Fld := ⟨0xe8018, 15, 0⟩
def FEN_SRC_MAC_LO_mac_lo : Fld := ⟨0xe801c, 31, 0⟩
def FEN_SRC_MAC_HI_mac_hi : Fld := ⟨0xe8020, 15, 0⟩
def FEN_PORTS_beacon_ports : Fld := ⟨0xe8024, 7, 0⟩
def FEN_PORTS_jnl_ports : Fld := ⟨0xe8024, 15, 8⟩
def FEN_PORTS_rx_ports : Fld := ⟨0xe8024, 23, 16⟩
def FEN_BELAY_CFG_belay : Fld := ⟨0xe8030, 0, 0⟩
def FEN_BELAY_CFG_start_lead : Fld := ⟨0xe8030, 1, 1⟩
def FEN_BELAY_CFG_silence_n : Fld := ⟨0xe8030, 5, 2⟩
def FEN_BELAY_CFG_auto_follow : Fld := ⟨0xe8030, 6, 6⟩
def FEN_BELAY_CTRL_force_lead : Fld := ⟨0xe8034, 0, 0⟩
def FEN_BELAY_CTRL_force_second : Fld := ⟨0xe8034, 1, 1⟩
def FEN_BELAY_STATUS_role : Fld := ⟨0xe8038, 1, 0⟩
def FEN_BELAY_STATUS_peer : Fld := ⟨0xe8038, 2, 2⟩
def FEN_BELAY_STATUS_peer_silent : Fld := ⟨0xe8038, 3, 3⟩
def FEN_BELAY_STATUS_role_lost : Fld := ⟨0xe8038, 4, 4⟩
def FEN_BELAY_STATUS_bad_cfg : Fld := ⟨0xe8038, 5, 5⟩
def FEN_BELAY_STATUS_missing : Fld := ⟨0xe8038, 11, 8⟩
def FEN_EPOCH_SEED_value : Fld := ⟨0xe803c, 31, 0⟩
def FEN_FOLLOW_src_unit : Fld := ⟨0xe8040, 7, 0⟩
def FEN_FOLLOW_src_pair : Fld := ⟨0xe8040, 15, 8⟩
def FEN_EVT_takeover : Fld := ⟨0xe8044, 0, 0⟩
def FEN_EVT_role_lost : Fld := ⟨0xe8044, 1, 1⟩
def FEN_EVT_dig_mismatch : Fld := ⟨0xe8044, 2, 2⟩
def FEN_EVT_stale_lead : Fld := ⟨0xe8044, 3, 3⟩
def FEN_EVT_peer_silent : Fld := ⟨0xe8044, 4, 4⟩
def FEN_EVT_cal_sent : Fld := ⟨0xe8044, 5, 5⟩
def FEN_EVT_MASK_value : Fld := ⟨0xe8048, 31, 0⟩
def FEN_CUR_EPOCH_value : Fld := ⟨0xe8050, 31, 0⟩
def FEN_LEAD_unit : Fld := ⟨0xe8054, 7, 0⟩
def FEN_TAKEOVERS_count : Fld := ⟨0xe8060, 31, 0⟩
def FEN_ROLE_LOST_COUNT_count : Fld := ⟨0xe8064, 31, 0⟩
def FEN_BEACON_MISS_count : Fld := ⟨0xe8068, 31, 0⟩
def FEN_STALE_count : Fld := ⟨0xe806c, 31, 0⟩
def FEN_JNL_TX_count : Fld := ⟨0xe8070, 31, 0⟩
def FEN_JNL_RX_count : Fld := ⟨0xe8074, 31, 0⟩
def FEN_JNL_DUP_count : Fld := ⟨0xe8078, 31, 0⟩
def FEN_RX_BAD_count : Fld := ⟨0xe807c, 31, 0⟩
def FEN_DIG_MATCH_count : Fld := ⟨0xe80a0, 31, 0⟩
def FEN_DIG_MISMATCH_count : Fld := ⟨0xe80a4, 31, 0⟩
def FEN_CAL_ADDR_LO_addr_lo : Fld := ⟨0xe8080, 31, 6⟩
def FEN_CAL_ADDR_HI_addr_hi : Fld := ⟨0xe8084, 5, 0⟩
def FEN_CAL_DESC_tile_id : Fld := ⟨0xe8088, 15, 0⟩
def FEN_CAL_DESC_class : Fld := ⟨0xe8088, 23, 16⟩
def FEN_CAL_CTRL_len : Fld := ⟨0xe808c, 10, 0⟩
def FEN_CAL_CTRL_go : Fld := ⟨0xe808c, 31, 31⟩
def FEN_CAL_STATUS_state : Fld := ⟨0xe8090, 2, 0⟩
def FEN_CAL_STATUS_cal_seq : Fld := ⟨0xe8090, 31, 16⟩
def FEN_DIG_LAST_BAD_value : Fld := ⟨0xe80a8, 31, 0⟩
def FEN_P_PUSH_count (i : Nat) : Fld := ⟨0xe8100 + 0x10 * i, 31, 0⟩
def FEN_P_PRESENT_count (i : Nat) : Fld := ⟨0xe8104 + 0x10 * i, 31, 0⟩
def FEN_P_CTRL_count (i : Nat) : Fld := ⟨0xe8108 + 0x10 * i, 31, 0⟩
def FEN_P_DOWN_count (i : Nat) : Fld := ⟨0xe810c + 0x10 * i, 31, 0⟩
def ANCHOR_CTRL_src : Fld := ⟨0xf0000, 2, 0⟩
def ANCHOR_STATUS_state : Fld := ⟨0xf0004, 1, 0⟩
def ANCHOR_STATUS_src_used : Fld := ⟨0xf0004, 4, 2⟩
def ANCHOR_STATUS_stepped : Fld := ⟨0xf0004, 5, 5⟩
def ANCHOR_STATUS_bad_cfg : Fld := ⟨0xf0004, 6, 6⟩
def ANCHOR_STATUS_pps_seen : Fld := ⟨0xf0004, 7, 7⟩
def ANCHOR_STATUS_ref10_ok : Fld := ⟨0xf0004, 8, 8⟩
def ANCHOR_STATUS_holdover_s : Fld := ⟨0xf0004, 31, 16⟩
def ANCHOR_NS_ns : Fld := ⟨0xf0008, 29, 0⟩
def ANCHOR_SEC_value (i : Nat) : Fld := ⟨0xf000c + 0x4 * i, 31, 0⟩
def ANCHOR_FRAC_frac : Fld := ⟨0xf0014, 15, 0⟩
def ANCHOR_RATE_value : Fld := ⟨0xf0018, 31, 0⟩
def ANCHOR_OFFSET_value : Fld := ⟨0xf001c, 31, 0⟩
def ANCHOR_SET_NS_ns : Fld := ⟨0xf0020, 29, 0⟩
def ANCHOR_SET_SEC_value (i : Nat) : Fld := ⟨0xf0024 + 0x4 * i, 31, 0⟩
def ANCHOR_SET_CTRL_go : Fld := ⟨0xf002c, 0, 0⟩
def ANCHOR_SET_CTRL_refused : Fld := ⟨0xf002c, 1, 1⟩
def ANCHOR_PPS_SEC_value (i : Nat) : Fld := ⟨0xf0030 + 0x4 * i, 31, 0⟩
def ANCHOR_PPS_BAD_count : Fld := ⟨0xf0038, 31, 0⟩
def ANCHOR_SERVO_step_thr : Fld := ⟨0xf003c, 15, 0⟩
def ANCHOR_SERVO_slew_max : Fld := ⟨0xf003c, 26, 16⟩
def ANCHOR_SERVO_no_step : Fld := ⟨0xf003c, 27, 27⟩
def ANCHOR_PTP_CFG_enable : Fld := ⟨0xf0040, 0, 0⟩
def ANCHOR_PTP_CFG_bc : Fld := ⟨0xf0040, 1, 1⟩
def ANCHOR_PTP_CFG_slave_only : Fld := ⟨0xf0040, 2, 2⟩
def ANCHOR_PTP_CFG_two_step : Fld := ⟨0xf0040, 3, 3⟩
def ANCHOR_PTP_CFG_udp : Fld := ⟨0xf0040, 4, 4⟩
def ANCHOR_PTP_CFG_profile : Fld := ⟨0xf0040, 5, 5⟩
def ANCHOR_PTP_CFG_domain : Fld := ⟨0xf0040, 15, 8⟩
def ANCHOR_PTP_CFG_priority1 : Fld := ⟨0xf0040, 23, 16⟩
def ANCHOR_PTP_CFG_priority2 : Fld := ⟨0xf0040, 31, 24⟩
def ANCHOR_PTP_PORTS_ports : Fld := ⟨0xf0044, 7, 0⟩
def ANCHOR_PTP_INTV_log_sync : Fld := ⟨0xf0048, 7, 0⟩
def ANCHOR_PTP_INTV_log_announce : Fld := ⟨0xf0048, 15, 8⟩
def ANCHOR_PTP_INTV_log_delay_req : Fld := ⟨0xf0048, 23, 16⟩
def ANCHOR_PTP_INTV_announce_timeout : Fld := ⟨0xf0048, 27, 24⟩
def ANCHOR_PTP_DS_clock_class : Fld := ⟨0xf004c, 7, 0⟩
def ANCHOR_PTP_DS_clock_accuracy : Fld := ⟨0xf004c, 15, 8⟩
def ANCHOR_PTP_DS_variance : Fld := ⟨0xf004c, 31, 16⟩
def ANCHOR_PTP_ID_value (i : Nat) : Fld := ⟨0xf0050 + 0x4 * i, 31, 0⟩
def ANCHOR_PTP_IP_value : Fld := ⟨0xf0058, 31, 0⟩
def ANCHOR_PTP_STATE_value : Fld := ⟨0xf005c, 31, 0⟩
def ANCHOR_PTP_RX_IGN_count : Fld := ⟨0xf0060, 31, 0⟩
def ANCHOR_FC_FRAME_value : Fld := ⟨0xf0080, 31, 0⟩
def ANCHOR_EVT_locked : Fld := ⟨0xf0090, 0, 0⟩
def ANCHOR_EVT_holdover : Fld := ⟨0xf0090, 1, 1⟩
def ANCHOR_EVT_step : Fld := ⟨0xf0090, 2, 2⟩
def ANCHOR_EVT_tsq : Fld := ⟨0xf0090, 10, 3⟩
def ANCHOR_EVT_txi : Fld := ⟨0xf0090, 11, 11⟩
def ANCHOR_EVT_MASK_value : Fld := ⟨0xf0094, 31, 0⟩
def ANCHOR_TMR_EVT_bits : Fld := ⟨0xf0098, 31, 0⟩
def ANCHOR_TMR_EVT_MASK_value : Fld := ⟨0xf009c, 31, 0⟩
def ANCHOR_TSQ_ID_id (i : Nat) : Fld := ⟨0xf0100 + 0x20 * i, 15, 0⟩
def ANCHOR_TSQ_ID_valid (i : Nat) : Fld := ⟨0xf0100 + 0x20 * i, 16, 16⟩
def ANCHOR_TSQ_NS_ns (i : Nat) : Fld := ⟨0xf0104 + 0x20 * i, 29, 0⟩
def ANCHOR_TSQ_SEC_value (i : Nat) (j : Nat) : Fld := ⟨0xf0108 + 0x20 * i + 0x4 * j, 31, 0⟩
def ANCHOR_TSQ_FRAC_frac (i : Nat) : Fld := ⟨0xf0110 + 0x20 * i, 15, 0⟩
def ANCHOR_TSQ_OVF_count (i : Nat) : Fld := ⟨0xf0114 + 0x20 * i, 31, 0⟩
def ANCHOR_TXI_CTRL_len : Fld := ⟨0xf0200, 10, 0⟩
def ANCHOR_TXI_CTRL_port : Fld := ⟨0xf0200, 13, 11⟩
def ANCHOR_TXI_CTRL_ts : Fld := ⟨0xf0200, 14, 14⟩
def ANCHOR_TXI_CTRL_go : Fld := ⟨0xf0200, 15, 15⟩
def ANCHOR_TXI_CTRL_state : Fld := ⟨0xf0200, 18, 16⟩
def ANCHOR_TXI_ID_id : Fld := ⟨0xf0204, 15, 0⟩
def ANCHOR_TXI_BUF_value (i : Nat) : Fld := ⟨0xf0800 + 0x4 * i, 31, 0⟩
def ANCHOR_TMR_CTRL_enable (i : Nat) : Fld := ⟨0xf1000 + 0x20 * i, 0, 0⟩
def ANCHOR_TMR_CTRL_periodic (i : Nat) : Fld := ⟨0xf1000 + 0x20 * i, 1, 1⟩
def ANCHOR_TMR_CTRL_src (i : Nat) : Fld := ⟨0xf1000 + 0x20 * i, 2, 2⟩
def ANCHOR_TMR_CTRL_pulse (i : Nat) : Fld := ⟨0xf1000 + 0x20 * i, 3, 3⟩
def ANCHOR_TMR_CTRL_width (i : Nat) : Fld := ⟨0xf1000 + 0x20 * i, 31, 16⟩
def ANCHOR_TMR_T_NS_value (i : Nat) : Fld := ⟨0xf1004 + 0x20 * i, 31, 0⟩
def ANCHOR_TMR_T_SEC_value (i : Nat) (j : Nat) : Fld := ⟨0xf1008 + 0x20 * i + 0x4 * j, 31, 0⟩
def ANCHOR_TMR_PERIOD_NS_value (i : Nat) : Fld := ⟨0xf1010 + 0x20 * i, 31, 0⟩
def ANCHOR_TMR_PERIOD_FRAC_frac (i : Nat) : Fld := ⟨0xf1014 + 0x20 * i, 15, 0⟩
def ANCHOR_TMR_STATUS_armed (i : Nat) : Fld := ⟨0xf1018 + 0x20 * i, 0, 0⟩
def ANCHOR_TMR_STATUS_late (i : Nat) : Fld := ⟨0xf1018 + 0x20 * i, 1, 1⟩
def ANCHOR_TMR_STATUS_bad_cfg (i : Nat) : Fld := ⟨0xf1018 + 0x20 * i, 2, 2⟩
def ANCHOR_TMR_STATUS_missed (i : Nat) : Fld := ⟨0xf1018 + 0x20 * i, 31, 16⟩
def AUD_SAP_CFG_fmt (i : Nat) : Fld := ⟨0xf8000 + 0x40 * i, 1, 0⟩
def AUD_SAP_CFG_dir (i : Nat) : Fld := ⟨0xf8000 + 0x40 * i, 2, 2⟩
def AUD_SAP_CFG_slots (i : Nat) : Fld := ⟨0xf8000 + 0x40 * i, 6, 3⟩
def AUD_SAP_CFG_slot_w (i : Nat) : Fld := ⟨0xf8000 + 0x40 * i, 8, 7⟩
def AUD_SAP_CFG_sample_w (i : Nat) : Fld := ⟨0xf8000 + 0x40 * i, 9, 9⟩
def AUD_SAP_CFG_delay (i : Nat) : Fld := ⟨0xf8000 + 0x40 * i, 10, 10⟩
def AUD_SAP_CFG_bclk_inv (i : Nat) : Fld := ⟨0xf8000 + 0x40 * i, 11, 11⟩
def AUD_SAP_CFG_fs_inv (i : Nat) : Fld := ⟨0xf8000 + 0x40 * i, 12, 12⟩
def AUD_SAP_CFG_group (i : Nat) : Fld := ⟨0xf8000 + 0x40 * i, 15, 13⟩
def AUD_SAP_CFG_member (i : Nat) : Fld := ⟨0xf8000 + 0x40 * i, 16, 16⟩
def AUD_SAP_STATUS_clock_lost (i : Nat) : Fld := ⟨0xf8004 + 0x40 * i, 0, 0⟩
def AUD_SAP_STATUS_rate_bad (i : Nat) : Fld := ⟨0xf8004 + 0x40 * i, 1, 1⟩
def AUD_SAP_STATUS_muted (i : Nat) : Fld := ⟨0xf8004 + 0x40 * i, 2, 2⟩
def AUD_SAP_STATUS_glitch (i : Nat) : Fld := ⟨0xf8004 + 0x40 * i, 3, 3⟩
def AUD_SAP_STATUS_ppm (i : Nat) : Fld := ⟨0xf8004 + 0x40 * i, 31, 16⟩
def AUD_SAP_TS_ADJ_adj (i : Nat) : Fld := ⟨0xf8008 + 0x40 * i, 15, 0⟩
def AUD_SAP_SLIP_count (i : Nat) : Fld := ⟨0xf800c + 0x40 * i, 31, 0⟩
def AUD_SAP_GLITCH_count (i : Nat) : Fld := ⟨0xf8010 + 0x40 * i, 31, 0⟩
def AUD_SAP_CLOST_count (i : Nat) : Fld := ⟨0xf8014 + 0x40 * i, 31, 0⟩
def AUD_GRP_CFG_enable (i : Nat) : Fld := ⟨0xf8400 + 0x40 * i, 0, 0⟩
def AUD_GRP_CFG_rate (i : Nat) : Fld := ⟨0xf8400 + 0x40 * i, 2, 1⟩
def AUD_GRP_CFG_target (i : Nat) : Fld := ⟨0xf8400 + 0x40 * i, 24, 16⟩
def AUD_GRP_CFG_window (i : Nat) : Fld := ⟨0xf8400 + 0x40 * i, 30, 25⟩
def AUD_GRP_STATUS_running (i : Nat) : Fld := ⟨0xf8404 + 0x40 * i, 0, 0⟩
def AUD_GRP_STATUS_bad_cfg (i : Nat) : Fld := ⟨0xf8404 + 0x40 * i, 1, 1⟩
def AUD_GRP_STATUS_filling (i : Nat) : Fld := ⟨0xf8404 + 0x40 * i, 2, 2⟩
def AUD_GRP_RING_LO_base_lo (i : Nat) : Fld := ⟨0xf8408 + 0x40 * i, 31, 12⟩
def AUD_GRP_RING_HI_base_hi (i : Nat) : Fld := ⟨0xf840c + 0x40 * i, 5, 0⟩
def AUD_GRP_SIZE_log_size (i : Nat) : Fld := ⟨0xf8410 + 0x40 * i, 3, 0⟩
def AUD_GRP_BLOCK_value (i : Nat) : Fld := ⟨0xf8414 + 0x40 * i, 31, 0⟩
def AUD_GRP_SLIPS_count (i : Nat) : Fld := ⟨0xf8418 + 0x40 * i, 31, 0⟩
def AUD_EVT_block : Fld := ⟨0xf8800, 7, 0⟩
def AUD_EVT_slip : Fld := ⟨0xf8800, 15, 8⟩
def AUD_EVT_fault : Fld := ⟨0xf8800, 23, 16⟩
def AUD_EVT_MASK_value : Fld := ⟨0xf8804, 31, 0⟩
def CLIP_Q_SQ_TAIL_index (i : Nat) : Fld := ⟨0x200000 + 0x8 * i, 15, 0⟩
def CLIP_Q_CQ_HEAD_index (i : Nat) : Fld := ⟨0x200004 + 0x8 * i, 15, 0⟩
def CLIP_Q_CTRL_enable (i : Nat) : Fld := ⟨0x201000 + 0x40 * i, 0, 0⟩
def CLIP_Q_CTRL_reset (i : Nat) : Fld := ⟨0x201000 + 0x40 * i, 1, 1⟩
def CLIP_Q_STATUS_busy (i : Nat) : Fld := ⟨0x201004 + 0x40 * i, 0, 0⟩
def CLIP_Q_STATUS_resetting (i : Nat) : Fld := ⟨0x201004 + 0x40 * i, 1, 1⟩
def CLIP_Q_STATUS_bad_tail (i : Nat) : Fld := ⟨0x201004 + 0x40 * i, 2, 2⟩
def CLIP_Q_STATUS_bad_cfg (i : Nat) : Fld := ⟨0x201004 + 0x40 * i, 3, 3⟩
def CLIP_Q_SQ_LO_base_lo (i : Nat) : Fld := ⟨0x201008 + 0x40 * i, 31, 12⟩
def CLIP_Q_SQ_HI_base_hi (i : Nat) : Fld := ⟨0x20100c + 0x40 * i, 5, 0⟩
def CLIP_Q_CQ_LO_base_lo (i : Nat) : Fld := ⟨0x201010 + 0x40 * i, 31, 12⟩
def CLIP_Q_CQ_HI_base_hi (i : Nat) : Fld := ⟨0x201014 + 0x40 * i, 5, 0⟩
def CLIP_Q_SIZE_log_size (i : Nat) : Fld := ⟨0x201018 + 0x40 * i, 3, 0⟩
def CLIP_Q_SQ_HEAD_index (i : Nat) : Fld := ⟨0x20101c + 0x40 * i, 15, 0⟩
def CLIP_Q_CQ_TAIL_index (i : Nat) : Fld := ⟨0x201020 + 0x40 * i, 15, 0⟩
def CLIP_Q_NEXT_SEQ_value (i : Nat) : Fld := ⟨0x201024 + 0x40 * i, 31, 0⟩
def CLIP_Q_ABORTED_aborted (i : Nat) : Fld := ⟨0x201028 + 0x40 * i, 15, 0⟩
def CLIP_Q_ABORTED_unposted (i : Nat) : Fld := ⟨0x201028 + 0x40 * i, 31, 16⟩
def CLIP_Q_OWNER_owner (i : Nat) : Fld := ⟨0x20102c + 0x40 * i, 1, 0⟩
def CLIP_STORE_CTRL_enable : Fld := ⟨0x208000, 0, 0⟩
def CLIP_STORE_CTRL_format : Fld := ⟨0x208000, 1, 1⟩
def CLIP_STORE_CTRL_bif : Fld := ⟨0x208000, 3, 2⟩
def CLIP_STORE_STATUS_state : Fld := ⟨0x208004, 2, 0⟩
def CLIP_STORE_STATUS_bad_cfg : Fld := ⟨0x208004, 3, 3⟩
def CLIP_STORE_STATUS_reason : Fld := ⟨0x208004, 7, 4⟩
def CLIP_STORE_STATUS_members : Fld := ⟨0x208004, 10, 8⟩
def CLIP_CAPACITY_value (i : Nat) : Fld := ⟨0x208008 + 0x4 * i, 31, 0⟩
def CLIP_STAGE_LO_addr : Fld := ⟨0x208010, 31, 30⟩
def CLIP_STAGE_HI_addr_hi : Fld := ⟨0x208014, 5, 0⟩
def CLIP_STAGE_SIZE_gib : Fld := ⟨0x208018, 6, 0⟩
def CLIP_STAGE_USED_value : Fld := ⟨0x20801c, 31, 0⟩
def CLIP_PWR_idle1 : Fld := ⟨0x208020, 15, 0⟩
def CLIP_PWR_idle2 : Fld := ⟨0x208020, 31, 16⟩
def CLIP_PWR_STATUS_cs : Fld := ⟨0x208024, 1, 0⟩
def CLIP_PWR_STATUS_bivouac_ok : Fld := ⟨0x208024, 2, 2⟩
def CLIP_PWR_STATUS_cs2_exit_ms : Fld := ⟨0x208024, 31, 16⟩
def CLIP_LOG_SEQ_value : Fld := ⟨0x208028, 31, 0⟩
def CLIP_FAILED_RANGES_ranges : Fld := ⟨0x20802c, 10, 0⟩
def CLIP_EVT_CQ_bits (i : Nat) : Fld := ⟨0x208030 + 0x4 * i, 31, 0⟩
def CLIP_EVT_deferred : Fld := ⟨0x208038, 0, 0⟩
def CLIP_EVT_fault : Fld := ⟨0x208038, 1, 1⟩
def CLIP_EVT_ready : Fld := ⟨0x208038, 2, 2⟩
def CLIP_EVT_range_full : Fld := ⟨0x208038, 3, 3⟩
def CLIP_EVT_MASK_value : Fld := ⟨0x20803c, 31, 0⟩
def CLIP_MEMBER_STATUS_present (i : Nat) : Fld := ⟨0x208040 + 0x4 * i, 0, 0⟩
def CLIP_MEMBER_STATUS_gen (i : Nat) : Fld := ⟨0x208040 + 0x4 * i, 2, 1⟩
def CLIP_MEMBER_STATUS_width (i : Nat) : Fld := ⟨0x208040 + 0x4 * i, 6, 3⟩
def CLIP_MEMBER_STATUS_lost (i : Nat) : Fld := ⟨0x208040 + 0x4 * i, 7, 7⟩
def CLIP_MEMBER_STATUS_index (i : Nat) : Fld := ⟨0x208040 + 0x4 * i, 10, 8⟩
def MEMC_CFG_channels : Fld := ⟨0x300000, 1, 0⟩
def MEMC_CFG_width : Fld := ⟨0x300000, 2, 2⟩
def MEMC_CFG_density : Fld := ⟨0x300000, 4, 3⟩
def MEMC_CFG_ranks : Fld := ⟨0x300000, 5, 5⟩
def MEMC_CFG_enable : Fld := ⟨0x300000, 6, 6⟩
def MEMC_CFG_lock : Fld := ⟨0x300000, 31, 31⟩
def MEMC_STATUS_trained : Fld := ⟨0x300004, 7, 0⟩
def MEMC_STATUS_train_fail : Fld := ⟨0x300004, 15, 8⟩
def MEMC_STATUS_zeroing : Fld := ⟨0x300004, 16, 16⟩
def MEMC_STATUS_ready : Fld := ⟨0x300004, 17, 17⟩
def MEMC_CAPACITY_gib : Fld := ⟨0x300008, 8, 0⟩
def MEMC_AGE_BULK_ns : Fld := ⟨0x300010, 19, 0⟩
def MEMC_AGE_HOST_ns : Fld := ⟨0x300014, 19, 0⟩
def MEMC_AGE_BG_ns : Fld := ⟨0x300018, 19, 0⟩
def MEMC_TRACKER_threshold : Fld := ⟨0x300020, 15, 0⟩
def MEMC_TRACKER_rfm : Fld := ⟨0x300020, 16, 16⟩
def MEMC_SR_idle_us : Fld := ⟨0x300024, 9, 0⟩
def MEMC_SCRUB_hours : Fld := ⟨0x300028, 7, 0⟩
def MEMC_SCRUB_POS_value : Fld := ⟨0x30002c, 31, 0⟩
def MEMC_EVT_ce : Fld := ⟨0x300030, 7, 0⟩
def MEMC_EVT_ue : Fld := ⟨0x300030, 15, 8⟩
def MEMC_EVT_train_fail : Fld := ⟨0x300030, 16, 16⟩
def MEMC_EVT_scrub_pass : Fld := ⟨0x300030, 17, 17⟩
def MEMC_EVT_MASK_value : Fld := ⟨0x300034, 31, 0⟩
def MEMC_x_STATUS_trained (i : Nat) : Fld := ⟨0x301000 + 0x100 * i, 0, 0⟩
def MEMC_x_STATUS_fail (i : Nat) : Fld := ⟨0x301000 + 0x100 * i, 1, 1⟩
def MEMC_x_STATUS_self_refresh (i : Nat) : Fld := ⟨0x301000 + 0x100 * i, 2, 2⟩
def MEMC_x_STATUS_hot (i : Nat) : Fld := ⟨0x301000 + 0x100 * i, 3, 3⟩
def MEMC_x_ERR_LO_addr (i : Nat) : Fld := ⟨0x30100c + 0x100 * i, 31, 6⟩
def MEMC_x_ERR_HI_addr_hi (i : Nat) : Fld := ⟨0x301010 + 0x100 * i, 5, 0⟩
def MEMC_x_ERR_HI_ue (i : Nat) : Fld := ⟨0x301010 + 0x100 * i, 6, 6⟩
def MEMC_x_ERR_HI_scrub (i : Nat) : Fld := ⟨0x301010 + 0x100 * i, 7, 7⟩
def MEMC_x_ERR_HI_sub (i : Nat) : Fld := ⟨0x301010 + 0x100 * i, 8, 8⟩
def MEMC_x_CE_count (i : Nat) : Fld := ⟨0x301004 + 0x100 * i, 31, 0⟩
def MEMC_x_UE_count (i : Nat) : Fld := ⟨0x301008 + 0x100 * i, 31, 0⟩
def MEMC_x_NBR_REFRESH_count (i : Nat) : Fld := ⟨0x301014 + 0x100 * i, 31, 0⟩
def MEMC_x_SR_ENTRIES_count (i : Nat) : Fld := ⟨0x301018 + 0x100 * i, 31, 0⟩
def POOL_CE_count : Fld := ⟨0x340000, 31, 0⟩
def POOL_UE_count : Fld := ⟨0x340004, 31, 0⟩
def POOL_ERR_word : Fld := ⟨0x340008, 23, 0⟩
def POOL_ERR_ue : Fld := ⟨0x340008, 24, 24⟩
def POOL_ERR_march : Fld := ⟨0x340008, 25, 25⟩
def POOL_VIOL_count : Fld := ⟨0x340010, 31, 0⟩
def POOL_VIOL_INFO_word : Fld := ⟨0x340014, 23, 0⟩
def POOL_VIOL_INFO_master : Fld := ⟨0x340014, 26, 24⟩
def POOL_VIOL_INFO_write : Fld := ⟨0x340014, 27, 27⟩
def POOL_VIOL_INFO_owned : Fld := ⟨0x340014, 28, 28⟩
def POOL_MARCH_CTRL_go : Fld := ⟨0x340020, 0, 0⟩
def POOL_MARCH_CTRL_stop : Fld := ⟨0x340020, 1, 1⟩
def POOL_MARCH_CTRL_alg : Fld := ⟨0x340020, 2, 2⟩
def POOL_MARCH_CTRL_destructive : Fld := ⟨0x340020, 3, 3⟩
def POOL_MARCH_CTRL_bg : Fld := ⟨0x340020, 4, 4⟩
def POOL_MARCH_CTRL_repair : Fld := ⟨0x340020, 5, 5⟩
def POOL_MARCH_RANGE_first : Fld := ⟨0x340024, 9, 0⟩
def POOL_MARCH_RANGE_count : Fld := ⟨0x340024, 26, 16⟩
def POOL_MARCH_STATUS_state : Fld := ⟨0x340028, 1, 0⟩
def POOL_MARCH_STATUS_bad_cfg : Fld := ⟨0x340028, 2, 2⟩
def POOL_MARCH_STATUS_bank : Fld := ⟨0x340028, 25, 16⟩
def POOL_MARCH_FAILS_count : Fld := ⟨0x34002c, 31, 0⟩
def POOL_MARCH_ABANDON_count : Fld := ⟨0x340030, 31, 0⟩
def POOL_MARCH_SKIPPED_count : Fld := ⟨0x340034, 31, 0⟩
def POOL_MARCH_BOOT_boot : Fld := ⟨0x340038, 1, 0⟩
def POOL_REPAIR_CTRL_bank : Fld := ⟨0x340040, 9, 0⟩
def POOL_REPAIR_CTRL_fuse : Fld := ⟨0x340040, 31, 31⟩
def POOL_REPAIR_STATUS_state : Fld := ⟨0x340044, 1, 0⟩
def POOL_EVT_ue : Fld := ⟨0x340050, 0, 0⟩
def POOL_EVT_march_done : Fld := ⟨0x340050, 1, 1⟩
def POOL_EVT_exhausted : Fld := ⟨0x340050, 2, 2⟩
def POOL_EVT_bad_cfg : Fld := ⟨0x340050, 3, 3⟩
def POOL_EVT_MASK_value : Fld := ⟨0x340054, 31, 0⟩
def POOL_BANK_owner (i : Nat) : Fld := ⟨0x341000 + 0x4 * i, 7, 0⟩
def POOL_BANK_unit (i : Nat) : Fld := ⟨0x341000 + 0x4 * i, 15, 8⟩
def POOL_BANK_test_exempt (i : Nat) : Fld := ⟨0x341000 + 0x4 * i, 16, 16⟩
def POOL_BANK_zeroing (i : Nat) : Fld := ⟨0x341000 + 0x4 * i, 17, 17⟩
def POOL_BANK_under_test (i : Nat) : Fld := ⟨0x341000 + 0x4 * i, 18, 18⟩
def POOL_BANK_spares (i : Nat) : Fld := ⟨0x341000 + 0x4 * i, 21, 19⟩
def POOL_BANK_fused (i : Nat) : Fld := ⟨0x341000 + 0x4 * i, 22, 22⟩
def POOL_BANK_exhausted (i : Nat) : Fld := ⟨0x341000 + 0x4 * i, 23, 23⟩
def POOL_BANK_RIG_owner (i : Nat) : Fld := ⟨0x341f80 + 0x4 * i, 7, 0⟩
def POOL_BANK_RIG_unit (i : Nat) : Fld := ⟨0x341f80 + 0x4 * i, 15, 8⟩
def POOL_BANK_RIG_test_exempt (i : Nat) : Fld := ⟨0x341f80 + 0x4 * i, 16, 16⟩
def POOL_BANK_RIG_zeroing (i : Nat) : Fld := ⟨0x341f80 + 0x4 * i, 17, 17⟩
def POOL_BANK_RIG_under_test (i : Nat) : Fld := ⟨0x341f80 + 0x4 * i, 18, 18⟩
def POOL_BANK_RIG_spares (i : Nat) : Fld := ⟨0x341f80 + 0x4 * i, 21, 19⟩
def POOL_BANK_RIG_fused (i : Nat) : Fld := ⟨0x341f80 + 0x4 * i, 22, 22⟩
def POOL_BANK_RIG_exhausted (i : Nat) : Fld := ⟨0x341f80 + 0x4 * i, 23, 23⟩
def POOL_RGN_BASE_enable (i : Nat) (j : Nat) : Fld := ⟨0x348000 + 0x400 * i + 0x10 * j, 0, 0⟩
def POOL_RGN_BASE_rd (i : Nat) (j : Nat) : Fld := ⟨0x348000 + 0x400 * i + 0x10 * j, 1, 1⟩
def POOL_RGN_BASE_wr (i : Nat) (j : Nat) : Fld := ⟨0x348000 + 0x400 * i + 0x10 * j, 2, 2⟩
def POOL_RGN_BASE_test_exempt (i : Nat) (j : Nat) : Fld := ⟨0x348000 + 0x400 * i + 0x10 * j, 3, 3⟩
def POOL_RGN_BASE_base (i : Nat) (j : Nat) : Fld := ⟨0x348000 + 0x400 * i + 0x10 * j, 26, 12⟩
def POOL_RGN_SIZE_size (i : Nat) (j : Nat) : Fld := ⟨0x348004 + 0x400 * i + 0x10 * j, 27, 12⟩
def MBOX_W_value (i : Nat) (j : Nat) : Fld := ⟨0x380000 + 0x80 * i + 0x4 * j, 31, 0⟩
def MBOX_CLAIM_claim (i : Nat) : Fld := ⟨0x380040 + 0x80 * i, 0, 0⟩
def MBOX_CLAIM_release (i : Nat) : Fld := ⟨0x380040 + 0x80 * i, 1, 1⟩
def MBOX_CTRL_len (i : Nat) : Fld := ⟨0x380044 + 0x80 * i, 4, 0⟩
def MBOX_CTRL_notify (i : Nat) : Fld := ⟨0x380044 + 0x80 * i, 5, 5⟩
def MBOX_CTRL_go (i : Nat) : Fld := ⟨0x380044 + 0x80 * i, 31, 31⟩
def MBOX_STATUS_full (i : Nat) : Fld := ⟨0x380048 + 0x80 * i, 0, 0⟩
def MBOX_STATUS_holder (i : Nat) : Fld := ⟨0x380048 + 0x80 * i, 2, 1⟩
def MBOX_STATUS_sender (i : Nat) : Fld := ⟨0x380048 + 0x80 * i, 4, 3⟩
def MBOX_STATUS_msg_len (i : Nat) : Fld := ⟨0x380048 + 0x80 * i, 9, 5⟩
def MBOX_STATUS_result (i : Nat) : Fld := ⟨0x380048 + 0x80 * i, 11, 10⟩
def MBOX_STATUS_flushed (i : Nat) : Fld := ⟨0x380048 + 0x80 * i, 12, 12⟩
def MBOX_STATUS_emptied (i : Nat) : Fld := ⟨0x380048 + 0x80 * i, 13, 13⟩
def MBOX_DB_RING_ring (i : Nat) : Fld := ⟨0x381000 + 0x4 * i, 31, 0⟩
def MBOX_DB_PEND_bits (i : Nat) : Fld := ⟨0x381008 + 0x4 * i, 31, 0⟩
def MBOX_FWACT_SRC_addr : Fld := ⟨0x382000, 26, 3⟩
def MBOX_FWACT_LEN_len : Fld := ⟨0x382004, 20, 0⟩
def MBOX_FWACT_CTRL_go : Fld := ⟨0x382008, 0, 0⟩
def MBOX_FWACT_STATUS_state : Fld := ⟨0x38200c, 3, 0⟩
def MBOX_FWACT_STATUS_busy : Fld := ⟨0x38200c, 4, 4⟩
def MBOX_FWACT_STATUS_hold_ms : Fld := ⟨0x38200c, 31, 16⟩
def HOST_LINK_speed : Fld := ⟨0x3c0000, 2, 0⟩
def HOST_LINK_width : Fld := ⟨0x3c0000, 6, 3⟩
def HOST_EVT_viol : Fld := ⟨0x3c0004, 0, 0⟩
def HOST_EVT_dead : Fld := ⟨0x3c0004, 1, 1⟩
def HOST_EVT_fwact : Fld := ⟨0x3c0004, 2, 2⟩
def HOST_EVT_rig_load : Fld := ⟨0x3c0004, 3, 3⟩
def HOST_EVT_rig_change : Fld := ⟨0x3c0004, 4, 4⟩
def HOST_EVT_MASK_value : Fld := ⟨0x3c0008, 31, 0⟩
def HOST_ACC_BAD_count : Fld := ⟨0x3c000c, 31, 0⟩
def HOST_VIOL_COUNT_count : Fld := ⟨0x3c0010, 31, 0⟩
def HOST_VIOL_INFO_offset : Fld := ⟨0x3c0014, 23, 0⟩
def HOST_VIOL_INFO_write : Fld := ⟨0x3c0014, 24, 24⟩
def HOST_DEAD_COUNT_count : Fld := ⟨0x3c0018, 31, 0⟩
def HOST_DEAD_INFO_offset : Fld := ⟨0x3c001c, 23, 0⟩
def HOST_DEAD_INFO_bar : Fld := ⟨0x3c001c, 25, 24⟩
def HOST_DEAD_INFO_write : Fld := ⟨0x3c001c, 26, 26⟩
def HOST_DEAD_INFO_function : Fld := ⟨0x3c001c, 27, 27⟩
def HOST_DEAD_INFO_island : Fld := ⟨0x3c001c, 31, 28⟩
def HOST_AP_VIOL_count : Fld := ⟨0x3c0020, 31, 0⟩
def HOST_POISON_count : Fld := ⟨0x3c0024, 31, 0⟩
def HOST_AP0_BASE_base_gib : Fld := ⟨0x3c0030, 7, 0⟩
def HOST_AP1_BASE_base_gib : Fld := ⟨0x3c0034, 7, 0⟩
def HOST_ROUTE0_pf : Fld := ⟨0x3c0100, 1, 0⟩
def HOST_ROUTE0_mgt : Fld := ⟨0x3c0100, 2, 2⟩
def HOST_ROUTE1_pf : Fld := ⟨0x3c0104, 1, 0⟩
def HOST_ROUTE1_mgt : Fld := ⟨0x3c0104, 2, 2⟩
def HOST_ROUTE2_pf : Fld := ⟨0x3c0108, 1, 0⟩
def HOST_ROUTE2_mgt : Fld := ⟨0x3c0108, 2, 2⟩
def HOST_ROUTE3_pf : Fld := ⟨0x3c010c, 1, 0⟩
def HOST_ROUTE3_mgt : Fld := ⟨0x3c010c, 2, 2⟩
def HOST_ROUTE4_pf : Fld := ⟨0x3c0110, 1, 0⟩
def HOST_ROUTE4_mgt : Fld := ⟨0x3c0110, 2, 2⟩
def HOST_ROUTE5_pf : Fld := ⟨0x3c0114, 1, 0⟩
def HOST_ROUTE5_mgt : Fld := ⟨0x3c0114, 2, 2⟩
def HOST_ROUTE6_pf : Fld := ⟨0x3c0118, 1, 0⟩
def HOST_ROUTE6_mgt : Fld := ⟨0x3c0118, 2, 2⟩
def HOST_ROUTE7_pf : Fld := ⟨0x3c011c, 1, 0⟩
def HOST_ROUTE7_mgt : Fld := ⟨0x3c011c, 2, 2⟩
def HOST_ROUTE8_pf : Fld := ⟨0x3c0120, 1, 0⟩
def HOST_ROUTE8_mgt : Fld := ⟨0x3c0120, 2, 2⟩
def HOST_ROUTE9_pf : Fld := ⟨0x3c0124, 1, 0⟩
def HOST_ROUTE9_mgt : Fld := ⟨0x3c0124, 2, 2⟩
def HOST_ROUTE10_pf : Fld := ⟨0x3c0128, 1, 0⟩
def HOST_ROUTE10_mgt : Fld := ⟨0x3c0128, 2, 2⟩
end F
end Sys2Proof.Machine
end

