-- ==== Sys2Proof/Machine/State.lean ====
section
/-! DEFINITION. The state of the LY9600: plain data, holding every register, memory, queue, table and mode the spec gives
it, with the queue of waiting commands, and the state right after reset. -/
namespace Sys2Proof.Machine

/-- Why the block stops with a fault. Nothing in the spec stops the LY9600 for good, so the type has no constructor. -/
inductive Fault where
deriving DecidableEq, Repr

/-- Why a command has no meaning. -/
inductive Refusal where
  /-- A command whose meaning has not been written; raised by the dispatch only. Safe. -/
  | notModelled (mnemonic : String)
deriving DecidableEq, Repr

/-! ## Shared forms -/

/-- A sparse table: entries at rising keys, an unlisted key reading a default. -/
abbrev SMap (α : Type) := List (Nat × α)

/-- A memory: cells at strictly rising addresses, none holding what an unlisted address reads as (0). -/
abbrev Memory := List Host.Cell

/-! ## Journal (chapter 02) -/

/-- A journal entry (R95), without its `check`, which `Entry.bytes` computes. -/
structure Entry where
  kind : Nat
  replayed : Bool
  override : Bool
  target : Nat
  unit : Nat
  seq : Nat
  frame : Nat
  a : Nat
  b : Nat
  c : Nat
deriving DecidableEq, Repr

/-- A digest with its flags (R101, R102, R103). -/
structure DigestVal where
  num : Nat
  val : Nat
  excluded : Bool
  replayed : Bool
  override : Bool
deriving DecidableEq, Repr

/-- A decision point at which a follower blocks (R105): its identity key and the Anchor time (ns) from which the hold
of R106 is measured. -/
structure Wait where
  kind : Nat
  target : Nat
  unit : Nat
  frame : Nat
  since : Nat
deriving DecidableEq, Repr

/-- The journal's state beside its registers. -/
structure Jnl where
  /-- `seq` of the next entry written (R97); mirrored by RIG_JNL_WR_SEQ. -/
  nextSeq : Nat
  /-- Entries on their way to the ring in DRAM (R100), oldest first. -/
  ringQ : List Entry
  /-- Entries waiting to be forwarded in JOURNAL packets (R382), oldest first. -/
  forwardQ : List Entry
  /-- The most recent entries sent, for the repetition of R382. -/
  recent : List Entry
  /-- Every decision applied or made, by its entry, newest first, while it can still be compared (R106, R107). -/
  applied : List Entry
  /-- Accepted received entries held until their point has passed (R107), at most 4,096. -/
  held : List Entry
  /-- `seq` of the first entry accepted since the follow mode or source last changed (R581). -/
  wholeFrom : Option Nat
  /-- The `seq` values accepted since then, for R581's whole receipt. -/
  seqs : List Nat
  /-- The latest 4,096 seals that this device has written, newest first: class, unit and frame of the points it has
  passed (R107, R580). -/
  seals : List (Nat × Nat × Nat)
  /-- The follow mode in effect (R104), changed at a latch point. -/
  mode : Nat
  /-- The follow mask in effect (R104). -/
  mask : Nat
  /-- The latch point (ns) at which they took effect, and the mode and mask before it, under which the decisions for
  earlier frames are made (R104). -/
  since : Nat
  was : Nat × Nat
  /-- Decision points now blocked (R105). -/
  waits : List Wait
  /-- Latest completed digest of each scope and index, key 256 * scope + index (R112). -/
  digests : SMap DigestVal
  /-- What RIG_DIG_LO, _HI and _FLAGS return since RIG_DIG_FRAME was read (R112). -/
  captured : DigestVal
  /-- The first wall frame this unit decides itself after it became lead, and its latch point in ns (R108). -/
  leadFrom : Option (Nat × Nat)
deriving DecidableEq, Repr

/-! ## Rigging (chapter 01) -/

/-- An island (R34). -/
inductive Island where
  | sys | anchor | mgt | memc | pool | host | vault | net | head | dev | rawc | hevc | wall | aud
deriving DecidableEq, Repr

/-- One pitch entry of a calendar (R47). -/
structure PitchEntry where
  first : Nat
  count : Nat
  units : Nat
deriving DecidableEq, Repr

/-- The content of an image record (R35–R55). -/
inductive RecBody where
  | island (code present clk divMax skipMin groups : Nat)
  | region (id : Nat) (rerig : Bool) (name : List Byte)
  | ball (row col fn pad : Nat)
  | timer (t owner unit : Nat)
  | pool (first count owner unit : Nat) (exempt : Bool)
  | dram (base size owner unit cls : Nat) (bar4 exempt : Bool) (rate : Nat)
  | strand (id srcI srcP dstI dstP depth rate : Nat)
  | calendar (engine : Nat) (entries : List PitchEntry)
  | shape (engine first count dimA dimB format rate : Nat)
  | boundary (kind unit deadline : Nat)
  | preset (offset : Nat) (values : List Nat)
  | finish
deriving DecidableEq, Repr

/-- A record with its region (R30) and its byte offset from byte 0 of the image header. -/
structure Record where
  region : Nat
  ofs : Nat
  body : RecBody
deriving DecidableEq, Repr

/-- An image that has been parsed (R24). -/
structure Image where
  full : Bool
  regionId : Nat
  resultClass : Nat
  recs : List Record
deriving DecidableEq, Repr

/-- Slot states (R23). -/
inductive SlotSt where
  | empty | loading | validFull | validFragment | active
deriving DecidableEq, Repr

/-- An image slot (R21, R23). Its bytes lie in pool banks 992–1007 (A) or 1008–1023 (B). -/
structure Slot where
  st : SlotSt
  img : Option Image
deriving DecidableEq, Repr

/-- A requested change of structure (R61). -/
structure Change where
  rerig : Bool
  region : Nat
  frame : Nat
  slot : Nat
  applying : Bool
  /-- The latch point (ns) at which it began to apply. -/
  since : Nat
deriving DecidableEq, Repr

/-- A run-time claim (R78): resource 1 ball, 2 timer, 3 bank, its index, and whether MGT (else HOST) holds it. -/
structure RtClaim where
  res : Nat
  index : Nat
  mgt : Bool
deriving DecidableEq, Repr

/-- A load in progress (R57). -/
structure Load where
  slot : Nat
  src : Nat
  len : Nat
deriving DecidableEq, Repr

/-- A strand: the tokens in its FIFO, those its sender still holds because the FIFO is full, and those its receiver has
taken and not yet used, each oldest first (R69). -/
structure Strand where
  fifo : List Token
  waiting : List Token
  taken : List Token
deriving DecidableEq, Repr

/-- Rigging state beside its registers. -/
structure Rig where
  slotA : Slot
  slotB : Slot
  /-- The records in force: the active image with the fragments applied to it (R65). -/
  active : Option Image
  change : Option Change
  /-- A BUSY ending under R60 that is shown once the first change has ended (R85). -/
  busyLater : Bool
  load : Option Load
  claims : List RtClaim
  /-- The strands by number (R44, R69). -/
  strands : SMap Strand
  /-- Banks being zeroed under R66, and those still waiting (at most 64 at a time). -/
  zeroing : List Nat
  zeroWait : List Nat
  /-- Accesses of a new owner stalled until their bank is zeroed (R66). -/
  stalled : List PoolReq
  /-- Islands that a switch makes present, still to be released, and those that it leaves absent, which stop once their
  old work is done (R64). -/
  starting : List Island
  stopping : List Island
  /-- The next calendar entry of DEV, RAWC, HEVC and WALL (R74). -/
  calNext : SMap Nat
  /-- Strand records that a change has replaced and that still have tokens to deliver (R65), with 512 added to their
  numbers. -/
  retiring : List RecBody
  /-- While a change applies: the records that it has replaced, under which older work completes (R63). -/
  before : Option Image
  /-- Jobs and pictures that belong to those records, by engine code and context (R63). -/
  oldUnits : List (Nat × Nat)
  /-- Balls whose claim a change has changed, as 256 * row + column, with the ns since power-up until which each shows its
  reset state (R64). -/
  ballHold : List (Nat × Nat)
  /-- The slot that the boot ROM chose (R534 step 3). -/
  bootSlot : Option Nat
  /-- PRESET values for blocks whose island is still in reset, by offset, in stream order (R54). -/
  presets : List (Nat × Nat)
deriving DecidableEq, Repr

/-! ## SYS (chapter 14) -/

/-- The clock and reset state of one island (R88). -/
structure IslState where
  inReset : Bool
  clkGood : Bool
  stall : Bool
  clkMhz : Nat
  throttle : Nat
  skipN : Nat
  /-- SYS_RST_GAP has run since CLK_GOOD (R533 step 3). -/
  gapDone : Bool
deriving DecidableEq, Repr

/-- One source that has asserted in the open episode (R525): its code, reach (coded as SYS_RST_CTRL), target, the
islands it resets, whether its condition still holds, and the time in ns at which its minimum hold has passed. -/
structure Source where
  code : Nat
  reach : Nat
  target : Nat
  isl : List Island
  asserted : Bool
  holdUntil : Nat
deriving DecidableEq, Repr

/-- A reset episode (R529). `release` is `none` until the release sequence runs, then the islands still to release. -/
structure Episode where
  sources : List Source
  release : Option (List Island)
deriving DecidableEq, Repr

/-- One fuse programming pulse (R531, R545, R546, R489). -/
inductive FusePulse where
  | epoch
  | lcState (next : Nat)
  | keyBytes (slot : Nat) (key : List Byte)
  | keyState (slot : Nat) (st : Nat)
  | repair (bank : Nat) (rows : List (Nat × Nat))
deriving DecidableEq, Repr

/-- What follows when a sequence of pulses has run. -/
inductive FuseEnd where
  | lifeCycle | key | csk | repair | format
deriving DecidableEq, Repr

/-- A key slot in fuses: 0 UNPROVISIONED, 1 ACTIVE, 2 REVOKED, 3 DAMAGED, and its key bytes (R546). -/
structure KeySlot where
  st : Nat
  key : List Byte
deriving DecidableEq, Repr

/-- What is fixed in silicon and fuses of the part, and the fuses that operations program. -/
structure Fuses where
  stepLetter : Nat
  stepDigit : Nat
  imgMinor : Nat
  serial : Nat
  rstGap : Nat
  lcState : Nat
  keys : List KeySlot
  epoch : Nat
  /-- Fused repairs: bank, and pairs of failing row and spare (R489). -/
  repairs : List (Nat × List (Nat × Nat))
deriving DecidableEq, Repr

/-- SYS state beside its registers. -/
structure Sys where
  fuses : Fuses
  /-- The strap as the board ties it, and as sampled at the last CHIP release (R539, R562). -/
  strapPin : Bool
  strap : Bool
  episode : Option Episode
  /-- Levels of the reset balls, and a PCIE_PERST_N low that holds only the link (R526). -/
  pwrOk : Bool
  sysRstN : Bool
  perstN : Bool
  linkHold : Bool
  /-- Sources held off while a fuse pulse is in progress (R531). -/
  heldOff : List Source
  /-- The fuse sequences in progress: the pulses still to come and what follows the last (R531). -/
  fuseSeqs : List (List FusePulse × FuseEnd)
  /-- When the watchdog last restarted, in ns (R527). -/
  wdtKickAt : Nat
  lcConfirm : Bool
  nonce : Nat
  tripped : Bool
  faultyDiodes : List Nat
  /-- Time at which the 25 MHz reference was lost (R541). -/
  refLostAt : Option Nat
  /-- Fenmas transmission stopped by R541. -/
  refStopped : Bool
  /-- The clip-store key held by SYS while the store is on (R547). -/
  storeKey : Option (List Byte)
  /-- The key that an import has unwrapped and that waits for its epoch fuse (R548). -/
  cskKey : Option (List Byte)
  /-- A hot reset or link-down holds source 3 (R506). -/
  hotReset : Bool
deriving DecidableEq, Repr

/-! ## Memory (chapter 12) -/

/-- One activate tracker entry of a bank (R478). -/
structure TrackEntry where
  row : Nat
  count : Nat
deriving DecidableEq, Repr

/-- One DDR5 channel. Queues are keyed by subchannel order of arrival, oldest first. -/
structure Channel where
  queue : List DramReq
  trackers : SMap (List TrackEntry)
  /-- Refreshes, ZQ calibrations and DQS corrections done. -/
  refreshes : Nat
  zqs : Nat
  dqs : Nat
  /-- Time of the latest request, for R479. -/
  lastReq : Nat
  /-- Whether the channel is in self-refresh with its clocks stopped (R479); MEMC_x_STATUS.`self_refresh` shows it. -/
  clockStopped : Bool
  /-- The rolling activates of each bank, and the Refresh Management commands issued (R478). -/
  raa : SMap Nat
  rfms : Nat
deriving DecidableEq, Repr

/-- MEMC state beside its registers and the DRAM contents. -/
structure Memc where
  chans : SMap Channel
  /-- Lines (address / 64) that carry the poison mark (R481). -/
  poison : List Nat
  /-- Lines whose correction waits to be written back, with `true` for one found by scrub (R480, R482). -/
  writeBack : List (Nat × Bool)
  /-- Next 1 MiB of the patrol scrub pass on each channel (R482). -/
  scrubAt : SMap Nat
  /-- The stored training results of every channel (R472). -/
  trainedStored : Bool
deriving DecidableEq, Repr

/-- A march run (R487, R488). -/
structure MarchRun where
  destructive : Bool
  alg : Nat
  bg : Nat
  repair : Bool
  first : Nat
  count : Nat
  /-- Segments (bank, segment) or banks (segment 0) still to test, in the order of the engine's queue. -/
  todo : List (Nat × Nat)
  /-- Segments now borrowed, or banks now under a destructive test. -/
  borrowed : List (Nat × Nat)
  /-- The abandons of a segment in a row, one element each. -/
  abandons : List (Nat × Nat)
deriving DecidableEq, Repr

/-- POOL state beside its registers and contents. -/
structure PoolSt where
  /-- Words (address / 8) that carry the poison mark (R483). -/
  poison : List Nat
  /-- Corrected words that wait to be written back (R483). -/
  writeBack : List Nat
  /-- Requests that have lost a cycle at their bank, by the cycle in which they arrived, the oldest first (R484). -/
  losers : List (List PoolReq)
  march : Option MarchRun
  /-- Soft repairs: bank, and pairs of failing row and spare (R489). -/
  repairs : List (Nat × List (Nat × Nat))
deriving DecidableEq, Repr

/-! ## HOST and MBOX (chapter 13) -/

/-- Interrupt targets of R508. -/
inductive Target where
  | pf0 | pf1 | mgt
deriving DecidableEq, Repr

/-- The configuration state of one PCIe function (R494, R505, R507). -/
structure PcieFn where
  busMaster : Bool
  msixEnable : Bool
  msixMask : Bool
  d3hot : Bool
  bar0 : Nat
  bar2 : Nat
  bar4 : Nat
  maxPayload : Nat
  /-- The MSI-X table words written since reset, by byte offset (R508). -/
  table : SMap Word
  /-- The vectors whose PBA bit is set (R509). -/
  pba : List Nat
  /-- The sources asserted for this function when last looked at (R509). -/
  asserted : List Nat
  /-- Poisoned TLPs logged by AER (R503). -/
  aerPoisoned : Nat
deriving DecidableEq, Repr

/-- HOST state beside its registers. -/
structure HostSt where
  fn0 : PcieFn
  fn1 : PcieFn
  mgtAsserted : List Nat
  subsystem : Nat
  readyMsg : Bool
deriving DecidableEq, Repr

/-- A firmware activation (R516). -/
structure Fwact where
  /-- Time of step 1 in ns. -/
  since : Nat
  starting : Bool
  takingHeld : Bool
deriving DecidableEq, Repr

/-- MBOX and MGT state beside the registers. -/
structure MboxSt where
  /-- The sender that `emptied` is signalled to (R512), by mailbox. -/
  emptiedFor : SMap Nat
  fwact : Option Fwact
  /-- Firmware runs from an activated package (else from flash). -/
  fwPackage : Bool
deriving DecidableEq, Repr

/-! ## Test ports (chapter 15) -/

/-- The JTAG test logic (R574). -/
structure Jtag where
  trstN : Bool
  ir : Nat
  /-- The boundary register's update cells; an absent cell drives nothing. -/
  cells : List Bool
  captured : List Bool
  bypass : Bool
  highz : Bool
  driving : Bool
deriving DecidableEq, Repr

/-! ## HEAD (chapter 03) -/

/-- An exposure command (R138, R151). -/
structure ExpCmd where
  vs : Nat
  seq : Nat
  target : Nat
  dflt : Bool
  expNs : Nat
  gain : Nat
  param0 : Nat
  param1 : Nat
deriving DecidableEq, Repr

/-- What a port keeps of one virtual sensor. -/
structure Sensor where
  /-- Tags of the latest and the first FRAME_START since READY (R152, R183). -/
  lastTag : Option Nat
  firstTag : Option Nat
  /-- Tag of the previous FRAME_START (R146, TAG_SKIP). -/
  prevTag : Option Nat
  /-- Tags of the frames discarded whole under R174, newest first. -/
  dropped : List Nat
  /-- The ports that have sent FRAME_START, and those that have sent FRAME_END, of each of these frames, by tag (R133, R134). -/
  dropPorts : SMap (List Nat × List Nat)
  /-- The camera context in effect: MAP.`ctx` as it stood at the latest FRAME_START (R159). -/
  ctxNow : Option Nat
  /-- The commands of R183, in the order of their `go` writes. -/
  cmds : List ExpCmd
deriving DecidableEq, Repr

/-- A Gypol port beside its registers. -/
structure HeadPort where
  /-- When step 1 of R141 began, in ns. -/
  startedAt : Nat
  /-- Position of the latest valid ALIGN of each lane, and the lanes that have met step 3 (R141). -/
  alignAt : SMap Nat
  aligned : List Nat
  /-- CAP_REQUESTs sent since state CAPS began (R141 step 4). -/
  capTries : Nat
  cap : Option (List Byte)
  /-- The record under which the port last became READY, for the limits of R183. -/
  capReady : List Byte
  /-- The receiver ignores data blocks until the next START (R131). -/
  hunting : Bool
  /-- `pseq` of the next back-channel packet (R128) and the next `cmd_seq` (R138). -/
  txSeq : Nat
  nextSeq : Nat
  /-- Queued commands, oldest first (R151). -/
  queue : List ExpCmd
  /-- The command sent and unanswered, with the number of times it was sent. -/
  sent : Option (ExpCmd × Nat)
  /-- The latest submitted command of each virtual sensor, whose outcome EXP_STATUS shows (R160). -/
  latest : SMap ExpCmd
  /-- Default targets that wait for their entry, with the current tag (R105, R152). -/
  expWaits : List (Nat × ExpCmd)
  sensors : SMap Sensor
deriving DecidableEq, Repr

/-! ## DEV (chapters 04 and 05) -/

/-- A generation of a context: its number, its bank, and the captured banks of streams, by stream (R171, R212). The
registers of a bank are kept by BAR0 offset. -/
structure DevGen where
  num : Nat
  regs : SMap Word
  streams : SMap (SMap Word)
deriving DecidableEq, Repr

/-- The fields of FRAME_START (R133). -/
structure FrameStart where
  width : Nat
  height : Nat
  bits : Nat
  cfa : Nat
  echo : Bool
  echoTag : Nat
  expNs : Nat
  gain : Nat
  meta12 : List Byte
deriving DecidableEq, Repr

/-- Sums of one zone (R188). -/
structure ZoneAcc where
  r : Nat
  g : Nat
  b : Nat
  clip : Nat
  n : Nat
deriving DecidableEq, Repr

/-- Sums of one focus window (R189). -/
structure FocusAcc where
  h : Nat
  v : Nat
  peak : Nat
deriving DecidableEq, Repr

/-- Statistics gathered while a frame passes through (R186 to R189). -/
structure Contact where
  clip : SMap Nat
  dpcStatic : Nat
  dpcDynamic : Nat
  hist : SMap Nat
  zones : SMap ZoneAcc
  focus : SMap FocusAcc
deriving DecidableEq, Repr

/-- A developed pixel: three components. -/
structure Pix where
  r : Nat
  g : Nat
  b : Nat
deriving DecidableEq, Repr

/-- One output frame of a stream (R213). -/
structure OutFrame where
  stream : Nat
  num : Nat
  bank : SMap Word
  filt : List Byte
  /-- The strand it is sent on, with its depth (R215). -/
  link : Option (Nat × Nat)
  /-- The next output line (R219). -/
  next : Nat
  /-- The latest scaled line, for 4:2:0 chroma (R222). -/
  prevLine : List Pix
  /-- The running register of its scope 1 digest (R102). -/
  crc : Nat
  complete : Bool
deriving DecidableEq, Repr

/-- A head frame from its FRAME_START until nothing of it is left to do (R146 to R149, R165 to R169). -/
structure CamFrame where
  tag : Nat
  /-- The primary port and the virtual sensor, and the ports of the sensor (R120). -/
  port : Nat
  vs : Nat
  ports : List Nat
  /-- Start-of-frame timestamp in ns (R145). -/
  sof : Nat
  fs : FrameStart
  /-- The generation under which HEAD takes the frame in, and the one that governs it (R173). -/
  intake : DevGen
  gen : DevGen
  bound : Bool
  /-- HEAD takes the frame in; false when it discards it for `run` 0 (R174). -/
  taken : Bool
  /-- Every line is padded, because the bound generation differs from the intake (R173). -/
  allPad : Bool
  /-- The strand to the Developer, with its depth (R150). -/
  link : Option (Nat × Nat)
  flags : Nat
  /-- Photosites received or padded, by line (R146). -/
  got : SMap Nat
  ended : List Nat
  linesSent : Option Nat
  /-- Causes that ended the intake while kind 1 is followed (R148). -/
  stopped : Nat
  isOpen : Bool
  /-- a of R147. -/
  lines : Nat
  /-- The ingress layout: banks, stride, capacity and base (R164, R165). -/
  banks : List Nat
  stride : Nat
  cap : Nat
  base : Nat
  /-- Lines that hold their slot (R166). -/
  held : List Nat
  setTag : Nat
  predicted : Bool
  excluded : Bool
  replayed : Bool
  override : Bool
  /-- Stripes completed (R168). -/
  stripes : Nat
  /-- Tables read for the frame (R175, R211). -/
  grid : Option (List Byte)
  dmap : List Nat
  dodge : Option (List Byte)
  tone : Option (List Byte)
  lut : Option (List Byte)
  /-- Gains of the stripe before (R204). -/
  gPrev : List Nat
  /-- Developed lines kept for the enlargers, by line: the context's output and the fused tap (R219). -/
  devLines : SMap (List Pix)
  fusedLines : SMap (List Pix)
  stats : Option Contact
  tapLink : Option (Nat × Nat)
  outs : List OutFrame
  /-- The FRAME_END tokens have been sent. -/
  finished : Bool
  recorded : Bool
deriving DecidableEq, Repr

/-- A camera context beside its registers. -/
structure DevCtx where
  active : DevGen
  /-- Accepted generations not yet bound, oldest first, with the Anchor ns of their commit (R172, R173). -/
  pend : List (DevGen × Nat)
  frames : List CamFrame
  /-- Generation of the previous frame (R173). -/
  lastGen : Nat
  /-- F, H, W and banks of the previous frame's layout (R165). -/
  layout : Option (Nat × Nat × Nat × List Nat)
  statSeq : Nat
deriving DecidableEq, Repr

/-- An output stream beside its registers. -/
structure DevStream where
  active : SMap Word
  next : Nat
deriving DecidableEq, Repr

/-- The flags that a digest carries (R103). -/
structure Marks where
  excluded : Bool
  replayed : Bool
  override : Bool
deriving DecidableEq, Repr

/-- HEAD and DEV. -/
structure Camera where
  ports : SMap HeadPort
  ctxs : SMap DevCtx
  streams : SMap DevStream
  /-- The flags of R103 of each frame sent on a DEV output port, key 65536 * port + tag. -/
  marks : SMap Marks
deriving DecidableEq, Repr

/-! ## RAWC (chapter 06) -/

/-- A job of a RAWC queue (R251, R252, R256). -/
structure RawJob where
  /-- A decompression job (else compression), and a tap frame's (else a descriptor's). -/
  decode : Bool
  tap : Bool
  irq : Bool
  id : Nat
  width : Nat
  height : Nat
  bits : Nat
  cfa : Nat
  tag : Nat
  gen : Nat
  fflags : Nat
  lines : Nat
  src : Nat
  srcPitch : Nat
  dst : Nat
  limit : Nat
  dstPitch : Nat
  first : Nat
  count : Nat
  slot : Nat
  /-- The next block, counted from 0 within the job. -/
  next : Nat
  /-- What has been written, by offset from the destination, newest first. -/
  written : List (Nat × List Byte)
  /-- Where the next compressed block goes, and the index entries so far (R247). -/
  place : Nat
  entries : List (Nat × Nat)
  consumed : Nat
  firstBad : Nat
  bad : Nat
  /-- The status with which it ends, once nothing but its completion is left (R259). -/
  status : Option Nat
  /-- A tap frame's FRAME_END has been taken, or its remaining tokens were discarded (R73). -/
  ended : Bool
  cut : Bool
  marks : Marks
deriving DecidableEq, Repr

/-- A RAWC queue beside its registers. -/
structure RawQueue where
  job : Option RawJob
  /-- Tap frames since the last reset (R253). -/
  taps : Nat
  /-- A tap frame is being consumed without a job (R254). -/
  ignoring : Bool
  /-- The line store (R252). -/
  lines : SMap (List Nat)
deriving DecidableEq, Repr

/-! ## HEVC (chapter 07) -/

/-- A generation of a session: its number and its bank (R282). -/
structure HevcGen where
  num : Nat
  regs : SMap Word
deriving DecidableEq, Repr

/-- A coded row of a picture: its QP, whether it is a fill row, and its bytes (R293). -/
structure EncRow where
  qp : Int
  fill : Bool
  bytes : List Byte
  /-- How its coding tree units are coded. -/
  codes : List CtuCode
deriving DecidableEq, Repr

/-- An input that a session has taken: a frame's FRAME_START, a PICTURE descriptor, or an access unit. -/
structure HevcIn where
  strand : Bool
  fmt : Nat
  width : Nat
  height : Nat
  tag : Nat
  id : Nat
  irq : Bool
  addr : Nat
  pitch : Nat
  au : List Byte
  auNum : Nat
  cut : Bool
  /-- Start-of-frame timestamp, or arrival of the first packet, in ns. -/
  stamp : Nat
  /-- The kind 3 decision of a memory-fed access unit is still open. -/
  open3 : Bool
  marks : Marks
deriving DecidableEq, Repr

/-- A picture in progress. -/
structure HevcPic where
  inp : HevcIn
  gen : HevcGen
  num : Nat
  idr : Bool
  /-- Input lines that have arrived (encode), and whether no more will. -/
  lines : SMap (List Nat)
  ended : Bool
  buf : Option Nat
  /-- Rows done; the rows of an encoded picture, newest first. -/
  done : Nat
  rows : List EncRow
  qp : Int
  used : Nat
  filling : Bool
  raised : Bool
  /-- A reference of a decoded picture was missing, and a substitute was made for it (R302). -/
  missing : Bool
  marks : Marks
deriving DecidableEq, Repr

/-- Decoded samples: sizes, format, bit depths and planes in raster order. -/
structure DecFrame where
  width : Nat
  height : Nat
  chroma : Nat
  depthY : Nat
  depthC : Nat
  planes : List (List Nat)
deriving DecidableEq, Repr

/-- A picture of the decoded picture buffer. -/
structure DecPic where
  num : Nat
  poc : Int
  nal : Nat
  gen : HevcGen
  buf : Nat
  wait : Bool
  latency : Nat
  frame : DecFrame
  /-- The conformance window: left, top, width and height. -/
  crop : Nat × Nat × Nat × Nat
  pflags : Nat
  lost : Nat
  id : Nat
  irq : Bool
  auNum : Nat
deriving DecidableEq, Repr

/-- A record that waits to be posted (R300), with the access unit or the picture that goes out before it. -/
structure HevcRec where
  id : Nat
  status : Nat
  rkind : Nat
  num : Nat
  pflags : Nat
  qp : Int
  gen : HevcGen
  irq : Bool
  poc : Int
  lost : Nat
  /-- Encode: the bytes, the emulation prevention bytes among them, the tag and the timestamp. -/
  au : Option (List Byte × Nat × Nat × Nat)
  pic : Option DecPic
  marks : Marks
deriving DecidableEq, Repr

/-- A coding session beside its registers. -/
structure HevcSes where
  active : HevcGen
  pend : List HevcGen
  lastGen : Nat
  /-- Counts of pictures, access units and output pictures (R283, R295, R298). -/
  pics : Nat
  aus : Nat
  outs : Nat
  bsPos : Nat
  /-- Encode: pictures since the last IDR, whether the next is an IDR, the encoder's references (buffers, oldest first),
  and what the decision model carries from picture to picture. -/
  sinceIdr : Nat
  needIdr : Bool
  refs : List Nat
  model : Nat
  /-- An input whose binding or acceptance is still open (R105). -/
  hold : Option HevcIn
  /-- A strand frame is being consumed without coding. -/
  skip : Bool
  pic : Option HevcPic
  recs : List HevcRec
  /-- Decode: waiting for an IRAP picture, whether RASL pictures are discarded, the decoded picture buffer, the most
  recently decoded picture, and the decoding context. -/
  waitIrap : Bool
  dropRasl : Bool
  dpb : List DecPic
  last : Option DecFrame
  /-- Decode: the substitutes of missing reference pictures, by their picture order counts (R302). -/
  subs : List (Int × DecFrame)
  ctx : Nat
  /-- Data is excluded until the next clean point (R110). -/
  excluded : Bool
deriving DecidableEq, Repr

/-- HEVC: the sessions, and the rows served by pre-emption in succession on each pipe (R280). -/
structure Hevc where
  ses : SMap HevcSes
deriving DecidableEq, Repr

/-! ## The frame clock and WALL (chapters 08 and 10) -/

/-- A wall timing mode (R310): the rate, φ in ns, lead and margin in µs, the origin and its generation. -/
structure WallMode where
  num : Nat
  den : Nat
  phase : Nat
  lead : Nat
  margin : Nat
  orgSec : Nat
  orgFrame : Nat
  gen : Nat
deriving DecidableEq, Repr

/-- A generation of a surface (R314, R317, R318). -/
structure SurfGen where
  num : Nat
  /-- Anchor time in ns at which it became available. -/
  since : Nat
  empty : Bool
  /-- Its announced size differs from WIDTH and HEIGHT. -/
  bad : Bool
  buf : Nat
  /-- NET: the wall frame that RX_DONE names, and the lines accepted. -/
  frame : Option Nat
  lines : Nat
  /-- HEVC: the luma bit depth and the chroma format. -/
  depth : Nat
  chroma : Nat
  marks : Marks
deriving DecidableEq, Repr

/-- A line of a DIRECT surface in its line store (R320): its generation, its number and its samples. -/
structure StoreLine where
  gen : Nat
  line : Nat
  px : List Nat
deriving DecidableEq, Repr

/-- A surface beside its registers. -/
structure Surface where
  /-- Available generations newer than the bound one, oldest first. -/
  gens : List SurfGen
  bound : Option SurfGen
  /-- DIRECT: the line store, and the generation whose lines arrive now. -/
  store : List StoreLine
  arriving : Nat
deriving DecidableEq, Repr

/-- Contents of a tile context, with the layer table that applies to it (R334). -/
structure TileGen where
  num : Nat
  regs : SMap Word
  layers : SMap Word
deriving DecidableEq, Repr

/-- A tile context beside its registers. -/
structure Tile where
  active : TileGen
  /-- Pending contents with the time of their commit in ns and its number, oldest first. -/
  pend : List (TileGen × Nat × Nat)
  /-- Blocks that met an excluding event and have not been pushed since (R110), as a mask. -/
  excluded : Nat
deriving DecidableEq, Repr

/-- The pixels of a block, formed by R335, in row-major order. -/
structure BlockPix where
  block : Nat
  px : List Pix
  /-- The block read data that an uncorrectable error damaged. -/
  bad : Bool
deriving DecidableEq, Repr

/-- A push pass (R337). -/
structure Pass where
  ctx : Nat
  /-- The contents of the frame; none while their binding is undecided (R105). -/
  gen : Option TileGen
  /-- Blocks marked for mandatory push at the latch point, as a mask. -/
  force : Nat
  /-- Filled blocks, each from its first filled pixel (R340); every block, where the deadline came first. -/
  fills : List (Nat × Nat)
  fillAll : Bool
  /-- What was fetched by the deadline. -/
  pix : Option (List BlockPix)
deriving DecidableEq, Repr

/-- A frame of the frame clock from its latch point until nothing of it is left to do. -/
structure WallFrame where
  num : Nat
  latch : Nat
  deadline : Nat
  present : Nat
  modeGen : Nat
  /-- WALL serves the frame (else it is a reference frame), and the unit sends it as lead or solo. -/
  wall : Bool
  sends : Bool
  binds : SMap SurfGen
  /-- DIRECT surfaces that bind a new generation in the frame (R330). -/
  fresh : List Nat
  /-- Surfaces and tile contexts whose binding is undecided (R105). -/
  openSurf : List Nat
  openTile : List Nat
  sealed : Bool
  passes : List Pass
  /-- Passes the frame began with. -/
  count : Nat
  digest : Nat
  pushed : Nat
  marks : Marks
  /-- The deadline and the present time have been reached, the pass is complete, PRESENT is due no more. -/
  due : Bool
  lit : Bool
  complete : Bool
  presented : Bool
  /-- PUSH packets sent, by port. -/
  pkts : SMap Nat
deriving DecidableEq, Repr

/-- The frame clock (R311, R418). -/
structure FrameClock where
  mode : WallMode
  /-- The wall's mode runs (else the reference mode). -/
  wall : Bool
  /-- k of the next latch point. -/
  next : Nat
  /-- The wall's mode that takes over, with its first k (R312). -/
  start : Option (WallMode × Nat)
  /-- A committed mode change (R313), and whether its origin is known. -/
  change : Option WallMode
  decided : Bool
  /-- The latest latch point in ns. -/
  last : Nat
  frames : List WallFrame
deriving DecidableEq, Repr

/-- WALL beside its registers. -/
structure Wall where
  surfs : SMap Surface
  tiles : SMap Tile
  /-- Accepted commits not yet bound, by number, and the number of the next (R333). -/
  commits : List Nat
  nextCommit : Nat
  /-- The latest committed layer table. -/
  layers : SMap Word
  /-- Every block of every context is marked at the next latch point (R339, R375, R377). -/
  markAll : Bool
  /-- Width, height and head frame tag that the latest FRAME_START of each input port announced (R317). -/
  sizes : SMap (Nat × Nat × Nat)
deriving DecidableEq, Repr

/-! ## NET and Fenmas (chapter 09) -/

/-- A Fenmas packet that waits for its turn on its port (R358); its `seq` is set when it leaves. -/
structure FenPkt where
  frame : Nat
  port : Nat
  ftype : Nat
  bytes : List Byte
deriving DecidableEq, Repr

/-- A CAL submission that waits (R363). -/
structure Cal where
  seq : Nat
  tile : Nat
  cls : Nat
  addr : Nat
  len : Nat
deriving DecidableEq, Repr

/-- A wall digest kept for comparison (R385). -/
structure WallDig where
  frame : Nat
  val : Nat
  excluded : Bool
deriving DecidableEq, Repr

/-- Fenmas and belay beside the registers. -/
structure Fen where
  /-- `seq` of the next packet of each logical port (R354). -/
  seq : SMap Nat
  held : List FenPkt
  /-- The running epoch E (R375). -/
  epochE : Nat
  /-- The best lead claim heard, by pair: epoch and unit (R372). -/
  claims : SMap (Nat × Nat)
  /-- Since the previous latch point: a lead BEACON with an epoch not earlier than the unit's own, a BEACON of the other
  unit (R374, R379). -/
  heard : Bool
  peerHeard : Bool
  peerEver : Bool
  /-- Consecutive latch points without a BEACON of the other unit, and since the last stale one. -/
  quiet : Nat
  staleQuiet : Nat
  /-- What the next latch point brings: a demotion to an epoch (with ROLE_LOST), a forced role, the epoch of a takeover
  made at the latch point before, the takeover of `start_lead`. -/
  demote : Option (Nat × Bool)
  forceLead : Bool
  forceSecond : Bool
  rise : Option Nat
  startLead : Bool
  cals : List Cal
  calNext : Nat
  /-- The unit's own digests of the last 64 wall frames, and those of the other unit that came before its own. -/
  digs : List WallDig
  peerDigs : List WallDig
  /-- The source that entries are accepted from, with the last `seq` accepted (R383). -/
  source : Option (Nat × Nat)
  lastSeq : Option Nat
deriving DecidableEq, Repr

/-! ## NET media streams (chapter 09) -/

/-- A video frame that a receive stream has open (R396): its number, RTP timestamp, arrival of its first packet, and pgroups
by row and place. `dead`: no surface names the stream. `due`: an event that closes it has come, and its close waits (R105). -/
structure VidFrame where
  num : Nat
  ts : Nat
  first : Nat
  groups : SMap (List Nat)
  marker : Bool
  dead : Bool
  due : Bool
deriving DecidableEq, Repr

/-- A packet of an access unit (R295): whether it is a fragmentation unit, with its S and E bits, else it begins and ends
its NAL units; and the bytes it adds to the byte stream. -/
structure RtpPkt where
  seq : Nat
  marker : Bool
  fu : Bool
  first : Bool
  last : Bool
  bytes : List Byte
deriving DecidableEq, Repr

/-- An access unit of a receive stream, in RTP sequence order (R295, R397): its quarter of the ring, whether an event that
closes it has come, and, once it has closed, its accepted bytes with `arg_b` of its entry. -/
structure RtpUnit where
  ts : Nat
  first : Nat
  slot : Nat
  /-- Its place in the order in which the stream's access units opened. -/
  opened : Nat
  pkts : List RtpPkt
  due : Bool
  closed : Option (List Byte × Nat)
  marks : Marks
deriving DecidableEq, Repr

/-- A receive stream beside its registers. -/
structure NetRx where
  /-- Frames or access units opened. -/
  count : Nat
  vids : List VidFrame
  units : List RtpUnit
  /-- RTP timestamps closed. -/
  closed : List Nat
deriving DecidableEq, Repr

/-- A send stream beside its registers: packets since `enable`, and of an audio stream the next packet and
the group's origin. -/
structure NetTx where
  seq : Nat
  next : Nat
  origin : Nat
deriving DecidableEq, Repr

/-- The media streams of NET. -/
structure Media where
  rx : SMap NetRx
  tx : SMap NetTx
deriving DecidableEq, Repr

/-! ## Audio (chapter 10) -/

/-- A sample frame in an elastic buffer (R425): its frame start in 2^-16 ns of Anchor time (R406), its words by slot (R422), whether damaged
frames were dropped right before it (R429), and, on an output port, the group block it belongs to. -/
structure AudFrame where
  start : Nat
  words : List Nat
  glitch : Bool
  block : Nat
deriving DecidableEq, Repr

/-- A serial audio port beside its registers. -/
structure AudPort where
  buf : List AudFrame
  /-- Fill is in effect on the member (R426); mute is shown by the port's status. -/
  filled : Bool
  /-- Consecutive good frames while CLOCK_LOST (R429). -/
  good : Nat
  /-- Damaged frames were dropped since the latest frame entered. -/
  glitch : Bool
  /-- Consecutive windows off and within 1,000 ppm (R430). -/
  off : Nat
  within : Nat
  /-- The last frame taken from the buffer (R425). -/
  last : Option AudFrame
deriving DecidableEq, Repr

/-- A block that an output group has taken and whose record still lacks bytes 4 to 27 (R428). -/
structure OutBlock where
  k : Nat
  flags : Nat
  slip : Int
deriving DecidableEq, Repr

/-- A running alignment group, with what it captured when it was enabled (R423, R424). -/
structure AudGroup where
  net : Bool
  output : Bool
  fs : Nat
  deadline : Nat
  /-- Ports, or receive streams, in ascending order, with their channels. -/
  members : List Nat
  counts : List Nat
  origin : Nat
  /-- The next block to decide, and the boundary instants reached. -/
  next : Nat
  reached : Nat
  stopping : Bool
  /-- `ts` of the block before, in ns. -/
  prevTs : Nat
  /-- Output: blocks in which members dropped frames, blocks whose record is still to be completed, and missing blocks. -/
  glitched : List Nat
  outs : List OutBlock
  missed : List Nat
deriving DecidableEq, Repr

/-- What an audio receive stream supplies for a block (R398). -/
structure AudDone where
  k : Nat
  frames : List (List Nat)
  marks : Marks
deriving DecidableEq, Repr

/-- An audio receive stream's frames by group position, the next block to decide, the decision instants reached, and the
decided blocks that its group has not taken. -/
structure AudRx where
  frames : SMap (List Nat)
  next : Nat
  reached : Nat
  done : List AudDone
deriving DecidableEq, Repr

/-- AUD beside its registers, and the audio receive streams of NET. -/
structure Aud where
  ports : SMap AudPort
  groups : SMap AudGroup
  rx : SMap AudRx
deriving DecidableEq, Repr

/-! ## ANCHOR (chapter 10) -/

/-- What an Announce message says: grandmaster data, steps removed, and its sender's port identity (IEEE 1588-2019). -/
structure Announce where
  prio1 : Nat
  cls : Nat
  acc : Nat
  var : Nat
  prio2 : Nat
  gm : Nat
  steps : Nat
  utc : Nat
  flags : Nat
  source : Nat
  sender : Nat
deriving DecidableEq, Repr

/-- A foreign master heard on a logical port, with the Anchor ns of its two latest Announce messages. -/
structure Foreign where
  port : Nat
  data : Announce
  times : List Nat
deriving DecidableEq, Repr

/-- A PTP port: its next sequence numbers; a two-step Sync that waits for its Follow_Up, with its arrival and correction in
2^-16 ns; and the Delay_Req that waits for its answer, with its departure. -/
structure PtpPort where
  syncSeq : Nat
  annSeq : Nat
  reqSeq : Nat
  sync : Option (Nat × Nat × Int)
  req : Option (Nat × Nat)
deriving DecidableEq, Repr

/-- An entry of a two-step queue: its identifier and its time in 2^-16 ns (R417). -/
structure TsEntry where
  id : Nat
  time : Nat
deriving DecidableEq, Repr

/-- An injected frame that waits (R417). -/
structure Inject where
  port : Nat
  ts : Bool
  id : Nat
  bytes : List Byte
deriving DecidableEq, Repr

/-- ANCHOR beside its registers and the time itself. -/
structure AnchorSt where
  /-- Consecutive measurements below 100 ns (R409). -/
  good : Nat
  /-- Since when ρ has held while LOCKED, and the time spent LOCKED at each value, newest first (R411). -/
  segAt : Nat
  segs : List (Nat × Int)
  /-- Time since power-up at which HOLDOVER began and at which the latest PPS edge was accepted. -/
  holdAt : Nat
  ppsAt : Option Nat
  /-- The 10 MHz input has run for 1 s without a gap. -/
  ref10 : Bool
  tsq : SMap (List TsEntry)
  txi : Option Inject
  /-- Timers: the fraction of the target in 2^-16 ns, and the latest firing of a frame timer, in ns. -/
  tmr : SMap (Nat × Nat)
  /-- Timer outputs that are high, with the ns at which they fall. -/
  pulses : List (Nat × Nat)
  foreign : List Foreign
  /-- The selected master with its logical port, the mean path delay, and the latest t2 - t1, in 2^-16 ns. -/
  parent : Option (Nat × Announce)
  delay : Int
  diff : Option Int
  ptp : SMap PtpPort
deriving DecidableEq, Repr


/-! ## Clip store (chapter 11) -/

/-- A block held in staging (R451): the command that staged it and its queue and `cid`, the logical block, its ciphertext
(none for a deallocated block), the flags of its command, whether the command has completed, and whether the block has
been written to a member whose volatile write cache may still hold it. -/
structure Staged where
  id : Nat
  q : Nat
  cid : Nat
  lba : Nat
  data : Option (List Byte)
  atomic : Bool
  fua : Bool
  acked : Bool
  written : Bool
deriving DecidableEq, Repr

/-- A command that has been taken and has not completed (R445 to R447). -/
structure ClipCmd where
  /-- The model's own number of the command, in taken order. -/
  id : Nat
  q : Nat
  op : Nat
  flags : Nat
  cid : Nat
  slba : Nat
  nlb : Nat
  addr : Nat
  started : Bool
  /-- Blocks staged so far. -/
  staged : Nat
  /-- The status it will end with when that is already known, else 0. -/
  fail : Nat
  /-- FLUSH: the commands whose blocks it covers (R453). -/
  covered : List Nat
deriving DecidableEq, Repr

/-- An entry of the error log (R456). -/
structure ClipErr where
  seq : Nat
  kind : Nat
  member : Nat
  status : Nat
  lba : Nat
  count : Nat
  q : Nat
  cid : Nat
deriving DecidableEq, Repr

/-- A failed range (R455). -/
structure FailRange where
  lba : Nat
  count : Nat
  seq : Nat
deriving DecidableEq, Repr

/-- A deferred error that no FLUSH has reported yet (R455): the command whose write failed and
its queue, the block and the log entry. -/
structure DeferErr where
  id : Nat
  q : Nat
  lba : Nat
  seq : Nat
deriving DecidableEq, Repr

/-- A record of the atomic log on the members (R454): its unit's command, queue, `cid` and block range; whether the whole
unit is in the log; and the logged blocks whose home write is unfinished. -/
structure AtomRec where
  id : Nat
  q : Nat
  cid : Nat
  lba : Nat
  nlb : Nat
  whole : Bool
  blocks : List (Nat × List Byte)
deriving DecidableEq, Repr

/-- A member's error whose handling waits for new firmware (R459): a slot whose member left, or acknowledged blocks, by
command and logical block, that failed with an NVMe status. -/
inductive MemberEvent where
  | lost (slot : Nat)
  | failed (blocks : List (Nat × Nat)) (status : Nat)
deriving DecidableEq, Repr

/-- The clip store beside its registers. -/
structure ClipSt where
  /-- The SSDs as they were at the latest enable, by ascending slot, and what each slot's SSD holds (R440 to R442). -/
  ssds : List Ssd
  cells : SMap Memory
  /-- The slots of the members by header index; empty while the store is not in use. -/
  order : List Nat
  staged : List Staged
  /-- The base and size in GiB of the range that holds staging and its index (R451). -/
  stageAt : Nat × Nat
  /-- Commands in progress, in taken order. -/
  cmds : List ClipCmd
  atoms : List AtomRec
  /-- The error log, newest first (R456). -/
  log : List ClipErr
  failed : List FailRange
  errs : List DeferErr
  nextId : Nat
  /-- The queue at which the round of R445 goes on. -/
  round : Nat
  /-- `store_id` of the headers, and the advertised CS1 exit latency in µs (R460). -/
  storeId : Nat
  cs1Exit : Nat
  /-- When the last command was taken, and when CS1 was entered, in ns since power-up (R460). -/
  lastTake : Nat
  cs1Since : Nat
  /-- Whether a format waits for its epoch fuse (R547). -/
  format : Bool
  /-- The members that the enable in progress loses, by slot, with the step of R444 at which each is lost: the latest
  command's operand, a field of the model. -/
  losing : List (Nat × Nat)
  /-- Member errors that wait for an activation's new firmware, oldest first (R459). -/
  heldErrs : List MemberEvent
deriving DecidableEq, Repr

/-- What the device asks of a member (R443, R460). `power` is the Power Management feature set to a power state. -/
inductive NvmeOp where
  | identify (cns : Nat)
  | setFeature (feature value : Nat)
  | getFeature (feature : Nat)
  | createQueues (pairs entries : Nat)
  | getLog (page : Nat)
  | read (block : Nat)
  | write (block : Nat)
  | deallocate (block count : Nat)
  | flush
  | shutdown
  | power (state : Nat)
deriving DecidableEq, Repr

/-! ## What leaves the device -/

/-- Everything the device sends or answers, newest first in `State.out`. -/
inductive Output where
  | readData (m : Master) (off : Nat) (v : Nat)
  | abort (m : Master) (off : Nat)
  | apertureData (fn : Nat) (data : List Byte) (ep : Bool)
  | poolData (master : Nat) (data : List Byte) (ep : Bool)
  | config (fn : Nat) (v : Nat)
  | retryStatus (fn : Nat)
  | readinessStatus
  | msix (fn : Nat) (vector : Nat)
  | mgtIrq (vector : Nat)
  | smb (data : List Byte)
  | smbNack (code : Nat)
  | jtag (bits : List Bool)
  | fwNotice
  | tokenTaken (strand : Nat) (t : Token)
  | capRequest (port pseq : Nat)
  | control (port pseq op mask : Nat)
  | exposure (port pseq : Nat) (c : ExpCmd)
  /-- A packet on a port's back channel as its bytes leave (R128 to R130); the output before it says what it carries. -/
  | gypol (port : Nat) (bytes : List Byte)
  | ethernet (port : Nat) (frame : List Byte)
  /-- The levels that an output port drives on its data line for one sample frame: whether on the rising edges of BCLK, how
  many BCLK periods after the FS edge the first, and the levels in order (R421). -/
  | sap (port : Nat) (rising : Bool) (delay : Nat) (levels : List Bool)
  | timerFired (t owner unit : Nat)
  | timerBall (t : Nat) (high : Bool)
  | dramData (id : Nat) (data : List Byte) (poisoned : Bool)
  | nvme (slot : Nat) (op : NvmeOp)
  | ssdPower (on : Bool)
deriving DecidableEq, Repr

/-! ## The whole state -/

/-- The state of the LY9600. -/
structure State where
  /-- The registers written since their last reset, by BAR0 offset; any other reads its table's reset value. -/
  regs : SMap Word
  /-- The memories: DRAM (R467), the pool (R483), management SRAM (R516) and boot flash (R22). -/
  dram : Memory
  pool : Memory
  sram : Memory
  flash : Memory
  /-- Time since power-up in ns, from the 25 MHz reference. -/
  real : Nat
  /-- Anchor time since second 0, in units of 2^-48 ns (R405). -/
  anchorT : Nat
  sys : Sys
  /-- The islands by code (R34, R88). -/
  isl : SMap IslState
  rig : Rig
  jnl : Jnl
  memc : Memc
  poolSt : PoolSt
  host : HostSt
  mbox : MboxSt
  jtag : Jtag
  cam : Camera
  /-- The queues of RAWC (chapter 06). -/
  raw : SMap RawQueue
  hevc : Hevc
  wall : Wall
  fclk : FrameClock
  fen : Fen
  aud : Aud
  media : Media
  anchor : AnchorSt
  clip : ClipSt
  /-- What has left the device, newest first. -/
  out : List Output
  /-- How many free values have been drawn (the model's own field, no register of the device). -/
  freeCtr : Nat
  /-- Commands that wait, first in, first out. -/
  pending : List Instr
deriving DecidableEq, Repr

/-- A journal with nothing written or held (R97). -/
def Jnl.reset : Jnl where
  nextSeq := 0
  ringQ := []
  forwardQ := []
  recent := []
  applied := []
  held := []
  wholeFrom := none
  seqs := []
  seals := []
  mode := 0
  mask := 0xDF
  since := 0
  was := (0, 0xDF)
  waits := []
  digests := []
  captured := ⟨0, 0, false, false, false⟩
  leadFrom := none

/-- Rigging with both slots EMPTY and nothing claimed. -/
def Rig.reset : Rig where
  slotA := ⟨.empty, none⟩
  slotB := ⟨.empty, none⟩
  active := none
  change := none
  busyLater := false
  load := none
  claims := []
  strands := []
  zeroing := []
  zeroWait := []
  stalled := []
  starting := []
  stopping := []
  calNext := []
  retiring := []
  before := none
  oldUnits := []
  ballHold := []
  bootSlot := none
  presets := []

/-- The part the model runs on: stepping A0, BASECAMP, no key provisioned, the gap as delivered (R533). -/
def Fuses.delivered : Fuses where
  stepLetter := 0
  stepDigit := 0
  imgMinor := 0
  serial := 0
  rstGap := 256
  lcState := 0
  keys := [⟨0, []⟩, ⟨0, []⟩, ⟨0, []⟩, ⟨0, []⟩]
  epoch := 0
  repairs := []

/-- The islands in native release order (R533). -/
def Island.releaseOrder : List Island :=
  [.anchor, .mgt, .memc, .pool, .host, .vault, .net, .head, .dev, .rawc, .hevc, .wall, .aud]

/-- SYS as the internal power-on detector leaves it: its CHIP episode is open, its condition has ended, and the release
sequence is still to start (R523, R530). [assumption 4, DESIGN CHOICE] -/
def Sys.reset : Sys where
  fuses := Fuses.delivered
  strapPin := false
  strap := false
  episode := some ⟨[⟨0, 5, 0, Island.releaseOrder, false, 0⟩], none⟩
  pwrOk := true
  sysRstN := true
  perstN := true
  linkHold := false
  heldOff := []
  fuseSeqs := []
  wdtKickAt := 0
  lcConfirm := false
  nonce := 0
  tripped := false
  faultyDiodes := []
  refLostAt := none
  refStopped := false
  storeKey := none
  cskKey := none
  hotReset := false

/-- A PCIe function after its configuration space is reset (R505). [assumption 10, PRESUMED] -/
def PcieFn.reset : PcieFn where
  busMaster := false
  msixEnable := false
  msixMask := false
  d3hot := false
  bar0 := 0
  bar2 := 0
  bar4 := 0
  maxPayload := 0
  table := []
  pba := []
  asserted := []
  aerPoisoned := 0

/-- WALL with every register, surface, layer and tile context at its reset value (R349). -/
def Wall.reset : Wall := ⟨[], [], [], 0, [], false, []⟩

/-- The reference mode (R418). -/
def WallMode.ref : WallMode := ⟨120000, 1001, 2000000, 2000, 150, 0, 0, 0⟩

/-- The frame clock at the start of the reference mode (R418). -/
def FrameClock.reset : FrameClock := ⟨.ref, false, 0, none, none, false, 0, []⟩

/-- Fenmas with nothing sent or heard (R391). -/
def Fen.reset : Fen where
  seq := []
  held := []
  epochE := 0
  claims := []
  heard := false
  peerHeard := false
  peerEver := false
  quiet := 0
  staleQuiet := 15
  demote := none
  forceLead := false
  forceSecond := false
  rise := none
  startLead := false
  cals := []
  calNext := 0
  digs := []
  peerDigs := []
  source := none
  lastSeq := none

/-- ANCHOR with nothing measured, queued, armed or heard (R405). -/
def AnchorSt.reset : AnchorSt where
  good := 0
  segAt := 0
  segs := []
  holdAt := 0
  ppsAt := none
  ref10 := false
  tsq := []
  txi := none
  tmr := []
  pulses := []
  foreign := []
  parent := none
  delay := 0
  diff := none
  ptp := []

/-- The clip store OFF, with no SSD seen and nothing staged (R444). -/
def ClipSt.reset : ClipSt where
  ssds := []
  cells := []
  order := []
  staged := []
  stageAt := (0, 0)
  cmds := []
  atoms := []
  log := []
  failed := []
  errs := []
  nextId := 0
  round := 0
  storeId := 0
  cs1Exit := 0
  lastTake := 0
  cs1Since := 0
  format := false
  losing := []
  heldErrs := []

/-- The state right after the power-on reset: every island in reset, every register at its reset value.
[assumption 4, DESIGN CHOICE] -/
def State.reset : State where
  regs := [(0x1C, 1#32)]
  dram := []
  pool := []
  sram := []
  flash := []
  real := 0
  anchorT := 0
  sys := Sys.reset
  isl := []
  rig := Rig.reset
  jnl := Jnl.reset
  memc := ⟨[], [], [], [], false⟩
  poolSt := ⟨[], [], [], none, []⟩
  host := ⟨PcieFn.reset, PcieFn.reset, [], 0, false⟩
  mbox := ⟨[], none, false⟩
  jtag := ⟨true, 0x02, [], [], false, false, false⟩
  cam := ⟨[], [], [], []⟩
  raw := []
  hevc := ⟨[]⟩
  wall := Wall.reset
  fclk := FrameClock.reset
  fen := Fen.reset
  aud := ⟨[], [], []⟩
  media := ⟨[], []⟩
  anchor := AnchorSt.reset
  clip := ClipSt.reset
  out := []
  freeCtr := 0
  pending := []

end Sys2Proof.Machine
end

