-- ==== Sys2Proof/Machine/Ops.lean ====
section
/-! DEFINITION. Named operations over sparse tables, memories and the state's plain fields. -/
namespace Sys2Proof.Machine

/-! ## Sparse tables -/

/-- The listed value of a key. -/
def mapFind {α : Type} : SMap α → Nat → Option α
  | [], _ => none
  | (k, v) :: r, j => if k = j then some v else mapFind r j

/-- The value of a key, or the default. -/
def mapGet {α : Type} (d : α) (m : SMap α) (j : Nat) : α :=
  match mapFind m j with
  | some v => v
  | none => d

/-- The table with a key set, in rising order. -/
def mapSet {α : Type} : SMap α → Nat → α → SMap α
  | [], j, x => [(j, x)]
  | (k, v) :: r, j, x =>
    if j < k then (j, x) :: (k, v) :: r
    else if j = k then (j, x) :: r
    else (k, v) :: mapSet r j x

/-- The table without a key. -/
def mapDel {α : Type} (m : SMap α) (j : Nat) : SMap α := m.filter (fun e => e.1 != j)

/-! ## Memories -/

/-- One byte; an unlisted address reads 0 (R534, R536: memory is zeroed before its island is released).
[assumption 5, DESIGN CHOICE] -/
def memGet : Memory → Nat → Byte
  | [], _ => 0
  | (k, v) :: r, j => if k = j then v else memGet r j

/-- Every listed address lies above `lo`, addresses rise strictly and no listed byte is 0. -/
def memWfAbove : Option Nat → Memory → Bool
  | _, [] => true
  | lo, (k, v) :: r =>
    (match lo with
      | none => true
      | some l => decide (l < k)) && (v != 0) && memWfAbove (some k) r

/-- The canonical form of a memory. [assumption 5, DESIGN CHOICE] -/
def memWf (m : Memory) : Bool := memWfAbove none m

/-- The cells of bytes at rising addresses: those that are not 0. -/
def memCells (a : Nat) : List Byte → Memory
  | [] => []
  | b :: r => if b = 0 then memCells (a + 1) r else (a, b) :: memCells (a + 1) r

/-- The cells below an address. -/
def memBelow (m : Memory) (a : Nat) : Memory := m.filter (fun c => decide (c.1 < a))

/-- The cells from an address on. -/
def memFrom (m : Memory) (a : Nat) : Memory := m.filter (fun c => decide (a ≤ c.1))

/-- Bytes written at rising addresses, in canonical form. [assumption 5, DESIGN CHOICE] -/
def memWrite (m : Memory) (a : Nat) (d : List Byte) : Memory :=
  memBelow m a ++ (memCells a d ++ memFrom m (a + d.length))

/-- `n` bytes read from an address. -/
def memRead (m : Memory) (a n : Nat) : List Byte :=
  let w := memBelow (memFrom m a) (a + n)
  (List.range n).map (fun i => memGet w (a + i))

/-- A range set to zero. -/
def memZero (m : Memory) (a n : Nat) : Memory := m.filter (fun c => decide (c.1 < a) || decide (a + n ≤ c.1))

/-- A byte of boot flash; an unlisted address reads as erased, 0xFF. [assumption 5, DESIGN CHOICE] -/
def flashGet (m : Memory) (a : Nat) : Byte :=
  match mapFind m a with
  | some v => v
  | none => 0xFF

/-- `n` bytes of boot flash. -/
def flashRead (m : Memory) (a n : Nat) : List Byte := (List.range n).map (fun i => flashGet m (a + i))

/-- Bytes programmed into boot flash, in canonical form: an erased byte is not listed. [assumption 5, DESIGN CHOICE] -/
def flashWrite (m : Memory) (a : Nat) (d : List Byte) : Memory :=
  memBelow m a ++ (((List.range d.length).zip d).filterMap (fun e => if e.2 = 0xFF then none else some (a + e.1, e.2))
    ++ memFrom m (a + d.length))

/-- The canonical form of boot flash: addresses rise strictly and no listed byte is 0xFF. [assumption 5, DESIGN CHOICE] -/
def flashWf (m : Memory) : Bool := memWf (m.map (fun c => (c.1, c.2 ^^^ 0xFF)))

/-- A range of a set of line or word numbers removed. -/
def setDrop (l : List Nat) (a n : Nat) : List Nat := l.filter (fun x => decide (x < a) || decide (a + n ≤ x))

/-- A number added to a set kept in rising order without repeats. -/
def setAdd : List Nat → Nat → List Nat
  | [], x => [x]
  | k :: r, x => if x < k then x :: k :: r else if x = k then k :: r else k :: setAdd r x

/-! ## State -/

/-- What leaves the device. [assumption 8, DESIGN CHOICE] -/
def State.emit (s : State) (o : Output) : State := { s with out := o :: s.out }

/-- A list of outputs, sent in order. -/
def State.emitAll (s : State) (l : List Output) : State := l.foldl State.emit s

/-- The island of a code (R34). -/
def islandOf : Nat → Option Island
  | 0 => some .sys | 1 => some .anchor | 2 => some .mgt | 3 => some .memc | 4 => some .pool
  | 5 => some .host | 6 => some .vault | 7 => some .net | 8 => some .head | 9 => some .dev
  | 10 => some .rawc | 11 => some .hevc | 12 => some .wall | 13 => some .aud
  | _ => none

/-- The code of an island (R34). -/
def Island.code : Island → Nat
  | .sys => 0 | .anchor => 1 | .mgt => 2 | .memc => 3 | .pool => 4 | .host => 5 | .vault => 6
  | .net => 7 | .head => 8 | .dev => 9 | .rawc => 10 | .hevc => 11 | .wall => 12 | .aud => 13

/-- An island held in reset with its clock stopped. -/
def IslState.held : IslState := ⟨true, false, false, 0, 0, 0, false⟩

/-- SYS itself always runs, at 25 MHz (R88). -/
def IslState.sysRuns : IslState := ⟨false, true, false, 25, 0, 0, true⟩

/-- The state of an island. -/
def State.island (s : State) (i : Island) : IslState :=
  match i with
  | .sys => .sysRuns
  | _ => mapGet .held s.isl i.code

/-- An island's state changed. -/
def State.setIsland (s : State) (i : Island) (x : IslState) : State := { s with isl := mapSet s.isl i.code x }

/-- Whether an island is held in reset. -/
def State.held (s : State) (i : Island) : Bool := (s.island i).inReset

/-- Whether an island is out of reset. -/
def State.runs (s : State) (i : Island) : Bool := !(s.island i).inReset

/-- Anchor time in whole nanoseconds (R405). [assumption 7, DESIGN CHOICE] -/
def State.nowNs (s : State) : Nat := s.anchorT >>> 48

/-- Time runs on to an Anchor instant in ns; it never runs backwards (R405). The time since power-up runs with it.
[assumption 7, DESIGN CHOICE] -/
def State.reach (s : State) (t : Nat) : State :=
  if s.runs .anchor && decide (s.nowNs < t) then
    { s with anchorT := t <<< 48, real := s.real + (t - s.nowNs) }
  else s

/-- Time runs on to an instant that the device has captured, in Anchor ns and a fraction in 2^-16 ns (R406).
[assumption 7, DESIGN CHOICE] -/
def State.reachAt (s : State) (t frac : Nat) : State :=
  let s := s.reach t
  let fine := (t * 65536 + frac % 65536) <<< 32
  if s.runs .anchor && decide (s.anchorT < fine) then { s with anchorT := fine } else s

/-- The effective reach of an episode (R529). -/
def Episode.reach (e : Episode) : Nat := (e.sources.map (fun x => x.reach)).foldl max 0

/-- SYS itself is in reset, in a CHIP episode that has not begun to release (R524). -/
def State.sysDown (s : State) : Bool :=
  match s.sys.episode with
  | some e => e.reach = 5 && e.release.isNone
  | none => false

end Sys2Proof.Machine
end

