-- ==== Sys2Proof/Machine/RegTable.lean ====
section
/-! DEFINITION. The register table: every register of the chapters' register tables, one row each, with its offset in BAR0,
its index strides and counts, the masks of its access codes (R19), its reset value and its view (R500). -/
namespace Sys2Proof.Machine

/-- One row of the register map. Word `i, j` of the row lies at `base + s1*i + s2*j`, `i < n1`, `j < n2`.
`rw`, `w1c`, `rc`, `w1s` are the bits of those access codes (R19); every other bit is read only. -/
structure RegRow where
  name : String
  base : Nat
  s1 : Nat
  n1 : Nat
  s2 : Nat
  n2 : Nat
  rw : Nat
  w1c : Nat
  rc : Nat
  w1s : Nat
  reset : Nat
  priv : Bool
deriving DecidableEq, Repr

def regsSys0 : List RegRow := [
  ⟨"SYS_ID", 0x0, 0x1000000, 1, 0x4, 1, 0x0, 0x0, 0x0, 0x0, 0x96000010, false⟩,
  ⟨"SYS_STRAP", 0x4, 0x1000000, 1, 0x4, 1, 0x0, 0x0, 0x0, 0x0, 0x0, false⟩,
  ⟨"SYS_STATUS", 0x8, 0x1000000, 1, 0x4, 1, 0x0, 0x0, 0x0, 0x0, 0x0, false⟩,
  ⟨"SYS_RST_CTRL", 0x10, 0x1000000, 1, 0x4, 1, 0xff07, 0x0, 0x0, 0x80000000, 0x0, true⟩,
  ⟨"SYS_RST_STATUS", 0x14, 0x1000000, 1, 0x4, 1, 0x0, 0x0, 0x0, 0x0, 0x0, true⟩,
  ⟨"SYS_RST_CAUSE", 0x18, 0x1000000, 1, 0x4, 1, 0x0, 0x0, 0x0, 0x0, 0x10005, false⟩,
  ⟨"SYS_RST_COUNT", 0x1c, 0x1000000, 1, 0x4, 1, 0x0, 0x0, 0x0, 0x0, 0x0, false⟩,
  ⟨"SYS_PERST_CFG", 0x20, 0x1000000, 1, 0x4, 1, 0xf07, 0x0, 0x0, 0x0, 0x103, true⟩,
  ⟨"SYS_RST_GAP", 0x24, 0x1000000, 1, 0x4, 1, 0x0, 0x0, 0x0, 0x0, 0x100, true⟩,
  ⟨"SYS_WDT_CTRL", 0x30, 0x1000000, 1, 0x4, 1, 0xffff0001, 0x0, 0x0, 0x0, 0x7d00000, true⟩,
  ⟨"SYS_WDT_KICK", 0x34, 0x1000000, 1, 0x4, 1, 0x0, 0x0, 0x0, 0xffffffff, 0x0, true⟩,
  ⟨"SYS_EVT", 0x40, 0x1000000, 1, 0x4, 1, 0x0, 0x7f, 0x0, 0x0, 0x0, true⟩,
  ⟨"SYS_EVT_MASK", 0x44, 0x1000000, 1, 0x4, 1, 0xffffffff, 0x0, 0x0, 0x0, 0x0, true⟩,
  ⟨"SYS_THERM_CFG", 0x50, 0x1000000, 1, 0x4, 1, 0xffff, 0x0, 0x0, 0x0, 0x6e64, true⟩,
  ⟨"SYS_THERM_STATUS", 0x54, 0x1000000, 1, 0x4, 1, 0x0, 0x0, 0x0, 0x0, 0x0, false⟩,
  ⟨"SYS_THERM_D", 0x60, 0x4, 16, 0x4, 1, 0x0, 0x0, 0x0, 0x0, 0x0, false⟩,
  ⟨"SYS_THERM_R", 0xa0, 0x4, 4, 0x4, 1, 0x0, 0x0, 0x0, 0x0, 0x0, false⟩,
  ⟨"SYS_LC_STATE", 0xc0, 0x1000000, 1, 0x4, 1, 0x0, 0x0, 0x0, 0x0, 0x0, false⟩,
  ⟨"SYS_LC_CTRL", 0xc4, 0x1000000, 1, 0x4, 1, 0x3, 0x0, 0x0, 0x80000000, 0x0, true⟩,
  ⟨"SYS_LC_CONFIRM", 0xc8, 0x1000000, 1, 0x4, 1, 0x0, 0x0, 0x0, 0xffffffff, 0x0, true⟩,
  ⟨"SYS_LC_STATUS", 0xcc, 0x1000000, 1, 0x4, 1, 0x0, 0x0, 0x0, 0x0, 0x0, true⟩,
  ⟨"SYS_LC_SRC", 0xd0, 0x1000000, 1, 0x4, 1, 0x7fffff8, 0x0, 0x0, 0x0, 0x0, true⟩,
  ⟨"SYS_LC_NONCE", 0xe0, 0x4, 4, 0x4, 1, 0x0, 0x0, 0x0, 0x0, 0x0, true⟩,
  ⟨"SYS_KEY_STATE", 0x100, 0x1000000, 1, 0x4, 1, 0x0, 0x0, 0x0, 0x0, 0x0, false⟩,
  ⟨"SYS_KEY_CTRL", 0x104, 0x1000000, 1, 0x4, 1, 0xf, 0x0, 0x0, 0x80000000, 0x0, true⟩,
  ⟨"SYS_KEY_SRC", 0x108, 0x1000000, 1, 0x4, 1, 0x7fffff8, 0x0, 0x0, 0x0, 0x0, true⟩,
  ⟨"SYS_CSK_CTRL", 0x110, 0x1000000, 1, 0x4, 1, 0x3, 0x0, 0x0, 0x80000000, 0x0, true⟩,
  ⟨"SYS_CSK_SRC", 0x114, 0x1000000, 1, 0x4, 1, 0x7fffff8, 0x0, 0x0, 0x0, 0x0, true⟩,
  ⟨"SYS_CSK_DST", 0x118, 0x1000000, 1, 0x4, 1, 0x7fffff8, 0x0, 0x0, 0x0, 0x0, true⟩,
  ⟨"SYS_CSK_EPOCH", 0x11c, 0x1000000, 1, 0x4, 1, 0x0, 0x0, 0x0, 0x0, 0x0, true⟩]

def regsSys1 : List RegRow := [
  ⟨"SYS_XPUB", 0x140, 0x4, 24, 0x4, 1, 0x0, 0x0, 0x0, 0x0, 0x0, false⟩]

def regsSys : List RegRow := regsSys0 ++ regsSys1

def regsRig0 : List RegRow := [
  ⟨"RIG_STATUS", 0x10000, 0x1000000, 1, 0x4, 1, 0x0, 0x50, 0x0, 0x0, 0x0, false⟩,
  ⟨"RIG_ACTIVE_CLASS_LO", 0x10004, 0x1000000, 1, 0x4, 1, 0x0, 0x0, 0x0, 0x0, 0x0, false⟩,
  ⟨"RIG_ACTIVE_CLASS_HI", 0x10008, 0x1000000, 1, 0x4, 1, 0x0, 0x0, 0x0, 0x0, 0x0, false⟩,
  ⟨"RIG_SLOT_STATE", 0x1000c, 0x1000000, 1, 0x4, 1, 0x0, 0x0, 0x0, 0x0, 0x0, false⟩,
  ⟨"RIG_LOAD_SRC", 0x10010, 0x1000000, 1, 0x4, 1, 0xffffffff, 0x0, 0x0, 0x0, 0x0, true⟩,
  ⟨"RIG_LOAD_LEN", 0x10014, 0x1000000, 1, 0x4, 1, 0xffffffff, 0x0, 0x0, 0x0, 0x0, true⟩,
  ⟨"RIG_LOAD_CTRL", 0x10018, 0x1000000, 1, 0x4, 1, 0x2, 0x0, 0x0, 0x1, 0x0, true⟩,
  ⟨"RIG_LOAD_STATUS", 0x1001c, 0x1000000, 1, 0x4, 1, 0x0, 0x0, 0x0, 0x0, 0x0, true⟩,
  ⟨"RIG_LOAD_ERR_OFS", 0x10020, 0x1000000, 1, 0x4, 1, 0x0, 0x0, 0x0, 0x0, 0xffffffff, true⟩,
  ⟨"RIG_BOOT_SEL", 0x10024, 0x1000000, 1, 0x4, 1, 0x3, 0x0, 0x0, 0x0, 0x2, true⟩,
  ⟨"RIG_CHANGE_FRAME", 0x10030, 0x1000000, 1, 0x4, 1, 0xffffffff, 0x0, 0x0, 0x0, 0x0, true⟩,
  ⟨"RIG_CHANGE_CTRL", 0x10034, 0x1000000, 1, 0x4, 1, 0xff001c, 0x0, 0x0, 0x3, 0x0, true⟩,
  ⟨"RIG_CHANGE_STATUS", 0x10038, 0x1000000, 1, 0x4, 1, 0x0, 0x0, 0x0, 0x0, 0x0, false⟩,
  ⟨"RIG_CLAIM_CTRL", 0x10040, 0x1000000, 1, 0x4, 1, 0x1fffff, 0x0, 0x0, 0x0, 0x0, true⟩,
  ⟨"RIG_CLAIM_STATUS", 0x10044, 0x1000000, 1, 0x4, 1, 0x0, 0x0, 0x0, 0x0, 0x0, true⟩,
  ⟨"RIG_STRAND_FLUSH", 0x10048, 0x1000000, 1, 0x4, 1, 0x0, 0x0, 0xffffffff, 0x0, 0x0, true⟩,
  ⟨"RIG_CAL_POS", 0x10050, 0x4, 4, 0x4, 1, 0x0, 0x0, 0x0, 0x0, 0x0, false⟩,
  ⟨"RIG_ISL_STATE0", 0x10100, 0x1000000, 1, 0x4, 1, 0x0, 0x0, 0x0, 0x0, 0x190005, false⟩,
  ⟨"RIG_ISL_STATE", 0x10104, 0x4, 13, 0x4, 1, 0x0, 0x0, 0x0, 0x0, 0x2, false⟩,
  ⟨"RIG_JNL_CTRL", 0x18000, 0x1000000, 1, 0x4, 1, 0xff000f, 0x0, 0x0, 0x0, 0xdf0000, true⟩,
  ⟨"RIG_JNL_STATUS", 0x18004, 0x1000000, 1, 0x4, 1, 0x0, 0x7a, 0x0, 0x0, 0x0, true⟩,
  ⟨"RIG_JNL_BASE_LO", 0x18008, 0x1000000, 1, 0x4, 1, 0xfffff000, 0x0, 0x0, 0x0, 0x0, true⟩,
  ⟨"RIG_JNL_BASE_HI", 0x1800c, 0x1000000, 1, 0x4, 1, 0x3f, 0x0, 0x0, 0x0, 0x0, true⟩,
  ⟨"RIG_JNL_SIZE", 0x18010, 0x1000000, 1, 0x4, 1, 0x1f, 0x0, 0x0, 0x0, 0xa, true⟩,
  ⟨"RIG_JNL_WR_SEQ", 0x18014, 0x1000000, 1, 0x4, 1, 0x0, 0x0, 0x0, 0x0, 0x0, true⟩,
  ⟨"RIG_JNL_RING_DROP", 0x18018, 0x1000000, 1, 0x4, 1, 0x0, 0x0, 0xffffffff, 0x0, 0x0, true⟩,
  ⟨"RIG_JNL_HOLD_US", 0x1801c, 0x1000000, 1, 0x4, 1, 0x1ffff, 0x0, 0x0, 0x0, 0x1388, true⟩,
  ⟨"RIG_JNL_OVERRIDES", 0x18020, 0x1000000, 1, 0x4, 1, 0x0, 0x0, 0xffffffff, 0x0, 0x0, true⟩,
  ⟨"RIG_JNL_CRC_BAD", 0x18024, 0x1000000, 1, 0x4, 1, 0x0, 0x0, 0xffffffff, 0x0, 0x0, true⟩,
  ⟨"RIG_JNL_SRC_SEQ", 0x18028, 0x1000000, 1, 0x4, 1, 0x0, 0x0, 0x0, 0x0, 0x0, true⟩]

def regsRig1 : List RegRow := [
  ⟨"RIG_JNL_INJ", 0x18080, 0x4, 8, 0x4, 1, 0x0, 0x0, 0x0, 0xffffffff, 0x0, true⟩,
  ⟨"RIG_DIG_SEL", 0x18100, 0x1000000, 1, 0x4, 1, 0xff0f, 0x0, 0x0, 0x0, 0x0, true⟩,
  ⟨"RIG_DIG_FRAME", 0x18104, 0x1000000, 1, 0x4, 1, 0x0, 0x0, 0x0, 0x0, 0x0, true⟩,
  ⟨"RIG_DIG_LO", 0x18108, 0x1000000, 1, 0x4, 1, 0x0, 0x0, 0x0, 0x0, 0x0, true⟩,
  ⟨"RIG_DIG_HI", 0x1810c, 0x1000000, 1, 0x4, 1, 0x0, 0x0, 0x0, 0x0, 0x0, true⟩,
  ⟨"RIG_DIG_FLAGS", 0x18110, 0x1000000, 1, 0x4, 1, 0x0, 0x0, 0x0, 0x0, 0x0, true⟩]

def regsRig : List RegRow := regsRig0 ++ regsRig1

def regsHead : List RegRow := [
  ⟨"HEAD_CFG", 0x20000, 0x400, 8, 0x4, 1, 0x1f, 0x0, 0x0, 0x0, 0x0, true⟩,
  ⟨"HEAD_STATE", 0x20004, 0x400, 8, 0x4, 1, 0x0, 0x0, 0x0, 0x0, 0x0, false⟩,
  ⟨"HEAD_ERR", 0x20008, 0x400, 8, 0x4, 1, 0x0, 0xff, 0x0, 0x0, 0x0, false⟩,
  ⟨"HEAD_HCRC_BAD", 0x20010, 0x400, 8, 0x4, 1, 0x0, 0x0, 0xffffffff, 0x0, 0x0, false⟩,
  ⟨"HEAD_PCRC_BAD", 0x20014, 0x400, 8, 0x4, 1, 0x0, 0x0, 0xffffffff, 0x0, 0x0, false⟩,
  ⟨"HEAD_FRAMING", 0x20018, 0x400, 8, 0x4, 1, 0x0, 0x0, 0xffffffff, 0x0, 0x0, false⟩,
  ⟨"HEAD_LEN_BAD", 0x2001c, 0x400, 8, 0x4, 1, 0x0, 0x0, 0xffffffff, 0x0, 0x0, false⟩,
  ⟨"HEAD_LATE_DROP", 0x20020, 0x400, 8, 0x4, 1, 0x0, 0x0, 0xffffffff, 0x0, 0x0, false⟩,
  ⟨"HEAD_LOCK_LOSS", 0x20024, 0x400, 8, 0x4, 1, 0x0, 0x0, 0xffffffff, 0x0, 0x0, false⟩,
  ⟨"HEAD_TRAIN_FAIL", 0x20028, 0x400, 8, 0x4, 1, 0x0, 0x0, 0xffffffff, 0x0, 0x0, false⟩,
  ⟨"HEAD_SOF_ADJ", 0x20030, 0x400, 8, 0x4, 1, 0xffff, 0x0, 0x0, 0x0, 0x0, true⟩,
  ⟨"HEAD_CAP", 0x20100, 0x400, 8, 0x4, 48, 0x0, 0x0, 0x0, 0x0, 0x0, false⟩,
  ⟨"HEAD_VS_MAP", 0x20200, 0x400, 8, 0x40, 4, 0x1f, 0x0, 0x0, 0x0, 0x0, true⟩,
  ⟨"HEAD_VS_STATUS", 0x20204, 0x400, 8, 0x40, 4, 0x0, 0x0, 0x0, 0x0, 0x0, false⟩,
  ⟨"HEAD_VS_FRAME", 0x20208, 0x400, 8, 0x40, 4, 0x0, 0x0, 0x0, 0x0, 0x0, false⟩,
  ⟨"HEAD_VS_EXP_NS", 0x20210, 0x400, 8, 0x40, 4, 0xffffffff, 0x0, 0x0, 0x0, 0x0, false⟩,
  ⟨"HEAD_VS_EXP_GAIN", 0x20214, 0x400, 8, 0x40, 4, 0xffff, 0x0, 0x0, 0x0, 0x100, false⟩,
  ⟨"HEAD_VS_EXP_PARAM0", 0x20218, 0x400, 8, 0x40, 4, 0xffffffff, 0x0, 0x0, 0x0, 0x0, false⟩,
  ⟨"HEAD_VS_EXP_PARAM1", 0x2021c, 0x400, 8, 0x40, 4, 0xffffffff, 0x0, 0x0, 0x0, 0x0, false⟩,
  ⟨"HEAD_VS_EXP_CTRL", 0x20220, 0x400, 8, 0x40, 4, 0x1ffff, 0x0, 0x0, 0x80000000, 0x0, false⟩,
  ⟨"HEAD_VS_EXP_STATUS", 0x20224, 0x400, 8, 0x40, 4, 0x0, 0x0, 0x0, 0x0, 0x0, false⟩]

def regsDev0 : List RegRow := [
  ⟨"DEV_EVT", 0x40000, 0x1000000, 1, 0x4, 1, 0x0, 0xffffffff, 0x0, 0x0, 0x0, false⟩,
  ⟨"DEV_EVT_MASK", 0x40004, 0x1000000, 1, 0x4, 1, 0xffffffff, 0x0, 0x0, 0x0, 0x0, false⟩,
  ⟨"DEV_CTX_CTRL", 0x50000, 0x1000, 16, 0x4, 1, 0x0, 0x0, 0x0, 0x1, 0x0, false⟩,
  ⟨"DEV_CTX_STATUS", 0x50004, 0x1000, 16, 0x4, 1, 0x0, 0x0, 0x0, 0x0, 0x0, false⟩,
  ⟨"DEV_CTX_GEN", 0x50008, 0x1000, 16, 0x4, 1, 0x0, 0x0, 0x0, 0x0, 0x0, false⟩,
  ⟨"DEV_CTX_GEN_PEND", 0x5000c, 0x1000, 16, 0x4, 1, 0x0, 0x0, 0x0, 0x0, 0x0, false⟩,
  ⟨"DEV_CTX_SIZE", 0x50010, 0x1000, 16, 0x4, 1, 0x3fff7fff, 0x0, 0x0, 0x0, 0x0, false⟩,
  ⟨"DEV_CTX_FMT", 0x50014, 0x1000, 16, 0x4, 1, 0x173, 0x0, 0x0, 0x0, 0x0, false⟩,
  ⟨"DEV_CTX_PAD", 0x50018, 0x1000, 16, 0x4, 1, 0xffff, 0x0, 0x0, 0x0, 0x0, false⟩,
  ⟨"DEV_CTX_BLACK", 0x50020, 0x1000, 16, 0x4, 4, 0xffff, 0x0, 0x0, 0x0, 0x0, false⟩,
  ⟨"DEV_CTX_NORM", 0x50030, 0x1000, 16, 0x4, 4, 0xffffff, 0x0, 0x0, 0x0, 0x4000, false⟩,
  ⟨"DEV_CTX_DPC_CTRL", 0x50040, 0x1000, 16, 0x4, 1, 0x3, 0x0, 0x0, 0x0, 0x0, false⟩,
  ⟨"DEV_CTX_DPC_THR", 0x50044, 0x1000, 16, 0x4, 1, 0xffffffff, 0x0, 0x0, 0x0, 0xffffffff, false⟩,
  ⟨"DEV_CTX_DPC_MAP_LO", 0x50048, 0x1000, 16, 0x4, 1, 0xffffffc0, 0x0, 0x0, 0x0, 0x0, false⟩,
  ⟨"DEV_CTX_DPC_MAP_HI", 0x5004c, 0x1000, 16, 0x4, 1, 0x3f, 0x0, 0x0, 0x0, 0x0, false⟩,
  ⟨"DEV_CTX_DPC_MAP_COUNT", 0x50050, 0x1000, 16, 0x4, 1, 0x1ffff, 0x0, 0x0, 0x0, 0x0, false⟩,
  ⟨"DEV_CTX_SHD_CTRL", 0x50060, 0x1000, 16, 0x4, 1, 0x1, 0x0, 0x0, 0x0, 0x0, false⟩,
  ⟨"DEV_CTX_SHD_LO", 0x50064, 0x1000, 16, 0x4, 1, 0xffffffc0, 0x0, 0x0, 0x0, 0x0, false⟩,
  ⟨"DEV_CTX_SHD_HI", 0x50068, 0x1000, 16, 0x4, 1, 0x3f, 0x0, 0x0, 0x0, 0x0, false⟩,
  ⟨"DEV_CTX_STAT_CTRL", 0x50080, 0x1000, 16, 0x4, 1, 0xf1, 0x0, 0x0, 0x0, 0x0, false⟩,
  ⟨"DEV_CTX_STAT_LO", 0x50084, 0x1000, 16, 0x4, 1, 0xffff0000, 0x0, 0x0, 0x0, 0x0, false⟩,
  ⟨"DEV_CTX_STAT_HI", 0x50088, 0x1000, 16, 0x4, 1, 0x3f, 0x0, 0x0, 0x0, 0x0, false⟩,
  ⟨"DEV_CTX_STAT_SEQ", 0x50090, 0x1000, 16, 0x4, 1, 0x0, 0x0, 0x0, 0x0, 0x0, false⟩,
  ⟨"DEV_CTX_LAST", 0x50094, 0x1000, 16, 0x4, 1, 0x0, 0x0, 0x0, 0x0, 0x0, false⟩,
  ⟨"DEV_CTX_DPC_IGNORED", 0x50098, 0x1000, 16, 0x4, 1, 0x0, 0x0, 0xffffffff, 0x0, 0x0, false⟩,
  ⟨"DEV_CTX_TRUNC_COUNT", 0x5009c, 0x1000, 16, 0x4, 1, 0x0, 0x0, 0xffffffff, 0x0, 0x0, false⟩,
  ⟨"DEV_CTX_WB_GAIN", 0x50100, 0x1000, 16, 0x4, 3, 0xfffff, 0x0, 0x0, 0x0, 0x10000, false⟩,
  ⟨"DEV_CTX_CM_DIAG", 0x50110, 0x1000, 16, 0x10, 3, 0x7ffff, 0x0, 0x0, 0x0, 0x10000, false⟩,
  ⟨"DEV_CTX_CM_RG_RB_GR", 0x50114, 0x1000, 16, 0x4, 3, 0x7ffff, 0x0, 0x0, 0x0, 0x0, false⟩,
  ⟨"DEV_CTX_CM_GB_BR_BG", 0x50124, 0x1000, 16, 0x4, 3, 0x7ffff, 0x0, 0x0, 0x0, 0x0, false⟩]

def regsDev1 : List RegRow := [
  ⟨"DEV_CTX_CM_OFF", 0x50140, 0x1000, 16, 0x4, 3, 0x1ffffff, 0x0, 0x0, 0x0, 0x0, false⟩,
  ⟨"DEV_CTX_DB_CTRL", 0x50150, 0x1000, 16, 0x4, 1, 0x1, 0x0, 0x0, 0x0, 0x0, false⟩,
  ⟨"DEV_CTX_DB_LO", 0x50154, 0x1000, 16, 0x4, 1, 0xffffffc0, 0x0, 0x0, 0x0, 0x0, false⟩,
  ⟨"DEV_CTX_DB_HI", 0x50158, 0x1000, 16, 0x4, 1, 0x3f, 0x0, 0x0, 0x0, 0x0, false⟩,
  ⟨"DEV_CTX_TONE_CTRL", 0x50160, 0x1000, 16, 0x4, 1, 0x1, 0x0, 0x0, 0x0, 0x0, false⟩,
  ⟨"DEV_CTX_TONE_LO", 0x50164, 0x1000, 16, 0x4, 1, 0xffffffc0, 0x0, 0x0, 0x0, 0x0, false⟩,
  ⟨"DEV_CTX_TONE_HI", 0x50168, 0x1000, 16, 0x4, 1, 0x3f, 0x0, 0x0, 0x0, 0x0, false⟩,
  ⟨"DEV_CTX_LUT_CTRL", 0x50170, 0x1000, 16, 0x4, 1, 0x1, 0x0, 0x0, 0x0, 0x0, false⟩,
  ⟨"DEV_CTX_LUT_LO", 0x50174, 0x1000, 16, 0x4, 1, 0xffffffc0, 0x0, 0x0, 0x0, 0x0, false⟩,
  ⟨"DEV_CTX_LUT_HI", 0x50178, 0x1000, 16, 0x4, 1, 0x3f, 0x0, 0x0, 0x0, 0x0, false⟩,
  ⟨"DEV_CTX_RAW_TAP", 0x50180, 0x1000, 16, 0x4, 1, 0x1, 0x0, 0x0, 0x0, 0x0, false⟩,
  ⟨"DEV_REFUSE_DETAIL", 0x40100, 0x4, 16, 0x4, 1, 0x0, 0x0, 0x0, 0x0, 0x0, false⟩,
  ⟨"DEV_OS_CTRL", 0x41000, 0x100, 8, 0x4, 1, 0xff1f, 0x0, 0x0, 0x0, 0x1000, false⟩,
  ⟨"DEV_OS_CROP_XY", 0x41004, 0x100, 8, 0x4, 1, 0x3fff7fff, 0x0, 0x0, 0x0, 0x0, false⟩,
  ⟨"DEV_OS_CROP_WH", 0x41008, 0x100, 8, 0x4, 1, 0x3fff7fff, 0x0, 0x0, 0x0, 0x0, false⟩,
  ⟨"DEV_OS_OUT_WH", 0x4100c, 0x100, 8, 0x4, 1, 0x3fff7fff, 0x0, 0x0, 0x0, 0x0, false⟩,
  ⟨"DEV_OS_FMT", 0x41010, 0x100, 8, 0x4, 1, 0x171f, 0x0, 0x0, 0x0, 0x0, false⟩,
  ⟨"DEV_OS_BASE_LO", 0x4101c, 0x100, 8, 0x4, 1, 0xfffff000, 0x0, 0x0, 0x0, 0x0, false⟩,
  ⟨"DEV_OS_BASE_HI", 0x41020, 0x100, 8, 0x4, 1, 0x3f, 0x0, 0x0, 0x0, 0x0, false⟩,
  ⟨"DEV_OS_PITCH", 0x41024, 0x100, 8, 0x4, 1, 0xffffc0, 0x0, 0x0, 0x0, 0x0, false⟩,
  ⟨"DEV_OS_BUF", 0x41028, 0x100, 8, 0x4, 1, 0x7, 0x0, 0x0, 0x0, 0x1, false⟩,
  ⟨"DEV_OS_STRIDE", 0x4102c, 0x100, 8, 0x4, 1, 0xfffff000, 0x0, 0x0, 0x0, 0x0, false⟩,
  ⟨"DEV_OS_STATUS", 0x41040, 0x100, 8, 0x4, 1, 0x0, 0x0, 0x0, 0x0, 0x0, false⟩,
  ⟨"DEV_OS_FILT_LO", 0x41014, 0x100, 8, 0x4, 1, 0xffffffc0, 0x0, 0x0, 0x0, 0x0, false⟩,
  ⟨"DEV_OS_FILT_HI", 0x41018, 0x100, 8, 0x4, 1, 0x3f, 0x0, 0x0, 0x0, 0x0, false⟩,
  ⟨"DEV_OS_GEN", 0x41044, 0x100, 8, 0x4, 1, 0x0, 0x0, 0x0, 0x0, 0x0, false⟩,
  ⟨"DEV_OS_UNWIRED", 0x41048, 0x100, 8, 0x4, 1, 0x0, 0x0, 0xffffffff, 0x0, 0x0, false⟩]

def regsDev : List RegRow := regsDev0 ++ regsDev1

def regsRawc : List RegRow := [
  ⟨"RAWC_EVT", 0x80000, 0x1000000, 1, 0x4, 1, 0x0, 0xffffffff, 0x0, 0x0, 0x0, false⟩,
  ⟨"RAWC_EVT_MASK", 0x80004, 0x1000000, 1, 0x4, 1, 0xffffffff, 0x0, 0x0, 0x0, 0x0, false⟩,
  ⟨"RAWC_CBLK", 0x80008, 0x1000000, 1, 0x4, 1, 0x0, 0x0, 0xffffffff, 0x0, 0x0, false⟩,
  ⟨"RAWC_DBLK", 0x8000c, 0x1000000, 1, 0x4, 1, 0x0, 0x0, 0xffffffff, 0x0, 0x0, false⟩,
  ⟨"RAWC_Q_CTRL", 0x81000, 0x80, 32, 0x4, 1, 0x1, 0x0, 0x0, 0x2, 0x0, false⟩,
  ⟨"RAWC_Q_STATUS", 0x81004, 0x80, 32, 0x4, 1, 0x0, 0xc00, 0x0, 0x0, 0x0, false⟩,
  ⟨"RAWC_Q_SQ_LO", 0x81008, 0x80, 32, 0x4, 1, 0xfffff000, 0x0, 0x0, 0x0, 0x0, false⟩,
  ⟨"RAWC_Q_SQ_HI", 0x8100c, 0x80, 32, 0x4, 1, 0x3f, 0x0, 0x0, 0x0, 0x0, false⟩,
  ⟨"RAWC_Q_CQ_LO", 0x81010, 0x80, 32, 0x4, 1, 0xfffff000, 0x0, 0x0, 0x0, 0x0, false⟩,
  ⟨"RAWC_Q_CQ_HI", 0x81014, 0x80, 32, 0x4, 1, 0x3f, 0x0, 0x0, 0x0, 0x0, false⟩,
  ⟨"RAWC_Q_SIZE", 0x81018, 0x80, 32, 0x4, 1, 0xf, 0x0, 0x0, 0x0, 0x4, false⟩,
  ⟨"RAWC_Q_SLOT_LO", 0x81030, 0x80, 32, 0x4, 1, 0xfffff000, 0x0, 0x0, 0x0, 0x0, false⟩,
  ⟨"RAWC_Q_SLOT_HI", 0x81034, 0x80, 32, 0x4, 1, 0x3f, 0x0, 0x0, 0x0, 0x0, false⟩,
  ⟨"RAWC_Q_SLOT_SIZE", 0x81038, 0x80, 32, 0x4, 1, 0xfffff000, 0x0, 0x0, 0x0, 0x0, false⟩,
  ⟨"RAWC_Q_SLOT_COUNT", 0x8103c, 0x80, 32, 0x4, 1, 0x1ff, 0x0, 0x0, 0x0, 0x1, false⟩,
  ⟨"RAWC_Q_SQ_TAIL", 0x8101c, 0x80, 32, 0x4, 1, 0xffff, 0x0, 0x0, 0x0, 0x0, false⟩,
  ⟨"RAWC_Q_SQ_HEAD", 0x81020, 0x80, 32, 0x4, 1, 0x0, 0x0, 0x0, 0x0, 0x0, false⟩,
  ⟨"RAWC_Q_CQ_HEAD", 0x81024, 0x80, 32, 0x4, 1, 0xffff, 0x0, 0x0, 0x0, 0x0, false⟩,
  ⟨"RAWC_Q_CQ_TAIL", 0x81028, 0x80, 32, 0x4, 1, 0x0, 0x0, 0x0, 0x0, 0x0, false⟩,
  ⟨"RAWC_Q_DROPPED", 0x8102c, 0x80, 32, 0x4, 1, 0x0, 0x0, 0x0, 0x0, 0x0, false⟩,
  ⟨"RAWC_Q_JOBS", 0x81040, 0x80, 32, 0x4, 1, 0x0, 0x0, 0xffffffff, 0x0, 0x0, false⟩,
  ⟨"RAWC_Q_FAILED", 0x81044, 0x80, 32, 0x4, 1, 0x0, 0x0, 0xffffffff, 0x0, 0x0, false⟩,
  ⟨"RAWC_Q_DAMAGED", 0x81048, 0x80, 32, 0x4, 1, 0x0, 0x0, 0xffffffff, 0x0, 0x0, false⟩,
  ⟨"RAWC_Q_IGNORED", 0x81050, 0x80, 32, 0x4, 1, 0x0, 0x0, 0xffffffff, 0x0, 0x0, false⟩,
  ⟨"RAWC_Q_NEXT_SEQ", 0x8104c, 0x80, 32, 0x4, 1, 0x0, 0x0, 0x0, 0x0, 0x0, false⟩]

def regsHevc0 : List RegRow := [
  ⟨"HEVC_EVT", 0xa0000, 0x4, 2, 0x4, 1, 0x0, 0xffffffff, 0x0, 0x0, 0x0, false⟩,
  ⟨"HEVC_EVT_MASK", 0xa0008, 0x4, 2, 0x4, 1, 0xffffffff, 0x0, 0x0, 0x0, 0x0, false⟩,
  ⟨"HEVC_PREEMPT", 0xa0010, 0x1000000, 1, 0x4, 1, 0xff, 0x0, 0x0, 0x0, 0x8, true⟩,
  ⟨"HEVC_POOL_BASE_LO", 0xa0020, 0x1000000, 1, 0x4, 1, 0xfffff000, 0x0, 0x0, 0x0, 0x0, true⟩,
  ⟨"HEVC_POOL_BASE_HI", 0xa0024, 0x1000000, 1, 0x4, 1, 0x3f, 0x0, 0x0, 0x0, 0x0, true⟩,
  ⟨"HEVC_POOL_BUF_SIZE", 0xa0028, 0x1000000, 1, 0x4, 1, 0xfffff000, 0x0, 0x0, 0x0, 0x0, true⟩,
  ⟨"HEVC_POOL_COUNT", 0xa002c, 0x1000000, 1, 0x4, 1, 0x3ff, 0x0, 0x0, 0x0, 0x0, true⟩,
  ⟨"HEVC_POOL_CTRL", 0xa0030, 0x1000000, 1, 0x4, 1, 0x1, 0x0, 0x0, 0x0, 0x0, true⟩,
  ⟨"HEVC_POOL_STATUS", 0xa0034, 0x1000000, 1, 0x4, 1, 0x0, 0xc00, 0x0, 0x0, 0x0, true⟩,
  ⟨"HEVC_POOL_MARK", 0xa0800, 0x4, 512, 0x4, 1, 0x0, 0x0, 0x0, 0x0, 0x0, true⟩,
  ⟨"HEVC_SES_CTRL", 0xa1000, 0x100, 64, 0x4, 1, 0x0, 0x0, 0x0, 0x3, 0x0, false⟩,
  ⟨"HEVC_SES_STATUS", 0xa1004, 0x100, 64, 0x4, 1, 0x0, 0xc0, 0x0, 0x0, 0x0, false⟩,
  ⟨"HEVC_SES_GEN", 0xa1008, 0x100, 64, 0x4, 1, 0x0, 0x0, 0x0, 0x0, 0x0, false⟩,
  ⟨"HEVC_SES_GEN_PEND", 0xa100c, 0x100, 64, 0x4, 1, 0x0, 0x0, 0x0, 0x0, 0x0, false⟩,
  ⟨"HEVC_SES_QUOTA", 0xa1010, 0x100, 64, 0x4, 1, 0x3ff, 0x0, 0x0, 0x0, 0x0, true⟩,
  ⟨"HEVC_SES_PRIO", 0xa1014, 0x100, 64, 0x4, 1, 0x1, 0x0, 0x0, 0x0, 0x0, false⟩,
  ⟨"HEVC_SES_HELD", 0xa1018, 0x100, 64, 0x4, 1, 0x0, 0x0, 0x0, 0x0, 0x0, false⟩,
  ⟨"HEVC_SES_SIZE", 0xa1020, 0x100, 64, 0x4, 1, 0x1fff3fff, 0x0, 0x0, 0x0, 0x0, false⟩,
  ⟨"HEVC_SES_MODE", 0xa1024, 0x100, 64, 0x4, 1, 0xff03ff, 0x0, 0x0, 0x0, 0x110, false⟩,
  ⟨"HEVC_SES_GOP", 0xa1028, 0x100, 64, 0x4, 1, 0xffffff, 0x0, 0x0, 0x0, 0x0, false⟩,
  ⟨"HEVC_SES_RC", 0xa102c, 0x100, 64, 0x4, 1, 0xffffffff, 0x0, 0x0, 0x0, 0x33f4fd1c, false⟩,
  ⟨"HEVC_SES_CAP", 0xa1030, 0x100, 64, 0x4, 1, 0x7ffffff, 0x0, 0x0, 0x0, 0x0, false⟩,
  ⟨"HEVC_SES_VUI", 0xa1034, 0x100, 64, 0x4, 1, 0x3ffffff, 0x0, 0x0, 0x0, 0x10101, false⟩,
  ⟨"HEVC_SES_BS_LO", 0xa1038, 0x100, 64, 0x4, 1, 0xfffff000, 0x0, 0x0, 0x0, 0x0, false⟩,
  ⟨"HEVC_SES_BS_HI", 0xa103c, 0x100, 64, 0x4, 1, 0x3f, 0x0, 0x0, 0x0, 0x0, false⟩,
  ⟨"HEVC_SES_BS_SIZE", 0xa1040, 0x100, 64, 0x4, 1, 0xfffff000, 0x0, 0x0, 0x0, 0x0, false⟩,
  ⟨"HEVC_SES_OUT_LO", 0xa1044, 0x100, 64, 0x4, 1, 0xfffff000, 0x0, 0x0, 0x0, 0x0, false⟩,
  ⟨"HEVC_SES_OUT_HI", 0xa1048, 0x100, 64, 0x4, 1, 0x3f, 0x0, 0x0, 0x0, 0x0, false⟩,
  ⟨"HEVC_SES_OUT_PITCH", 0xa104c, 0x100, 64, 0x4, 1, 0xffffc0, 0x0, 0x0, 0x0, 0x0, false⟩,
  ⟨"HEVC_SES_OUT_BUF", 0xa1050, 0x100, 64, 0x4, 1, 0x7, 0x0, 0x0, 0x0, 0x1, false⟩]

def regsHevc1 : List RegRow := [
  ⟨"HEVC_SES_OUT_STRIDE", 0xa1054, 0x100, 64, 0x4, 1, 0xfffff000, 0x0, 0x0, 0x0, 0x0, false⟩,
  ⟨"HEVC_SES_SQ_LO", 0xa1080, 0x100, 64, 0x4, 1, 0xfffff000, 0x0, 0x0, 0x0, 0x0, false⟩,
  ⟨"HEVC_SES_SQ_HI", 0xa1084, 0x100, 64, 0x4, 1, 0x3f, 0x0, 0x0, 0x0, 0x0, false⟩,
  ⟨"HEVC_SES_CQ_LO", 0xa1088, 0x100, 64, 0x4, 1, 0xfffff000, 0x0, 0x0, 0x0, 0x0, false⟩,
  ⟨"HEVC_SES_CQ_HI", 0xa108c, 0x100, 64, 0x4, 1, 0x3f, 0x0, 0x0, 0x0, 0x0, false⟩,
  ⟨"HEVC_SES_RING_SIZE", 0xa1090, 0x100, 64, 0x4, 1, 0xf, 0x0, 0x0, 0x0, 0x4, false⟩,
  ⟨"HEVC_SES_SQ_TAIL", 0xa1094, 0x100, 64, 0x4, 1, 0xffff, 0x0, 0x0, 0x0, 0x0, false⟩,
  ⟨"HEVC_SES_SQ_HEAD", 0xa1098, 0x100, 64, 0x4, 1, 0x0, 0x0, 0x0, 0x0, 0x0, false⟩,
  ⟨"HEVC_SES_NEXT_SEQ", 0xa109c, 0x100, 64, 0x4, 1, 0x0, 0x0, 0x0, 0x0, 0x0, false⟩,
  ⟨"HEVC_SES_DROPPED", 0xa10a0, 0x100, 64, 0x4, 1, 0x0, 0x0, 0x0, 0x0, 0x0, false⟩,
  ⟨"HEVC_SES_DISCARDED", 0xa10a4, 0x100, 64, 0x4, 1, 0x0, 0x0, 0xffffffff, 0x0, 0x0, false⟩,
  ⟨"HEVC_SES_CONCEALED", 0xa10a8, 0x100, 64, 0x4, 1, 0x0, 0x0, 0xffffffff, 0x0, 0x0, false⟩,
  ⟨"HEVC_SES_SEI_BAD", 0xa10ac, 0x100, 64, 0x4, 1, 0x0, 0x0, 0xffffffff, 0x0, 0x0, false⟩,
  ⟨"HEVC_SES_PKT_DROP", 0xa10b0, 0x100, 64, 0x4, 1, 0x0, 0x0, 0xffffffff, 0x0, 0x0, false⟩,
  ⟨"HEVC_SES_EPB", 0xa10b4, 0x100, 64, 0x4, 1, 0x0, 0x0, 0x0, 0x0, 0x0, false⟩]

def regsHevc : List RegRow := regsHevc0 ++ regsHevc1

def regsWall0 : List RegRow := [
  ⟨"WALL_CTRL", 0xc0000, 0x1000000, 1, 0x4, 1, 0x1, 0x0, 0x0, 0x0, 0x0, true⟩,
  ⟨"WALL_STATUS", 0xc0004, 0x1000000, 1, 0x4, 1, 0x0, 0x2, 0x0, 0x0, 0x0, false⟩,
  ⟨"WALL_FRAME", 0xc0008, 0x1000000, 1, 0x4, 1, 0x0, 0x0, 0x0, 0x0, 0x0, false⟩,
  ⟨"WALL_MODE_RATE", 0xc0010, 0x1000000, 1, 0x4, 1, 0xfffffff, 0x0, 0x0, 0x0, 0xfa5d4c0, true⟩,
  ⟨"WALL_MODE_PHASE", 0xc0014, 0x1000000, 1, 0x4, 1, 0x3fffffff, 0x0, 0x0, 0x0, 0x1e8480, true⟩,
  ⟨"WALL_MODE_LEAD", 0xc0018, 0x1000000, 1, 0x4, 1, 0xffffffff, 0x0, 0x0, 0x0, 0x9607d0, true⟩,
  ⟨"WALL_MODE_CTRL", 0xc001c, 0x1000000, 1, 0x4, 1, 0x0, 0x0, 0x0, 0x1, 0x0, true⟩,
  ⟨"WALL_MODE_STATUS", 0xc0020, 0x1000000, 1, 0x4, 1, 0x0, 0x0, 0x0, 0x0, 0x0, true⟩,
  ⟨"WALL_MODE_ORG_FRAME", 0xc0024, 0x1000000, 1, 0x4, 1, 0xffffffff, 0x0, 0x0, 0x0, 0x0, true⟩,
  ⟨"WALL_MODE_ORG_SEC", 0xc0028, 0x4, 2, 0x4, 1, 0xffffffff, 0x0, 0x0, 0x0, 0x0, true⟩,
  ⟨"WALL_MODE_GEN", 0xc0030, 0x1000000, 1, 0x4, 1, 0x0, 0x0, 0x0, 0x0, 0x0, true⟩,
  ⟨"WALL_REFRESH", 0xc0034, 0x1000000, 1, 0x4, 1, 0xffff, 0x0, 0x0, 0x0, 0x78, false⟩,
  ⟨"WALL_COMMIT_RANGE", 0xc0040, 0x1000000, 1, 0x4, 1, 0x7fff3fff, 0x0, 0x0, 0x0, 0x0, false⟩,
  ⟨"WALL_COMMIT_CTRL", 0xc0044, 0x1000000, 1, 0x4, 1, 0x2, 0x0, 0x0, 0x1, 0x0, false⟩,
  ⟨"WALL_COMMIT_STATUS", 0xc0048, 0x1000000, 1, 0x4, 1, 0x0, 0x0, 0x0, 0x0, 0x0, false⟩,
  ⟨"WALL_HASH_LO", 0xc0050, 0x1000000, 1, 0x4, 1, 0xffffffc0, 0x0, 0x0, 0x0, 0x0, true⟩,
  ⟨"WALL_HASH_HI", 0xc0054, 0x1000000, 1, 0x4, 1, 0x3f, 0x0, 0x0, 0x0, 0x0, true⟩,
  ⟨"WALL_SEAM_LO", 0xc0058, 0x1000000, 1, 0x4, 1, 0xffffffc0, 0x0, 0x0, 0x0, 0x0, true⟩,
  ⟨"WALL_SEAM_HI", 0xc005c, 0x1000000, 1, 0x4, 1, 0x3f, 0x0, 0x0, 0x0, 0x0, true⟩,
  ⟨"WALL_LUT_LO", 0xc0060, 0x1000000, 1, 0x4, 1, 0xffffffc0, 0x0, 0x0, 0x0, 0x0, true⟩,
  ⟨"WALL_LUT_HI", 0xc0064, 0x1000000, 1, 0x4, 1, 0x3f, 0x0, 0x0, 0x0, 0x0, true⟩,
  ⟨"WALL_DECODE_LO", 0xc0068, 0x1000000, 1, 0x4, 1, 0xffffffc0, 0x0, 0x0, 0x0, 0x0, true⟩,
  ⟨"WALL_DECODE_HI", 0xc006c, 0x1000000, 1, 0x4, 1, 0x3f, 0x0, 0x0, 0x0, 0x0, true⟩,
  ⟨"WALL_UNDERRUN", 0xc0070, 0x1000000, 1, 0x4, 1, 0x0, 0x0, 0xffffffff, 0x0, 0x0, false⟩,
  ⟨"WALL_PUSHED", 0xc0074, 0x1000000, 1, 0x4, 1, 0x0, 0x0, 0xffffffff, 0x0, 0x0, false⟩,
  ⟨"WALL_PRINT_BAD", 0xc0078, 0x1000000, 1, 0x4, 1, 0x0, 0x0, 0xffffffff, 0x0, 0x0, false⟩,
  ⟨"WALL_SURF_CFG", 0xc1000, 0x40, 256, 0x4, 1, 0x3ffffff, 0x0, 0x0, 0x0, 0x2000000, false⟩,
  ⟨"WALL_SURF_SIZE", 0xc1004, 0x40, 256, 0x4, 1, 0x7fff7fff, 0x0, 0x0, 0x0, 0x0, false⟩,
  ⟨"WALL_SURF_BASE_LO", 0xc1008, 0x40, 256, 0x4, 1, 0xfffff000, 0x0, 0x0, 0x0, 0x0, false⟩,
  ⟨"WALL_SURF_BASE_HI", 0xc100c, 0x40, 256, 0x4, 1, 0x3f, 0x0, 0x0, 0x0, 0x0, false⟩]

def regsWall1 : List RegRow := [
  ⟨"WALL_SURF_PITCH", 0xc1010, 0x40, 256, 0x4, 1, 0xffffc0, 0x0, 0x0, 0x0, 0x0, false⟩,
  ⟨"WALL_SURF_STRIDE", 0xc1014, 0x40, 256, 0x4, 1, 0xfffff000, 0x0, 0x0, 0x0, 0x0, false⟩,
  ⟨"WALL_SURF_BUF", 0xc1018, 0x40, 256, 0x4, 1, 0x7, 0x0, 0x0, 0x0, 0x1, false⟩,
  ⟨"WALL_SURF_HDR_LO", 0xc101c, 0x40, 256, 0x4, 1, 0xfffff000, 0x0, 0x0, 0x0, 0x0, false⟩,
  ⟨"WALL_SURF_HDR_HI", 0xc1020, 0x40, 256, 0x4, 1, 0x3f, 0x0, 0x0, 0x0, 0x0, false⟩,
  ⟨"WALL_SURF_COMMIT", 0xc1024, 0x40, 256, 0x4, 1, 0x3, 0x0, 0x0, 0x80000000, 0x0, false⟩,
  ⟨"WALL_SURF_AVAIL", 0xc1028, 0x40, 256, 0x4, 1, 0x0, 0x0, 0x0, 0x0, 0x0, false⟩,
  ⟨"WALL_SURF_BOUND", 0xc102c, 0x40, 256, 0x4, 1, 0x0, 0x0, 0x0, 0x0, 0x0, false⟩,
  ⟨"WALL_SURF_STATUS", 0xc1030, 0x40, 256, 0x4, 1, 0x0, 0x6, 0x0, 0x0, 0x1, false⟩,
  ⟨"WALL_LAYER_CTRL", 0xc8000, 0x10, 64, 0x4, 1, 0xff01, 0x0, 0x0, 0x0, 0x0, false⟩,
  ⟨"WALL_LAYER_SRC", 0xc8004, 0x10, 64, 0x4, 1, 0x7fff7fff, 0x0, 0x0, 0x0, 0x0, false⟩,
  ⟨"WALL_LAYER_DST", 0xc8008, 0x10, 64, 0x4, 1, 0x3fffffff, 0x0, 0x0, 0x0, 0x0, false⟩,
  ⟨"WALL_LAYER_SIZE", 0xc800c, 0x10, 64, 0x4, 1, 0x7fff7fff, 0x0, 0x0, 0x0, 0x0, false⟩]

def regsWall : List RegRow := regsWall0 ++ regsWall1

def regsNet0 : List RegRow := [
  ⟨"NET_PHY_CFG", 0xe0000, 0x4, 4, 0x4, 1, 0x7, 0x0, 0x0, 0x0, 0x0, true⟩,
  ⟨"NET_IP", 0xe1000, 0x4, 8, 0x4, 1, 0xffffffff, 0x0, 0x0, 0x0, 0x0, true⟩,
  ⟨"NET_RX_UNMATCHED", 0xe1020, 0x1000000, 1, 0x4, 1, 0x0, 0x0, 0xffffffff, 0x0, 0x0, false⟩,
  ⟨"NET_RX_FRAG", 0xe1024, 0x1000000, 1, 0x4, 1, 0x0, 0x0, 0xffffffff, 0x0, 0x0, false⟩,
  ⟨"NET_RX_CFG", 0xe2000, 0x40, 64, 0x4, 1, 0xffff3fff, 0x0, 0x0, 0x0, 0x3000, false⟩,
  ⟨"NET_RX_DST_IP", 0xe2004, 0x40, 64, 0x4, 1, 0xffffffff, 0x0, 0x0, 0x0, 0x0, false⟩,
  ⟨"NET_RX_SRC_IP", 0xe2008, 0x40, 64, 0x4, 1, 0xffffffff, 0x0, 0x0, 0x0, 0x0, false⟩,
  ⟨"NET_RX_MEDIA", 0xe200c, 0x40, 64, 0x4, 1, 0xffffffff, 0x0, 0x0, 0x0, 0x1040, false⟩,
  ⟨"NET_RX_BUF_LO", 0xe2010, 0x40, 64, 0x4, 1, 0xfffff000, 0x0, 0x0, 0x0, 0x0, false⟩,
  ⟨"NET_RX_BUF_HI", 0xe2014, 0x40, 64, 0x4, 1, 0x3f, 0x0, 0x0, 0x0, 0x0, false⟩,
  ⟨"NET_RX_BUF_SIZE", 0xe2018, 0x40, 64, 0x4, 1, 0xffff000, 0x0, 0x0, 0x0, 0x0, false⟩,
  ⟨"NET_RX_PKTS", 0xe2020, 0x40, 64, 0x4, 1, 0x0, 0x0, 0xffffffff, 0x0, 0x0, false⟩,
  ⟨"NET_RX_DROP", 0xe2024, 0x40, 64, 0x4, 1, 0x0, 0x0, 0xffffffff, 0x0, 0x0, false⟩,
  ⟨"NET_RX_CUT", 0xe2028, 0x40, 64, 0x4, 1, 0x0, 0x0, 0xffffffff, 0x0, 0x0, false⟩,
  ⟨"NET_RX_STATUS", 0xe202c, 0x40, 64, 0x4, 1, 0x0, 0x2, 0x0, 0x0, 0x0, false⟩,
  ⟨"NET_TX_CFG", 0xe4000, 0x40, 80, 0x4, 1, 0xffff3fb9, 0x0, 0x0, 0x0, 0x3000, false⟩,
  ⟨"NET_TX_DST_IP", 0xe4004, 0x40, 80, 0x4, 1, 0xffffffff, 0x0, 0x0, 0x0, 0x0, false⟩,
  ⟨"NET_TX_DST_MAC_LO", 0xe4008, 0x40, 80, 0x4, 1, 0xffffffff, 0x0, 0x0, 0x0, 0x0, false⟩,
  ⟨"NET_TX_DST_MAC_HI", 0xe400c, 0x40, 80, 0x4, 1, 0xffff, 0x0, 0x0, 0x0, 0x0, false⟩,
  ⟨"NET_TX_SSRC", 0xe4010, 0x40, 80, 0x4, 1, 0xffffffff, 0x0, 0x0, 0x0, 0x0, false⟩,
  ⟨"NET_TX_MEDIA_V", 0xe4014, 0x40, 8, 0x4, 1, 0x3fff, 0x0, 0x0, 0x0, 0x0, false⟩,
  ⟨"NET_TX_MEDIA_H", 0xe4214, 0x40, 64, 0x4, 1, 0xffff07ff, 0x0, 0x0, 0x0, 0x578, false⟩,
  ⟨"NET_TX_MEDIA_A", 0xe5214, 0x40, 8, 0x4, 1, 0x3ffff, 0x0, 0x0, 0x0, 0x2001, false⟩,
  ⟨"NET_TX_IPH", 0xe4018, 0x40, 80, 0x4, 1, 0xffffff3f, 0x0, 0x0, 0x0, 0x138c4022, false⟩,
  ⟨"NET_TX_GAP", 0xe401c, 0x40, 80, 0x4, 1, 0xffff, 0x0, 0x0, 0x0, 0x0, false⟩,
  ⟨"NET_TX_PKTS", 0xe4020, 0x40, 80, 0x4, 1, 0x0, 0x0, 0xffffffff, 0x0, 0x0, false⟩,
  ⟨"NET_TX_DROP", 0xe4024, 0x40, 80, 0x4, 1, 0x0, 0x0, 0xffffffff, 0x0, 0x0, false⟩,
  ⟨"NET_TX_STATUS", 0xe402c, 0x40, 80, 0x4, 1, 0x0, 0x2, 0x0, 0x0, 0x0, false⟩,
  ⟨"FEN_CFG", 0xe8000, 0x1000000, 1, 0x4, 1, 0xfff001f, 0x0, 0x0, 0x0, 0x0, true⟩,
  ⟨"FEN_ETYPE", 0xe8004, 0x1000000, 1, 0x4, 1, 0xffff, 0x0, 0x0, 0x0, 0x88b5, true⟩]

def regsNet1 : List RegRow := [
  ⟨"FEN_ADDR", 0xe8008, 0x1000000, 1, 0x4, 1, 0xffffffff, 0x0, 0x0, 0x0, 0x0, true⟩,
  ⟨"FEN_TILE_MAC_LO", 0xe800c, 0x1000000, 1, 0x4, 1, 0xffffffff, 0x0, 0x0, 0x0, 0x4d000001, true⟩,
  ⟨"FEN_TILE_MAC_HI", 0xe8010, 0x1000000, 1, 0x4, 1, 0xffff, 0x0, 0x0, 0x0, 0x346, true⟩,
  ⟨"FEN_BELAY_MAC_LO", 0xe8014, 0x1000000, 1, 0x4, 1, 0xffffffff, 0x0, 0x0, 0x0, 0x4d000002, true⟩,
  ⟨"FEN_BELAY_MAC_HI", 0xe8018, 0x1000000, 1, 0x4, 1, 0xffff, 0x0, 0x0, 0x0, 0x346, true⟩,
  ⟨"FEN_SRC_MAC_LO", 0xe801c, 0x1000000, 1, 0x4, 1, 0xffffffff, 0x0, 0x0, 0x0, 0x0, true⟩,
  ⟨"FEN_SRC_MAC_HI", 0xe8020, 0x1000000, 1, 0x4, 1, 0xffff, 0x0, 0x0, 0x0, 0x0, true⟩,
  ⟨"FEN_PORTS", 0xe8024, 0x1000000, 1, 0x4, 1, 0xffffff, 0x0, 0x0, 0x0, 0x0, true⟩,
  ⟨"FEN_BELAY_CFG", 0xe8030, 0x1000000, 1, 0x4, 1, 0x7f, 0x0, 0x0, 0x0, 0x4c, true⟩,
  ⟨"FEN_BELAY_CTRL", 0xe8034, 0x1000000, 1, 0x4, 1, 0x0, 0x0, 0x0, 0x3, 0x0, true⟩,
  ⟨"FEN_BELAY_STATUS", 0xe8038, 0x1000000, 1, 0x4, 1, 0x0, 0x30, 0x0, 0x0, 0x0, false⟩,
  ⟨"FEN_EPOCH_SEED", 0xe803c, 0x1000000, 1, 0x4, 1, 0xffffffff, 0x0, 0x0, 0x0, 0x0, true⟩,
  ⟨"FEN_FOLLOW", 0xe8040, 0x1000000, 1, 0x4, 1, 0xffff, 0x0, 0x0, 0x0, 0xff, true⟩,
  ⟨"FEN_EVT", 0xe8044, 0x1000000, 1, 0x4, 1, 0x0, 0x3f, 0x0, 0x0, 0x0, false⟩,
  ⟨"FEN_EVT_MASK", 0xe8048, 0x1000000, 1, 0x4, 1, 0xffffffff, 0x0, 0x0, 0x0, 0x0, false⟩,
  ⟨"FEN_CUR_EPOCH", 0xe8050, 0x1000000, 1, 0x4, 1, 0x0, 0x0, 0x0, 0x0, 0x0, false⟩,
  ⟨"FEN_LEAD", 0xe8054, 0x1000000, 1, 0x4, 1, 0x0, 0x0, 0x0, 0x0, 0xff, false⟩,
  ⟨"FEN_TAKEOVERS", 0xe8060, 0x1000000, 1, 0x4, 1, 0x0, 0x0, 0xffffffff, 0x0, 0x0, false⟩,
  ⟨"FEN_ROLE_LOST_COUNT", 0xe8064, 0x1000000, 1, 0x4, 1, 0x0, 0x0, 0xffffffff, 0x0, 0x0, false⟩,
  ⟨"FEN_BEACON_MISS", 0xe8068, 0x1000000, 1, 0x4, 1, 0x0, 0x0, 0xffffffff, 0x0, 0x0, false⟩,
  ⟨"FEN_STALE", 0xe806c, 0x1000000, 1, 0x4, 1, 0x0, 0x0, 0xffffffff, 0x0, 0x0, false⟩,
  ⟨"FEN_JNL_TX", 0xe8070, 0x1000000, 1, 0x4, 1, 0x0, 0x0, 0xffffffff, 0x0, 0x0, false⟩,
  ⟨"FEN_JNL_RX", 0xe8074, 0x1000000, 1, 0x4, 1, 0x0, 0x0, 0xffffffff, 0x0, 0x0, false⟩,
  ⟨"FEN_JNL_DUP", 0xe8078, 0x1000000, 1, 0x4, 1, 0x0, 0x0, 0xffffffff, 0x0, 0x0, false⟩,
  ⟨"FEN_RX_BAD", 0xe807c, 0x1000000, 1, 0x4, 1, 0x0, 0x0, 0xffffffff, 0x0, 0x0, false⟩,
  ⟨"FEN_DIG_MATCH", 0xe80a0, 0x1000000, 1, 0x4, 1, 0x0, 0x0, 0xffffffff, 0x0, 0x0, false⟩,
  ⟨"FEN_DIG_MISMATCH", 0xe80a4, 0x1000000, 1, 0x4, 1, 0x0, 0x0, 0xffffffff, 0x0, 0x0, false⟩,
  ⟨"FEN_CAL_ADDR_LO", 0xe8080, 0x1000000, 1, 0x4, 1, 0xffffffc0, 0x0, 0x0, 0x0, 0x0, false⟩,
  ⟨"FEN_CAL_ADDR_HI", 0xe8084, 0x1000000, 1, 0x4, 1, 0x3f, 0x0, 0x0, 0x0, 0x0, false⟩,
  ⟨"FEN_CAL_DESC", 0xe8088, 0x1000000, 1, 0x4, 1, 0xffffff, 0x0, 0x0, 0x0, 0x0, false⟩]

def regsNet2 : List RegRow := [
  ⟨"FEN_CAL_CTRL", 0xe808c, 0x1000000, 1, 0x4, 1, 0x7ff, 0x0, 0x0, 0x80000000, 0x0, false⟩,
  ⟨"FEN_CAL_STATUS", 0xe8090, 0x1000000, 1, 0x4, 1, 0x0, 0x0, 0x0, 0x0, 0x0, false⟩,
  ⟨"FEN_DIG_LAST_BAD", 0xe80a8, 0x1000000, 1, 0x4, 1, 0x0, 0x0, 0x0, 0x0, 0x0, false⟩,
  ⟨"FEN_P_PUSH", 0xe8100, 0x10, 8, 0x4, 1, 0x0, 0x0, 0xffffffff, 0x0, 0x0, false⟩,
  ⟨"FEN_P_PRESENT", 0xe8104, 0x10, 8, 0x4, 1, 0x0, 0x0, 0xffffffff, 0x0, 0x0, false⟩,
  ⟨"FEN_P_CTRL", 0xe8108, 0x10, 8, 0x4, 1, 0x0, 0x0, 0xffffffff, 0x0, 0x0, false⟩,
  ⟨"FEN_P_DOWN", 0xe810c, 0x10, 8, 0x4, 1, 0x0, 0x0, 0xffffffff, 0x0, 0x0, false⟩]

def regsNet : List RegRow := regsNet0 ++ regsNet1 ++ regsNet2

def regsAnchor0 : List RegRow := [
  ⟨"ANCHOR_CTRL", 0xf0000, 0x1000000, 1, 0x4, 1, 0x7, 0x0, 0x0, 0x0, 0x0, true⟩,
  ⟨"ANCHOR_STATUS", 0xf0004, 0x1000000, 1, 0x4, 1, 0x0, 0x60, 0x0, 0x0, 0x0, false⟩,
  ⟨"ANCHOR_NS", 0xf0008, 0x1000000, 1, 0x4, 1, 0x0, 0x0, 0x0, 0x0, 0x0, false⟩,
  ⟨"ANCHOR_SEC", 0xf000c, 0x4, 2, 0x4, 1, 0x0, 0x0, 0x0, 0x0, 0x0, false⟩,
  ⟨"ANCHOR_FRAC", 0xf0014, 0x1000000, 1, 0x4, 1, 0x0, 0x0, 0x0, 0x0, 0x0, false⟩,
  ⟨"ANCHOR_RATE", 0xf0018, 0x1000000, 1, 0x4, 1, 0x0, 0x0, 0x0, 0x0, 0x0, false⟩,
  ⟨"ANCHOR_OFFSET", 0xf001c, 0x1000000, 1, 0x4, 1, 0x0, 0x0, 0x0, 0x0, 0x0, false⟩,
  ⟨"ANCHOR_SET_NS", 0xf0020, 0x1000000, 1, 0x4, 1, 0x3fffffff, 0x0, 0x0, 0x0, 0x0, true⟩,
  ⟨"ANCHOR_SET_SEC", 0xf0024, 0x4, 2, 0x4, 1, 0xffffffff, 0x0, 0x0, 0x0, 0x0, true⟩,
  ⟨"ANCHOR_SET_CTRL", 0xf002c, 0x1000000, 1, 0x4, 1, 0x0, 0x2, 0x0, 0x1, 0x0, true⟩,
  ⟨"ANCHOR_PPS_SEC", 0xf0030, 0x4, 2, 0x4, 1, 0xffffffff, 0x0, 0x0, 0x0, 0x0, true⟩,
  ⟨"ANCHOR_PPS_BAD", 0xf0038, 0x1000000, 1, 0x4, 1, 0x0, 0x0, 0xffffffff, 0x0, 0x0, true⟩,
  ⟨"ANCHOR_SERVO", 0xf003c, 0x1000000, 1, 0x4, 1, 0xfffffff, 0x0, 0x0, 0x0, 0x6403e8, true⟩,
  ⟨"ANCHOR_PTP_CFG", 0xf0040, 0x1000000, 1, 0x4, 1, 0xffffff3f, 0x0, 0x0, 0x0, 0x80800000, true⟩,
  ⟨"ANCHOR_PTP_PORTS", 0xf0044, 0x1000000, 1, 0x4, 1, 0xff, 0x0, 0x0, 0x0, 0x0, true⟩,
  ⟨"ANCHOR_PTP_INTV", 0xf0048, 0x1000000, 1, 0x4, 1, 0xfffffff, 0x0, 0x0, 0x0, 0x3000100, true⟩,
  ⟨"ANCHOR_PTP_DS", 0xf004c, 0x1000000, 1, 0x4, 1, 0xffffffff, 0x0, 0x0, 0x0, 0xfffffef8, true⟩,
  ⟨"ANCHOR_PTP_ID", 0xf0050, 0x4, 2, 0x4, 1, 0xffffffff, 0x0, 0x0, 0x0, 0x0, true⟩,
  ⟨"ANCHOR_PTP_IP", 0xf0058, 0x1000000, 1, 0x4, 1, 0xffffffff, 0x0, 0x0, 0x0, 0x0, true⟩,
  ⟨"ANCHOR_PTP_STATE", 0xf005c, 0x1000000, 1, 0x4, 1, 0x0, 0x0, 0x0, 0x0, 0x0, false⟩,
  ⟨"ANCHOR_PTP_RX_IGN", 0xf0060, 0x1000000, 1, 0x4, 1, 0x0, 0x0, 0xffffffff, 0x0, 0x0, true⟩,
  ⟨"ANCHOR_FC_FRAME", 0xf0080, 0x1000000, 1, 0x4, 1, 0x0, 0x0, 0x0, 0x0, 0x0, false⟩,
  ⟨"ANCHOR_EVT", 0xf0090, 0x1000000, 1, 0x4, 1, 0x0, 0xfff, 0x0, 0x0, 0x0, true⟩,
  ⟨"ANCHOR_EVT_MASK", 0xf0094, 0x1000000, 1, 0x4, 1, 0xffffffff, 0x0, 0x0, 0x0, 0x0, true⟩,
  ⟨"ANCHOR_TMR_EVT", 0xf0098, 0x1000000, 1, 0x4, 1, 0x0, 0xffffffff, 0x0, 0x0, 0x0, false⟩,
  ⟨"ANCHOR_TMR_EVT_MASK", 0xf009c, 0x1000000, 1, 0x4, 1, 0xffffffff, 0x0, 0x0, 0x0, 0x0, true⟩,
  ⟨"ANCHOR_TSQ_ID", 0xf0100, 0x20, 8, 0x4, 1, 0x0, 0x0, 0x1ffff, 0x0, 0x0, true⟩,
  ⟨"ANCHOR_TSQ_NS", 0xf0104, 0x20, 8, 0x4, 1, 0x0, 0x0, 0x0, 0x0, 0x0, true⟩,
  ⟨"ANCHOR_TSQ_SEC", 0xf0108, 0x20, 8, 0x4, 2, 0x0, 0x0, 0x0, 0x0, 0x0, true⟩,
  ⟨"ANCHOR_TSQ_FRAC", 0xf0110, 0x20, 8, 0x4, 1, 0x0, 0x0, 0x0, 0x0, 0x0, true⟩]

def regsAnchor1 : List RegRow := [
  ⟨"ANCHOR_TSQ_OVF", 0xf0114, 0x20, 8, 0x4, 1, 0x0, 0x0, 0xffffffff, 0x0, 0x0, true⟩,
  ⟨"ANCHOR_TXI_CTRL", 0xf0200, 0x1000000, 1, 0x4, 1, 0x7fff, 0x0, 0x0, 0x8000, 0x0, true⟩,
  ⟨"ANCHOR_TXI_ID", 0xf0204, 0x1000000, 1, 0x4, 1, 0xffff, 0x0, 0x0, 0x0, 0x0, true⟩,
  ⟨"ANCHOR_TXI_BUF", 0xf0800, 0x4, 512, 0x4, 1, 0xffffffff, 0x0, 0x0, 0x0, 0x0, true⟩,
  ⟨"ANCHOR_TMR_CTRL", 0xf1000, 0x20, 32, 0x4, 1, 0xffff000f, 0x0, 0x0, 0x0, 0x10000, false⟩,
  ⟨"ANCHOR_TMR_T_NS", 0xf1004, 0x20, 32, 0x4, 1, 0xffffffff, 0x0, 0x0, 0x0, 0x0, false⟩,
  ⟨"ANCHOR_TMR_T_SEC", 0xf1008, 0x20, 32, 0x4, 2, 0xffffffff, 0x0, 0x0, 0x0, 0x0, false⟩,
  ⟨"ANCHOR_TMR_PERIOD_NS", 0xf1010, 0x20, 32, 0x4, 1, 0xffffffff, 0x0, 0x0, 0x0, 0x0, false⟩,
  ⟨"ANCHOR_TMR_PERIOD_FRAC", 0xf1014, 0x20, 32, 0x4, 1, 0xffff, 0x0, 0x0, 0x0, 0x0, false⟩,
  ⟨"ANCHOR_TMR_STATUS", 0xf1018, 0x20, 32, 0x4, 1, 0x0, 0x6, 0xffff0000, 0x0, 0x0, false⟩]

def regsAnchor : List RegRow := regsAnchor0 ++ regsAnchor1

def regsAud : List RegRow := [
  ⟨"AUD_SAP_CFG", 0xf8000, 0x40, 8, 0x4, 1, 0x1ffff, 0x0, 0x0, 0x0, 0x708, false⟩,
  ⟨"AUD_SAP_STATUS", 0xf8004, 0x40, 8, 0x4, 1, 0x0, 0x8, 0x0, 0x0, 0x0, false⟩,
  ⟨"AUD_SAP_TS_ADJ", 0xf8008, 0x40, 8, 0x4, 1, 0xffff, 0x0, 0x0, 0x0, 0x0, false⟩,
  ⟨"AUD_SAP_SLIP", 0xf800c, 0x40, 8, 0x4, 1, 0x0, 0x0, 0xffffffff, 0x0, 0x0, false⟩,
  ⟨"AUD_SAP_GLITCH", 0xf8010, 0x40, 8, 0x4, 1, 0x0, 0x0, 0xffffffff, 0x0, 0x0, false⟩,
  ⟨"AUD_SAP_CLOST", 0xf8014, 0x40, 8, 0x4, 1, 0x0, 0x0, 0xffffffff, 0x0, 0x0, false⟩,
  ⟨"AUD_GRP_CFG", 0xf8400, 0x40, 8, 0x4, 1, 0x7fff0007, 0x0, 0x0, 0x0, 0x40800000, false⟩,
  ⟨"AUD_GRP_STATUS", 0xf8404, 0x40, 8, 0x4, 1, 0x0, 0x2, 0x0, 0x0, 0x0, false⟩,
  ⟨"AUD_GRP_RING_LO", 0xf8408, 0x40, 8, 0x4, 1, 0xfffff000, 0x0, 0x0, 0x0, 0x0, false⟩,
  ⟨"AUD_GRP_RING_HI", 0xf840c, 0x40, 8, 0x4, 1, 0x3f, 0x0, 0x0, 0x0, 0x0, false⟩,
  ⟨"AUD_GRP_SIZE", 0xf8410, 0x40, 8, 0x4, 1, 0xf, 0x0, 0x0, 0x0, 0x4, false⟩,
  ⟨"AUD_GRP_BLOCK", 0xf8414, 0x40, 8, 0x4, 1, 0x0, 0x0, 0x0, 0x0, 0x0, false⟩,
  ⟨"AUD_GRP_SLIPS", 0xf8418, 0x40, 8, 0x4, 1, 0x0, 0x0, 0xffffffff, 0x0, 0x0, false⟩,
  ⟨"AUD_EVT", 0xf8800, 0x1000000, 1, 0x4, 1, 0x0, 0xffffff, 0x0, 0x0, 0x0, false⟩,
  ⟨"AUD_EVT_MASK", 0xf8804, 0x1000000, 1, 0x4, 1, 0xffffffff, 0x0, 0x0, 0x0, 0x0, false⟩]

def regsClip : List RegRow := [
  ⟨"CLIP_Q_SQ_TAIL", 0x200000, 0x8, 64, 0x4, 1, 0xffff, 0x0, 0x0, 0x0, 0x0, false⟩,
  ⟨"CLIP_Q_CQ_HEAD", 0x200004, 0x8, 64, 0x4, 1, 0xffff, 0x0, 0x0, 0x0, 0x0, false⟩,
  ⟨"CLIP_Q_CTRL", 0x201000, 0x40, 64, 0x4, 1, 0x1, 0x0, 0x0, 0x2, 0x0, false⟩,
  ⟨"CLIP_Q_STATUS", 0x201004, 0x40, 64, 0x4, 1, 0x0, 0xc, 0x0, 0x0, 0x0, false⟩,
  ⟨"CLIP_Q_SQ_LO", 0x201008, 0x40, 64, 0x4, 1, 0xfffff000, 0x0, 0x0, 0x0, 0x0, false⟩,
  ⟨"CLIP_Q_SQ_HI", 0x20100c, 0x40, 64, 0x4, 1, 0x3f, 0x0, 0x0, 0x0, 0x0, false⟩,
  ⟨"CLIP_Q_CQ_LO", 0x201010, 0x40, 64, 0x4, 1, 0xfffff000, 0x0, 0x0, 0x0, 0x0, false⟩,
  ⟨"CLIP_Q_CQ_HI", 0x201014, 0x40, 64, 0x4, 1, 0x3f, 0x0, 0x0, 0x0, 0x0, false⟩,
  ⟨"CLIP_Q_SIZE", 0x201018, 0x40, 64, 0x4, 1, 0xf, 0x0, 0x0, 0x0, 0x4, false⟩,
  ⟨"CLIP_Q_SQ_HEAD", 0x20101c, 0x40, 64, 0x4, 1, 0x0, 0x0, 0x0, 0x0, 0x0, false⟩,
  ⟨"CLIP_Q_CQ_TAIL", 0x201020, 0x40, 64, 0x4, 1, 0x0, 0x0, 0x0, 0x0, 0x0, false⟩,
  ⟨"CLIP_Q_NEXT_SEQ", 0x201024, 0x40, 64, 0x4, 1, 0x0, 0x0, 0x0, 0x0, 0x0, false⟩,
  ⟨"CLIP_Q_ABORTED", 0x201028, 0x40, 64, 0x4, 1, 0x0, 0x0, 0xffffffff, 0x0, 0x0, false⟩,
  ⟨"CLIP_Q_OWNER", 0x20102c, 0x40, 64, 0x4, 1, 0x3, 0x0, 0x0, 0x0, 0x0, true⟩,
  ⟨"CLIP_STORE_CTRL", 0x208000, 0x1000000, 1, 0x4, 1, 0xd, 0x0, 0x0, 0x2, 0x0, true⟩,
  ⟨"CLIP_STORE_STATUS", 0x208004, 0x1000000, 1, 0x4, 1, 0x0, 0x8, 0x0, 0x0, 0x0, false⟩,
  ⟨"CLIP_CAPACITY", 0x208008, 0x4, 2, 0x4, 1, 0x0, 0x0, 0x0, 0x0, 0x0, false⟩,
  ⟨"CLIP_STAGE_LO", 0x208010, 0x1000000, 1, 0x4, 1, 0xc0000000, 0x0, 0x0, 0x0, 0x0, true⟩,
  ⟨"CLIP_STAGE_HI", 0x208014, 0x1000000, 1, 0x4, 1, 0x3f, 0x0, 0x0, 0x0, 0x0, true⟩,
  ⟨"CLIP_STAGE_SIZE", 0x208018, 0x1000000, 1, 0x4, 1, 0x7f, 0x0, 0x0, 0x0, 0x0, true⟩,
  ⟨"CLIP_STAGE_USED", 0x20801c, 0x1000000, 1, 0x4, 1, 0x0, 0x0, 0x0, 0x0, 0x0, false⟩,
  ⟨"CLIP_PWR", 0x208020, 0x1000000, 1, 0x4, 1, 0xffffffff, 0x0, 0x0, 0x0, 0x64, true⟩,
  ⟨"CLIP_PWR_STATUS", 0x208024, 0x1000000, 1, 0x4, 1, 0x0, 0x0, 0x0, 0x0, 0xffff0000, false⟩,
  ⟨"CLIP_LOG_SEQ", 0x208028, 0x1000000, 1, 0x4, 1, 0x0, 0x0, 0x0, 0x0, 0x0, false⟩,
  ⟨"CLIP_FAILED_RANGES", 0x20802c, 0x1000000, 1, 0x4, 1, 0x0, 0x0, 0x0, 0x0, 0x0, false⟩,
  ⟨"CLIP_EVT_CQ", 0x208030, 0x4, 2, 0x4, 1, 0x0, 0xffffffff, 0x0, 0x0, 0x0, false⟩,
  ⟨"CLIP_EVT", 0x208038, 0x1000000, 1, 0x4, 1, 0x0, 0xf, 0x0, 0x0, 0x0, false⟩,
  ⟨"CLIP_EVT_MASK", 0x20803c, 0x1000000, 1, 0x4, 1, 0xffffffff, 0x0, 0x0, 0x0, 0x0, false⟩,
  ⟨"CLIP_MEMBER_STATUS", 0x208040, 0x4, 4, 0x4, 1, 0x0, 0x0, 0x0, 0x0, 0x0, false⟩]

def regsMemc : List RegRow := [
  ⟨"MEMC_CFG", 0x300000, 0x1000000, 1, 0x4, 1, 0x0, 0x0, 0x0, 0x80000000, 0x0, true⟩,
  ⟨"MEMC_STATUS", 0x300004, 0x1000000, 1, 0x4, 1, 0x0, 0x0, 0x0, 0x0, 0x0, false⟩,
  ⟨"MEMC_CAPACITY", 0x300008, 0x1000000, 1, 0x4, 1, 0x0, 0x0, 0x0, 0x0, 0x0, false⟩,
  ⟨"MEMC_AGE_BULK", 0x300010, 0x1000000, 1, 0x4, 1, 0xfffff, 0x0, 0x0, 0x0, 0xfa0, true⟩,
  ⟨"MEMC_AGE_HOST", 0x300014, 0x1000000, 1, 0x4, 1, 0xfffff, 0x0, 0x0, 0x0, 0x1f40, true⟩,
  ⟨"MEMC_AGE_BG", 0x300018, 0x1000000, 1, 0x4, 1, 0xfffff, 0x0, 0x0, 0x0, 0xc350, true⟩,
  ⟨"MEMC_TRACKER", 0x300020, 0x1000000, 1, 0x4, 1, 0x1ffff, 0x0, 0x0, 0x0, 0x11000, true⟩,
  ⟨"MEMC_SR", 0x300024, 0x1000000, 1, 0x4, 1, 0x3ff, 0x0, 0x0, 0x0, 0xa, true⟩,
  ⟨"MEMC_SCRUB", 0x300028, 0x1000000, 1, 0x4, 1, 0xff, 0x0, 0x0, 0x0, 0x18, true⟩,
  ⟨"MEMC_SCRUB_POS", 0x30002c, 0x1000000, 1, 0x4, 1, 0x0, 0x0, 0x0, 0x0, 0x0, false⟩,
  ⟨"MEMC_EVT", 0x300030, 0x1000000, 1, 0x4, 1, 0x0, 0x3ffff, 0x0, 0x0, 0x0, true⟩,
  ⟨"MEMC_EVT_MASK", 0x300034, 0x1000000, 1, 0x4, 1, 0xffffffff, 0x0, 0x0, 0x0, 0x0, true⟩,
  ⟨"MEMC_x_STATUS", 0x301000, 0x100, 8, 0x4, 1, 0x0, 0x0, 0x0, 0x0, 0x0, false⟩,
  ⟨"MEMC_x_ERR_LO", 0x30100c, 0x100, 8, 0x4, 1, 0x0, 0x0, 0x0, 0x0, 0x0, false⟩,
  ⟨"MEMC_x_ERR_HI", 0x301010, 0x100, 8, 0x4, 1, 0x0, 0x0, 0x0, 0x0, 0x0, false⟩,
  ⟨"MEMC_x_CE", 0x301004, 0x100, 8, 0x4, 1, 0x0, 0x0, 0xffffffff, 0x0, 0x0, false⟩,
  ⟨"MEMC_x_UE", 0x301008, 0x100, 8, 0x4, 1, 0x0, 0x0, 0xffffffff, 0x0, 0x0, false⟩,
  ⟨"MEMC_x_NBR_REFRESH", 0x301014, 0x100, 8, 0x4, 1, 0x0, 0x0, 0xffffffff, 0x0, 0x0, false⟩,
  ⟨"MEMC_x_SR_ENTRIES", 0x301018, 0x100, 8, 0x4, 1, 0x0, 0x0, 0xffffffff, 0x0, 0x0, false⟩]

def regsPool : List RegRow := [
  ⟨"POOL_CE", 0x340000, 0x1000000, 1, 0x4, 1, 0x0, 0x0, 0xffffffff, 0x0, 0x0, false⟩,
  ⟨"POOL_UE", 0x340004, 0x1000000, 1, 0x4, 1, 0x0, 0x0, 0xffffffff, 0x0, 0x0, false⟩,
  ⟨"POOL_ERR", 0x340008, 0x1000000, 1, 0x4, 1, 0x0, 0x0, 0x0, 0x0, 0x0, false⟩,
  ⟨"POOL_VIOL", 0x340010, 0x1000000, 1, 0x4, 1, 0x0, 0x0, 0xffffffff, 0x0, 0x0, true⟩,
  ⟨"POOL_VIOL_INFO", 0x340014, 0x1000000, 1, 0x4, 1, 0x0, 0x0, 0x0, 0x0, 0x0, true⟩,
  ⟨"POOL_MARCH_CTRL", 0x340020, 0x1000000, 1, 0x4, 1, 0x3c, 0x0, 0x0, 0x3, 0x20, true⟩,
  ⟨"POOL_MARCH_RANGE", 0x340024, 0x1000000, 1, 0x4, 1, 0x7ff03ff, 0x0, 0x0, 0x0, 0x10000, true⟩,
  ⟨"POOL_MARCH_STATUS", 0x340028, 0x1000000, 1, 0x4, 1, 0x0, 0x4, 0x0, 0x0, 0x0, false⟩,
  ⟨"POOL_MARCH_FAILS", 0x34002c, 0x1000000, 1, 0x4, 1, 0x0, 0x0, 0xffffffff, 0x0, 0x0, true⟩,
  ⟨"POOL_MARCH_ABANDON", 0x340030, 0x1000000, 1, 0x4, 1, 0x0, 0x0, 0xffffffff, 0x0, 0x0, true⟩,
  ⟨"POOL_MARCH_SKIPPED", 0x340034, 0x1000000, 1, 0x4, 1, 0x0, 0x0, 0xffffffff, 0x0, 0x0, true⟩,
  ⟨"POOL_MARCH_BOOT", 0x340038, 0x1000000, 1, 0x4, 1, 0x3, 0x0, 0x0, 0x0, 0x1, true⟩,
  ⟨"POOL_REPAIR_CTRL", 0x340040, 0x1000000, 1, 0x4, 1, 0x3ff, 0x0, 0x0, 0x80000000, 0x0, true⟩,
  ⟨"POOL_REPAIR_STATUS", 0x340044, 0x1000000, 1, 0x4, 1, 0x0, 0x0, 0x0, 0x0, 0x0, true⟩,
  ⟨"POOL_EVT", 0x340050, 0x1000000, 1, 0x4, 1, 0x0, 0xf, 0x0, 0x0, 0x0, true⟩,
  ⟨"POOL_EVT_MASK", 0x340054, 0x1000000, 1, 0x4, 1, 0xffffffff, 0x0, 0x0, 0x0, 0x0, true⟩,
  ⟨"POOL_BANK", 0x341000, 0x4, 992, 0x4, 1, 0x0, 0x0, 0x0, 0x0, 0xff, false⟩,
  ⟨"POOL_BANK_RIG", 0x341f80, 0x4, 32, 0x4, 1, 0x0, 0x0, 0x0, 0x0, 0xfe, false⟩,
  ⟨"POOL_RGN_BASE", 0x348000, 0x400, 7, 0x10, 64, 0x7fff00f, 0x0, 0x0, 0x0, 0x0, true⟩,
  ⟨"POOL_RGN_SIZE", 0x348004, 0x400, 7, 0x10, 64, 0xffff000, 0x0, 0x0, 0x0, 0x0, true⟩]

def regsMbox : List RegRow := [
  ⟨"MBOX_W", 0x380000, 0x80, 32, 0x4, 16, 0xffffffff, 0x0, 0x0, 0x0, 0x0, false⟩,
  ⟨"MBOX_CLAIM", 0x380040, 0x80, 32, 0x4, 1, 0x0, 0x0, 0x0, 0x3, 0x0, false⟩,
  ⟨"MBOX_CTRL", 0x380044, 0x80, 32, 0x4, 1, 0x3f, 0x0, 0x0, 0x80000000, 0x0, false⟩,
  ⟨"MBOX_STATUS", 0x380048, 0x80, 32, 0x4, 1, 0x0, 0x3000, 0x0, 0x0, 0x0, false⟩,
  ⟨"MBOX_DB_RING", 0x381000, 0x4, 2, 0x4, 1, 0x0, 0x0, 0x0, 0xffffffff, 0x0, false⟩,
  ⟨"MBOX_DB_PEND", 0x381008, 0x4, 2, 0x4, 1, 0x0, 0xffffffff, 0x0, 0x0, 0x0, false⟩,
  ⟨"MBOX_FWACT_SRC", 0x382000, 0x1000000, 1, 0x4, 1, 0x7fffff8, 0x0, 0x0, 0x0, 0x0, true⟩,
  ⟨"MBOX_FWACT_LEN", 0x382004, 0x1000000, 1, 0x4, 1, 0x1fffff, 0x0, 0x0, 0x0, 0x0, true⟩,
  ⟨"MBOX_FWACT_CTRL", 0x382008, 0x1000000, 1, 0x4, 1, 0x0, 0x0, 0x0, 0x1, 0x0, true⟩,
  ⟨"MBOX_FWACT_STATUS", 0x38200c, 0x1000000, 1, 0x4, 1, 0x0, 0x10, 0x0, 0x0, 0x0, true⟩]

def regsHost : List RegRow := [
  ⟨"HOST_LINK", 0x3c0000, 0x1000000, 1, 0x4, 1, 0x0, 0x0, 0x0, 0x0, 0x0, false⟩,
  ⟨"HOST_EVT", 0x3c0004, 0x1000000, 1, 0x4, 1, 0x0, 0x1f, 0x0, 0x0, 0x0, true⟩,
  ⟨"HOST_EVT_MASK", 0x3c0008, 0x1000000, 1, 0x4, 1, 0xffffffff, 0x0, 0x0, 0x0, 0x0, true⟩,
  ⟨"HOST_ACC_BAD", 0x3c000c, 0x1000000, 1, 0x4, 1, 0x0, 0x0, 0xffffffff, 0x0, 0x0, false⟩,
  ⟨"HOST_VIOL_COUNT", 0x3c0010, 0x1000000, 1, 0x4, 1, 0x0, 0x0, 0xffffffff, 0x0, 0x0, true⟩,
  ⟨"HOST_VIOL_INFO", 0x3c0014, 0x1000000, 1, 0x4, 1, 0x0, 0x0, 0x0, 0x0, 0x0, true⟩,
  ⟨"HOST_DEAD_COUNT", 0x3c0018, 0x1000000, 1, 0x4, 1, 0x0, 0x0, 0xffffffff, 0x0, 0x0, false⟩,
  ⟨"HOST_DEAD_INFO", 0x3c001c, 0x1000000, 1, 0x4, 1, 0x0, 0x0, 0x0, 0x0, 0x0, false⟩,
  ⟨"HOST_AP_VIOL", 0x3c0020, 0x1000000, 1, 0x4, 1, 0x0, 0x0, 0xffffffff, 0x0, 0x0, false⟩,
  ⟨"HOST_POISON", 0x3c0024, 0x1000000, 1, 0x4, 1, 0x0, 0x0, 0xffffffff, 0x0, 0x0, false⟩,
  ⟨"HOST_AP0_BASE", 0x3c0030, 0x1000000, 1, 0x4, 1, 0xff, 0x0, 0x0, 0x0, 0x0, true⟩,
  ⟨"HOST_AP1_BASE", 0x3c0034, 0x1000000, 1, 0x4, 1, 0xff, 0x0, 0x0, 0x0, 0x0, false⟩,
  ⟨"HOST_ROUTE0", 0x3c0100, 0x1000000, 1, 0x4, 1, 0x7, 0x0, 0x0, 0x0, 0x5, true⟩,
  ⟨"HOST_ROUTE1", 0x3c0104, 0x1000000, 1, 0x4, 1, 0x7, 0x0, 0x0, 0x0, 0x6, true⟩,
  ⟨"HOST_ROUTE2", 0x3c0108, 0x1000000, 1, 0x4, 1, 0x7, 0x0, 0x0, 0x0, 0x6, true⟩,
  ⟨"HOST_ROUTE3", 0x3c010c, 0x1000000, 1, 0x4, 1, 0x7, 0x0, 0x0, 0x0, 0x6, true⟩,
  ⟨"HOST_ROUTE4", 0x3c0110, 0x1000000, 1, 0x4, 1, 0x7, 0x0, 0x0, 0x0, 0x6, true⟩,
  ⟨"HOST_ROUTE5", 0x3c0114, 0x1000000, 1, 0x4, 1, 0x7, 0x0, 0x0, 0x0, 0x5, true⟩,
  ⟨"HOST_ROUTE6", 0x3c0118, 0x1000000, 1, 0x4, 1, 0x7, 0x0, 0x0, 0x0, 0x6, true⟩,
  ⟨"HOST_ROUTE7", 0x3c011c, 0x1000000, 1, 0x4, 1, 0x7, 0x0, 0x0, 0x0, 0x6, true⟩,
  ⟨"HOST_ROUTE8", 0x3c0120, 0x1000000, 1, 0x4, 1, 0x7, 0x0, 0x0, 0x0, 0x5, true⟩,
  ⟨"HOST_ROUTE9", 0x3c0124, 0x1000000, 1, 0x4, 1, 0x7, 0x0, 0x0, 0x0, 0x5, true⟩,
  ⟨"HOST_ROUTE10", 0x3c0128, 0x1000000, 1, 0x4, 1, 0x7, 0x0, 0x0, 0x0, 0x5, true⟩]

def regsTile : List RegRow := [
  ⟨"WALL_TCTX_CTRL", 0x400000, 0x80, 16384, 0x4, 1, 0xffffffff, 0x0, 0x0, 0x0, 0x0, false⟩,
  ⟨"WALL_TCTX_ID", 0x400004, 0x80, 16384, 0x4, 1, 0xffffffff, 0x0, 0x0, 0x0, 0x0, false⟩,
  ⟨"WALL_TCTX_XY", 0x400008, 0x80, 16384, 0x4, 1, 0xffffffff, 0x0, 0x0, 0x0, 0x0, false⟩,
  ⟨"WALL_TCTX_WH", 0x40000c, 0x80, 16384, 0x4, 1, 0xffffffff, 0x0, 0x0, 0x0, 0x0, false⟩,
  ⟨"WALL_TCTX_KM", 0x400010, 0x80, 16384, 0x4, 9, 0xffffffff, 0x0, 0x0, 0x0, 0x0, false⟩,
  ⟨"WALL_TCTX_BG0", 0x400034, 0x80, 16384, 0x4, 1, 0xffffffff, 0x0, 0x0, 0x0, 0x0, false⟩,
  ⟨"WALL_TCTX_BG1", 0x400038, 0x80, 16384, 0x4, 1, 0xffffffff, 0x0, 0x0, 0x0, 0x0, false⟩,
  ⟨"WALL_TCTX_RSV", 0x40003c, 0x80, 16384, 0x4, 9, 0xffffffff, 0x0, 0x0, 0x0, 0x0, false⟩,
  ⟨"WALL_TCTX_GEN", 0x400060, 0x80, 16384, 0x4, 1, 0x0, 0x0, 0x0, 0x0, 0x0, false⟩,
  ⟨"WALL_TCTX_LAST", 0x400064, 0x80, 16384, 0x4, 1, 0x0, 0x0, 0x0, 0x0, 0x0, false⟩,
  ⟨"WALL_TCTX_PUSHED", 0x400068, 0x80, 16384, 0x4, 1, 0x0, 0x0, 0x0, 0x0, 0x0, false⟩,
  ⟨"WALL_TCTX_RSV2", 0x40006c, 0x80, 16384, 0x4, 1, 0xffffffff, 0x0, 0x0, 0x0, 0x0, false⟩,
  ⟨"WALL_TCTX_REPUSH", 0x400070, 0x80, 16384, 0x4, 2, 0x0, 0x0, 0x0, 0x0, 0x0, false⟩,
  ⟨"WALL_TCTX_RSV3", 0x400078, 0x80, 16384, 0x4, 2, 0xffffffff, 0x0, 0x0, 0x0, 0x0, false⟩]

/-- The rows of the block that an offset lies in (R504, R518, R520, R552). -/
def blockRows (off : Nat) : List RegRow :=
  if off < 0x10000 then regsSys
  else if off < 0x20000 then regsRig
  else if off < 0x40000 then regsHead
  else if off < 0x80000 then regsDev
  else if off < 0xa0000 then regsRawc
  else if off < 0xc0000 then regsHevc
  else if off < 0xe0000 then regsWall
  else if off < 0xf0000 then regsNet
  else if off < 0xf8000 then regsAnchor
  else if off < 0x200000 then regsAud
  else if off < 0x300000 then regsClip
  else if off < 0x340000 then regsMemc
  else if off < 0x380000 then regsPool
  else if off < 0x3c0000 then regsMbox
  else if off < 0x400000 then regsHost
  else if off < 0x600000 then regsTile
  else []

/-- Whether a row covers an offset. -/
def RegRow.covers (r : RegRow) (off : Nat) : Bool :=
  if off < r.base then false else
    let d := off - r.base
    let i := d / r.s1
    let e := d % r.s1
    if i < r.n1 then
      if e % r.s2 = 0 then decide (e / r.s2 < r.n2) else false
    else false

/-- The register that an offset names, if any (R498: an offset no block claims has none). -/
def regRow (off : Nat) : Option RegRow := (blockRows off).find? (fun r => r.covers off)

/-- What an offset reads as while nothing has written it: the reset value its register table states. -/
def regReset (off : Nat) : Nat :=
  match regRow off with
  | some r => r.reset
  | none => 0

end Sys2Proof.Machine
end

