-- ==== Sys2Proof/Machine/Operands.lean ====
section
/-! DEFINITION. Reading and writing registers: raw words and fields, the access codes of R19, the values that are views of
other state, and the access rules of R498 to R501. -/
namespace Sys2Proof.Machine

/-- The stored value of a register word: what was last written since its reset, or its reset value. -/
def State.rd (s : State) (off : Nat) : Nat :=
  match mapFind s.regs off with
  | some v => v.toNat
  | none => regReset off

/-- A register word stored. -/
def State.wr (s : State) (off v : Nat) : State := { s with regs := mapSet s.regs off (BitVec.ofNat 32 v) }

/-- A field of a register. -/
def State.fld (s : State) (f : Fld) : Nat := bitsOf (s.rd f.off) f.hi f.lo

/-- Whether a field is not zero. -/
def State.bit (s : State) (f : Fld) : Bool := s.fld f != 0

/-- A field stored. -/
def State.put (s : State) (f : Fld) (v : Nat) : State := s.wr f.off (putBits (s.rd f.off) f.hi f.lo v)

/-- A one-bit field set or cleared. -/
def State.flag (s : State) (f : Fld) (b : Bool) : State := s.put f (if b then 1 else 0)

/-- A counter field increased, saturating at the field's largest value. -/
def State.bump (s : State) (f : Fld) (n : Nat) : State :=
  s.put f (min (s.fld f + n) (2 ^ (f.hi + 1 - f.lo) - 1))

/-- A register pair as one number. -/
def State.rd2 (s : State) (lo hi : Nat) : Nat := s.rd lo + (s.rd hi <<< 32)

/-- The block registers of a range of BAR0 offsets take their reset values. -/
def State.dropRegs (s : State) (a b : Nat) : State :=
  { s with regs := s.regs.filter (fun e => decide (e.1 < a) || decide (b ≤ e.1)) }

/-- The island that a BAR0 offset's block belongs to (R504). -/
def blockIsland (off : Nat) : Option Island :=
  if off < 0x10000 then some .sys
  else if off < 0x20000 then some .mgt
  else if off < 0x40000 then some .head
  else if off < 0x80000 then some .dev
  else if off < 0xA0000 then some .rawc
  else if off < 0xC0000 then some .hevc
  else if off < 0xE0000 then some .wall
  else if off < 0xF0000 then some .net
  else if off < 0xF8000 then some .anchor
  else if off < 0x100000 then some .aud
  else if off < 0x200000 then none
  else if off < 0x300000 then some .vault
  else if off < 0x340000 then some .memc
  else if off < 0x380000 then some .pool
  else if off < 0x3C0000 then some .mgt
  else if off < 0x400000 then some .host
  else if off < 0x600000 then some .wall
  else none

/-- The function number of a master, MGT recording 0 (the function bit of HOST_DEAD_INFO names PF0 or PF1 only). -/
def masterFn : Master → Nat
  | .pf1 => 1
  | _ => 0

/-- Masters as MBOX_m_STATUS codes them (R521). -/
def masterCode : Master → Nat
  | .pf0 => 1
  | .pf1 => 2
  | .mgt => 3

/-- The state of a PCIe function. -/
def State.pcie (s : State) (fn : Nat) : PcieFn := if fn = 1 then s.host.fn1 else s.host.fn0

/-- A PCIe function's state changed. -/
def State.setPcie (s : State) (fn : Nat) (p : PcieFn) : State :=
  { s with host := if fn = 1 then { s.host with fn1 := p } else { s.host with fn0 := p } }

/-- Whether a master's requests reach the register queue: a PCIe function needs HOST out of reset (R495) and must not be
in D3hot (R507); the management processors need MGT out of reset. -/
def State.served (s : State) (m : Master) : Bool :=
  match m with
  | .mgt => s.runs .mgt
  | .pf0 => s.runs .host && !s.host.fn0.d3hot
  | .pf1 => s.runs .host && !s.host.fn1.d3hot

/-- How an access is handled (R498, R500, R501). -/
inductive Access where
  | allowed | violation | dead (island : Island) | noBlock
deriving DecidableEq, Repr

/-- Whether the block at an offset does not answer: its island is in reset, stays in reset because `present` is 0, or is
held by RELEASE_STALL. SYS and HOST always answer (R501), and so does a MEMC that stays in reset because its training
failed, whose outcome the host reads (R471). -/
def State.deadIsland (s : State) (off : Nat) : Option Island :=
  match blockIsland off with
  | some .sys => none
  | some .host => none
  | some .memc => if s.held .memc && s.fld F.MEMC_STATUS_train_fail = 0 then some .memc else none
  | some i => if s.held i then some i else none
  | none => none

/-- Whether an offset is in the MSI-X table or the PBA (R508). [assumption 10, PRESUMED] -/
def msixOffset (off : Nat) : Bool := decide (0x3E0000 ≤ off) && decide (off < 0x3E1020)

/-- Whether an offset lies in the page of an event timer (R435). -/
def timerPage (off : Nat) : Bool := decide (0xF1000 ≤ off) && decide (off < 0xF1400)

/-- The owner of an event timer (R41, R78): an island's code and its unit index. -/
def State.timerOwner (s : State) (t : Nat) : Option (Nat × Nat) :=
  match s.rig.active.bind (fun im => im.recs.findSome? (fun r => match r.body with
      | .timer k o u => if k = t then some (o, u) else none
      | _ => none)) with
  | some o => some o
  | none => (s.rig.claims.find? (fun c => c.res = 2 && c.index = t)).map (fun c => (if c.mgt then 2 else 5, 0))

/-- Whether an offset lies in the page of a camera context or of a coding session: a write there looks first at whether the
context exists (R191, R306). -/
def contextPage (off : Nat) : Bool :=
  (decide (0x50000 ≤ off) && decide (off < 0x60000)) || (decide (0xA1000 ≤ off) && decide (off < 0xA5000))

/-- The rule that governs an access: privilege first (R500), then the island (R501), then the map (R498).
[assumption 9, DEDUCED] -/
def State.access (s : State) (m : Master) (off : Nat) : Access :=
  let row := regRow off
  let mgtTimer := timerPage off && (match s.timerOwner ((off - 0xF1000) / 0x20) with
    | some (2, _) => true
    | _ => false)
  if m = .pf1 ∧ ((match row with | some r => r.priv | none => false) || mgtTimer) = true then .violation
  else match s.deadIsland off with
    | some i => .dead i
    | none => if row.isSome || msixOffset off || contextPage off then .allowed else .noBlock

/-- The record of a privilege violation (R500). [assumption 9, DEDUCED] -/
def State.recordViolation (s : State) (off : Nat) (write : Bool) : State :=
  let s := s.bump F.HOST_VIOL_COUNT_count 1
  let s := s.wr R.HOST_VIOL_INFO ((off % 2 ^ 24 / 4 * 4) + (if write then 2 ^ 24 else 0))
  s.put F.HOST_EVT_viol 1

/-- The record of an access that meets R501. [assumption 9, DEDUCED] -/
def State.recordDead (s : State) (off bar fn : Nat) (write : Bool) (i : Island) : State :=
  let s := s.bump F.HOST_DEAD_COUNT_count 1
  let s := s.wr R.HOST_DEAD_INFO
    ((if bar = 0 then off % 2 ^ 24 else 0) + bar * 2 ^ 24 + (if write then 2 ^ 26 else 0) + fn * 2 ^ 27
      + i.code * 2 ^ 28)
  s.put F.HOST_EVT_dead 1

/-- A BAR0 write under the access rules: `f` is what the write does once it completes (R499). [assumption 9, DEDUCED] -/
def State.guardedWrite (s : State) (m : Master) (off : Nat) (f : State → State) : State :=
  if s.served m then
    match s.access m off with
    | .allowed => f s
    | .violation => s.recordViolation off true
    | .dead i => s.recordDead off 0 (masterFn m) true i
    | .noBlock => s
  else s

/-- A BAR0 read under the access rules: `f` gives the value and the read's side effect (R498, R500, R501).
[assumption 9, DEDUCED] -/
def State.guardedRead (s : State) (m : Master) (off : Nat) (f : State → Nat × State) : State :=
  if s.served m then
    match s.access m off with
    | .allowed => (f s).2.emit (.readData m off (f s).1)
    | .violation => (s.recordViolation off false).emit (.readData m off 0)
    | .dead i => (s.recordDead off 0 (masterFn m) false i).emit (.abort m off)
    | .noBlock => s.emit (.readData m off 0)
  else s

/-- The value that a write leaves in a register of the table, by the access codes of its bits (R19): RW bits take the
written value, W1C bits written 1 clear, every other bit stands. [assumption 9, DEDUCED] -/
def writeValue (r : RegRow) (old v : Nat) : Nat :=
  let kept := (old &&& (0xFFFFFFFF ^^^ r.rw)) ||| (v &&& r.rw)
  kept &&& (0xFFFFFFFF ^^^ (v &&& r.w1c))

/-- The event and mask registers of each interrupt vector of R508. -/
def eventRegs : List (Nat × Nat × Nat) :=
  [(0, 0x40, 0x44), (1, 0x40000, 0x40004), (2, 0x80000, 0x80004), (3, 0xA0000, 0xA0008), (3, 0xA0004, 0xA000C),
   (4, 0xE8044, 0xE8048), (5, 0xF0090, 0xF0094), (5, 0xF0098, 0xF009C), (6, 0xF8800, 0xF8804),
   (7, 0x208038, 0x20803C), (8, 0x300030, 0x300034), (9, 0x340050, 0x340054), (10, 0x3C0004, 0x3C0008)]

/-- A source treated as newly asserted, so that its message is sent again if it stays asserted (R509). -/
def State.rearm (s : State) (v : Nat) : State :=
  { s with host := { s.host with
      fn0 := { s.host.fn0 with asserted := s.host.fn0.asserted.filter (· != v) }
      fn1 := { s.host.fn1 with asserted := s.host.fn1.asserted.filter (· != v) }
      mgtAsserted := s.host.mgtAsserted.filter (· != v) } }

/-- After any write to a source's event or mask register, the source counts as newly asserted (R509). -/
def State.rearmAt (s : State) (off : Nat) : State :=
  match eventRegs.find? (fun e => e.2.1 == off || e.2.2 == off) with
  | some e => s.rearm e.1
  | none =>
    if off = 0x208030 then (List.range 32).foldl (fun s q => s.rearm (80 + q)) s
    else if off = 0x208034 then (List.range 32).foldl (fun s q => s.rearm (112 + q)) s
    else if 0x380000 ≤ off ∧ off < 0x381000 ∧ off % 0x80 = 0x48 then s.rearm (16 + (off - 0x380000) / 0x80)
    else s

/-- A plain write of a register by its access codes (R19). -/
def State.regWrite (s : State) (off v : Nat) : State :=
  match regRow off with
  | some r => (s.wr off (writeValue r (s.rd off) v)).rearmAt off
  | none => s

/-- The register value that is a view of state held elsewhere, for the offsets that are such views. -/
def State.view (s : State) (off : Nat) : Nat :=
  let f := s.sys.fuses
  if off = R.SYS_ID then
    0x96000000 + f.stepLetter % 16 * 2 ^ 12 + f.stepDigit % 16 * 2 ^ 8 + 0x10 + f.imgMinor % 16
  else if off = R.SYS_STRAP then (if s.sys.strap then 1 else 0)
  else if off = R.SYS_RST_GAP then f.rstGap % 2 ^ 13
  else if off = R.SYS_LC_STATE then f.lcState % 4
  else if 0xE0 ≤ off ∧ off < 0xF0 then (s.sys.nonce >>> (8 * (off - 0xE0))) % 2 ^ 32
  else if off = R.SYS_KEY_STATE then
    (f.keys.zipIdx.map (fun k => (k.1.st % 4) <<< (2 * k.2))).foldl (· + ·) 0 % 256
  else if off = R.SYS_CSK_EPOCH then f.epoch % 256
  else if 0x140 ≤ off ∧ off < 0x1A0 then (Config.transportKey >>> (8 * (off - 0x140))) % 2 ^ 32
  else if off = R.RIG_STATUS then
    let act := if s.rig.slotA.st = .active then 1 else if s.rig.slotB.st = .active then 2 else 0
    putBits (putBits (s.rd off) 1 0 act) 3 3 (if s.rig.change.isSome then 1 else 0)
  else if off = R.RIG_SLOT_STATE then
    let c : SlotSt → Nat := fun x => match x with
      | .empty => 0 | .loading => 1 | .validFull => 2 | .validFragment => 3 | .active => 4
    c s.rig.slotA.st + 16 * c s.rig.slotB.st
  else if 0x10100 ≤ off ∧ off < 0x10138 then
    match islandOf ((off - 0x10100) / 4) with
    | none => 0
    | some i =>
      let x := s.island i
      let present : Nat := match i with
        | .sys => 1
        | _ => match s.rig.active with
          | none => 0
          | some im => (im.recs.filterMap (fun r => match r.body with
              | .island code p _ _ _ _ => if code = i.code then some p else none
              | _ => none)).headD 0
      present + (if x.inReset then 2 else 0) + (if x.clkGood then 4 else 0) + (if x.stall then 8 else 0)
        + x.throttle % 4 * 2 ^ 4 + x.skipN % 32 * 2 ^ 6 + x.clkMhz % 2 ^ 16 * 2 ^ 16
  else if off = R.ANCHOR_STATUS then
    let v := s.rd off
    let st := v % 4
    let src := s.rd R.ANCHOR_CTRL % 8
    let used := if st = 1 ∨ st = 2 then (if s.anchor.ref10 then src else if src = 3 then 2 else if src = 4 then 1 else src) else 0
    let seen := match s.anchor.ppsAt with
      | some t => decide (s.real ≤ t + 1500000000)
      | none => false
    let hold := if st = 3 then min ((s.real - s.anchor.holdAt) / 1000000000) 0xFFFF else 0
    putBits (putBits (putBits (putBits v 4 2 used) 7 7 (if seen then 1 else 0)) 8 8
      (if s.anchor.ref10 && (src = 3 || src = 4) then 1 else 0)) 31 16 hold
  else if timerPage off && (s.timerOwner ((off - 0xF1000) / 0x20)).isNone then 0
  else if off = R.RIG_LOAD_CTRL then putBits (s.rd off) 0 0 (if s.rig.load.isSome then 1 else 0)
  else if off = R.RIG_JNL_WR_SEQ then s.jnl.nextSeq % 2 ^ 32
  else if off = 0x18108 then s.jnl.captured.val % 2 ^ 32
  else if off = 0x1810C then (s.jnl.captured.val >>> 32) % 2 ^ 32
  else if off = 0x18110 then
    (if s.jnl.captured.excluded then 1 else 0) + (if s.jnl.captured.replayed then 2 else 0)
      + (if s.jnl.captured.override then 4 else 0)
  else s.rd off

/-- The bits of a word of a tile context that its fields use; the others are held for the check of a commit (R333) and read 0
(R19, R332). -/
def tileMask (off : Nat) : Nat :=
  let o := off % 128
  if o = 0 then 0x00FF077F
  else if o = 4 then 0xFFFF
  else if 16 ≤ o ∧ o < 52 then 0x7FFFF
  else if o = 52 then 0x0FFF0FFF
  else if o = 56 then 0xFFF
  else if o = 60 ∨ (64 ≤ o ∧ o < 96) ∨ o = 108 ∨ 120 ≤ o then 0
  else 0xFFFFFFFF

/-- The bits of a register that are write only or write-1-to-set, which read 0 (R19). RIG_LOAD_CTRL.`go` reads 1 while a
load runs (R83), and MEMC_CFG.`lock` reads its state. -/
def readMask (off : Nat) : Nat :=
  if off = R.RIG_LOAD_CTRL ∨ off = R.MEMC_CFG then 0xFFFFFFFF
  else if 0x400000 ≤ off then tileMask off
  else match regRow off with
  | some r => 0xFFFFFFFF ^^^ r.w1s
  | none => 0

/-- A free value (a value the spec leaves open), drawn fresh: the value and the state with the counter advanced.
[assumption 2, DESIGN CHOICE] -/
def State.free (s : State) : Nat × State := (Config.freeValue s.freeCtr, { s with freeCtr := s.freeCtr + 1 })

end Sys2Proof.Machine
end

