-- ==== Sys2Proof/Machine/Net.lean ====
section
/-! DEFINITION. Chapter 09, what every sender on the Ethernet ports shares: logical ports, IEEE 802.3 frames, and Fenmas
packets with their headers, sequence numbers and order (R350 to R354, R358); JOURNAL packets and the digests of a pair. -/
namespace Sys2Proof.Machine

/-- An empty set of flags (R103). -/
def Marks.none : Marks := ⟨false, false, false⟩

/-- The flags of either of two. -/
def Marks.or (a b : Marks) : Marks := ⟨a.excluded || b.excluded, a.replayed || b.replayed, a.override || b.override⟩

/-- The bodies of the records in force (R57, R65). -/
def Image.bodies (im : Image) : List RecBody := im.recs.map (fun r => r.body)

/-- The record bodies of the active configuration. -/
def State.bodies (s : State) : List RecBody :=
  match s.rig.active with
  | some im => im.bodies
  | none => []

/-- The strand, with its depth, from an output port (R44). -/
def State.strandFrom (s : State) (i : Island) (port : Nat) : Option (Nat × Nat) :=
  s.bodies.findSome? (fun r => match r with
    | .strand id si sp _ _ d _ => if si = i.code ∧ sp = port then some (id, d) else none
    | _ => none)

/-- Whether a logical Ethernet port exists (R350). -/
def State.portExists (s : State) (p : Nat) : Bool := p % 2 = 0 || s.bit (F.NET_PHY_CFG_split (p / 2))

/-- Whether a logical port's link is up (R350, R387). -/
def State.portUp (s : State) (p : Nat) : Bool :=
  s.portExists p && (if p % 2 = 0 then s.bit (F.NET_PHY_CFG_link_a (p / 2)) else s.bit (F.NET_PHY_CFG_link_b (p / 2)))

/-- The CRC-32 of IEEE 802.3, least significant byte first as it is sent. [assumption 39, DEDUCED] -/
def frameCheck (l : List Byte) : List Byte := leBytes 4 (crcReflected 0xEDB88320 0xFFFFFFFF l ^^^ 0xFFFFFFFF)

/-- An IEEE 802.3 frame: padded to the Ethernet minimum, with its frame check sequence (R351, R393, R413, R417).
[assumption 44, DEDUCED] -/
def etherFrame (dst src : Nat) (tag : List Byte) (etype : Nat) (payload : List Byte) : List Byte :=
  let l := beBytes 6 dst ++ beBytes 6 src ++ tag ++ beBytes 2 etype ++ payload
  let l := l ++ zeroBytes (60 - l.length)
  l ++ frameCheck l

/-- FEN_SRC_MAC plus the logical port number (R351). -/
def State.srcMac (s : State) (p : Nat) : Nat :=
  (s.fld F.FEN_SRC_MAC_LO_mac_lo + s.fld F.FEN_SRC_MAC_HI_mac_hi * 2 ^ 32 + p) % 2 ^ 48

/-- The VLAN tag of Fenmas frames (R351). -/
def State.fenTag (s : State) : List Byte :=
  if s.bit F.FEN_CFG_vlan then beBytes 2 0x8100 ++ beBytes 2 (s.fld F.FEN_CFG_pcp * 2 ^ 13 + s.fld F.FEN_CFG_vid) else []

/-- A Fenmas packet: its header, with `seq` zero until it leaves, and its body (R352). -/
def State.fenPacket (s : State) (ftype frame : Nat) (body : List Byte) : List Byte :=
  [1, BitVec.ofNat 8 ftype] ++ beBytes 2 (s.fld F.FEN_ADDR_wall_id) ++ beBytes 4 (s.rd R.FEN_CUR_EPOCH) ++ beBytes 4 frame
    ++ beBytes 1 (s.fld F.FEN_ADDR_unit) ++ beBytes 1 (s.fld F.FEN_ADDR_pair) ++ beBytes 2 0 ++ body

/-- Whether Fenmas can send: enabled, NET out of reset, and not stopped by the loss of the reference or a thermal trip
(R371). [assumption 44, DEDUCED] -/
def State.fenOn (s : State) : Bool := s.bit F.FEN_CFG_enable && s.runs .net && !s.sys.refStopped && !s.sys.tripped

/-- A PUSH packet of a wall frame has left on a port: PRESENT names how many did (R358). -/
def State.pushCount (s : State) (frame port : Nat) : State :=
  { s with fclk := { s.fclk with frames := s.fclk.frames.map (fun f =>
      if f.wall && f.num = frame then { f with pkts := mapSet f.pkts port (mapGet 0 f.pkts port + 1) } else f) } }

/-- A Fenmas packet leaves on a logical port with the next `seq`, or is counted as not sent (R350, R354). -/
def State.fenLeave (s : State) (k : FenPkt) : State :=
  if s.portUp k.port then
    let n := mapGet 0 s.fen.seq k.port
    let pkt := k.bytes.take 14 ++ beBytes 2 n ++ k.bytes.drop 16
    let dst := if k.ftype ≤ 4 then s.fld F.FEN_TILE_MAC_LO_mac_lo + s.fld F.FEN_TILE_MAC_HI_mac_hi * 2 ^ 32
      else s.fld F.FEN_BELAY_MAC_LO_mac_lo + s.fld F.FEN_BELAY_MAC_HI_mac_hi * 2 ^ 32
    let s := { s with fen := { s.fen with seq := mapSet s.fen.seq k.port ((n + 1) % 65536) } }
    let s := if k.ftype = 1 then s.pushCount k.frame k.port else s
    let s := s.bump (if k.ftype = 1 then F.FEN_P_PUSH_count k.port
      else if k.ftype = 2 then F.FEN_P_PRESENT_count k.port else F.FEN_P_CTRL_count k.port) 1
    s.emit (.ethernet k.port (etherFrame dst (s.srcMac k.port) s.fenTag (s.fld F.FEN_ETYPE_etype) pkt))
  else s.bump (F.FEN_P_DOWN_count k.port) 1

/-- Whether an earlier frame's PRESENT is still to leave on a port, so that packets of a frame wait there (R358). A port
that is no destination of a WALL output strand carries no PRESENT. -/
def State.waitsFor (s : State) (port frame : Nat) : Bool :=
  (s.strandFrom .wall port).isSome &&
    (match s.fclk.frames.findIdx? (fun f => f.num = frame && f.wall) with
    | some i => (s.fclk.frames.take i).any (fun f => f.wall && f.sends && !f.presented)
    | none => s.fclk.frames.any (fun f => f.wall && f.sends && !f.presented))

/-- A packet of wall frame `frame` is sent on a port in the order of R358. DIGEST and JOURNAL may fall anywhere. -/
def State.fenSend (s : State) (frame port ftype : Nat) (body : List Byte) : State :=
  if s.fenOn then
    let k : FenPkt := ⟨frame, port, ftype, s.fenPacket ftype frame body⟩
    if ftype ≤ 5 ∧ s.waitsFor port frame = true then { s with fen := { s.fen with held := s.fen.held ++ [k] } } else s.fenLeave k
  else s

/-- Packets that waited leave once the PRESENT before them has. -/
def State.fenFlush (s : State) : State :=
  let go := s.fen.held.filter (fun k => !s.waitsFor k.port k.frame)
  let stay := s.fen.held.filter (fun k => s.waitsFor k.port k.frame)
  let s := { s with fen := { s.fen with held := stay } }
  if s.fenOn then go.foldl State.fenLeave s else s

/-- The logical ports of a mask. -/
def portsOf (mask : Nat) : List Nat := (List.range 8).filter (fun p => mask.testBit p)

/-- Whether the unit sends tile packets: its role is lead or solo (R353, R369). -/
def State.leads (s : State) : Bool := s.fld F.FEN_BELAY_STATUS_role = 1 || s.fld F.FEN_BELAY_STATUS_role = 3

/-! ## Journal packets (R95, R381, R382) -/

/-- The first 28 bytes of an entry (R95). -/
def Entry.body (e : Entry) : List Byte :=
  leBytes 1 e.kind
    ++ leBytes 1 ((if e.replayed then 1 else 0) + (if e.override then 2 else 0) + 16 * (e.target % 16))
    ++ leBytes 2 e.unit ++ leBytes 4 e.seq ++ leBytes 4 e.frame ++ leBytes 4 e.a ++ leBytes 4 e.b ++ leBytes 4 e.c
    ++ zeroBytes 4

/-- An entry as it is held in memory: 32 bytes, the last four its check (R95). -/
def Entry.bytes (e : Entry) : List Byte := e.body ++ leBytes 4 (crc32c e.body)

/-- At most `n` entries from the front of a list whose `seq` are consecutive (R381). -/
def entryRun : Nat → List Entry → List Entry
  | 0, _ => []
  | _, [] => []
  | _ + 1, [e] => [e]
  | n + 1, e :: f :: r => if (e.seq + 1) % 2 ^ 32 = f.seq then e :: entryRun n (f :: r) else [e]

/-- The entries that the next JOURNAL packet carries anew: up to 16 of consecutive `seq`, and none while the previous
packet's entries, which it repeats, do not come right before them (R381, R382). [assumption 45, DEDUCED] -/
def State.jnlNew (s : State) : List Entry :=
  match s.jnl.recent.getLast?, s.jnl.forwardQ.head? with
  | some a, some b => if (a.seq + 1) % 2 ^ 32 = b.seq then entryRun 16 s.jnl.forwardQ else []
  | _, _ => entryRun 16 s.jnl.forwardQ

/-- One JOURNAL packet leaves on each port of `jnl_ports`: the previous packet's new entries, then its own (R381, R382). -/
def State.jnlPacket (s : State) : State :=
  let new := s.jnlNew
  let prev := s.jnl.recent
  let all := prev ++ new
  let s := { s with jnl := { s.jnl with forwardQ := s.jnl.forwardQ.drop new.length, recent := new } }
  match all.head? with
  | some e =>
    let body := beBytes 1 all.length ++ beBytes 1 prev.length ++ beBytes 2 0 ++ beBytes 4 e.seq ++ all.flatMap Entry.bytes
    (portsOf (s.fld F.FEN_PORTS_jnl_ports)).foldl (fun (s : State) p =>
      let s := if s.fenOn && s.portUp p then s.bump F.FEN_JNL_TX_count 1 else s
      s.fenSend (s.rd R.ANCHOR_FC_FRAME) p 7 body) s
  | none => s

/-- Packets go out while 16 new entries wait (R382). [assumption 45, DEDUCED] -/
def State.jnlPump : Nat → State → State
  | 0, s => s
  | n + 1, s => if 16 ≤ s.jnl.forwardQ.length then State.jnlPump n s.jnlPacket else s

/-! ## Digests between units (R385) -/

/-- Two digests of one frame compared. [assumption 45, DEDUCED] -/
def State.digMeet (s : State) (a b : WallDig) : State :=
  if a.excluded || b.excluded then s
  else if a.val = b.val then s.bump F.FEN_DIG_MATCH_count 1
  else (((s.bump F.FEN_DIG_MISMATCH_count 1).wr R.FEN_DIG_LAST_BAD a.frame).put F.FEN_EVT_dig_mismatch 1)

/-- The unit's own digest of a frame is kept, one of 64, and compared with each one of the other unit's that came first.
[assumption 45, DEDUCED] -/
def State.digOwn (s : State) (d : WallDig) : State :=
  let early := s.fen.peerDigs.filter (fun x => x.frame = d.frame)
  let s : State := { s with fen := { s.fen with
    digs := (d :: s.fen.digs).take 64, peerDigs := s.fen.peerDigs.filter (fun x => x.frame != d.frame) } }
  early.foldl (fun s x => s.digMeet d x) s

/-- A digest of the other unit: compared with the kept one of its frame, or kept while it is ahead of this unit; a kept frame
and eight ports bound how many that is. [assumption 45, DEDUCED] -/
def State.digPeer (s : State) (d : WallDig) : State :=
  match s.fen.digs.find? (fun x => x.frame = d.frame) with
  | some x => s.digMeet x d
  | none =>
    let ahead := match s.fen.digs.getLast? with
      | some x => laterThan 32 d.frame x.frame
      | none => true
    if ahead then
      let l := s.fen.peerDigs ++ [d]
      { s with fen := { s.fen with peerDigs := l.drop (l.length - 512) } }
    else s

end Sys2Proof.Machine
end

