-- ==== Sys2Proof/Machine/Flags.lean ====
section
/-! DEFINITION. Interrupt sources and their delivery (R508, R509), and the closing step of every command, which delivers
what the command's effect asserted. -/
namespace Sys2Proof.Machine

/-- Whether an interrupt vector is routed to a target by its HOST_ROUTE register (R508, R519). -/
def State.routed (s : State) (v : Nat) (t : Target) : Bool :=
  let r := s.rd (0x3C0100 + 4 * v)
  match t with
  | .pf0 => bitsOf r 0 0 = 1
  | .pf1 => bitsOf r 1 1 = 1
  | .mgt => bitsOf r 2 2 = 1

/-- Vectors 0 to 10 whose source is asserted: an event bit set together with its mask bit (R508). -/
def State.blockVectors (s : State) : List Nat :=
  ((eventRegs.filter (fun e => s.rd e.2.1 &&& s.rd e.2.2 != 0)).map (fun e => e.1)).eraseDups

/-- The target of a mailbox message (R510). -/
def mboxReceiver (m : Nat) : Target := if m < 16 then .mgt else if m < 24 then .pf0 else .pf1

/-- A target by the code of R521. -/
def targetOf : Nat → Option Target
  | 1 => some .pf0
  | 2 => some .pf1
  | 3 => some .mgt
  | _ => none

/-- Vectors of the mailboxes asserted for a target: `full` to the receiver, `emptied` to a sender that set `notify`. -/
def State.mboxVectors (s : State) (t : Target) : List Nat :=
  ((List.range 32).filter (fun m =>
    let st := match mapFind s.regs (0x380048 + 0x80 * m) with | some v => v.toNat | none => 0
    (mboxReceiver m = t && st % 2 = 1)
      || (bitsOf st 13 13 = 1 && targetOf (mapGet 0 s.mbox.emptiedFor m) = some t))).map (· + 16)

/-- The target of a doorbell (R513). -/
def doorbellTarget (d : Nat) : Target := if d < 32 then .mgt else if d < 48 then .pf0 else .pf1

/-- Vectors of the doorbells pending for a target: 16 + d for doorbells 32 to 63; for doorbells 0 to 31, which R508 gives
no host vector, the management processors' own source 256 + d. -/
def State.doorbellVectors (s : State) (t : Target) : List Nat :=
  let p := s.rd 0x381008 + s.rd 0x38100C * 2 ^ 32
  if p = 0 then []
  else ((List.range 64).filter (fun d => p.testBit d && doorbellTarget d = t)).map
    (fun d => if d < 32 then 256 + d else 16 + d)

/-- Vectors of the clip queues asserted for a target: CLIP_EVT_CQ bit q, to the function CLIP_Qq_OWNER names. -/
def State.clipVectors (s : State) (t : Target) : List Nat :=
  let p := s.rd 0x208030 + s.rd 0x208034 * 2 ^ 32
  if p = 0 then []
  else ((List.range 64).filter (fun q => p.testBit q &&
      (match s.rd (0x20102C + 0x40 * q) % 4 with
        | 0 => t = .pf1 | 1 => t = .pf0 | 2 => t = .mgt | _ => false))).map (· + 80)

/-- Every source asserted for a target. -/
def State.assertedFor (s : State) (t : Target) : List Nat :=
  s.blockVectors.filter (fun v => s.routed v t) ++ s.mboxVectors t ++ s.doorbellVectors t ++ s.clipVectors t

/-- Whether a vector of a function may be sent now: MSI-X and Bus Master Enable on, neither the function nor the vector
masked, not in D3hot, HOST out of reset and the link up (R507, R509). -/
def State.deliverable (s : State) (fn v : Nat) : Bool :=
  let p := s.pcie fn
  p.busMaster && p.msixEnable && !p.msixMask && !p.d3hot && s.runs .host && s.fld F.HOST_LINK_speed != 0
    && (mapGet 1#32 p.table (16 * v + 12)).toNat % 2 = 0

/-- Delivery to one function: a newly asserted source sends its message, or sets its PBA bit; a vector that has become
deliverable sends if its source is still asserted, and its PBA bit clears (R509). -/
def State.deliverFn (s : State) (fn : Nat) : State :=
  let t : Target := if fn = 1 then .pf1 else .pf0
  let now := s.assertedFor t
  let p := s.pcie fn
  let fresh := now.filter (fun v => !p.asserted.contains v)
  let due := (p.pba.filter (fun v => s.deliverable fn v && !fresh.contains v))
  let send := fresh.filter (s.deliverable fn) ++ due.filter now.contains
  let pba := (p.pba.filter (fun v => !due.contains v && !send.contains v))
    ++ (fresh.filter (fun v => !s.deliverable fn v && !p.pba.contains v))
  (s.setPcie fn { p with asserted := now, pba := pba }).emitAll (send.map (fun v => .msix fn v))

/-- Delivery to the management processors, which have no mask of their own (R509). -/
def State.deliverMgt (s : State) : State :=
  let now := s.assertedFor .mgt
  let fresh := now.filter (fun v => !s.host.mgtAsserted.contains v)
  ({ s with host := { s.host with mgtAsserted := now } }).emitAll
    (if s.runs .mgt then fresh.map (fun v => .mgtIrq v) else [])

/-- A replaced strand is forgotten once it holds no token and no frame still sends on it (R65). -/
def State.retireStrands (s : State) : State :=
  if s.rig.retiring.isEmpty then s
  else
    let gone := fun (b : RecBody) => match b with
      | .strand id si sp _ _ _ _ =>
        (match mapFind s.rig.strands id with
          | some x => x.fifo.isEmpty && x.waiting.isEmpty && x.taken.isEmpty
          | none => true)
        && !s.cam.ctxs.any (fun e => e.2.frames.any (fun f => f.link.any (fun l => l.1 = id) || f.tapLink.any (fun l => l.1 = id)
          || f.outs.any (fun o => o.link.any (fun l => l.1 = id))))
        && !s.rig.oldUnits.contains (si, sp)
      | _ => true
    { s with rig := { s.rig with retiring := s.rig.retiring.filter (fun b => !gone b) } }

/-- The closing step of every command: replaced strands that are empty are forgotten, JOURNAL packets that are due by their count go out (R382), and asserted sources are
delivered. -/
def settle (s : State) : State :=
  (((State.jnlPump (2 * s.jnl.forwardQ.length) s.retireStrands).deliverFn 0).deliverFn 1).deliverMgt

/-- A command that has had its effect answers the next state. -/
def done (s : State) : Host.Outcome State Fault Refusal := .next (settle s)

end Sys2Proof.Machine
end

