-- ==== Sys2Proof/Machine/Memory.lean ====
section
/-! DEFINITION. What the engines share: DRAM and pool accesses with their poison marks, the records of the active image,
the strands between engines, and the writing of boundary journal entries and digests. -/
namespace Sys2Proof.Machine

/-! ## DRAM (R467, R468, R481) -/

/-- The configured capacity in bytes. -/
def State.dramSize (s : State) : Nat := s.fld F.MEMC_CAPACITY_gib * 2 ^ 30

/-- Bytes of DRAM. -/
def State.dramRead (s : State) (a n : Nat) : List Byte := memRead s.dram a n

/-- Whether any line that a range touches carries the poison mark (R481). -/
def State.dramPoisoned (s : State) (a n : Nat) : Bool :=
  s.memc.poison.any (fun l => decide (64 * l < a + n) && decide (a < 64 * l + 64))

/-- Bytes written to DRAM. A line written whole loses its poison mark (R481); a write-back waiting for a line that is
written is cancelled (R482). -/
def State.dramStore (s : State) (a : Nat) (d : List Byte) : State :=
  let n := d.length
  { s with
    dram := memWrite s.dram a d
    memc := { s.memc with
      poison := s.memc.poison.filter (fun l => decide (64 * l < a) || decide (a + n < 64 * l + 64))
      writeBack := s.memc.writeBack.filter (fun l => decide (64 * l.1 + 64 ≤ a) || decide (a + n ≤ 64 * l.1)) } }

/-! ## The pool (R483) -/

/-- Bytes of the pool. -/
def State.poolRead (s : State) (a n : Nat) : List Byte := memRead s.pool a n

/-- Whether any word that a range touches carries the poison mark (R483). -/
def State.poolPoisoned (s : State) (a n : Nat) : Bool :=
  s.poolSt.poison.any (fun w => decide (8 * w < a + n) && decide (a < 8 * w + 8))

/-- Bytes written to the pool; a word written whole loses its poison mark (R483). -/
def State.poolWrite (s : State) (a : Nat) (d : List Byte) : State :=
  let n := d.length
  { s with
    pool := memWrite s.pool a d
    poolSt := { s.poolSt with
      poison := s.poolSt.poison.filter (fun w => decide (8 * w < a) || decide (a + n < 8 * w + 8)) } }

/-- The bytes of one pool bank (R483). -/
def bankBytes : Nat := 131072

/-- A bank zeroed: every word written whole, every poison mark in it cleared (R483, R485). -/
def State.zeroBank (s : State) (b : Nat) : State :=
  { s with
    pool := memZero s.pool (b * bankBytes) bankBytes
    poolSt := { s.poolSt with poison := setDrop s.poolSt.poison (b * 16384) 16384 } }

/-- The first access to a bank that is being zeroed finds it zeroed (R66). -/
def State.settleBank (s : State) (b : Nat) : State :=
  if s.rig.zeroing.contains b || s.rig.zeroWait.contains b then
    let s : State := { s with rig := { s.rig with
      zeroing := s.rig.zeroing.filter (· != b), zeroWait := s.rig.zeroWait.filter (· != b) } }
    (s.zeroBank b).wr (0x341000 + 4 * b) (putBits (s.rd (0x341000 + 4 * b)) 17 17 0)
  else s

/-- The owner code of a bank (R493). -/
def State.bankOwner (s : State) (b : Nat) : Nat := bitsOf (s.rd (0x341000 + 4 * b)) 7 0

/-- A bank's owner, unit and exemption set. -/
def State.setBankOwner (s : State) (b owner unit : Nat) (exempt : Bool) : State :=
  let o := 0x341000 + 4 * b
  s.wr o (putBits (putBits (putBits (s.rd o) 7 0 owner) 15 8 unit) 16 16 (if exempt then 1 else 0))

/-! ## The records in force -/

/-- A DRAM_REGION record's content (R43). -/
structure DramRegion where
  base : Nat
  size : Nat
  owner : Nat
  unit : Nat
  cls : Nat
  bar4 : Bool
  exempt : Bool
deriving DecidableEq, Repr

/-- The DRAM regions of a record set. -/
def dramRegions (l : List RecBody) : List DramRegion :=
  l.filterMap (fun r => match r with
    | .dram b z o u c b4 e _ => some ⟨b, z, o, u, c, b4, e⟩
    | _ => none)

/-- Whether a range lies wholly inside one region of a record set whose owner and unit a test accepts. -/
def rangeIn (l : List RecBody) (a n : Nat) (own : Nat → Nat → Bool) : Bool :=
  (dramRegions l).any (fun r => decide (r.base ≤ a) && decide (a + n ≤ r.base + r.size) && own r.owner r.unit)

/-- Whether a range lies wholly inside one DRAM_REGION whose owner and unit a test accepts. -/
def State.inRegion (s : State) (a n : Nat) (own : Nat → Nat → Bool) : Bool := rangeIn s.bodies a n own

/-- A context's shape in a record set (R49). -/
structure Shape where
  dimA : Nat
  dimB : Nat
  format : Nat
  rate : Nat
deriving DecidableEq, Repr

/-- The shape that covers a context of an engine. -/
def shapeIn (l : List RecBody) (engine ctx : Nat) : Option Shape :=
  l.findSome? (fun r => match r with
    | .shape e f n a b k rate => if e = engine ∧ f ≤ ctx ∧ ctx < f + n then some ⟨a, b, k, rate⟩ else none
    | _ => none)

/-- The shape of a context in the active configuration (R50). -/
def State.shape (s : State) (engine ctx : Nat) : Option Shape := shapeIn s.bodies engine ctx

/-- A register write that would enable a context that does not exist is ignored and sets shape_miss (R50). -/
def State.shapeMiss (s : State) : State := s.put F.RIG_STATUS_shape_miss 1

/-- The deadline of a declared boundary (R51). -/
def State.boundary (s : State) (kind unit : Nat) : Option Nat :=
  s.bodies.findSome? (fun r => match r with
    | .boundary k u d => if k = kind ∧ u = unit then some d else none
    | _ => none)

/-- The records of the strands that a receiver looks at: replaced ones until they have delivered their last token (R65),
then those of the active configuration. -/
def State.strandRecs (s : State) : List RecBody := s.rig.retiring ++ s.bodies

/-- The strand, with its depth, into an input port (R44). -/
def State.strandTo (s : State) (i : Island) (port : Nat) : Option (Nat × Nat) :=
  s.strandRecs.findSome? (fun r => match r with
    | .strand id _ _ di dp d _ => if di = i.code ∧ dp = port then some (id, d) else none
    | _ => none)

/-- The depth of a strand of the active configuration. -/
def State.strandDepth (s : State) (id : Nat) : Nat :=
  (s.strandRecs.findSome? (fun r => match r with
    | .strand j _ _ _ _ d _ => if j = id then some d else none
    | _ => none)).getD 8

/-! ## Work of the configuration that an applying change has replaced (R63) -/

/-- Whether the job or picture of a context belongs to the replaced configuration. -/
def State.isOld (s : State) (engine k : Nat) : Bool := s.rig.oldUnits.contains (engine, k)

/-- A job or picture begins, under the replaced configuration or under the one in force. -/
def State.workBegins (s : State) (engine k : Nat) (old : Bool) : State :=
  let l := s.rig.oldUnits.filter (fun e => e != (engine, k))
  { s with rig := { s.rig with oldUnits := if old then l ++ [(engine, k)] else l } }

/-- The shape that governs the job or picture in progress in a context (R49, R63). -/
def State.workShape (s : State) (engine k : Nat) : Option Shape :=
  match s.rig.before with
  | some im => if s.isOld engine k then shapeIn im.bodies engine k else s.shape engine k
  | none => s.shape engine k

/-- The strand from an output port for the work of a context: old work sends on the strand that a change has replaced
(R63, R65). -/
def State.workStrand (s : State) (i : Island) (port : Nat) : Option (Nat × Nat) :=
  if s.isOld i.code port then
    s.strandRecs.findSome? (fun r => match r with
      | .strand id si sp _ _ d _ => if si = i.code ∧ sp = port then some (id, d) else none
      | _ => none)
  else s.strandFrom i port

/-- Whether a frame that starts at an instant and arrives by a strand belongs to the configuration that an applying change
has replaced: the strand is a replaced one, or the frame is older than the change (R63, R65). -/
def State.frameOld (s : State) (strand sof : Nat) : Bool :=
  s.rig.retiring.any (fun r => match r with
    | .strand id _ _ _ _ _ _ => id = strand
    | _ => false)
  || (match s.rig.change with
    | some c => c.applying && decide (sof < c.since)
    | none => false)

/-- The output port from which a strand comes: its island's code and its number (R44). -/
def State.strandSource (s : State) (id : Nat) : Option (Nat × Nat) :=
  s.strandRecs.findSome? (fun r => match r with
    | .strand j si sp _ _ _ _ => if j = id then some (si, sp) else none
    | _ => none)

/-! ## Banks of registers -/

/-- The registers of a range of BAR0 offsets, as a bank: those written since their reset. -/
def State.snap (s : State) (a b : Nat) : SMap Word := s.regs.filter (fun e => decide (a ≤ e.1) && decide (e.1 < b))

/-- A register of a bank; one not listed holds its reset value. -/
def bankRd (b : SMap Word) (off : Nat) : Nat :=
  match mapFind b off with
  | some v => v.toNat
  | none => regReset off

/-- A field of a bank. -/
def bankFld (b : SMap Word) (f : Fld) : Nat := bitsOf (bankRd b f.off) f.hi f.lo

/-- Whether a field of a bank is not zero. -/
def bankBit (b : SMap Word) (f : Fld) : Bool := bankFld b f != 0

/-! ## Strands (R69) -/

/-- A strand with no token. -/
def Strand.clear : Strand := ⟨[], [], []⟩

/-- Whether the island at a strand's receiving end is out of reset (R73). -/
def State.strandOpen (s : State) (id : Nat) : Bool :=
  s.strandRecs.all (fun r => match r with
    | .strand j _ _ di _ _ _ => j != id || (islandOf di).all s.runs
    | _ => true)

/-- Whether a unit of an engine still holds tokens that a strand from one of the given output ports has not taken: the
engine blocks on it and starts no other there (R69, R73, R74). -/
def State.senderBlocked (s : State) (i : Island) (ports : Nat → Bool) : Bool :=
  s.strandRecs.any (fun r => match r with
    | .strand id si sp _ _ _ _ => si = i.code && ports sp && !(mapGet Strand.clear s.rig.strands id).waiting.isEmpty
    | _ => false)

/-- Tokens offered by a sender: they enter the FIFO while it has room and the receiver is out of reset; the rest wait at the
blocked sender (R69, R73). -/
def State.strandSend (s : State) (id depth : Nat) (ts : List Token) : State :=
  let x := mapGet Strand.clear s.rig.strands id
  let all := x.waiting ++ ts
  let room := if s.strandOpen id then depth - x.fifo.length else 0
  let y := { x with fifo := x.fifo ++ all.take room, waiting := all.drop room }
  { s with rig := { s.rig with strands := mapSet s.rig.strands id y } }

/-- Tokens sent from an output port; a port that no strand joins sends nowhere. -/
def State.portSend (s : State) (i : Island) (port : Nat) (ts : List Token) : State :=
  match s.strandFrom i port with
  | some (id, d) => s.strandSend id d ts
  | none => s

/-- Everything that has been sent to a receiver and not yet used, oldest first. -/
def State.strandStream (s : State) (id : Nat) : List Token :=
  let x := mapGet Strand.clear s.rig.strands id
  x.taken ++ x.fifo ++ x.waiting

/-- The receiver uses the first `n` tokens of its stream; the FIFO refills from the sender (R69). -/
def State.strandUse (s : State) (id n : Nat) : State :=
  let x := mapGet Strand.clear s.rig.strands id
  let depth := s.strandDepth id
  let taken := x.taken.drop n
  let rest := (x.fifo ++ x.waiting).drop (n - x.taken.length)
  { s with rig := { s.rig with strands := mapSet s.rig.strands id ⟨rest.take depth, rest.drop depth, taken⟩ } }

/-! ## Journal entries (R95 to R100) -/

/-- The identity key of a decision (R97): kind, unit and frame, with `target` for kind 7 or `arg_a` for kind 9. -/
def Entry.key (e : Entry) : Nat × Nat × Nat × Nat :=
  (e.kind, e.unit, e.frame, if e.kind = 7 then e.target else if e.kind = 9 then e.a else 0)

/-- Whether two entries record the same decision (R98). -/
def Entry.same (e f : Entry) : Bool :=
  e.kind = f.kind && e.target = f.target && e.unit = f.unit && e.frame = f.frame && e.a = f.a && e.b = f.b && e.c = f.c

/-- An entry from 32 bytes, without its check. -/
def Entry.ofBytes (l : List Byte) : Entry :=
  let fl := leAt l 1 1
  ⟨leAt l 0 1, fl % 2 = 1, (fl / 2) % 2 = 1, fl / 16, leAt l 2 2, leAt l 4 4, leAt l 8 4, leAt l 12 4, leAt l 16 4,
    leAt l 20 4⟩

/-- Where the entry with sequence number `q` lies in the ring (R99). -/
def State.ringAddr (s : State) (q : Nat) : Nat :=
  s.fld F.RIG_JNL_BASE_LO_base_lo * 2 ^ 12 + s.fld F.RIG_JNL_BASE_HI_base_hi * 2 ^ 32
    + 32 * (q % 2 ^ s.fld F.RIG_JNL_SIZE_log_size)

/-- Whether the point of an entry is passed once this device writes a seal of a class, or a decision (R107, R580). -/
def Entry.passed (kind target unit frame cls : Nat) (e : Entry) : Bool :=
  if kind = 9 then
    (e.kind = 9 && e.a = cls && e.unit = unit && e.frame = frame)
      || (cls = 1 && e.frame = frame && (e.kind = 5 || (e.kind = 7 && (e.target = 2 || e.target = 5))))
      || (cls = 2 && e.frame = frame && e.kind = 8)
      || (cls = 3 && e.frame = frame && e.unit = unit && e.kind = 7 && e.target = 3)
      || (cls = 4 && e.frame = frame && e.unit = unit && e.kind = 2)
      || (cls = 5 && e.frame = frame && e.unit = unit && e.kind = 7 && e.target = 1)
  else e.kind = kind && e.unit = unit && e.frame = frame && (kind != 7 || e.target = target)

/-- An entry is written: it takes the next `seq` (R97), joins the ring's queue of 256 or is counted as left out (R100),
and joins the entries to forward (R382). Decisions are remembered for R106 and R107, and held entries whose point is now
passed are discarded. -/
def State.jnlWrite (s : State) (kind target unit frame a b c : Nat) (replayed override : Bool) : State :=
  let e : Entry := ⟨kind, replayed, override, target, unit, s.jnl.nextSeq, frame, a, b, c⟩
  let s := { s with jnl := { s.jnl with
    nextSeq := (s.jnl.nextSeq + 1) % 2 ^ 32
    applied := if kind = 9 then s.jnl.applied else (e :: s.jnl.applied).take 4096
    held := s.jnl.held.filter (fun x => !x.passed kind target unit frame a)
    seals := if kind = 9 then ((a, unit, frame) :: s.jnl.seals).take 4096 else s.jnl.seals
    forwardQ := if s.bit F.RIG_JNL_CTRL_forward then s.jnl.forwardQ ++ [e] else s.jnl.forwardQ } }
  if s.bit F.RIG_JNL_CTRL_enable then
    if s.jnl.ringQ.length < 256 then { s with jnl := { s.jnl with ringQ := s.jnl.ringQ ++ [e] } }
    else s.bump F.RIG_JNL_RING_DROP_count 1
  else s

/-- A seal of one class for one point (R580). -/
def State.seal (s : State) (cls unit frame : Nat) : State := s.jnlWrite 9 0 unit frame cls 0 0 false false

/-! ## Following (R104, R105, R581) -/

/-- What governs a decision point. -/
inductive Ruling where
  /-- The device decides by its own rule. -/
  | locally
  /-- The received entry decides. -/
  | entry (e : Entry)
  /-- The source's seal shows that nothing was decided (R581). -/
  | nothing
  /-- The work unit blocks (R105). -/
  | wait
deriving DecidableEq, Repr

/-- Whether a kind is followed for a frame of an instant (R104). -/
def State.follows (s : State) (kind t : Nat) : Bool :=
  let m := if t < s.jnl.since then s.jnl.was else (s.jnl.mode, s.jnl.mask)
  m.1 != 0 && kind != 6 && decide (1 ≤ kind) && decide (kind ≤ 8) && m.2.testBit (kind - 1)

/-- The instant of a decision: now, or when it blocked. -/
def State.pointTime (s : State) (kind target unit frame : Nat) : Nat :=
  match s.jnl.waits.find? (fun w => w.kind = kind && w.target = target && w.unit = unit && w.frame = frame) with
  | some w => w.since
  | none => s.nowNs

/-- The held entry with an identity key. -/
def State.heldEntry (s : State) (kind target unit frame : Nat) : Option Entry :=
  s.jnl.held.find? (fun e => e.kind = kind && e.unit = unit && e.frame = frame && (kind != 7 || e.target = target))

/-- Whether the receipt from the source is whole up to a sequence number (R581). -/
def State.wholeTo (s : State) (q : Nat) : Bool :=
  match s.jnl.wholeFrom with
  | none => false
  | some f => (List.range ((q + 2 ^ 32 - f) % 2 ^ 32 + 1)).all (fun k => s.jnl.seqs.contains ((f + k) % 2 ^ 32))

/-- Whether the source's seal of a class shows that a point was passed, with the receipt whole up to it (R581). -/
def State.sealed (s : State) (cls unit frame : Nat) : Bool :=
  match s.jnl.held.find? (fun e => e.kind = 9 && e.a = cls && e.unit = unit && e.frame = frame) with
  | some e => s.wholeTo e.seq
  | none => false

/-- What governs a decision of a followed kind, or of one the device decides itself, for a frame of the instant `t`. `cls` is the seal class that covers
the decision and `sealUnit` the unit its seal names, for the kinds of R580. `own` holds where R108 makes the decision
the device's own. -/
def State.ruling (s : State) (kind target unit frame t : Nat) (cls : Option (Nat × Nat)) (own : Bool) : Ruling :=
  if s.follows kind t && !own then
    match s.heldEntry kind target unit frame with
    | some e => .entry e
    | none => match cls with
      | some (c, u) => if s.sealed c u frame then .nothing else .wait
      | none => .wait
  else .locally

/-- A decision point blocks (R105); the hold of R106 runs from `since`. -/
def State.block (s : State) (kind target unit frame since : Nat) : State :=
  if s.jnl.waits.any (fun w => w.kind = kind && w.target = target && w.unit = unit && w.frame = frame) then s
  else { s with jnl := { s.jnl with waits := s.jnl.waits ++ [⟨kind, target, unit, frame, since⟩] } }

/-- A decision point that blocked has been settled. -/
def State.unblock (s : State) (kind target unit frame : Nat) : State :=
  { s with jnl := { s.jnl with
    waits := s.jnl.waits.filter (fun w => !(w.kind = kind && w.target = target && w.unit = unit && w.frame = frame)) } }

/-- Decision points that a test names block no longer. -/
def State.dropWaits (s : State) (p : Wait → Bool) : State :=
  { s with jnl := { s.jnl with waits := s.jnl.waits.filter (fun w => !p w) } }

/-- Whether a decision point is blocked. -/
def State.blocked (s : State) (kind target unit frame : Nat) : Bool :=
  s.jnl.waits.any (fun w => w.kind = kind && w.target = target && w.unit = unit && w.frame = frame)

/-- A held entry is discarded once the device has passed its point (R107). -/
def State.dropHeld (s : State) (kind target unit frame : Nat) : State :=
  { s with jnl := { s.jnl with
    held := s.jnl.held.filter (fun e =>
      !(e.kind = kind && e.unit = unit && e.frame = frame && (kind != 7 || e.target = target))) } }

/-- A received entry is applied: it is written to the own ring with `replayed` set (R105), and discarded (R107). -/
def State.replay (s : State) (e : Entry) : State :=
  ((s.jnlWrite e.kind e.target e.unit e.frame e.a e.b e.c true false).dropHeld e.kind e.target e.unit e.frame).unblock
    e.kind e.target e.unit e.frame

/-- An override is counted and reported (R106). -/
def State.noteOverride (s : State) : State :=
  (s.bump F.RIG_JNL_OVERRIDES_count 1).put F.RIG_JNL_STATUS_override 1

/-- A decision made locally while its kind is followed: its entry carries `override` (R106). -/
def State.overrideWrite (s : State) (kind target unit frame a b c : Nat) : State :=
  (((s.jnlWrite kind target unit frame a b c false true).noteOverride).dropHeld kind target unit frame).unblock
    kind target unit frame

/-- Whether R108 makes a camera-side decision this unit's own: its frame starts at or after the latch point of the first
wall frame that the unit leads. -/
def State.ownCamera (s : State) (sof : Nat) : Bool :=
  match s.jnl.leadFrom with
  | some (_, l) => decide (l ≤ sof)
  | none => false

/-- Whether R108 makes a wall-side decision this unit's own. -/
def State.ownWall (s : State) (frame : Nat) : Bool :=
  match s.jnl.leadFrom with
  | some (n, _) => frame = n % 2 ^ 32 || laterThan 32 frame n
  | none => false

/-! ## Digests (R101 to R103) -/

/-- CRC-64 of R101 step 1: polynomial 0x42F0_E1EB_A9EA_3693 reflected. -/
def crc64 (l : List Byte) : Nat := crcReflected 0xC96C5795D7870F42 0xFFFFFFFFFFFFFFFF l ^^^ 0xFFFFFFFFFFFFFFFF

/-- A digest completes in its scope and index (R102, R112). -/
def State.digestDone (s : State) (scope index : Nat) (d : DigestVal) : State :=
  { s with jnl := { s.jnl with digests := mapSet s.jnl.digests (256 * scope + index) d } }

end Sys2Proof.Machine
end

