-- ==== Sys2Proof/Machine/Head.lean ====
section
/-! DEFINITION. Chapter 03, Gypol head links: training, packets, frames and their close, bindings of camera generations,
and exposure commands; with the ingress buffers of R164 to R166. -/
namespace Sys2Proof.Machine

/-! ## Ports and sensors -/

/-- A port with nothing received. -/
def HeadPort.clear : HeadPort := ⟨0, [], [], 0, none, [], false, 0, 0, [], none, [], [], []⟩

/-- A sensor with nothing received. -/
def Sensor.clear : Sensor := ⟨none, none, none, [], [], none, []⟩

/-- A port. -/
def State.port (s : State) (n : Nat) : HeadPort := mapGet HeadPort.clear s.cam.ports n

/-- A port changed. -/
def State.setPort (s : State) (n : Nat) (p : HeadPort) : State :=
  { s with cam := { s.cam with ports := mapSet s.cam.ports n p } }

/-- A virtual sensor of a primary port. -/
def State.sensor (s : State) (n v : Nat) : Sensor := mapGet Sensor.clear (s.port n).sensors v

/-- A virtual sensor changed. -/
def State.setSensor (s : State) (n v : Nat) (x : Sensor) : State :=
  let p := s.port n
  s.setPort n { p with sensors := mapSet p.sensors v x }

/-- The primary port of a port's bond, or the port itself (R120). -/
def State.primary (s : State) (n : Nat) : Nat :=
  if s.fld (F.HEAD_CFG_members n) = 0 then n else n - s.fld (F.HEAD_CFG_member n)

/-- The ports of a port's bond, lowest first; `none` where the HEADn_CFG values disagree or R120 is not met (R144). -/
def State.bond (s : State) (n : Nat) : Option (List Nat) :=
  let w := s.rd (R.HEAD_CFG n)
  let m := bitsOf w 2 1
  let i := bitsOf w 4 3
  if m = 0 then (if i = 0 then some [n] else none)
  else if m < i ∨ n < i ∨ (n - i) / 4 ≠ (n - i + m) / 4 then none
  else
    let l := (List.range (m + 1)).map (fun j => n - i + j)
    if l.all (fun q => bitsOf (s.rd (R.HEAD_CFG q)) 2 0 = bitsOf w 2 0 && bitsOf (s.rd (R.HEAD_CFG q)) 4 3 = q - (n - i)) then
      some l
    else none

/-- The ports of a sensor whose primary is a port. -/
def State.sensorPorts (s : State) (n : Nat) : List Nat := (s.bond n).getD [n]

/-- Whether the sensor registers of a port read 0 and drop writes, as those of a bond's other members and, on a bond,
those of virtual sensors 1 to 3 do. -/
def State.sensorUnused (s : State) (n v : Nat) : Bool :=
  s.fld (F.HEAD_CFG_members n) != 0 && (s.fld (F.HEAD_CFG_member n) != 0 || v != 0)

/-- Whether a virtual sensor streams: it is enabled, and no bond has taken its port (R120, R159). -/
def State.sensorOn (s : State) (n v : Nat) : Bool := s.bit (F.HEAD_VS_MAP_enable n v) && !s.sensorUnused n v

/-! ## Packets sent (R128 to R130, R138 to R140) -/

/-- CRC-8 of R129. -/
def crc8 (l : List Byte) : Nat := crcMsb 8 0x07 0 l

/-- A packet from the device: its header with `hcrc`, its payload and its trailer (R127 to R129), every field most significant
byte first (R6). -/
def gypolPacket (ptype vs tag pseq : Nat) (payload : List Byte) : List Byte :=
  let head := beBytes 1 ptype ++ beBytes 1 (64 * vs) ++ beBytes 2 tag ++ zeroBytes 6 ++ beBytes 2 payload.length ++ beBytes 2 pseq
    ++ zeroBytes 1
  head ++ beBytes 1 (crc8 head) ++ payload ++ beBytes 4 (if payload.isEmpty then 0 else crc32c payload) ++ zeroBytes 4

/-- The payload of EXPOSURE (R138). -/
def exposurePayload (c : ExpCmd) : List Byte :=
  beBytes 2 c.seq ++ beBytes 2 (if c.dflt then 1 else 0) ++ beBytes 4 c.expNs ++ beBytes 2 c.gain ++ zeroBytes 2
    ++ beBytes 4 c.param0 ++ beBytes 4 c.param1 ++ zeroBytes 4

/-- The payload of CONTROL (R139). -/
def controlPayload (op mask : Nat) : List Byte := beBytes 1 op ++ beBytes 1 (mask % 16) ++ zeroBytes 6

/-- A packet sent on the back channel takes the next `pseq` (R128): what it says, and its bytes. -/
def State.headSend (s : State) (n ptype vs tag : Nat) (payload : List Byte) (f : Nat → Output) : State :=
  let p := s.port n
  ((s.setPort n { p with txSeq := (p.txSeq + 1) % 65536 }).emit (f p.txSeq)).emit (.gypol n (gypolPacket ptype vs tag p.txSeq payload))

/-- A port enters a state (R158). HEADn_CAPk read zero in OFF, DOWN and ALIGN (R156). -/
def State.headState (s : State) (n st : Nat) : State :=
  let s := s.put (F.HEAD_STATE_state n) st
  let s := if st = 0 ∨ st = 1 ∨ st = 6 then ((s.put (F.HEAD_STATE_lock0 n) 0).put (F.HEAD_STATE_lock1 n) 0).put (F.HEAD_STATE_skew n) 0 else s
  if st ≤ 2 then
    let p := s.port n
    (s.setPort n { p with cap := none }).dropRegs (R.HEAD_CAP n 0) (R.HEAD_CAP n 48)
  else s

/-- Step 1 of R141. -/
def State.train (s : State) (n : Nat) : State :=
  let p := s.port n
  (s.setPort n { p with startedAt := s.nowNs, alignAt := [], aligned := [], capTries := 0 }).headState n 1

/-- A CAP_REQUEST goes out (R140). -/
def State.capRequest (s : State) (n : Nat) : State :=
  let p := s.port n
  (s.setPort n { p with capTries := p.capTries + 1 }).headSend n 0x83 0 0 [] (fun q => .capRequest n q)

/-- CONTROL START or STOP on every port of a sensor (R139, R141, R159). -/
def State.headControl (s : State) (n op mask : Nat) : State :=
  (s.sensorPorts n).foldl (fun s q => s.headSend q 0x82 0 0 (controlPayload op mask) (fun k => .control q k op mask)) s

/-! ## Exposure commands (R151 to R155) -/

/-- The outcome of a command, shown while it is the latest of its sensor (R160). -/
def State.cmdState (s : State) (n : Nat) (c : ExpCmd) (st : Nat) (shown : Nat) : State :=
  let s := if st = 6 then s.put (F.HEAD_ERR_no_ack n) 1 else s
  if mapFind (s.port n).latest c.vs = some c then
    ((s.put (F.HEAD_VS_EXP_STATUS_target n c.vs) shown).put (F.HEAD_VS_EXP_STATUS_state n c.vs) st).put
      (F.HEAD_VS_EXP_STATUS_seq_lo n c.vs) c.seq
  else s

/-- A command goes out, for the first time or again (R138, R154). -/
def State.expSend (s : State) (n : Nat) (c : ExpCmd) (times : Nat) : State :=
  let p := s.port n
  let s := (s.setPort n { p with sent := some (c, times) }).headSend n 0x81 c.vs c.target (exposurePayload c)
    (fun q => .exposure n q c)
  s.cmdState n c 2 c.target

/-- The next queued command is sent when none waits for its ACK (R151). [assumption 20, DEDUCED] -/
def State.expPump (s : State) (n : Nat) : State :=
  let p := s.port n
  match p.sent, p.queue with
  | none, c :: r => (s.setPort n { p with queue := r }).expSend n c 1
  | _, _ => s

/-- A `go` that ends REFUSED or FULL (R151, R152): it is the latest submitted command, so EXP_STATUS shows its outcome and the
target that it names. Such a command takes no `cmd_seq`, and a default one no target: what these fields then read is a free
value (R160). [assumption 20, DESIGN CHOICE] -/
def State.expRefuse (s : State) (n v st : Nat) : State :=
  let p := s.port n
  let r := s.free
  let target := if s.bit (F.HEAD_VS_EXP_CTRL_explicit n v) then s.fld (F.HEAD_VS_EXP_CTRL_tag n v) else r.1 / 256 % 65536
  (((r.2.setPort n { p with latest := mapDel p.latest v }).put (F.HEAD_VS_EXP_STATUS_state n v) st).put
    (F.HEAD_VS_EXP_STATUS_target n v) target).put (F.HEAD_VS_EXP_STATUS_seq_lo n v) (r.1 % 256)

/-- Whether the port's queue of 16 is full, the command that waits for its ACK counted (assumption 20).
[assumption 20, DEDUCED] -/
def State.expFull (s : State) (n : Nat) : Bool :=
  let p := s.port n
  decide (16 ≤ p.queue.length + (if p.sent.isSome then 1 else 0))

/-- A command takes the next `cmd_seq` and is queued (R138, R151). [assumption 20, DEDUCED] -/
def State.expSubmit (s : State) (n : Nat) (c : ExpCmd) : State :=
  if s.fld (F.HEAD_STATE_state n) ≠ 4 then s.expRefuse n c.vs 5
  else if s.expFull n then s.expRefuse n c.vs 7
  else
    let p := s.port n
    let c := { c with seq := p.nextSeq }
    let s := s.setPort n { p with
      nextSeq := (p.nextSeq + 1) % 65536
      queue := p.queue ++ [c]
      latest := mapSet p.latest c.vs c }
    let x := s.sensor n c.vs
    let s := s.setSensor n c.vs { x with cmds := x.cmds ++ [c] }
    (s.cmdState n c 1 c.target).expPump n

/-- The journal unit of a virtual sensor (R152). -/
def expUnit (n v : Nat) : Nat := 4 * n + v

/-- A `go` of HEADn_VSv_EXP_CTRL (R151, R152). While a default target waits for its followed entry, EXP_STATUS goes on showing
the command before it (R160). [assumption 20, DESIGN CHOICE] -/
def State.exposureGo (s : State) (n v : Nat) : State :=
  if s.fld (F.HEAD_STATE_state n) ≠ 4 then s.expRefuse n v 5
  else if s.expFull n then s.expRefuse n v 7
  else
    let c : ExpCmd := ⟨v, 0, s.fld (F.HEAD_VS_EXP_CTRL_tag n v), false, s.rd (R.HEAD_VS_EXP_NS n v),
      s.fld (F.HEAD_VS_EXP_GAIN_gain n v), s.rd (R.HEAD_VS_EXP_PARAM0 n v), s.rd (R.HEAD_VS_EXP_PARAM1 n v)⟩
    if s.bit (F.HEAD_VS_EXP_CTRL_explicit n v) then s.expSubmit n c
    else match (s.sensor n v).lastTag with
      | none => s.expRefuse n v 5
      | some tag =>
        let lat := beAt ((s.port n).cap.getD []) (70 + 32 * v) 1
        let c := { c with target := (tag + lat) % 65536, dflt := true }
        let u := expUnit n v
        match s.ruling 7 4 u tag (s.pointTime 7 4 u tag) none (s.ownCamera s.nowNs) with
        | .locally => (s.jnlWrite 7 4 u tag c.target 0 0 false false).expSubmit n c
        | .entry e => (s.replay e).expSubmit n { c with target := e.a % 65536 }
        | _ =>
          let p := s.port n
          (s.setPort n { p with expWaits := p.expWaits ++ [(tag, c)] }).block 7 4 u tag s.nowNs

/-- A default target that waited is settled by its entry, or by an override (R105, R106). -/
def State.exposureResume (s : State) (u tag : Nat) (force : Bool) : State :=
  let n := u / 4
  let p := s.port n
  match p.expWaits.find? (fun w => w.1 = tag && w.2.vs = u % 4) with
  | none => s.unblock 7 4 u tag
  | some w =>
    let gone := s.setPort n { p with expWaits := p.expWaits.erase w }
    match s.ruling 7 4 u tag (s.pointTime 7 4 u tag) none (s.ownCamera s.nowNs) with
    | .locally => ((gone.unblock 7 4 u tag).jnlWrite 7 4 u tag w.2.target 0 0 false false).expSubmit n w.2
    | .entry e => (gone.replay e).expSubmit n { w.2 with target := e.a % 65536 }
    | _ => if force then (gone.overrideWrite 7 4 u tag w.2.target 0 0).expSubmit n w.2 else s

/-- Every command of a port that is queued or unanswered ends NO_ACK when lock is lost (R155). -/
def State.expAbort (s : State) (n : Nat) : State :=
  let p := s.port n
  let all := (match p.sent with | some x => [x.1] | none => []) ++ p.queue
  let s := all.foldl (fun s c => s.cmdState n c 6 c.target) s
  let p := s.port n
  s.setPort n { p with sent := none, queue := [] }

/-- EXPOSURE. -/
def execExposure (m : Master) (port vs : Nat) (v : Word) (s : State) : Host.Outcome State Fault Refusal :=
  let n := port % 8
  let w := vs % 4
  done (s.guardedWrite m (R.HEAD_VS_EXP_CTRL n w) (fun s =>
    if s.sensorUnused n w then s else (s.regWrite (R.HEAD_VS_EXP_CTRL n w) v.toNat).exposureGo n w))

/-! ## Contexts and frames -/

/-- Generation 0: every register at its reset value, `run` 0 (R174). -/
def DevGen.zero : DevGen := ⟨0, [], []⟩

/-- A context after reset. -/
def DevCtx.clear : DevCtx := ⟨.zero, [], [], 0, none, 0⟩

/-- A stream after reset. -/
def DevStream.clear : DevStream := ⟨[], 0⟩

/-- A camera context. -/
def State.ctx (s : State) (c : Nat) : DevCtx := mapGet DevCtx.clear s.cam.ctxs c

/-- A camera context changed. -/
def State.setCtx (s : State) (c : Nat) (x : DevCtx) : State :=
  { s with cam := { s.cam with ctxs := mapSet s.cam.ctxs c x } }

/-- An output stream. -/
def State.stream (s : State) (k : Nat) : DevStream := mapGet DevStream.clear s.cam.streams k

/-- An output stream changed. -/
def State.setStream (s : State) (k : Nat) (x : DevStream) : State :=
  { s with cam := { s.cam with streams := mapSet s.cam.streams k x } }

/-- The declared width, height, depth, layout, pad value and `run` of a bank of a context (R162, R163, R174). -/
def declW (g : DevGen) (c : Nat) : Nat := bankFld g.regs (F.DEV_CTX_SIZE_width c)
@[inherit_doc declW] def declH (g : DevGen) (c : Nat) : Nat := bankFld g.regs (F.DEV_CTX_SIZE_height c)
@[inherit_doc declW] def declDepth (g : DevGen) (c : Nat) : Nat := 10 + 2 * bankFld g.regs (F.DEV_CTX_FMT_depth c)
@[inherit_doc declW] def declCfa (g : DevGen) (c : Nat) : Nat := bankFld g.regs (F.DEV_CTX_FMT_cfa c)
@[inherit_doc declW] def declPad (g : DevGen) (c : Nat) : Nat := bankFld g.regs (F.DEV_CTX_PAD_pad c)
@[inherit_doc declW] def declRun (g : DevGen) (c : Nat) : Bool := bankBit g.regs (F.DEV_CTX_FMT_run c)

/-- Whether two generations have the same ingress fields (R173). -/
def sameIngress (g h : DevGen) (c : Nat) : Bool :=
  declW g c = declW h c && declH g c = declH h c && declDepth g c = declDepth h c && declCfa g c = declCfa h c
    && declPad g c = declPad h c && declRun g c = declRun h c

/-- The open frame of a context with a tag. -/
def State.openFrame (s : State) (c tag : Nat) : Option CamFrame :=
  (s.ctx c).frames.find? (fun f => f.isOpen && f.tag = tag)

/-- The first frame that a test accepts replaced. -/
def replaceFirst {α : Type} (p : α → Bool) (x : α) : List α → List α
  | [] => []
  | a :: r => if p a then x :: r else a :: replaceFirst p x r

/-- The open frame with a tag replaced. -/
def State.setOpen (s : State) (c tag : Nat) (f : CamFrame) : State :=
  let x := s.ctx c
  s.setCtx c { x with frames := replaceFirst (fun g => g.isOpen && g.tag = tag) f x.frames }

/-- An element put into a list that a key keeps in rising order, after those of an equal key. -/
def insertBy {α : Type} (key : α → Nat) (x : α) : List α → List α
  | [] => [x]
  | a :: r => if key x < key a then x :: a :: r else a :: insertBy key x r

/-- A list in the rising order of a key. -/
def sortBy {α : Type} (key : α → Nat) (l : List α) : List α := l.foldl (fun acc x => insertBy key x acc) []

/-- The open frames of a virtual sensor of a primary port, with their contexts, the oldest first. -/
def State.sensorFrames (s : State) (n v : Nat) : List (Nat × CamFrame) :=
  sortBy (fun e => e.2.sof) ((List.range 16).flatMap (fun c =>
    ((s.ctx c).frames.filter (fun f => f.isOpen && f.port = n && f.vs = v)).map (fun f => (c, f))))

/-- Flags of R149, by bit. -/
def addFlag (f : CamFrame) (bit : Nat) : CamFrame := { f with flags := f.flags ||| 2 ^ bit }

/-- The photosites a frame's line has received or padded. -/
def CamFrame.count (f : CamFrame) (l : Nat) : Nat := mapGet 0 f.got l

/-- Lines complete from the top: a of R147. -/
def completeLines (got : SMap Nat) (w : Nat) : Nat → Nat → Nat
  | 0, a => a
  | n + 1, a => if mapGet 0 got a = w then completeLines got w n (a + 1) else a

/-- The number a of a frame. -/
def CamFrame.accepted (f : CamFrame) (c : Nat) : Nat :=
  completeLines f.got (declW f.intake c) (declH f.intake c) 0

/-- Closing event 1 of R147. -/
def CamFrame.whole (f : CamFrame) (c : Nat) : Bool :=
  match f.linesSent with
  | some n => f.ports.all f.ended.contains && decide (min n (declH f.intake c) ≤ f.accepted c)
  | none => false

/-! ## Ingress slots (R164 to R166) -/

/-- The pool banks of the ingress buffer of a context in a record set, ascending (R164). -/
def ingressBanks (l : List RecBody) (c : Nat) : List Nat :=
  (sortBy (fun e => e.1) (l.filterMap (fun r => match r with
    | .pool b n 8 u _ => if u = c then some (b, n) else none
    | _ => none))).flatMap (fun e => (List.range e.2).map (e.1 + ·))

/-- Spans of the pool that a range of the joined banks covers; a range meets at most `n` banks. -/
def joinedSpans (banks : List Nat) : Nat → Nat → Nat → List (Nat × Nat)
  | 0, _, _ => []
  | n + 1, pos, len =>
    if len = 0 then []
    else
      let k := min len (bankBytes - pos % bankBytes)
      (banks.getD (pos / bankBytes) 0 * bankBytes + pos % bankBytes, k) :: joinedSpans banks n (pos + k) (len - k)

/-- The position of a line's slot in the joined banks (R165). -/
def CamFrame.slotPos (f : CamFrame) (l : Nat) : Nat := ((f.base + l) % max 1 f.cap) * f.stride

/-- The pool spans of a line's slot. -/
def CamFrame.slotSpans (f : CamFrame) (l : Nat) : List (Nat × Nat) := joinedSpans f.banks 3 (f.slotPos l) f.stride

/-- Whether the slot of a line of a frame still holds an unreleased line, or, in a new layout, shares a byte with one. -/
def State.slotBusy (s : State) (c : Nat) (f : CamFrame) (l : Nat) : Bool :=
  f.cap = 0 ||
    let mine := f.slotSpans l
    (s.ctx c).frames.any (fun g => g.held.any (fun k =>
      (g.slotSpans k).any (fun a => mine.any (fun b => decide (a.1 < b.1 + b.2) && decide (b.1 < a.1 + a.2)))))

/-- Whether a frame began before the change point of a change being applied: it finishes under the old configuration, and
its banks are zeroed only after it (R63, R66). [assumption 22, DEDUCED] -/
def State.oldFrame (s : State) (f : CamFrame) : Bool :=
  match s.rig.change with
  | some ch => ch.applying && decide (f.sof < ch.since)
  | none => false

/-- Photosites stored in a line's slot from an index on, each as a 16-bit little-endian code value (R164). -/
def State.slotWrite (s : State) (f : CamFrame) (l x : Nat) (vals : List Nat) : State :=
  ((joinedSpans f.banks 3 (f.slotPos l + 2 * x) (2 * vals.length)).foldl (fun (acc : State × List Byte) sp =>
    ((if s.oldFrame f then acc.1 else acc.1.settleBank (sp.1 / bankBytes)).poolWrite sp.1 (acc.2.take sp.2), acc.2.drop sp.2))
    (s, vals.flatMap (leBytes 2))).1

/-- The spans of a line's photosites. -/
def CamFrame.lineSpans (f : CamFrame) (l w : Nat) : List (Nat × Nat) := joinedSpans f.banks 3 (f.slotPos l) (2 * w)

/-! ## What a frame owes its strands -/

/-- A word placed in a token at a bit. [assumption 21, DESIGN CHOICE] -/
def tokenAt (bit v : Nat) : Nat := v * 2 ^ bit

/-- The FRAME_END token (R226). [assumption 21, DESIGN CHOICE] -/
def frameEndToken (tag a flags : Nat) : Token :=
  BitVec.ofNat 256 (3 + tokenAt 16 (tag % 65536) + tokenAt 32 (a % 65536) + tokenAt 48 (flags % 65536))

/-- The number of stripes of a frame (R168). -/
def stripesOf (h : Nat) : Nat := ceilDiv h 64

/-- Whether every stripe of a frame has completed. -/
def CamFrame.developed (f : CamFrame) (c : Nat) : Bool := f.link.isSome && f.bound && decide (stripesOf (declH f.gen c) ≤ f.stripes)

/-- Whether nothing of a finished frame is left to do. -/
def CamFrame.spent (f : CamFrame) : Bool :=
  f.finished && (f.stats.isNone || f.recorded) && f.outs.all (fun o => o.complete)

/-- The flags of a frame are kept for the engines that take it from a DEV output port (R103, R110). -/
def State.mark (s : State) (ports : List Nat) (tag : Nat) (k : Marks) : State :=
  { s with cam := { s.cam with marks := ports.foldl (fun m p => mapSet m (65536 * p + tag % 65536) k) s.cam.marks } }

/-- A closed frame whose last stripe has completed sends its FRAME_END tokens (R169, R226, R228) and leaves when nothing
is left. -/
def State.frameEnds (s : State) (c : Nat) : State :=
  let x := s.ctx c
  let due := x.frames.filter (fun f => !f.isOpen && f.developed c && !f.finished)
  let s := s.setCtx c { x with frames := x.frames.map (fun f =>
    if !f.isOpen && f.developed c && !f.finished then { f with finished := true } else f) }
  let s := due.foldl (fun s f =>
    let e := frameEndToken f.tag f.lines f.flags
    let ports := (if f.tapLink.isSome then [c] else []) ++ (f.outs.filter (fun o => o.link.isSome)).map (fun o => 16 + o.stream)
    let s := s.mark ports f.tag ⟨f.excluded, f.replayed, f.override⟩
    let s := match f.tapLink with
      | some (id, d) => s.strandSend id d [e]
      | none => s
    f.outs.foldl (fun s o => match o.link with
      | some (id, d) => s.strandSend id d [e]
      | none => s) s) s
  let x := s.ctx c
  s.setCtx c { x with frames := x.frames.filter (fun f => !f.spent) }

/-- The output frames that the enabled streams of a context owe a frame, each with the next number of its stream (R213,
R215). [assumption 23, DEDUCED] -/
def State.openOuts (s : State) (c : Nat) : List OutFrame × State :=
  (List.range 8).foldl (fun (acc : List OutFrame × State) k =>
    let x := acc.2.stream k
    if bankBit x.active (F.DEV_OS_CTRL_enable k) && bankFld x.active (F.DEV_OS_CTRL_src k) = c then
      let wants := bankBit x.active (F.DEV_OS_CTRL_to_strand k) || bankBit x.active (F.DEV_OS_CTRL_notify k)
      let link := if wants then acc.2.strandFrom .dev (16 + k) else none
      let s := if wants && link.isNone then acc.2.bump (F.DEV_OS_UNWIRED_count k) 1 else acc.2
      (acc.1 ++ [⟨k, x.next, x.active, [], link, 0, [], 0xFFFFFFFFFFFFFFFF, false⟩],
        s.setStream k { x with next := (x.next + 1) % 2 ^ 32 })
    else acc) ([], s)

/-- A bound frame receives its output frames and its raw tap (R213, R228). -/
def State.armFrame (s : State) (c : Nat) (f : CamFrame) : CamFrame × State :=
  if f.link.isSome then
    let r := s.openOuts c
    ({ f with
        outs := r.1
        tapLink := if bankBit f.gen.regs (F.DEV_CTX_RAW_TAP_enable c) then r.2.strandFrom .dev c else none }, r.2)
  else (f, s)

/-! ## Closing a frame (R147, R148) -/

/-- Whether kind 1 is followed for a frame (R148). [assumption 22, DEDUCED] -/
def State.closeFollowed (s : State) (f : CamFrame) : Bool := s.follows 1 f.sof && !s.ownCamera f.sof

/-- P(t) of R183, with the limits of the record under which the port last became READY. [assumption 22, DEDUCED] -/
def State.predictTag (s : State) (n v t : Nat) : Nat :=
  let x := s.sensor n v
  let cap := (s.port n).capReady
  let counts := x.cmds.filter (fun c =>
    decide (beAt cap 20 4 ≤ c.expNs) && decide (c.expNs ≤ beAt cap 24 4) && decide (beAt cap 28 2 ≤ c.gain)
      && decide (c.gain ≤ beAt cap 30 2) && !laterThan 16 c.target t)
  match counts with
  | [] => x.firstTag.getD t
  | c :: r => (r.foldl (fun b d => if laterThan 16 d.seq b.seq then d else b) c).target

/-- The token layout of R150 is the model's (assumption 21): type, then the tag and the line, or a and the flag word.
[assumption 21, DESIGN CHOICE] -/
def lineToken (tag l : Nat) : Token := BitVec.ofNat 256 (0x10 + tag * 2 ^ 16 + l * 2 ^ 32)
@[inherit_doc lineToken] def closeToken (tag a flags : Nat) : Token :=
  BitVec.ofNat 256 (0x11 + tag * 2 ^ 16 + a * 2 ^ 32 + flags * 2 ^ 48)

/-- Tokens of a frame go to the Developer on the frame's strand. [assumption 21, DESIGN CHOICE] -/
def State.frameToken (s : State) (f : CamFrame) (t : Token) : State :=
  match f.link with
  | some (id, d) => s.strandSend id d [t]
  | none => s

/-- A frame that has no Developer end leaves with its close. -/
def State.dropFrame (s : State) (c tag : Nat) : State :=
  let x := s.ctx c
  match x.frames.find? (fun f => !f.isOpen && f.tag = tag && f.link.isNone) with
  | some f => s.setCtx c { x with frames := x.frames.erase f }
  | none => s

/-- An open frame closes with a lines accepted and the causes of `arg_b` (R147 to R149): `entry` closes it by a received
entry, `override` by an override of R106. -/
def State.finishClose (s : State) (c : Nat) (f : CamFrame) (a bits : Nat) (entry : Option Entry) (override : Bool) : State :=
  let w := declW f.intake c
  let h := declH f.intake c
  let a := min a h
  let expected := f.linesSent.getD h
  let f := if bits ≠ 0 ∧ a < expected then addFlag f 0 else f
  let short := entry.isSome && (List.range a).any (fun l => f.count l != w)
  let f := if short then { addFlag f 5 with excluded := true } else f
  -- lines that the entry accepts and that are held incomplete are padded in their slots, each with its token (R148, R150)
  let r := if short then
      ((List.range a).filter (fun l => f.count l != w && f.held.contains l)).foldl (fun (e : CamFrame × State) l =>
        ({ e.1 with got := mapSet e.1.got l w },
          (e.2.slotWrite e.1 l (e.1.count l) (List.replicate (w - e.1.count l) (declPad f.intake c))).frameToken e.1 (lineToken f.tag l))) (f, s)
    else (f, s)
  let f := r.1
  let s := r.2
  let s := match entry with
    | some e => s.replay e
    | none => if override then s.overrideWrite 1 0 c f.tag a bits 0 else s.jnlWrite 1 0 c f.tag a bits 0 false false
  let s := s.unblock 1 0 c f.tag
  let pred := !f.fs.echo
  let g : CamFrame := { f with
    isOpen := false
    lines := a
    setTag := if pred then s.predictTag f.port f.vs f.tag else f.fs.echoTag
    predicted := pred
    replayed := f.replayed || entry.isSome
    override := f.override || override }
  let s := s.setOpen c f.tag g
  let s := (s.put (F.HEAD_VS_FRAME_lines f.port f.vs) a).put (F.HEAD_VS_FRAME_flags f.port f.vs) g.flags
  let s := s.frameToken g (closeToken g.tag a g.flags)
  let s := if g.flags % 2 = 1 ∧ g.link.isSome then s.bump (F.DEV_CTX_TRUNC_COUNT_count c) 1 else s
  (s.dropFrame c g.tag).frameEnds c

/-- While kind 1 is followed, the frame closes at its entry once the lines that the entry accepts have arrived or the
intake has ended (R105, R148). -/
def State.tryClose (s : State) (c tag : Nat) : State :=
  match s.openFrame c tag with
  | some f =>
    match s.ruling 1 0 c tag f.sof none (s.ownCamera f.sof) with
    | .entry e =>
      if min e.a (declH f.intake c) ≤ f.accepted c ∨ f.stopped ≠ 0 ∨ f.whole c = true then
        s.finishClose c f e.a (e.b % 8) (some e) false
      else s
    | _ => s
  | none => s

/-- A closing event other than event 1 meets an open frame: `bits` are its causes (R147, R148). -/
def State.closeEvent (s : State) (c tag bits : Nat) : State :=
  match s.openFrame c tag with
  | some f =>
    if s.closeFollowed f then
      let stops := bits &&& 5
      let s := if stops = 0 then s else s.setOpen c tag { f with stopped := f.stopped ||| stops }
      (s.block 1 0 c tag s.nowNs).tryClose c tag
    else s.finishClose c f (f.accepted c) bits none false
  | none => s

/-- After a line or a FRAME_END: closing event 1, or the entry of a followed frame. -/
def State.closeCheck (s : State) (c tag : Nat) : State :=
  match s.openFrame c tag with
  | some f =>
    if s.closeFollowed f then
      let s := if f.whole c then s.block 1 0 c tag s.nowNs else s
      s.tryClose c tag
    else if f.whole c then s.finishClose c f (f.accepted c) 0 none false
    else s
  | none => s

/-- A followed close that waited: by its entry, or by an override once the hold has expired (R106). -/
def State.closeResume (s : State) (c tag : Nat) (force : Bool) : State :=
  match s.openFrame c tag with
  | none => s.unblock 1 0 c tag
  | some f =>
    match s.ruling 1 0 c tag f.sof none (s.ownCamera f.sof) with
    | .locally => s.finishClose c f (f.accepted c) (f.stopped ||| (if f.whole c then 0 else 2)) none false
    | .entry _ =>
      let s := s.tryClose c tag
      if force && (s.openFrame c tag).isSome then
        s.finishClose c f (f.accepted c) (f.stopped ||| (if f.whole c then 0 else 2)) none true
      else s
    | _ =>
      if force then s.finishClose c f (f.accepted c) (f.stopped ||| (if f.whole c then 0 else 2)) none true else s

/-! ## Lines (R146) -/

/-- The rest of a line is padded, which takes the line's slot; a busy slot is an ingress overflow (R165). A line of which
nothing arrived is flagged FILL as well. -/
def State.padLine (s : State) (c tag l : Nat) : State :=
  match s.openFrame c tag with
  | none => s
  | some f =>
    let w := declW f.intake c
    let n := f.count l
    if n = w then s
    else if f.link.isSome && !f.held.contains l && s.slotBusy c f l then s.closeEvent c tag 1
    else
      let s := if f.link.isSome then s.slotWrite f l n (List.replicate (w - n) (declPad f.intake c)) else s
      let g := addFlag f 1
      let g := if n = 0 then addFlag g 5 else g
      let g := { g with got := mapSet g.got l w, held := if g.link.isSome && !g.held.contains l then l :: g.held else g.held }
      (s.setOpen c tag g).frameToken g (lineToken tag l)

/-- The lines of a port below a line become complete (R146): line l of a bond of k ports belongs to member l mod k. -/
def State.padBelow (s : State) (c tag port top : Nat) : State :=
  match s.openFrame c tag with
  | none => s
  | some f =>
    let k := f.ports.length
    let me := f.ports.idxOf port
    ((List.range top).filter (fun l => l % max 1 k = me && f.count l != declW f.intake c)).foldl
      (fun s l => s.padLine c tag l) s

/-- Photosites of a payload: `n` values of `d` bits, most significant bit first (R132). -/
def unpackSites (payload : List Byte) (d n : Nat) : List Nat :=
  let total := 8 * payload.length
  let big := beNat payload
  (List.range n).map (fun i => (big >>> (total - d * (i + 1))) % 2 ^ d)

/-- A LINE packet that R131 keeps (R146). -/
def State.lineOp (s : State) (n c tag line first count : Nat) (payload : List Byte) (crcOk : Bool) : State :=
  match s.openFrame c tag with
  | none => s
  | some f =>
    let w := declW f.intake c
    let got := f.count line
    if f.stopped ≠ 0 then (s.bump (F.HEAD_LATE_DROP_count n) 1).put (F.HEAD_ERR_late n) 1
    else if declH f.intake c ≤ line then
      ((s.setOpen c tag (addFlag f 4)).padBelow c tag n (declH f.intake c)).closeCheck c tag
    else if got = w then s.bump (F.HEAD_LATE_DROP_count n) 1
    else if first < got then (s.bump (F.HEAD_LEN_BAD_count n) 1).put (F.HEAD_ERR_len n) 1
    else
      let s := s.padBelow c tag n line
      match s.openFrame c tag with
      | none => s
      | some f =>
        if f.link.isSome && !f.held.contains line && s.slotBusy c f line then s.closeEvent c tag 1
        else
          let pad := declPad f.intake c
          let d := f.fs.bits
          let s := if crcOk then s else s.bump (F.HEAD_PCRC_BAD_count n) 1
          let f := if crcOk then f else addFlag f 5
          let f := if got < first then addFlag f 5 else f
          let f := if w < first + count then addFlag f 2 else f
          let vals := if crcOk && !f.flags.testBit 6 then (unpackSites payload d count).map (· * 2 ^ (16 - d))
            else List.replicate count pad
          let all := (List.replicate (first - got) pad ++ vals).take (w - got)
          let s := if f.link.isSome then s.slotWrite f line got all else s
          let now := min w (first + count)
          let f := { f with
            got := mapSet f.got line now
            held := if f.link.isSome && !f.held.contains line then line :: f.held else f.held }
          let s := s.setOpen c tag f
          let s := if now = w then s.frameToken f (lineToken tag line) else s
          s.closeCheck c tag

/-- A FRAME_END that R131 keeps (R134, R146); one of a frame whose intake has ended is discarded (R148).
[assumption 22, DEDUCED] -/
def State.frameEndOp (s : State) (n c tag sent : Nat) : State :=
  match s.openFrame c tag with
  | none => s
  | some f =>
    if f.stopped ≠ 0 then s else
    let f := { f with linesSent := some (f.linesSent.getD sent), ended := if f.ended.contains n then f.ended else n :: f.ended }
    let h := declH f.intake c
    let ls := f.linesSent.getD sent
    let f := if ls < h then addFlag f 3 else f
    ((s.setOpen c tag f).padBelow c tag n (min ls h)).closeCheck c tag

/-! ## Binding a camera generation (R172 to R174) -/

/-- The generation at a place of the list of pending ones becomes active, and those before it are discarded (R172,
R212). [assumption 23, DEDUCED] -/
def State.bindGen (s : State) (c i : Nat) : State :=
  let x := s.ctx c
  match x.pend[i]? with
  | none => s
  | some (g, _) =>
    let rest := x.pend.drop (i + 1)
    let s := s.setCtx c { x with active := g, pend := rest, layout := if declRun g c then x.layout else none }
    let s := s.put (F.DEV_CTX_GEN_value c) g.num
    let s := if rest.isEmpty then s.put (F.DEV_CTX_STATUS_commit_state c) 2 else s
    let s := s.flag (F.DEV_CTX_STATUS_running c) (declRun g c)
    g.streams.foldl (fun s e =>
      let was := bankBit (s.stream e.1).active (F.DEV_OS_CTRL_enable e.1)
      let on := bankBit e.2 (F.DEV_OS_CTRL_enable e.1)
      let s := s.setStream e.1 ⟨e.2, if on && !was then 0 else (s.stream e.1).next⟩
      (s.put (F.DEV_OS_STATUS_active_src e.1) (bankFld e.2 (F.DEV_OS_CTRL_src e.1))).flag
        (F.DEV_OS_STATUS_active_en e.1) on) s

/-- The newest pending generation whose commit completed before a start of frame, by its place (R172). -/
def newestBefore (l : List (DevGen × Nat)) (sof : Nat) : Option Nat :=
  ((l.zipIdx.filter (fun e => decide (e.1.2 < sof))).map (fun e => e.2)).getLast?

/-- The frame's generation is the active one now; a kind 7 entry is written when it differs from the previous frame's, and
the seal of the head frame follows (R173, R580). `how`: 0 a local decision, 1 an entry was replayed,
2 an override, 3 a seal showed that nothing was decided, which sets no digest flag (R580). -/
def State.noteBinding (s : State) (c tag how : Nat) : State :=
  let x := s.ctx c
  let g := x.active.num
  let s := if how = 2 then s.overrideWrite 7 1 c tag g 0 0
    else if how = 0 ∧ g ≠ x.lastGen then s.jnlWrite 7 1 c tag g 0 0 false false else s
  let x := s.ctx c
  ((s.setCtx c { x with lastGen := g }).unblock 7 1 c tag).seal 5 c tag

/-- The outcome of a binding: bound, with how it was decided, or blocked. Frames of a context are decided in their order, so
one behind a frame that is still undecided waits. -/
def State.decideBinding (s : State) (c tag sof : Nat) (force : Bool) : State × Option Nat :=
  let x := s.ctx c
  let newest := fun (s : State) => s.bindGen c (x.pend.length - 1)
  let due := fun (s : State) => match newestBefore x.pend sof with
    | some i => s.bindGen c i
    | none => s
  if (x.frames.find? (fun f => !f.bound)).any (fun f => f.tag != tag) then (s.block 7 1 c tag s.nowNs, none)
  else match s.ruling 7 1 c tag sof (some (5, c)) (s.ownCamera sof) with
  | .locally => ((due s).noteBinding c tag 0, some 0)
  | .nothing => (s.noteBinding c tag 3, some 3)
  | .entry e =>
    match x.pend.findIdx? (fun p => p.1.num = e.a) with
    | some i => ((s.replay e).bindGen c i |>.noteBinding c tag 1, some 1)
    | none =>
      if e.a = x.active.num then ((s.replay e).noteBinding c tag 1, some 1)
      else if laterThan 32 e.a (s.fld (F.DEV_CTX_GEN_PEND_value c)) then
        if force then ((due s).noteBinding c tag 2, some 2) else (s.block 7 1 c tag s.nowNs, none)
      else ((newest s).noteBinding c tag 2, some 2)
  | .wait =>
    if force then ((due s).noteBinding c tag 2, some 2) else (s.block 7 1 c tag s.nowNs, none)

/-- A frame of a sensor is discarded whole (R174): what its other ports still send of it is no frame of its own. -/
def State.dropTag (s : State) (n v tag : Nat) (ports : List Nat) : State :=
  let x := s.sensor n v
  let keep := (x.dropped.filter (· != tag)).take 3
  s.setSensor n v { x with
    dropped := tag :: keep
    dropPorts := mapSet (x.dropPorts.filter (fun e => keep.contains e.1)) tag (ports, []) }

/-- A frame whose binding was decided after its intake (R173). One that HEAD discarded at intake and that binds `run` 1 has the
full height as its a, so that every padded line counts in its statistics. [assumption 22, DESIGN CHOICE] -/
def State.settleFrame (s : State) (c : Nat) (f : CamFrame) (how : Nat) : State :=
  let x := s.ctx c
  let g := x.active
  let same := fun (h : CamFrame) => h.tag = f.tag && !h.bound
  if !declRun g c then
    let s := s.setCtx c { x with frames := x.frames.filter (fun h => !same h), layout := none }
    (s.dropTag f.port f.vs f.tag f.ports).unblock 1 0 c f.tag
  else
    let f := { f with gen := g, bound := true, replayed := f.replayed || how = 1, override := f.override || how = 2 }
    let f := if f.taken && sameIngress f.intake g c then f
      else { addFlag f 5 with allPad := true, excluded := true, lines := if f.taken then f.lines else declH g c }
    let r := s.armFrame c f
    r.2.setCtx c { r.2.ctx c with frames := replaceFirst same r.1 x.frames }

/-- The undecided frames of a context up to a tag are decided in their order, until one stays blocked (R173). -/
def State.bindInOrder (c tag : Nat) (force : Bool) : Nat → State → State
  | 0, s => s
  | n + 1, s =>
    match (s.ctx c).frames.find? (fun f => !f.bound) with
    | none => s
    | some f =>
      match s.decideBinding c f.tag f.sof force with
      | (s, some how) => if f.tag = tag then s.settleFrame c f how else State.bindInOrder c tag force n (s.settleFrame c f how)
      | (s, none) => s

/-- A blocked binding is looked at again: an entry, a seal or a commit has come, or the hold has expired. -/
def State.bindResume (s : State) (c tag : Nat) (force : Bool) : State :=
  if (s.ctx c).frames.any (fun f => !f.bound && f.tag = tag) then State.bindInOrder c tag force (s.ctx c).frames.length s
  else s.unblock 7 1 c tag

/-! ## FRAME_START (R133, R145, R146) -/

/-- The fields of a FRAME_START payload (R133). -/
def frameStartOf (p : List Byte) : FrameStart :=
  ⟨beAt p 0 2, beAt p 2 2, beAt p 4 1, beAt p 5 1, beAt p 8 1 % 2 = 1, beAt p 6 2, beAt p 12 4, beAt p 16 2, slice p 20 12⟩

/-- A FRAME_START that R131 keeps, on port `n` at Anchor ns `t`. A HEAD that a change has left absent takes no new frame (R64),
and a context without a shape does not exist (R50). [assumption 22, DEDUCED] -/
def State.frameStartOp (s : State) (n v tag t : Nat) (fs : FrameStart) : State :=
  let p := s.primary n
  let c := s.fld (F.HEAD_VS_MAP_ctx p v)
  if s.rig.stopping.contains .head ∨ s.sensorOn p v = false ∨ (s.sensorFrames p v).any (fun e => e.2.tag = tag) then s
  else if (s.sensor p v).dropped.contains tag && !(mapGet ([], []) (s.sensor p v).dropPorts tag).1.contains n then
    -- another member's FRAME_START of a frame that is discarded whole
    let x := s.sensor p v
    let e := mapGet ([], []) x.dropPorts tag
    s.setSensor p v { x with dropPorts := mapSet x.dropPorts tag (n :: e.1, e.2) }
  else
    -- a third frame closes the older of two
    let open2 := s.sensorFrames p v
    let s := if 2 ≤ open2.length then
        match open2.head? with
        | some (c2, f) => s.closeEvent c2 f.tag 1
        | none => s
      else s
    let adj := signedOf 16 (s.fld (F.HEAD_SOF_ADJ_adj_ns n))
    let sof := ((t : Int) - adj).toNat
    let x := s.sensor p v
    let skip := match x.prevTag with
      | some q => decide (tag ≠ (q + 1) % 65536)
      | none => false
    let s := s.setSensor p v { x with
      lastTag := some tag, firstTag := some (x.firstTag.getD tag), prevTag := some tag, ctxNow := some c
      dropped := x.dropped.filter (· != tag), dropPorts := mapDel x.dropPorts tag }
    let s := (s.put (F.HEAD_VS_STATUS_last_tag p v) tag).put (F.HEAD_VS_STATUS_echo_tag p v) fs.echoTag
    if (s.shape 9 c).isNone then s.dropTag p v tag [n]
    else
    let r := s.decideBinding c tag sof false
    let s := r.1
    let y := s.ctx c
    let intake := match r.2 with
      | some _ => y.active
      | none => (y.pend.getLast?.map (fun e => e.1)).getD y.active
    let run := declRun intake c
    if run = false ∧ r.2.isSome then s.dropTag p v tag [n]
    else
      let w := declW intake c
      let h := declH intake c
      let banks := ingressBanks s.bodies c
      let stride := ceilDiv (2 * w) 64 * 64
      let cap := if stride = 0 then 0 else banks.length * bankBytes / stride
      let base := match y.layout with
        | some (f0, h0, w0, b0) => if w0 = w ∧ b0 = banks then (f0 + h0) % max 1 cap else 0
        | none => 0
      let format := fs.bits ≠ declDepth intake c || fs.cfa ≠ declCfa intake c
      let flags := (if format then 64 else 0) + (if skip then 128 else 0) + (if fs.echo then 256 else 0)
      let f : CamFrame := {
        tag := tag, port := p, vs := v, ports := s.sensorPorts p, sof := sof, fs := fs, intake := intake, gen := y.active
        bound := r.2.isSome, taken := run, allPad := false, link := s.strandFrom .head c, flags := flags, got := []
        ended := [], linesSent := none, stopped := 0, isOpen := run, lines := 0, banks := banks, stride := stride
        cap := cap, base := base, held := [], setTag := if fs.echo then fs.echoTag else s.predictTag p v tag
        predicted := !fs.echo, excluded := false, replayed := r.2 = some 1, override := r.2 = some 2, stripes := 0
        grid := none, dmap := [], dodge := none, tone := none, lut := none, gPrev := [], devLines := [], fusedLines := []
        stats := none, tapLink := none, outs := [], finished := false, recorded := false }
      let a := if r.2.isSome then s.armFrame c f else (f, s)
      a.2.setCtx c { y with
        frames := y.frames ++ [a.1]
        layout := if run then some (base, h, w, banks) else y.layout }

/-! ## Training (R141 to R144) -/

/-- What a port that loses lock does beside closing frames: its commands end, and it trains again or is off (R143,
R155). -/
def State.dropLock (s : State) (n : Nat) : State :=
  let s := ((s.bump (F.HEAD_LOCK_LOSS_count n) 1).put (F.HEAD_ERR_lock_loss n) 1).expAbort n
  if s.bit (F.HEAD_CFG_enable n) then s.train n else s.headState n 0

/-- The open frames of the sensors of a port close for a loss of lock (R147, R148). -/
def State.closeSensors (s : State) (n : Nat) : State :=
  ((List.range 4).flatMap (fun v => s.sensorFrames (s.primary n) v)).foldl (fun s e => s.closeEvent e.1 e.2.tag 4) s

/-- Lock of a port is lost (R143, R155): the frames of its sensors close, its commands end, and it trains again or is
off. [assumption 22, DEDUCED] -/
def State.loseLock (s : State) (n : Nat) : State := (s.closeSensors n).dropLock n

/-- The ports that a port's HEADn_CFG names as members of its bond, and the port itself. -/
def State.namedPorts (s : State) (p : Nat) : List Nat :=
  let w := s.rd (R.HEAD_CFG p)
  let m := bitsOf w 2 1
  let i := bitsOf w 4 3
  p :: (if m ≠ 0 ∧ i ≤ p then (List.range (m + 1)).map (fun j => p - i + j) else [])

/-- Whether a port is a member of a bond that is not right: an enabled port whose bond is not names it (R144). -/
def State.badBond (s : State) (q : Nat) : Bool :=
  (List.range 8).any (fun p => s.bit (F.HEAD_CFG_enable p) && (s.bond p).isNone && (s.namedPorts p).contains q)

/-- Every member of a bond that is not right is in CFG_ERR, enabled or not, and leaves it once the bond is right (R144). A port
that another member's write or record puts out of READY keeps the exposure commands it has queued or sent and goes on
resending: the spec ends them only with a loss of lock (R155). [assumption 22, DESIGN CHOICE] -/
def State.checkBonds (s : State) : State :=
  (List.range 8).foldl (fun s q =>
    if s.badBond q then (if s.fld (F.HEAD_STATE_state q) = 6 then s else s.headState q 6)
    else if s.fld (F.HEAD_STATE_state q) = 6 then (if s.bit (F.HEAD_CFG_enable q) then s.train q else s.headState q 0)
    else s) s

/-- A write of HEADn_CFG (R141, R143, R144). The frames of the port's sensors are found under the value before the
write. -/
def State.headCfgWrite (s : State) (n v : Nat) : State :=
  let was := s.bit (F.HEAD_CFG_enable n)
  let s := (if was then s.closeSensors n else s).regWrite (R.HEAD_CFG n) v
  let s := if was then s.dropLock n else if s.bit (F.HEAD_CFG_enable n) then s.train n else s
  s.checkBonds

/-- PORT_ENABLE: the write sets `enable`. -/
def execPortEnable (m : Master) (port : Nat) (v : Word) (s : State) : Host.Outcome State Fault Refusal :=
  done (s.guardedWrite m (R.HEAD_CFG (port % 8)) (fun s => s.headCfgWrite (port % 8) (v.toNat ||| 1)))

/-- PORT_DISABLE: the write clears `enable`. -/
def execPortDisable (m : Master) (port : Nat) (v : Word) (s : State) : Host.Outcome State Fault Refusal :=
  done (s.guardedWrite m (R.HEAD_CFG (port % 8)) (fun s => s.headCfgWrite (port % 8) (v.toNat &&& 0xFFFFFFFE)))

/-- HEAD_CFG_RECONFIGURE. -/
def execHeadCfgReconfigure (m : Master) (port : Nat) (v : Word) (s : State) : Host.Outcome State Fault Refusal :=
  done (s.guardedWrite m (R.HEAD_CFG (port % 8)) (fun s => s.headCfgWrite (port % 8) v.toNat))

/-- A lane reaches block lock (R141 step 2). -/
def State.blockLock (s : State) (n lane : Nat) : State :=
  if s.runs .head && s.fld (F.HEAD_STATE_state n) = 1 then
    let s := s.put (if lane = 0 then F.HEAD_STATE_lock0 n else F.HEAD_STATE_lock1 n) 1
    if s.bit (F.HEAD_STATE_lock0 n) && s.bit (F.HEAD_STATE_lock1 n) then s.headState n 2 else s
  else s

/-- BLOCK_LOCK. [assumption 8, DESIGN CHOICE] -/
def execBlockLock (port lane : Nat) (s : State) : Host.Outcome State Fault Refusal :=
  done (s.blockLock (port % 8) (lane % 2))

/-- Whether an ALIGN block is valid in every respect but its member fields (R125, R141). -/
def alignValid (lane : Nat) (b : List Byte) : Bool :=
  b.length = 8 && leAt b 0 1 = 0x4B && leAt b 1 1 = 16 * lane && xorBytes (slice b 0 4) (List.replicate 4 0xFF) = slice b 4 4

/-- An ALIGN block (R141 step 3). -/
def State.alignOp (s : State) (n lane pos skew : Nat) (b : List Byte) : State :=
  if s.runs .head && s.fld (F.HEAD_STATE_state n) = 2 && alignValid lane b && decide (skew ≤ 128) then
    if leAt b 2 1 = s.fld (F.HEAD_CFG_member n) ∧ leAt b 3 1 = s.fld (F.HEAD_CFG_members n) + 1 then
      let p := s.port n
      let twice := mapFind p.alignAt lane = some (pos - 16384) && decide (16384 ≤ pos)
      let aligned := if twice && !p.aligned.contains lane then lane :: p.aligned else p.aligned
      let at2 := mapSet p.alignAt lane pos
      let s := (s.setPort n { p with alignAt := at2, aligned := aligned }).put (F.HEAD_STATE_skew n) skew
      if aligned.contains 0 && aligned.contains 1 && mapFind at2 0 = mapFind at2 1 then
        (s.headState n 3).capRequest n
      else s
    else s.put (F.HEAD_ERR_align_cfg n) 1
  else s

/-- ALIGN. [assumption 8, DESIGN CHOICE] -/
def execAlign (port lane pos skew : Nat) (block : List Byte) (s : State) : Host.Outcome State Fault Refusal :=
  done (s.alignOp (port % 8) (lane % 2) pos skew block)

/-- The capability check of R142 for the sensors of a primary port, on its record. [assumption 22, DEDUCED] -/
def State.capsPass (s : State) (p k : Nat) (r : List Byte) : Bool :=
  (List.range 4).all (fun v =>
    !s.sensorOn p v || (
      let c := s.fld (F.HEAD_VS_MAP_ctx p v)
      let g := (s.ctx c).active
      let o := 64 + 32 * v
      decide (v < beAt r 6 1) && beAt r 7 1 = k && decide (declW g c ≤ beAt r o 2) && decide (declH g c ≤ beAt r (o + 2) 2)
        && (beAt r (o + 4) 1).testBit (bankFld g.regs (F.DEV_CTX_FMT_depth c)) && beAt r (o + 5) 1 = declCfa g c))

/-- Step 4 and 5 of R141 once the records of every port of the sensor are there. [assumption 22, DEDUCED] -/
def State.capsCheck (s : State) (n : Nat) : State :=
  let ports := s.sensorPorts n
  let recs := ports.map (fun q => (s.port q).cap)
  match ports.head?, recs.head? with
  | some p, some (some r) =>
    if recs.all (·.isSome) then
      if recs.all (· = some r) && s.capsPass p ports.length r then
        let s := ports.foldl (fun s q =>
          if s.fld (F.HEAD_STATE_state q) = 3 then
            let y := s.port q
            let fresh := y.sensors.map (fun e => (e.1, { e.2 with
              lastTag := none, firstTag := none, cmds := [], dropped := [], dropPorts := [] }))
            (s.setPort q { y with nextSeq := 0, capReady := r, sensors := if q = p then fresh else y.sensors }).headState q 4
          else s) s
        let mask := ((List.range 4).map (fun v => if s.sensorOn p v then 2 ^ v else 0)).sum
        if mask = 0 then s else s.headControl p 1 mask
      else ports.foldl (fun s q => s.headState q 5) s
    else s
  | _, _ => s

/-- A CAPABILITY packet that R131 keeps, in state CAPS (R141 step 4). -/
def State.capabilityOp (s : State) (n : Nat) (rec : List Byte) : State :=
  if (s.port n).cap.isSome then s
  else
    let p := s.port n
    let s := s.setPort n { p with cap := some rec }
    let s := (List.range 48).foldl (fun s k => s.wr (R.HEAD_CAP n k) (beAt rec (4 * k) 4)) s
    s.capsCheck n

/-- CAP_REQUEST_TIMEOUT: the request goes out again, or after three the port trains again (R141 step 4). -/
def execCapRequestTimeout (port : Nat) (s : State) : Host.Outcome State Fault Refusal :=
  let n := port % 8
  done (if s.runs .head && s.fld (F.HEAD_STATE_state n) = 3 && (s.port n).cap.isNone then
      if 3 ≤ (s.port n).capTries then s.train n else s.capRequest n
    else s)

/-- TRAIN_TIMEOUT (R141): a training failure, and step 1 again. -/
def execTrainTimeout (port : Nat) (s : State) : Host.Outcome State Fault Refusal :=
  let n := port % 8
  let st := s.fld (F.HEAD_STATE_state n)
  done (if s.runs .head && [1, 2, 3, 5].contains st then
      let s := s.reach ((s.port n).startedAt + 200000000)
      (s.bump (F.HEAD_TRAIN_FAIL_count n) 1).train n
    else s)

/-- LOCK_LOSS (R143): of a port in ALIGN or beyond, or of the one lane that has block lock while the port waits for the
other. -/
def execLockLoss (port t : Nat) (s : State) : Host.Outcome State Fault Refusal :=
  let n := port % 8
  let s := s.reach t
  let st := s.fld (F.HEAD_STATE_state n)
  let locked := [2, 3, 4, 5].contains st || (st = 1 && (s.bit (F.HEAD_STATE_lock0 n) || s.bit (F.HEAD_STATE_lock1 n)))
  done (if s.runs .head && locked then s.loseLock n else s)

/-- A write of HEADn_VSv_MAP (R159). Both START and STOP go out only in READY, as no packet does before it: the spec names the
state for START alone. [assumption 20, DESIGN CHOICE] -/
def State.mapWrite (s : State) (n v w : Nat) : State :=
  if s.sensorUnused n v then s
  else
    let s := s.regWrite (R.HEAD_VS_MAP n v) w
    if s.fld (F.HEAD_STATE_state n) = 4 then s.headControl n (if s.bit (F.HEAD_VS_MAP_enable n v) then 1 else 2) (2 ^ v)
    else s

/-- CONTROL_START: the write sets `enable`. -/
def execControlStart (m : Master) (port vs : Nat) (v : Word) (s : State) : Host.Outcome State Fault Refusal :=
  done (s.guardedWrite m (R.HEAD_VS_MAP (port % 8) (vs % 4)) (fun s => s.mapWrite (port % 8) (vs % 4) (v.toNat ||| 16)))

/-- CONTROL_STOP: the write clears `enable`. -/
def execControlStop (m : Master) (port vs : Nat) (v : Word) (s : State) : Host.Outcome State Fault Refusal :=
  done (s.guardedWrite m (R.HEAD_VS_MAP (port % 8) (vs % 4))
    (fun s => s.mapWrite (port % 8) (vs % 4) (v.toNat &&& 0xFFFFFFEF)))

/-! ## Received packets (R127 to R131) -/

/-- The largest `count` of a bit depth (R130). -/
def countLimit (d : Nat) : Nat := 131072 / d

/-- The frame and context that a packet's virtual sensor and tag name. [assumption 20, DEDUCED] -/
def State.packetFrame (s : State) (n v tag : Nat) : Option (Nat × CamFrame) :=
  (s.sensorFrames (s.primary n) v).find? (fun e => e.2.tag = tag)

/-- The bit depth that R130 applies to a LINE packet: that of the open frame that it names, as its FRAME_START or else its
context declares it; with no such frame, the declared depth of the sensor's context (R159, R162). -/
def State.lineDepth (s : State) (n v tag : Nat) : Nat :=
  match s.packetFrame n v tag with
  | some (c, f) => if [10, 12, 14, 16].contains f.fs.bits then f.fs.bits else declDepth f.intake c
  | none =>
    let p := s.primary n
    let c := (s.sensor p v).ctxNow.getD (s.fld (F.HEAD_VS_MAP_ctx p v))
    declDepth (s.ctx c).active c

/-- Whether the reserved fields of a payload are zero (R133 to R136). Trailer bytes 4 to 7 and the pad bits that end a LINE
payload are no fields of a packet, and are not looked at. [assumption 20, DESIGN CHOICE] -/
def payloadReserved (pt : Nat) (p : List Byte) : Bool :=
  let z := fun a n => (slice p a n).all (· = 0)
  match pt with
  | 1 => z 9 3 && z 18 2 && decide (beAt p 8 1 < 2)
  | 3 => z 2 6
  | 4 => decide (beAt p 32 1 < 2) && z 33 31
      && (List.range 4).all (fun v => z (71 + 32 * v) 1 && z (76 + 32 * v) 20 && decide (beAt p (68 + 32 * v) 1 < 16))
  | 5 => z 3 1 && z 6 2
  | _ => true

/-- Whether type, length and header fields are right (R128, R130, R131). [assumption 20, DEDUCED] -/
def State.packetFits (s : State) (n pt vsByte tag line first count plen : Nat) (resv : Bool) : Bool :=
  let v := vsByte / 64
  resv && vsByte % 64 = 0 &&
    match pt with
    | 2 =>
      let d := s.lineDepth n v tag
      decide (1 ≤ count) && decide (count ≤ countLimit d) && plen = ceilDiv (count * d) 64 * 8
    | 1 => line = 0 && first = 0 && count = 0 && plen = 32
    | 3 => line = 0 && first = 0 && count = 0 && plen = 8
    | 4 => tag = 0 && line = 0 && first = 0 && count = 0 && plen = 192
    | 5 => tag = 0 && line = 0 && first = 0 && count = 0 && plen = 8
    | _ => false

/-- A received ACK ends the command sent (R135, R151). An ACK for another command, or with an outcome above 2, is ignored
(assumption 20). [assumption 20, DEDUCED] -/
def State.ackOp (s : State) (n seq outcome applyTag : Nat) : State :=
  let p := s.port n
  match p.sent with
  | some (c, _) =>
    if c.seq = seq ∧ outcome ≤ 2 then
      let s := s.setPort n { p with sent := none }
      (s.cmdState n c (3 + outcome) (if outcome = 1 then applyTag else c.target)).expPump n
    else s
  | none => s

/-- A FRAME_END of a frame that is discarded whole: with the last port's, nothing more of the frame can come. -/
def State.droppedEnd (s : State) (n v tag : Nat) : State :=
  let p := s.primary n
  let x := s.sensor p v
  let e := mapGet ([], []) x.dropPorts tag
  if (s.sensorPorts p).all (fun q => q = n || e.2.contains q) then
    s.setSensor p v { x with dropped := x.dropped.filter (· != tag), dropPorts := mapDel x.dropPorts tag }
  else s.setSensor p v { x with dropPorts := mapSet x.dropPorts tag (e.1, n :: e.2) }

/-- A packet for a frame that is not open is noted in HEADn_ERR (R158). -/
def State.lateNote (s : State) (n v tag pt : Nat) : State :=
  if (pt = 2 || pt = 3) && (s.packetFrame n v tag).isNone then s.put (F.HEAD_ERR_late n) 1 else s

/-- A received packet passes R131 and is acted on as the port's state says (R141). `framed` says whether its blocks stand
as R127 places them. A packet with several faults is counted once, in the order header CRC, length, framing, payload CRC
(assumption 20). [assumption 20, DEDUCED] -/
def State.headReceive (s : State) (n t : Nat) (pkt : List Byte) (framed : Bool) : State :=
  let s := s.reach t
  let st := s.fld (F.HEAD_STATE_state n)
  if s.runs .head && decide (3 ≤ st) && decide (st ≤ 5) then
    let b := fun a k => beAt pkt a k
    let pt := b 0 1
    let plen := b 10 2
    let payload := slice pkt 16 plen
    let crcOk := beAt pkt (16 + plen) 4 = (if plen = 0 then 0 else crc32c payload)
    let drop := fun (s : State) => let p := s.port n; s.setPort n { p with hunting := true }
    let v := b 1 1 / 64
    let tag := b 2 2
    let p := s.port n
    let s := s.setPort n { p with hunting := false }
    if 16 ≤ pkt.length ∧ crc8 (pkt.take 15) ≠ b 15 1 then
      drop ((s.bump (F.HEAD_HCRC_BAD_count n) 1).put (F.HEAD_ERR_hcrc n) 1)
    else if 16 ≤ pkt.length ∧ s.packetFits n pt (b 1 1) tag (b 4 2) (b 6 2) (b 8 2) plen (b 14 1 = 0 && (!crcOk || payloadReserved pt payload)) = false then
      drop ((s.bump (F.HEAD_LEN_BAD_count n) 1).put (F.HEAD_ERR_len n) 1)
    else if framed = false ∨ pkt.length ≠ 16 + plen + 8 then
      drop ((s.bump (F.HEAD_FRAMING_count n) 1).put (F.HEAD_ERR_framing n) 1)
    else if crcOk = false ∧ pt ≠ 2 then
      drop ((s.bump (F.HEAD_PCRC_BAD_count n) 1).put (F.HEAD_ERR_pcrc n) 1)
    else
    let s := if crcOk then s else s.put (F.HEAD_ERR_pcrc n) 1
    if pt = 4 then (if st = 3 then s.capabilityOp n payload else s)
    else if st ≠ 4 then (if pt ≤ 3 then (s.bump (F.HEAD_LATE_DROP_count n) 1).lateNote n v tag pt else s)
    else if pt = 5 then s.ackOp n (beAt payload 0 2) (beAt payload 2 1) (beAt payload 4 2)
    else if pt = 1 then s.frameStartOp n v tag t (frameStartOf payload)
    else if (s.sensor (s.primary n) v).dropped.contains tag && (s.packetFrame n v tag).isNone then
      (if pt = 3 then s.droppedEnd n v tag else s)
    else match s.packetFrame n v tag with
      | some (c, _) =>
        if pt = 2 then s.lineOp n c tag (b 4 2) (b 6 2) (b 8 2) payload crcOk
        else s.frameEndOp n c tag (beAt payload 0 2)
      | none => (if pt = 2 then s.bump (F.HEAD_LATE_DROP_count n) 1 else s).lateNote n v tag pt
  else s

/-- CAPABILITY: a packet of type 0x04. -/
def execCapability (port t : Nat) (rest : List Byte) (s : State) : Host.Outcome State Fault Refusal :=
  done (s.headReceive (port % 8) t (0x04#8 :: rest) true)

/-- FRAME_START: a packet of type 0x01. -/
def execFrameStart (port t : Nat) (rest : List Byte) (s : State) : Host.Outcome State Fault Refusal :=
  done (s.headReceive (port % 8) t (0x01#8 :: rest) true)

/-- LINE: a packet of type 0x02. -/
def execLine (port t : Nat) (rest : List Byte) (s : State) : Host.Outcome State Fault Refusal :=
  done (s.headReceive (port % 8) t (0x02#8 :: rest) true)

/-- FRAME_END: a packet of type 0x03. -/
def execFrameEnd (port t : Nat) (rest : List Byte) (s : State) : Host.Outcome State Fault Refusal :=
  done (s.headReceive (port % 8) t (0x03#8 :: rest) true)

/-- ACK: a packet of type 0x05. -/
def execAck (port t : Nat) (rest : List Byte) (s : State) : Host.Outcome State Fault Refusal :=
  done (s.headReceive (port % 8) t (0x05#8 :: rest) true)

/-- BAD_HEAD_PACKET: any packet, with its framing. -/
def execBadHeadPacket (port t : Nat) (pkt : List Byte) (framed : Bool) (s : State) : Host.Outcome State Fault Refusal :=
  done (s.headReceive (port % 8) t pkt framed)

/-- ACK_TIMEOUT: a resend, or NO_ACK after three (R151). -/
def execAckTimeout (port : Nat) (s : State) : Host.Outcome State Fault Refusal :=
  let n := port % 8
  let p := s.port n
  done (match p.sent with
    | some (c, k) =>
      if s.held .head then s
      else if k < 4 then s.expSend n c (k + 1)
      else ((s.setPort n { p with sent := none }).cmdState n c 6 c.target).expPump n
    | none => s)

/-- The head ingress deadline of an open frame (R92 kind 1, R147 event 2); `also` names the other closing events of the
same cycle (R148). [assumption 22, DEDUCED] -/
def State.ingressDeadline (s : State) (c tag also : Nat) : State :=
  match s.openFrame c tag, s.boundary 1 c with
  | some f, some d => (s.reach (f.sof + d)).closeEvent c tag (2 ||| (also &&& 5))
  | _, _ => s

/-- INGRESS_DEADLINE. -/
def execIngressDeadline (ctx tag also : Nat) (s : State) : Host.Outcome State Fault Refusal :=
  done (s.ingressDeadline (ctx % 16) tag also)

end Sys2Proof.Machine
end

