-- ==== Sys2Proof/Machine/Dram.lean ====
section
/-! DEFINITION. Chapter 12, the DDR5 controllers: the scheduler of one subchannel, error correction and poison, refresh,
row protection, self-refresh and patrol scrub. -/
namespace Sys2Proof.Machine

/-- The number of configured channels (R468, R491). [assumption 54, DEDUCED] -/
def State.channels (s : State) : Nat := 2 ^ s.fld F.MEMC_CFG_channels

/-- The channel of a DRAM byte address (R468). -/
def State.channelOf (s : State) (a : Nat) : Nat := (a >>> 8) % s.channels

/-- The channel-local address (R468). -/
def State.localAddr (s : State) (a : Nat) : Nat := (((a >>> 8) / s.channels) <<< 8) + a % 256

/-- The subchannel of a DRAM byte address (R468). -/
def subchannelOf (a : Nat) : Nat := (a >>> 6) % 2

/-- A channel with nothing queued. -/
def Channel.idle : Channel := ⟨[], [], 0, 0, 0, 0, false, [], 0⟩

/-- A channel's state. -/
def State.chan (s : State) (c : Nat) : Channel := mapGet Channel.idle s.memc.chans c

/-- A channel's state changed. -/
def State.setChan (s : State) (c : Nat) (x : Channel) : State :=
  { s with memc := { s.memc with chans := mapSet s.memc.chans c x } }

/-- A channel that has a request is awake, and its idle time begins again (R479). -/
def State.wakeChan (s : State) (c : Nat) : State := s.setChan c { s.chan c with lastReq := s.nowNs, clockStopped := false }

/-- The lines (address / 64) that a range touches. -/
def linesOf (a n : Nat) : List Nat := if n = 0 then [] else List.range' (a / 64) ((a + n - 1) / 64 - a / 64 + 1)

/-- The channels that a range touches (R468). -/
def State.chansOf (s : State) (a n : Nat) : List Nat :=
  if n = 0 then [] else (List.range (min s.channels ((a + n - 1) / 256 - a / 256 + 1))).map (fun i => (a / 256 + i) % s.channels)

/-- The service class of an address: that of the DRAM_REGION that contains it (R474); BACKGROUND outside every region.
[assumption 13, DEDUCED] -/
def State.dramClass (s : State) (a : Nat) : Nat :=
  match (dramRegions s.bodies).find? (fun r => decide (r.base ≤ a) && decide (a < r.base + r.size)) with
  | some r => r.cls
  | none => 3

/-- The age limit of a class in ns; values below 100 act as 100 (R475, R490). LIVE has none. -/
def State.ageLimit (s : State) : Nat → Option Nat
  | 1 => some (max 100 (s.fld F.MEMC_AGE_BULK_ns))
  | 2 => some (max 100 (s.fld F.MEMC_AGE_HOST_ns))
  | 3 => some (max 100 (s.fld F.MEMC_AGE_BG_ns))
  | _ => none

/-- An error recorded on a channel (R481, R491). [assumption 14, DEDUCED] -/
def State.dramErr (s : State) (a : Nat) (ue scrub : Bool) : State :=
  let c := s.channelOf a
  let s := s.wr (R.MEMC_x_ERR_LO c) (a % 2 ^ 32 / 64 * 64)
  s.wr (R.MEMC_x_ERR_HI c) ((a >>> 32) % 64 + (if ue then 64 else 0) + (if scrub then 128 else 0) + 256 * subchannelOf a)

/-- A correctable error: counted, reported, and its write-back scheduled (R480). [assumption 14, DEDUCED] -/
def State.dramCorrected (s : State) (a : Nat) (scrub : Bool) : State :=
  let c := s.channelOf a
  let s := (s.bump (F.MEMC_x_CE_count c) 1).dramErr a false scrub
  let s := s.put ⟨R.MEMC_EVT, c, c⟩ 1
  { s with memc := { s.memc with writeBack := s.memc.writeBack ++ [(a / 64, scrub)] } }

/-- An uncorrectable error: the line takes the poison mark and the error is recorded (R481). [assumption 14, DEDUCED] -/
def State.dramUncorrectable (s : State) (a : Nat) (scrub : Bool) : State :=
  let c := s.channelOf a
  let s := (s.bump (F.MEMC_x_UE_count c) 1).dramErr a true scrub
  let s := s.put ⟨R.MEMC_EVT, 8 + c, 8 + c⟩ 1
  { s with memc := { s.memc with poison := setAdd s.memc.poison (a / 64) } }

/-- What a read of a line finds: a line with the poison mark reads uncorrectable whatever the operand says. -/
def State.dramCheck (s : State) (a : Nat) (e : EccResult) : State :=
  if s.memc.poison.contains (a / 64) then s.dramUncorrectable a false
  else match e with
    | .clean => s
    | .correctable => s.dramCorrected a false
    | .uncorrectable => s.dramUncorrectable a false

/-- A request of several lines reaches the controllers as one request a line, each one burst (R468).
[assumption 13, DEDUCED] -/
def lineReqs (r : DramReq) : List DramReq :=
  (linesOf r.addr r.len).map (fun l =>
    let a := max r.addr (64 * l)
    let n := min (r.addr + r.len) (64 * l + 64) - a
    { r with addr := a, len := n, data := r.data.map (fun d => (d.drop (a - r.addr)).take n) })

/-- A request arrives at its channel controller: a sleeping channel wakes (R479); it takes its region's class (R474); an
earlier request to the same line takes its class when that is higher (R476). [assumption 13, DEDUCED] -/
def State.dramArrive (s : State) (r : DramReq) : State :=
  let c := s.channelOf r.addr
  let s := s.wakeChan c
  let x := s.chan c
  let r := { r with cls := s.dramClass r.addr, since := s.nowNs }
  let raised := x.queue.map (fun q => if q.addr / 64 = r.addr / 64 then { q with cls := min q.cls r.cls } else q)
  s.setChan c { x with queue := raised ++ [r] }

/-- The request a command slot issues: of those whose line has no earlier request waiting (R476) and that DRAM timing
allows now, the oldest of the highest class (R474). [assumption 13, DEDUCED] -/
def pickReq (q : List DramReq) (sub : Nat) (notAllowed : List Nat) : Option DramReq :=
  let free := (q.zipIdx.filter (fun e =>
      subchannelOf e.1.addr = sub && !notAllowed.contains e.1.id &&
      !(q.take e.2).any (fun p => p.addr / 64 = e.1.addr / 64))).map (fun e => e.1)
  [0, 1, 2, 3].findSome? (fun c => free.find? (fun r => r.cls = c))

/-- One ACTIVATE in a bank's tracker (R478): the tracker after it, and whether a row has reached the threshold.
[assumption 54, DEDUCED] -/
def trackActivate (t : List TrackEntry) (row threshold : Nat) : List TrackEntry × Bool :=
  match t.find? (fun e => e.row = row) with
  | some e =>
    if threshold ≤ e.count + 1 then (t.map (fun f => if f.row = row then ⟨row, 0⟩ else f), true)
    else (t.map (fun f => if f.row = row then ⟨row, f.count + 1⟩ else f), false)
  | none =>
    if t.length < 16 then (t ++ [⟨row, 1⟩], false)
    else ((t.map (fun f => ⟨f.row, f.count - 1⟩)).filter (fun f => decide (0 < f.count)), false)

/-- One ACTIVATE of a bank of a channel: whether its row has reached the threshold (R478). A Refresh Management command goes
out when the bank's rolling activates require it. [assumption 54, PRESUMED] -/
def State.activateRow (s : State) (c bank row : Nat) : Bool × State :=
  let x := s.chan c
  let r := trackActivate (mapGet [] x.trackers bank) row (max 512 (s.fld F.MEMC_TRACKER_threshold))
  let n := mapGet 0 x.raa bank + 1
  let rfm := s.bit F.MEMC_TRACKER_rfm && Config.rfmLimit != 0 && decide (Config.rfmLimit ≤ n)
  let x := { x with
    trackers := mapSet x.trackers bank r.1
    raa := mapSet x.raa bank (if rfm then n - Config.rfmLimit else n)
    rfms := if rfm then x.rfms + 1 else x.rfms }
  (r.2, s.setChan c x)

/-- The rows that are refreshed when a row reaches the threshold, by ACTIVATE and PRECHARGE (R478). Row 0 has none below. -/
def neighbours (row : Nat) : List Nat :=
  (if 2 ≤ row then [row - 2] else []) ++ (if 1 ≤ row then [row - 1] else []) ++ [row + 1, row + 2]

/-- ACTIVATEs of a bank one after another (R478): the neighbours of a row that reaches the threshold are refreshed before
the row's next ACTIVATE, and those ACTIVATEs count as any other. `fuel` bounds their number. [assumption 54, DEDUCED] -/
def State.activateRows : Nat → State → Nat → Nat → List Nat → State
  | 0, s, _, _, _ => s
  | _, s, _, _, [] => s
  | fuel + 1, s, c, bank, row :: rows =>
    let r := s.activateRow c bank row
    if r.1 then (r.2.bump (F.MEMC_x_NBR_REFRESH_count c) 1).activateRows fuel c bank (rows ++ neighbours row)
    else r.2.activateRows fuel c bank rows

/-- An ACTIVATE of a bank of a channel, with the neighbour refreshes that it leads to (R478). Of 16 tracked rows no more than
16 can stand at the threshold, and 128 ACTIVATEs cover what those lead to. [assumption 54, DEDUCED] -/
def State.activate (s : State) (c bank row : Nat) : State := s.activateRows 128 c bank [row]

/-- The poisoned lines of a list are read: each is recorded as an uncorrectable error (R481). -/
def State.meetPoison (s : State) (lines : List Nat) : State :=
  (lines.filter (fun l => s.memc.poison.contains l)).foldl (fun (s : State) l => s.dramUncorrectable (64 * l) false) s

/-- The lines that a write covers in part, which are read, merged and written back (R476). -/
def mergedLines (a n : Nat) : List Nat := (linesOf a n).filter (fun l => decide (64 * l < a) || decide (a + n < 64 * l + 64))

/-- A request issues to the DRAM, its line's ECC check finding `e`. A write narrower than 64 bytes reads its line, merges and
writes it back; a merge into a poisoned line stays uncorrectable (R476, R481). -/
def State.dramIssue (s : State) (r : DramReq) (e : EccResult) : State :=
  match r.data with
  | some d =>
    let s := if mergedLines r.addr d.length = [] then s else s.dramCheck r.addr e
    s.dramStore r.addr d
  | none =>
    let s := s.dramCheck r.addr e
    s.emit (.dramData r.id (s.dramRead r.addr r.len) (s.dramPoisoned r.addr r.len))

/-! ### Accesses of engines and of the host (R474, R476, R479, R481)

An access that no command slot names reaches its controllers, waits its turn and issues at once. -/

/-- Whether a request shares a line with a range. -/
def reqMeets (r : DramReq) (a n : Nat) : Bool :=
  decide (64 * (r.addr / 64) < a + n) && decide (a < 64 * ((r.addr + r.len - 1) / 64) + 64)

/-- An access to a range reaches its channels: they wake, and the requests queued for its lines issue first, in the order in
which they came (R476, R479). [assumption 13, DEDUCED] -/
def State.dramTurn (s : State) (a n : Nat) : State :=
  (s.chansOf a n).foldl (fun (s : State) c =>
    let s := s.wakeChan c
    let x := s.chan c
    let s := s.setChan c { x with queue := x.queue.filter (fun r => !reqMeets r a n) }
    (x.queue.filter (fun r => reqMeets r a n)).foldl (fun (s : State) r => s.dramIssue r .clean) s) s

/-- Every queued request issues, each channel's in the order in which they came. -/
def State.dramAllTurn (s : State) : State :=
  s.memc.chans.foldl (fun (s : State) e =>
    let s := s.setChan e.1 { s.chan e.1 with queue := [] }
    e.2.queue.foldl (fun (s : State) r => s.dramIssue r .clean) s) s

/-- Bytes that an engine or the host writes to DRAM. -/
def State.dramWrite (s : State) (a : Nat) (d : List Byte) : State :=
  let s := s.dramTurn a d.length
  (s.meetPoison (mergedLines a d.length)).dramStore a d

/-- Bytes that an engine or the host reads from DRAM, whether they are poisoned, and the state with what the read records
(R481). -/
def State.dramFetch (s : State) (a n : Nat) : List Byte × Bool × State :=
  let s := s.dramTurn a n
  (s.dramRead a n, s.dramPoisoned a n, s.meetPoison (linesOf a n))

/-- The DRAM ranges that an engine reads: whether any of their lines is poisoned, each such line recorded (R481). -/
def State.engineReads (s : State) (reads : List (Nat × Nat)) : Bool × State :=
  let s := reads.foldl (fun (s : State) r => s.dramTurn r.1 r.2) s
  let bad := if s.memc.poison.isEmpty then [] else
    s.memc.poison.filter (fun l => reads.any (fun r => decide (64 * l < r.1 + r.2) && decide (r.1 < 64 * l + 64)))
  (!bad.isEmpty, bad.foldl (fun s l => s.dramUncorrectable (64 * l) false) s)

/-- The oldest queued entry reaches DRAM (R99, R100). [assumption 13, DEDUCED] -/
def State.drainRing (s : State) : State :=
  match s.jnl.ringQ with
  | [] => s
  | e :: r =>
    let s := { s with jnl := { s.jnl with ringQ := r } }
    if s.bit F.RIG_JNL_CTRL_enable then s.dramWrite (s.ringAddr e.seq) e.bytes else s

/-- One command slot of a subchannel (R474 to R476); the oldest journal entry on its way to the ring goes with it.
[assumption 13, DEDUCED] -/
def State.dramSlot (s : State) (arrivals : List DramReq) (ch sub : Nat) (notAllowed : List Nat) (e : EccResult)
    (row : Option (Nat × Nat)) : State :=
  if s.runs .memc && s.bit F.MEMC_STATUS_ready then
    let s := s.drainRing
    let s := ((arrivals.filter (fun r => decide (r.addr + r.len ≤ s.dramSize))).flatMap lineReqs).foldl State.dramArrive s
    let x := s.chan ch
    match pickReq x.queue sub notAllowed with
    | none => s
    | some r =>
      let s := s.setChan ch { x with queue := x.queue.filter (fun q => q != r), lastReq := s.nowNs }
      let s := match row with
        | some (b, w) => s.activate ch b w
        | none => s
      s.dramIssue r e
  else s

/-- DRAM_REQUEST. -/
def execDramRequest (arrivals : List DramReq) (ch sub : Nat) (notAllowed : List Nat) (ecc : EccResult)
    (row : Option (Nat × Nat)) (s : State) : Host.Outcome State Fault Refusal :=
  done (s.dramSlot arrivals (ch % 8) (sub % 2) notAllowed ecc row)

/-- A request that has waited longer than the limit of its class is promoted one class and its age restarts (R475). -/
def State.promote (s : State) (ch id : Nat) : State :=
  let x := s.chan ch
  match x.queue.find? (fun r => r.id = id) with
  | none => s
  | some r =>
    match s.ageLimit r.cls with
    | none => s
    | some l =>
      let s := s.reach (r.since + l)
      s.setChan ch { x with queue := x.queue.map (fun q => if q = r then { q with cls := q.cls - 1, since := s.nowNs } else q) }

/-- AGE_PROMOTION. -/
def execAgePromotion (ch id : Nat) (s : State) : Host.Outcome State Fault Refusal := done (s.promote (ch % 8) id)

/-- A corrected line is written back, if no newer write cancelled it (R480, R482). The array already holds the corrected
data, so only the pending write-back ends. -/
def State.lineWriteBack (s : State) (line : Nat) : State :=
  { s with memc := { s.memc with writeBack := s.memc.writeBack.filter (fun l => l.1 != line) } }

/-- ECC_WRITE_BACK. -/
def execEccWriteBack (line : Nat) (s : State) : Host.Outcome State Fault Refusal := done (s.lineWriteBack line)

/-- The refresh interval of a channel in units of 10 ns: 3.9 µs, or 1.95 µs while hot (R477). -/
def State.refreshInterval (s : State) (c : Nat) : Nat := if s.bit (F.MEMC_x_STATUS_hot c) then 195 else 390

/-- REFRESH: one all-bank refresh, which neither reads nor writes the array (R477). -/
def execRefresh (ch : Nat) (s : State) : Host.Outcome State Fault Refusal :=
  let x := s.chan (ch % 8)
  done (if s.runs .memc then s.setChan (ch % 8) { x with
      refreshes := x.refreshes + 1
      raa := x.raa.map (fun e => (e.1, e.2 - Config.rfmPerRefresh)) } else s)

/-- MR4_READ: the interval halves above 85 °C and is whole again below (R477). -/
def execMr4Read (ch : Nat) (hot : Bool) (s : State) : Host.Outcome State Fault Refusal :=
  done (if s.runs .memc then s.flag (F.MEMC_x_STATUS_hot (ch % 8)) hot else s)

/-- TRACKER_CLEAR: every 32 ms every tracker is cleared (R478). -/
def execTrackerClear (s : State) : Host.Outcome State Fault Refusal :=
  done { s with memc := { s.memc with chans := s.memc.chans.map (fun c => (c.1, { c.2 with trackers := [] })) } }

/-- ZQ_CALIBRATION: neither reads nor writes the array (R473). -/
def execZqCalibration (ch : Nat) (s : State) : Host.Outcome State Fault Refusal :=
  let x := s.chan (ch % 8)
  done (if s.runs .memc then s.setChan (ch % 8) { x with zqs := x.zqs + 1 } else s)

/-- DQS_DRIFT: neither reads nor writes the array (R473). -/
def execDqsDrift (ch : Nat) (s : State) : Host.Outcome State Fault Refusal :=
  let x := s.chan (ch % 8)
  done (if s.runs .memc then s.setChan (ch % 8) { x with dqs := x.dqs + 1 } else s)

/-- A configured channel with no queued request for `idle_us` enters self-refresh; `idle_us` 0 disables it (R479). -/
def State.selfRefresh (s : State) (c : Nat) : State :=
  let idle := s.fld F.MEMC_SR_idle_us
  let x := s.chan c
  if s.runs .memc && s.bit F.MEMC_CFG_enable && decide (c < s.channels) && idle != 0 && x.queue.isEmpty && !x.clockStopped then
    let s := s.reach (x.lastReq + 1000 * idle)
    (s.setChan c { x with clockStopped := true }).bump (F.MEMC_x_SR_ENTRIES_count c) 1
  else s

/-- SELF_REFRESH_ENTRY. -/
def execSelfRefreshEntry (ch : Nat) (s : State) : Host.Outcome State Fault Refusal := done (s.selfRefresh (ch % 8))

/-- Whether an address lies in a DRAM_REGION that sets TEST_EXEMPT (R482). -/
def State.scrubExempt (s : State) (a : Nat) : Bool :=
  (dramRegions s.bodies).any (fun r => r.exempt && decide (r.base ≤ a) && decide (a < r.base + r.size))

/-- The MiB of a channel (R467, R468). -/
def State.chanMib (s : State) : Nat := s.dramSize / s.channels / 1048576

/-- Whether a scrub batch of a channel reads a line: the line lies in its MiB and in no exempt range (R482). -/
def State.scrubReads (s : State) (c k line : Nat) : Bool :=
  s.channelOf (64 * line) = c && s.localAddr (64 * line) / 1048576 = k && !s.scrubExempt (64 * line)

/-- One batch of 1 MiB of a channel (R482), which wakes once for it. Lines in TEST_EXEMPT ranges are skipped; an uncorrectable
line, newly found or poisoned before, is recorded with `scrub` set and not written. A channel whose MiB are all read waits for
the others; MEMC_SCRUB_POS counts the MiB of the pass, and a pass that reaches the capacity is reported and begins again at
address 0. [assumption 14, DEDUCED] -/
def State.scrubBatch (s : State) (c : Nat) (found : List (Nat × EccResult)) : State :=
  let k := mapGet 0 s.memc.scrubAt c
  if s.runs .memc && s.bit F.MEMC_STATUS_ready && s.fld F.MEMC_SCRUB_hours != 0 && decide (c < s.channels) && decide (k < s.chanMib) then
    let s := s.wakeChan c
    let here := found.filter (fun e => s.scrubReads c k e.1 && !s.memc.poison.contains e.1)
    let s := (s.memc.poison.filter (s.scrubReads c k)).foldl (fun (s : State) l => s.dramUncorrectable (64 * l) true) s
    let s := here.foldl (fun (s : State) e => match e.2 with
      | .clean => s
      | .correctable => s.dramCorrected (64 * e.1) true
      | .uncorrectable => s.dramUncorrectable (64 * e.1) true) s
    let s : State := { s with memc := { s.memc with scrubAt := mapSet s.memc.scrubAt c (k + 1) } }
    let pos : Nat := s.rd R.MEMC_SCRUB_POS + 1
    if s.chanMib * s.channels ≤ pos then
      { (s.wr R.MEMC_SCRUB_POS 0).put F.MEMC_EVT_scrub_pass 1 with memc := { s.memc with scrubAt := [] } }
    else s.wr R.MEMC_SCRUB_POS pos
  else s

/-- PATROL_SCRUB. -/
def execPatrolScrub (ch : Nat) (found : List (Nat × EccResult)) (s : State) : Host.Outcome State Fault Refusal :=
  done (s.scrubBatch (ch % 8) found)

/-- A write of MEMC_SCRUB: a later non-zero value after 0 restarts the pass at address 0 (R482). -/
def State.scrubWrite (s : State) (v : Nat) : State :=
  let was := s.fld F.MEMC_SCRUB_hours
  let s := s.regWrite R.MEMC_SCRUB v
  if was = 0 ∧ s.fld F.MEMC_SCRUB_hours ≠ 0 then
    { s.wr R.MEMC_SCRUB_POS 0 with memc := { s.memc with scrubAt := [] } }
  else s

end Sys2Proof.Machine
end

