-- ==== Sys2Proof/Machine/Crypto.lean ====
section
/-! DEFINITION. The public algorithms that the spec names: SHA-384, ECDSA and ECDH over P-384 (R27, R544, R548),
HMAC and HKDF with SHA-384 (R547), AES-256, AES key wrap (RFC 3394) and AES-XTS (R461). -/
namespace Sys2Proof.Machine

/-! ## SHA-384 -/

/-- Right rotation of a 64-bit word. -/
def rotr64 (n x : Nat) : Nat := ((x >>> n) ||| (x <<< (64 - n))) % 2 ^ 64

/-- The largest `r` below `2 ^ k`, with the bits given by `r` so far, whose `e`-th power is at most `n`. -/
def rootBits (e n : Nat) : Nat → Nat → Nat
  | 0, r => r
  | k + 1, r => rootBits e n k (if (r + 2 ^ k) ^ e ≤ n then r + 2 ^ k else r)

/-- The first 64 bits of the fraction of the `e`-th root of a number below 512. -/
def rootFraction (e n : Nat) : Nat := rootBits e (n * 2 ^ (64 * e)) 73 0 % 2 ^ 64

/-- The primes up to the 80th, 409; one below 21² has no divisor from 2 to 20 but itself. -/
def shaPrimes : List Nat :=
  (List.range 410).filter (fun p => decide (2 ≤ p) && (List.range 21).all (fun d => decide (d < 2) || d = p || p % d != 0))

/-- The round constants: fractions of the cube roots of the first 80 primes. -/
def shaConstants : List Nat := shaPrimes.map (rootFraction 3)

/-- The initial hash value of SHA-384: fractions of the square roots of the ninth to sixteenth primes. -/
def sha384Init : List Nat := ((shaPrimes.drop 8).take 8).map (rootFraction 2)

/-- The next `n` words of the message schedule; the list holds the last 16, newest first. -/
def shaSchedule : Nat → List Nat → List Nat → List Nat
  | 0, _, acc => acc.reverse
  | n + 1, w, acc =>
    let w2 := w.getD 1 0
    let w7 := w.getD 6 0
    let w15 := w.getD 14 0
    let w16 := w.getD 15 0
    let s0 := rotr64 1 w15 ^^^ rotr64 8 w15 ^^^ (w15 >>> 7)
    let s1 := rotr64 19 w2 ^^^ rotr64 61 w2 ^^^ (w2 >>> 6)
    let x := (s1 + w7 + s0 + w16) % 2 ^ 64
    shaSchedule n (x :: w.take 15) (x :: acc)

/-- One round over the working variables a to h. -/
def shaRound (v : List Nat) (kw : Nat × Nat) : List Nat :=
  match v with
  | [a, b, c, d, e, f, g, h] =>
    let s1 := rotr64 14 e ^^^ rotr64 18 e ^^^ rotr64 41 e
    let ch := (e &&& f) ^^^ ((e ^^^ 0xFFFFFFFFFFFFFFFF) &&& g)
    let t1 := h + s1 + ch + kw.1 + kw.2
    let s0 := rotr64 28 a ^^^ rotr64 34 a ^^^ rotr64 39 a
    let maj := (a &&& b) ^^^ (a &&& c) ^^^ (b &&& c)
    [(t1 + s0 + maj) % 2 ^ 64, a, b, c, (d + t1) % 2 ^ 64, e, f, g]
  | _ => v

/-- Bytes in groups of `k`. -/
def groupsOf (k : Nat) : Nat → List Byte → List (List Byte)
  | 0, _ => []
  | n + 1, l => l.take k :: groupsOf k n (l.drop k)

/-- One 128-byte block. -/
def shaBlock (h : List Nat) (blk : List Byte) : List Nat :=
  let w := (groupsOf 8 16 blk).map beNat
  let all := w ++ shaSchedule 64 w.reverse []
  List.zipWith (fun a b => (a + b) % 2 ^ 64) h ((shaConstants.zip all).foldl shaRound h)

/-- The padded message: 0x80, zero bytes, and the length in bits as 16 bytes. -/
def shaPad (m : List Byte) : List Byte :=
  let n := m.length
  m ++ 0x80 :: zeroBytes ((111 + 128 - n % 128) % 128) ++ beBytes 16 (8 * n)

/-- SHA-384: 48 bytes. [assumption 24, DEDUCED] -/
def sha384 (m : List Byte) : List Byte :=
  let p := shaPad m
  (((groupsOf 128 (p.length / 128) p).foldl shaBlock sha384Init).flatMap (beBytes 8)).take 48

/-! ## HMAC and HKDF -/

/-- HMAC with SHA-384. -/
def hmac384 (key m : List Byte) : List Byte :=
  let k := fitBytes 128 (if 128 < key.length then sha384 key else key)
  sha384 (k.map (· ^^^ 0x5C) ++ sha384 (k.map (· ^^^ 0x36) ++ m))

/-- The first block of HKDF-SHA-384 (RFC 5869), which is all that a 32-byte key needs. -/
def hkdf384 (ikm salt info : List Byte) : List Byte :=
  hmac384 (hmac384 (if salt = [] then zeroBytes 48 else salt) ikm) (info ++ [1])

/-! ## P-384 -/

/-- The field prime. -/
def p384P : Nat := 2 ^ 384 - 2 ^ 128 - 2 ^ 96 + 2 ^ 32 - 1

/-- The group order. -/
def p384N : Nat :=
  0xffffffffffffffffffffffffffffffffffffffffffffffffc7634d81f4372ddf581a0db248b0a77aecec196accc52973

/-- The curve constant b. -/
def p384B : Nat :=
  0xb3312fa7e23ee7e4988e056be3f82d19181d9c6efe8141120314088f5013875ac656398d8a2ed19d2a85c8edd3ec2aef

/-- The base point. -/
def p384Gx : Nat :=
  0xaa87ca22be8b05378eb1c71ef320ad746e1d3b628ba79b9859f741e082542a385502f25dbf55296c3a545e3872760ab7

def p384Gy : Nat :=
  0x3617de4a96262c6f5d9e98bf9292dc29f8f41dbd289a147ce9da3113b5f0b8c00a60b1ce1d7e819d7a431d7c90ea0e5f

/-- `k` squarings and multiplications of a modular power, from the top bit. -/
def powModBits (m b e : Nat) : Nat → Nat → Nat
  | 0, r => r
  | k + 1, r =>
    let r2 := r * r % m
    powModBits m b e k (if e.testBit k then r2 * b % m else r2)

/-- `b ^ e` modulo `m`. -/
def powMod (m b e : Nat) : Nat := powModBits m (b % m) e 384 (1 % m)

/-- The inverse modulo a prime. -/
def invMod (m a : Nat) : Nat := powMod m a (m - 2)

/-- A difference modulo the prime. -/
def subP (a b : Nat) : Nat := (a + p384P - b % p384P) % p384P

/-- A point in Jacobian coordinates; z = 0 is the point at infinity. -/
structure Jac where
  x : Nat
  y : Nat
  z : Nat
deriving DecidableEq, Repr

/-- Doubling. -/
def Jac.dbl (p : Jac) : Jac :=
  if p.z = 0 ∨ p.y = 0 then ⟨1, 1, 0⟩
  else
    let yy := p.y * p.y % p384P
    let s := 4 * p.x * yy % p384P
    let zz := p.z * p.z % p384P
    let m := 3 * (subP p.x zz * ((p.x + zz) % p384P) % p384P) % p384P
    let x := subP (m * m % p384P) (2 * s)
    ⟨x, subP (m * subP s x % p384P) (8 * (yy * yy % p384P)), 2 * p.y * p.z % p384P⟩

/-- Addition. -/
def Jac.add (p q : Jac) : Jac :=
  if p.z = 0 then q else if q.z = 0 then p
  else
    let z1 := p.z * p.z % p384P
    let z2 := q.z * q.z % p384P
    let u1 := p.x * z2 % p384P
    let u2 := q.x * z1 % p384P
    let s1 := p.y * (z2 * q.z % p384P) % p384P
    let s2 := q.y * (z1 * p.z % p384P) % p384P
    if u1 = u2 then (if s1 = s2 then p.dbl else ⟨1, 1, 0⟩)
    else
      let h := subP u2 u1
      let r := subP s2 s1
      let hh := h * h % p384P
      let hhh := h * hh % p384P
      let v := u1 * hh % p384P
      let x := subP (subP (r * r % p384P) hhh) (2 * v)
      ⟨x, subP (r * subP v x % p384P) (s1 * hhh), h * (p.z * q.z % p384P) % p384P⟩

/-- `k` bits of a scalar multiplication, from the top bit. -/
def Jac.mulBits (p : Jac) (e : Nat) : Nat → Jac → Jac
  | 0, r => r
  | k + 1, r => p.mulBits e k (if e.testBit k then r.dbl.add p else r.dbl)

/-- A scalar multiple. -/
def Jac.mul (p : Jac) (e : Nat) : Jac := p.mulBits e 384 ⟨1, 1, 0⟩

/-- The affine x coordinate. -/
def Jac.affineX (p : Jac) : Nat :=
  let zi := invMod p384P p.z
  p.x * (zi * zi % p384P) % p384P

/-- The affine y coordinate. -/
def Jac.affineY (p : Jac) : Nat :=
  let zi := invMod p384P p.z
  p.y * (zi * (zi * zi % p384P) % p384P) % p384P

/-- Whether a pair lies on the curve. -/
def onCurve (x y : Nat) : Bool :=
  decide (x < p384P) && decide (y < p384P) &&
    decide (y * y % p384P = subP ((x * x % p384P) * x % p384P + p384B) (3 * x))

/-- A public key as the part holds it: x and then y, each 48 bytes little-endian (R546). -/
def keyPoint (k : List Byte) : Jac := ⟨leAt k 0 48, leAt k 48 48, 1⟩

/-- ECDSA P-384 verification of a SHA-384 digest; r and s as integers (R27). [assumption 24, DEDUCED] -/
def ecdsaVerify (key : List Byte) (digest : List Byte) (r s : Nat) : Bool :=
  let q := keyPoint key
  if onCurve q.x q.y ∧ 1 ≤ r ∧ r < p384N ∧ 1 ≤ s ∧ s < p384N then
    let w := invMod p384N s
    let u1 := beNat digest * w % p384N
    let u2 := r * w % p384N
    let p := (Jac.mul ⟨p384Gx, p384Gy, 1⟩ u1).add (q.mul u2)
    p.z ≠ 0 && p.affineX % p384N = r
  else false

/-- The ECDH x-coordinate of a private scalar and a public key, as 48 bytes most significant first.
[assumption 24, DEDUCED] -/
def ecdhX (secret : Nat) (key : List Byte) : List Byte := beBytes 48 ((keyPoint key).mul secret).affineX

/-- The public key of a private scalar, x and then y, each 48 bytes little-endian. -/
def publicKey (secret : Nat) : List Byte :=
  let p := Jac.mul ⟨p384Gx, p384Gy, 1⟩ secret
  leBytes 48 p.affineX ++ leBytes 48 p.affineY

/-! ## AES-256 -/

/-- Multiplication by x in GF(2^8). -/
def xtime (a : Nat) : Nat := if a < 128 then 2 * a else ((2 * a) % 256) ^^^ 0x1B

/-- `k` bits of a product in GF(2^8). -/
def gfMulBits : Nat → Nat → Nat → Nat → Nat
  | 0, _, _, r => r
  | k + 1, a, b, r => gfMulBits k (xtime a) (b / 2) (if b % 2 = 1 then r ^^^ a else r)

/-- A product in GF(2^8). -/
def gfMul (a b : Nat) : Nat := gfMulBits 8 a b 0

/-- `a` to the power 254, its inverse in GF(2^8). -/
def gfInv (a : Nat) : Nat :=
  let a2 := gfMul a a
  let a3 := gfMul a2 a
  let a6 := gfMul a3 a3
  let a12 := gfMul a6 a6
  let a15 := gfMul a12 a3
  let a30 := gfMul a15 a15
  let a60 := gfMul a30 a30
  let a120 := gfMul a60 a60
  let a126 := gfMul a120 a6
  let a127 := gfMul a126 a
  gfMul a127 a127

/-- Left rotation of a byte. -/
def rotl8 (n x : Nat) : Nat := ((x <<< n) ||| (x >>> (8 - n))) % 256

/-- The substitution of one byte. -/
def subByte (a : Nat) : Nat :=
  let b := gfInv a
  b ^^^ rotl8 1 b ^^^ rotl8 2 b ^^^ rotl8 3 b ^^^ rotl8 4 b ^^^ 0x63

/-- The inverse substitution. -/
def invSubByte (a : Nat) : Nat := gfInv (rotl8 1 a ^^^ rotl8 3 a ^^^ rotl8 6 a ^^^ 0x05)

/-- The next words of the key schedule; the list holds the last 8, newest first. -/
def aesSchedule : Nat → Nat → Nat → List (List Nat) → List (List Nat) → List (List Nat)
  | 0, _, _, _, acc => acc.reverse
  | n + 1, i, rc, w, acc =>
    let t := w.headD []
    let t := if i % 8 = 0 then
        match (t.drop 1 ++ t.take 1).map subByte with
        | a :: r => (a ^^^ rc) :: r
        | [] => []
      else if i % 8 = 4 then t.map subByte else t
    let x := List.zipWith (· ^^^ ·) t (w.getD 7 [])
    aesSchedule n (i + 1) (if i % 8 = 0 then xtime rc else rc) (x :: w.take 7) (x :: acc)

/-- The 15 round keys of AES-256, 16 bytes each. -/
def aesRoundKeys (key : List Byte) : List (List Nat) :=
  let w := (groupsOf 4 8 key).map (fun g => g.map (fun b => b.toNat))
  let all := w ++ aesSchedule 52 8 1 w.reverse []
  (List.range 15).map (fun r => (all.drop (4 * r)).take 4 |>.flatten)

/-- Rows shifted by `k` columns per row number (1 to encrypt, 3 to decrypt); bytes are column by column. -/
def shiftRows (k : Nat) (st : List Nat) : List Nat :=
  (List.range 16).map (fun i => st.getD ((i + 4 * (k * (i % 4))) % 16) 0)

/-- Columns mixed with the coefficients of their first row. -/
def mixColumns (c0 c1 c2 c3 : Nat) (st : List Nat) : List Nat :=
  (List.range 16).map (fun i =>
    let col := i / 4 * 4
    let g := fun j => st.getD (col + (i + j) % 4) 0
    gfMul c0 (g 0) ^^^ gfMul c1 (g 1) ^^^ gfMul c2 (g 2) ^^^ gfMul c3 (g 3))

/-- One block encrypted. -/
def aesEncBlock (rk : List (List Nat)) (blk : List Byte) : List Byte :=
  let add := List.zipWith (fun (a b : Nat) => a ^^^ b)
  let st := add (blk.map (fun b => b.toNat)) (rk.headD [])
  let st := ((rk.drop 1).take 13).foldl (fun st k => add (mixColumns 2 3 1 1 (shiftRows 1 (st.map subByte))) k) st
  (add (shiftRows 1 (st.map subByte)) (rk.getD 14 [])).map (BitVec.ofNat 8)

/-- One block decrypted. -/
def aesDecBlock (rk : List (List Nat)) (blk : List Byte) : List Byte :=
  let add := List.zipWith (fun (a b : Nat) => a ^^^ b)
  let st := add (blk.map (fun b => b.toNat)) (rk.getD 14 [])
  let st := (((rk.drop 1).take 13).reverse).foldl (fun st k =>
    mixColumns 14 11 13 9 (add ((shiftRows 3 st).map invSubByte) k)) st
  (add ((shiftRows 3 st).map invSubByte) (rk.headD [])).map (BitVec.ofNat 8)

/-! ## Key wrap (RFC 3394) -/

/-- The six passes of the wrap over the 64-bit blocks, `t` the step count. -/
def wrapSteps (rk : List (List Nat)) (n : Nat) : Nat → Nat → List Byte → List (List Byte) → List Byte × List (List Byte)
  | 0, _, a, r => (a, r)
  | k + 1, t, a, r =>
    let i := (t - 1) % n
    let b := aesEncBlock rk (a ++ r.getD i [])
    wrapSteps rk n k (t + 1) (beBytes 8 (beNat (b.take 8) ^^^ t)) (r.set i (b.drop 8))

/-- AES key wrap. [assumption 24, DEDUCED] -/
def aesWrap (kek plain : List Byte) : List Byte :=
  let rk := aesRoundKeys kek
  let n := plain.length / 8
  let p := wrapSteps rk n (6 * n) 1 (List.replicate 8 0xA6) (groupsOf 8 n plain)
  p.1 ++ p.2.flatten

/-- The passes of the unwrap, downwards. -/
def unwrapSteps (rk : List (List Nat)) (n : Nat) : Nat → List Byte → List (List Byte) → List Byte × List (List Byte)
  | 0, a, r => (a, r)
  | t + 1, a, r =>
    let i := t % n
    let b := aesDecBlock rk (beBytes 8 (beNat a ^^^ (t + 1)) ++ r.getD i [])
    unwrapSteps rk n t (b.take 8) (r.set i (b.drop 8))

/-- AES key unwrap; `none` when the integrity check fails. -/
def aesUnwrap (kek blob : List Byte) : Option (List Byte) :=
  let rk := aesRoundKeys kek
  let n := blob.length / 8 - 1
  let p := unwrapSteps rk n (6 * n) (blob.take 8) (groupsOf 8 n (blob.drop 8))
  if p.1 = List.replicate 8 0xA6 then some p.2.flatten else none

/-! ## XTS -/

/-- The next tweak: multiplication by x in GF(2^128), bytes little-endian. -/
def xtsNext (t : Nat) : Nat := if t < 2 ^ 127 then 2 * t else ((2 * t) % 2 ^ 128) ^^^ 0x87

/-- The blocks of a sector under successive tweaks. -/
def xtsBlocks (f : List Byte → List Byte) : Nat → Nat → List Byte → List Byte
  | 0, _, _ => []
  | n + 1, t, l =>
    let tw := leBytes 16 t
    xorBytes (f (xorBytes (l.take 16) tw)) tw ++ xtsBlocks f n (xtsNext t) (l.drop 16)

/-- AES-256-XTS encryption of a sector whose number is `tweak`, under a data key and a tweak key.
[assumption 24, DEDUCED] -/
def xtsEncrypt (k1 k2 : List Byte) (tweak : Nat) (l : List Byte) : List Byte :=
  xtsBlocks (aesEncBlock (aesRoundKeys k1)) (l.length / 16)
    (leNat (aesEncBlock (aesRoundKeys k2) (leBytes 16 tweak))) l

/-- AES-256-XTS decryption. -/
def xtsDecrypt (k1 k2 : List Byte) (tweak : Nat) (l : List Byte) : List Byte :=
  xtsBlocks (aesDecBlock (aesRoundKeys k1)) (l.length / 16)
    (leNat (aesEncBlock (aesRoundKeys k2) (leBytes 16 tweak))) l

end Sys2Proof.Machine
end

