-- ==== Sys2Proof/Machine/Image.lean ====
section
/-! DEFINITION. Chapter 01, the Aiwick image: its header, records, the checks of load steps 4 to 11 (R24 to R55, R57, R79)
and the merging of a fragment (R65). -/
namespace Sys2Proof.Machine

/-! ## Balls and functions (R39, R559, R560) -/

/-- The multi-function balls: `gp k` for GPk, `audio n` for the audio ball with index 3n + m (R559). -/
inductive MfBall where
  | gp (k : Nat)
  | audio (i : Nat)
deriving DecidableEq, Repr

/-- The multi-function ball at a grid position, if it is one (R559). -/
def mfBallAt (row col : Nat) : Option MfBall :=
  if 11 ≤ row ∧ row ≤ 15 ∧ 15 ≤ col ∧ col ≤ 32 then
    let s := 18 * (row - 11) + (col - 15)
    if 34 ≤ s ∧ s < 66 then some (.gp (s - 34))
    else if 66 ≤ s ∧ s < 90 then some (.audio (s - 66))
    else none
  else none

/-- Whether a ball offers a function code (R560). -/
def ballOffers (b : MfBall) (fn : Nat) : Bool :=
  match b with
  | .gp k =>
    fn = 0x0100 + k || fn = 0x0300 + k && decide (k < 32) || (k = 0 && fn = 0x0400) || (k = 1 && fn = 0x0401)
      || (k = 2 && fn = 0x0402)
  | .audio i => fn = 0x0200 + 4 * (i / 3) + i % 3 || (fn = 0x0300 + (i + 8) && decide (i + 8 < 32))

/-! ## Records -/

/-- The largest clock of an island in MHz. -/
def maxClock : Nat → Nat
  | 1 => 250 | 2 => 800 | 3 => 1600 | 4 => 1200 | 5 => 1000 | 6 => 1000 | 7 => 900 | 8 => 1000
  | 9 => 1100 | 10 => 1100 | 11 => 1200 | 12 => 1000 | 13 => 200 | _ => 0

/-- The number of contexts of an engine (R47). -/
def engineContexts : Nat → Nat
  | 9 => 16 | 10 => 32 | 11 => 64 | 12 => 16384 | _ => 0

/-- Whether bytes `a` to `a + n - 1` are zero. -/
def zeroAt (l : List Byte) (a n : Nat) : Bool := (slice l a n).all (· = 0)

/-- The capacity in bytes of a MEMC_CFG word (R467, R469); `none` for a word outside R467. [assumption 54, DEDUCED] -/
def memcCapacity (w : Nat) : Option Nat :=
  if bitsOf w 6 6 = 0 then (if bitsOf w 5 0 = 0 then some 0 else none)
  else
    let n := 2 ^ bitsOf w 1 0
    let gib := fun (k : Nat) => some (k * n * 2 ^ 30)
    match bitsOf w 2 2, bitsOf w 4 3, bitsOf w 5 5 with
    | 0, 0, 0 => gib 16
    | 0, 0, _ => gib 32
    | 0, 1, 0 => gib 24
    | 0, 2, 0 => gib 32
    | 1, 0, 0 => gib 8
    | 1, 0, _ => gib 16
    | 1, 1, 0 => gib 12
    | 1, 1, _ => gib 24
    | 1, 2, 0 => gib 16
    | 1, 2, _ => gib 32
    | _, _, _ => none

/-- The shape fields an engine permits (R161, R249, R277, R331). -/
def shapeLegal (engine a b f : Nat) : Bool :=
  match engine with
  | 9 => a % 16 = 0 && decide (16 ≤ a) && decide (a ≤ 16384) && b % 2 = 0 && decide (2 ≤ b) && decide (b ≤ 8192)
      && decide (f < 16) && decide (0 < f)
  | 10 => a % 2 = 0 && decide (2 ≤ a) && decide (a ≤ 16384) && b % 2 = 0 && decide (2 ≤ b) && decide (b ≤ 8192)
      && (if 128 ≤ f then decide (f < 144) else decide (1 ≤ f) && decide (f ≤ 3))
  | 11 =>
    decide (f < 16) &&
      (if f % 2 = 0 then
        bitsOf f 2 2 = 0 && a % 2 = 0 && decide (16 ≤ a) && decide (a ≤ 8192) && b % 2 = 0 && decide (16 ≤ b) && decide (b ≤ 4320)
      else decide (16 ≤ a) && decide (a ≤ 16888) && decide (16 ≤ b) && decide (b ≤ 16888) && decide (a * b ≤ 35651584))
  | 12 => decide (1 ≤ a) && decide (a ≤ 512) && decide (1 ≤ b) && decide (b ≤ 512) && decide (f < 2)
  | _ => false

/-- The content of a record of a known type whose fields pass their own rules; `l` is the whole record, `full` whether
the image is FULL, `cap` the DRAM capacity of its MEMC_CFG word (R35 to R55). -/
def parseBody (full : Bool) (cap : Nat) (l : List Byte) : Option RecBody :=
  let n := l.length
  let f := leAt l
  match f 0 1 with
  | 0x01 =>
    let c := f 8 1
    let g := f 14 2
    if full && n = 24 && decide (1 ≤ c) && decide (c ≤ 13) && decide (f 9 1 ≤ 1) && (f 9 1 = 1 || decide (6 ≤ c))
        && decide (100 ≤ f 10 2) && decide (f 10 2 ≤ maxClock c) && (c != 1 || f 10 2 = 250)
        && [1, 2, 4].contains (f 12 1) && (f 13 1 = 0 || (decide (2 ≤ f 13 1) && decide (f 13 1 ≤ 16)))
        && g % 2 = 0 && ((c != 5 && c != 6) || g.testBit 1) && zeroAt l 16 8 then
      some (.island c (f 9 1) (f 10 2) (f 12 1) (f 13 1) g)
    else none
  | 0x03 =>
    if full && n = 32 && decide (1 ≤ f 8 2) && decide (f 8 2 ≤ 255) && decide (f 10 2 ≤ 1) && zeroAt l 28 4 then
      some (.region (f 8 2) (f 10 2 = 1) (slice l 12 16))
    else none
  | 0x10 =>
    match mfBallAt (f 8 1) (f 9 1) with
    | some b =>
      if full && n = 16 && ballOffers b (f 10 2) && f 12 1 % 4 != 3 && decide (f 12 1 < 16) && zeroAt l 13 3 then
        some (.ball (f 8 1) (f 9 1) (f 10 2) (f 12 1))
      else none
    | none => none
  | 0x11 =>
    if n = 16 && decide (f 8 1 < 32) && decide (f 9 1 ≤ 13) && zeroAt l 12 4 then some (.timer (f 8 1) (f 9 1) (f 10 2))
    else none
  | 0x12 =>
    if n = 16 && decide (f 8 2 ≤ 991) && decide (1 ≤ f 10 2) && decide (f 8 2 + f 10 2 ≤ 992) && decide (f 12 1 ≤ 13)
        && decide (f 14 2 ≤ 1) then
      some (.pool (f 8 2) (f 10 2) (f 12 1) (f 13 1) (f 14 2 = 1))
    else none
  | 0x13 =>
    let base := f 8 8
    let size := f 16 8
    if n = 32 && base % 2097152 = 0 && size % 2097152 = 0 && decide (0 < size) && decide (base + size ≤ cap)
        && decide (base + size ≤ 2 ^ 38) && decide (f 24 1 ≤ 13) && decide (f 26 1 ≤ 3) && decide (f 27 1 < 4) then
      some (.dram base size (f 24 1) (f 25 1) (f 26 1) ((f 27 1).testBit 0) ((f 27 1).testBit 1) (f 28 4))
    else none
  | 0x20 =>
    let d := f 14 1
    if n = 24 && decide (f 8 2 < 512) && d % 8 = 0 && decide (8 ≤ d) && decide (d ≤ 64) && zeroAt l 15 1
        && decide (1 ≤ f 16 4) && decide (f 16 4 ≤ 1250) && zeroAt l 20 4 then
      some (.strand (f 8 2) (f 10 1) (f 11 1) (f 12 1) (f 13 1) d (f 16 4))
    else none
  | 0x21 =>
    let e := f 8 1
    let k := f 10 2
    let entries := (List.range k).map (fun i =>
      (⟨f (16 + 8 * i) 2, f (18 + 8 * i) 2, f (20 + 8 * i) 2⟩ : PitchEntry))
    if decide (9 ≤ e) && decide (e ≤ 12) && zeroAt l 9 1 && decide (1 ≤ k) && decide (k ≤ 4096) && zeroAt l 12 4
        && n = 16 + 8 * k
        && entries.all (fun p => decide (1 ≤ p.count) && decide (p.first + p.count ≤ engineContexts e) && decide (1 ≤ p.units))
        && (List.range k).all (fun i => zeroAt l (22 + 8 * i) 2) then
      some (.calendar e entries)
    else none
  | 0x30 =>
    let e := f 8 1
    if n = 32 && decide (9 ≤ e) && decide (e ≤ 12) && zeroAt l 9 1 && decide (1 ≤ f 12 2)
        && decide (f 10 2 + f 12 2 ≤ engineContexts e) && zeroAt l 14 2 && shapeLegal e (f 16 2) (f 18 2) (f 20 1)
        && zeroAt l 21 3 && zeroAt l 28 4 then
      some (.shape e (f 10 2) (f 12 2) (f 16 2) (f 18 2) (f 20 1) (f 24 4))
    else none
  | 0x31 =>
    let k := f 8 1
    if n = 24 && decide (1 ≤ k) && decide (k ≤ 6) && zeroAt l 9 1 && decide (f 12 4 ≤ 999999999)
        && (decide (k < 5) || f 12 4 = 0) && zeroAt l 16 8 then
      some (.boundary k (f 10 2) (f 12 4))
    else none
  | 0x40 =>
    let o := f 8 4
    let k := f 12 2
    if o % 4 = 0 && decide (0x20000 ≤ o) && decide (1 ≤ k) && decide (k ≤ 16378) && decide (o + 4 * k ≤ 0x600000)
        && zeroAt l 14 2 && n = (16 + 4 * k + 7) / 8 * 8 && zeroAt l (16 + 4 * k) (n - (16 + 4 * k)) then
      some (.preset o ((List.range k).map (fun i => f (16 + 4 * i) 4)))
    else none
  | 0xFF => if n = 8 then some .finish else none
  | _ => none

/-- The position of a record in the order of R31 and R32: its type, then its key. PRESET records have no key. -/
def RecBody.order : RecBody → Nat × Nat
  | .island c _ _ _ _ _ => (0x01, c)
  | .region i _ _ => (0x03, i)
  | .ball r c _ _ => (0x10, 256 * r + c)
  | .timer t _ _ => (0x11, t)
  | .pool f _ _ _ _ => (0x12, f)
  | .dram b _ _ _ _ _ _ _ => (0x13, b)
  | .strand i _ _ _ _ _ _ => (0x20, i)
  | .calendar e _ => (0x21, e)
  | .shape e f _ _ _ _ _ => (0x30, 65536 * e + f)
  | .boundary k u _ => (0x31, 65536 * k + u)
  | .preset _ _ => (0x40, 0)
  | .finish => (0xFF, 0)

/-- Whether a record may follow another (R32). -/
def mayFollow (p q : RecBody) : Bool :=
  let a := p.order
  let b := q.order
  decide (a.1 < b.1) || (a.1 = b.1 && (a.1 = 0x40 || decide (a.2 < b.2)))

/-- What the record parser finds: the records before the first bad one, newest first, and the offset of that one. -/
structure Parsed where
  recs : List Record
  bad : Option Nat
deriving DecidableEq, Repr

/-- The records of a body, from offset `ofs` of the image on (R30 to R33). `n` bounds the number of records. Where the body's
records run out with no END record, the offset reported is the last record's, and the body's first byte where it has none: R57
names no record for that fault. [assumption 27, DESIGN CHOICE] -/
def parseRecs (full : Bool) (regionId cap count : Nat) : Nat → Nat → List Byte → List Record → Parsed
  | 0, ofs, _, acc => ⟨acc, some ofs⟩
  | n + 1, ofs, l, acc =>
    let len := leAt l 2 2
    let r := leAt l 4 2
    let whole := l.take len
    if decide (l.length < 8) then ⟨acc, some ((acc.headD ⟨0, ofs, .finish⟩).ofs)⟩
    else if decide (count ≤ acc.length) || decide (len < 8) || len % 8 != 0 || decide (l.length < len) || leAt l 1 1 != 0
        || !zeroAt l 6 2 then ⟨acc, some ofs⟩
    else
      match parseBody full cap whole with
      | none => ⟨acc, some ofs⟩
      | some b =>
        let declared := r = 0 || acc.any (fun x => match x.body with | .region i _ _ => i = r | _ => false)
        let regionOk := match b with
          | .calendar _ _ => r = 0
          | .island _ _ _ _ _ _ | .region _ _ _ | .ball _ _ _ _ => r = 0
          | _ => if full then declared else r = regionId
        let orderOk := match acc with
          | [] => true
          | p :: _ => mayFollow p.body b
        let ballOk := match b with
          | .ball _ _ fn _ => !acc.any (fun x => match x.body with | .ball _ _ g _ => g = fn | _ => false)
          | .boundary 6 _ _ => !acc.any (fun x => match x.body with | .boundary 6 _ _ => true | _ => false)
          | _ => true
        if regionOk && orderOk && ballOk then
          match b with
          | .finish =>
            if l.length = len && acc.length + 1 = count then ⟨⟨r, ofs, b⟩ :: acc, none⟩ else ⟨acc, some ofs⟩
          | _ => parseRecs full regionId cap count n (ofs + len) (l.drop len) (⟨r, ofs, b⟩ :: acc)
        else ⟨acc, some ofs⟩

/-! ## Rules that tie records together (R45, R52, R72, R249, R278, R331, R392) -/

/-- A STRAND record's ends. -/
structure Wire where
  ofs : Nat
  id : Nat
  si : Nat
  sp : Nat
  di : Nat
  dp : Nat
  depth : Nat
  rate : Nat
deriving DecidableEq, Repr

/-- The strands of a record set. -/
def wires (l : List Record) : List Wire :=
  l.filterMap (fun r => match r.body with
    | .strand i a b c d e f => some ⟨r.ofs, i, a, b, c, d, e, f⟩
    | _ => none)

/-- Whether an output port may be joined to an input port (R150, R170, R225, R249, R278, R331, R392).
[assumption 36, DEDUCED] -/
def wireLegal (w : Wire) : Bool :=
  match w.si, w.di with
  | 8, 9 => w.sp = w.dp && decide (w.sp < 16)
  | 9, 10 => decide (w.sp < 16) && decide (w.dp < 16)
  | 9, 11 => decide (16 ≤ w.sp) && decide (w.sp < 24) && decide (w.dp < 64)
  | 9, 12 => decide (16 ≤ w.sp) && decide (w.sp < 24) && decide (w.dp < 8)
  | 9, 7 => decide (16 ≤ w.sp) && decide (w.sp < 24) && decide (8 ≤ w.dp) && decide (w.dp < 16)
  | 11, 7 => decide (w.sp < 64) && w.dp = 16 + w.sp
  | 11, 12 => decide (w.sp < 64) && decide (8 ≤ w.dp) && decide (w.dp < 72)
  | 12, 7 => decide (w.sp < 8) && w.dp = w.sp
  | 7, 11 => decide (w.sp < 64) && w.dp = w.sp
  | 7, 12 => w.sp = 64 && w.dp = 72
  | _, _ => false

/-- The shape of a context with the offset of its record. -/
def shapeRec (l : List Record) (engine ctx : Nat) : Option (Nat × Nat × Nat × Nat) :=
  l.findSome? (fun r => match r.body with
    | .shape e f n a b k _ => if e = engine ∧ f ≤ ctx ∧ ctx < f + n then some (r.ofs, a, b, k) else none
    | _ => none)

/-- Whether an island's record says it is present, with the record's offset. -/
def presentRec (l : List Record) (i : Nat) : Option (Nat × Bool) :=
  l.findSome? (fun r => match r.body with
    | .island c p _ _ _ _ => if c = i then some (r.ofs, p = 1) else none
    | _ => none)

/-- Each element of a list with those that stand before it. -/
def withEarlier {α : Type} : List α → List α → List (α × List α)
  | _, [] => []
  | p, a :: r => (a, p) :: withEarlier (a :: p) r

/-- The offsets of the strands that name a port which an earlier one names (R45). -/
def portFaults (l : List Record) : List Nat :=
  (withEarlier [] (wires l)).filterMap (fun (w, before) =>
    if before.any (fun v => (v.si = w.si && v.sp = w.sp) || (v.di = w.di && v.dp = w.dp)) then some w.ofs else none)

/-- The offsets of records at fault under the strand rules: ports that do not exist or may not be joined, ends on islands
not present, and a HEVC session's direction (R45, R278). -/
def strandFaults (l : List Record) : List Nat :=
  let ws := wires l
  (ws.flatMap (fun w =>
    (if wireLegal w then [] else [w.ofs])
    ++ (match presentRec l w.si with | some (_, false) => [w.ofs] | _ => [])
    ++ (match presentRec l w.di with | some (_, false) => [w.ofs] | _ => [])
    ++ (if w.di = 11 then
        match shapeRec l 11 w.dp with
        | some (o, _, _, k) => if (k % 2 = 0) = (w.si = 9) then [] else [max o w.ofs]
        | none => []
      else [])
    ++ (if w.si = 11 then
        match shapeRec l 11 w.sp with
        | some (o, _, _, k) => if (k % 2 = 0) = (w.di = 7) then [] else [max o w.ofs]
        | none => []
      else [])))

/-- The offsets at fault under R249: a TAP queue's port and the context that feeds it. -/
def tapFaults (l : List Record) : List Nat :=
  let ws := wires l
  (withEarlier [] l).flatMap (fun (r, before) => match r.body with
    | .shape 10 f n a b k _ =>
      if 128 ≤ k then
        let port := k % 16
        (if n = 1 then [] else [r.ofs])
        ++ (if before.any (fun q => match q.body with
            | .shape 10 _ _ _ _ k2 _ => decide (128 ≤ k2) && k2 % 16 = port
            | _ => false) then [r.ofs] else [])
        ++ (match ws.find? (fun w => w.di = 10 && w.dp = port && w.si = 9) with
          | none => [r.ofs]
          | some w =>
            match shapeRec l 9 w.sp with
            | some (o, da, db, _) => if a < da ∨ b < db then [max (max o w.ofs) r.ofs] else []
            | none => [])
      else if f + n ≤ 32 then [] else [r.ofs]
    | _ => [])

/-- The inner paths of the engines on which arriving data can leave (R72): from an input port to an output port. -/
def innerPath (i inp out : Nat) : Bool :=
  match i with
  | 9 => out = inp || decide (16 ≤ out)
  | 11 => out = inp
  | 12 => true
  | _ => false

/-- Whether data that arrives by one strand can leave by another (R72). -/
def wireFeeds (v w : Wire) : Bool := v.di = w.si && innerPath w.si v.dp w.sp

/-- Strands removed that no remaining strand feeds or that feed none; `n` rounds leave those on or between cycles. -/
def peel : Nat → List Wire → List Wire
  | 0, ws => ws
  | n + 1, ws => peel n (ws.filter (fun w => ws.any (fun v => wireFeeds v w) && ws.any (fun v => wireFeeds w v)))

/-- Whether the strand graph is acyclic (R72). -/
def acyclic (ws : List Wire) : Bool := (peel ws.length ws).isEmpty

/-- The last value that the PRESET records write to an offset. -/
def presetWord (l : List RecBody) (off : Nat) : Option Nat :=
  (l.filterMap (fun b => match b with
    | .preset o vs => if o ≤ off ∧ off < o + 4 * vs.length then vs[(off - o) / 4]? else none
    | _ => none)).getLast?

/-- The audio groups, receive streams and host-writable surfaces that an image has in use: those its PRESET records enable,
each as the kind and unit of the boundary it needs (R52). [assumption 27, DEDUCED] -/
def usedBoundaries (l : List Record) : List (Nat × Nat) :=
  let b := l.map (fun r => r.body)
  let is := fun (f : Fld) (x : Nat) => (presetWord b f.off).any (fun v => bitsOf v f.hi f.lo = x)
  ((List.range 8).filter (fun g => is (F.AUD_GRP_CFG_enable g) 1)).map (fun g => (2, g))
    ++ ((List.range 64).filter (fun r => is (F.NET_RX_CFG_enable r) 1
        && (is (F.NET_RX_CFG_type r) 1 || is (F.NET_RX_CFG_type r) 3))).map (fun r => (4, r))
    ++ ((List.range 256).filter (fun n => is (F.WALL_SURF_CFG_enable n) 1 && is (F.WALL_SURF_CFG_feed n) 0)).map (fun n => (5, n))

/-- The BOUNDARY records that a record set needs and lacks (R52). -/
def boundariesMissing (l : List Record) : Bool :=
  let has := fun k u => l.any (fun r => match r.body with | .boundary k2 u2 _ => k2 = k && u2 = u | _ => false)
  l.any (fun r => match r.body with
    | .shape 9 f n _ _ _ _ => (List.range n).any (fun i => !has 1 (f + i))
    | .shape 11 f n _ _ k _ => k % 2 = 1 && (List.range n).any (fun i => !has 3 (f + i))
    | _ => false)
  || (usedBoundaries l).any (fun b => !has b.1 b.2)

/-- The faults of a record set under the rules that tie records together, but for ports that two strands name: within one
image these are a double claim, and between a fragment and another region a conflict of step 12 (R57, R79). -/
def tieFaults (l : List Record) : List Nat :=
  let ws := wires l
  strandFaults l ++ tapFaults l
    ++ (if acyclic ws then [] else [((peel ws.length ws).map (fun w => w.ofs)).foldl max 0])

/-- The least of a list of offsets. -/
def leastOfs : List Nat → Option Nat
  | [] => none
  | a :: r => match leastOfs r with
    | none => some a
    | some b => some (min a b)

/-! ## The MEMC_CFG word of an image (R469) -/

/-- The MEMC_CFG value of a record set; an image without the word compares as 0. -/
def memcWord (l : List RecBody) : Nat := (presetWord l 0x300000).getD 0

/-- The MEMC_CFG word that the PRESET records of a body write, found before the records are checked. -/
def scanPreset : Nat → List Byte → Nat → Nat
  | 0, _, w => w
  | n + 1, l, w =>
    let len := leAt l 2 2
    if len < 8 then w
    else
      let o := leAt l 8 4
      let k := leAt l 12 2
      let w2 := if leAt l 0 1 = 0x40 ∧ o ≤ 0x300000 ∧ 0x300000 < o + 4 * k then leAt l (16 + (0x300000 - o)) 4 else w
      scanPreset n (l.drop len) w2

/-! ## Admission (R76, R79) -/

/-- Every shaped context of an engine with its format, declared rate and work-unit cost in cycles (R161, R250, R277,
R331). -/
def shapedContexts (l : List RecBody) (engine : Nat) : List (Nat × Nat × Nat × Nat) :=
  l.flatMap (fun r => match r with
    | .shape e f n a b k rate =>
      if e = engine then
        let cost := match engine with
          | 9 => 64 * a / 16 + 64
          | 10 => 1088
          | 11 => if k % 2 = 0 then 1120 * ceilDiv a 64 + 256 else 560 * ceilDiv a 64 + 128
          | _ => ceilDiv (a * b) (if k % 2 = 1 then 10 else 12) + 64
        (List.range n).map (fun i => (f + i, k, rate, cost))
      else []
    | _ => [])

/-- The calendar of an engine in a record set. -/
def calendarOf (l : List RecBody) (engine : Nat) : List PitchEntry :=
  (l.findSome? (fun r => match r with
    | .calendar e es => if e = engine then some es else none
    | _ => none)).getD []

/-- The clock target of an island in a record set, in MHz. -/
def clockOf (l : List RecBody) (i : Nat) : Nat :=
  (l.findSome? (fun r => match r with
    | .island c _ m _ _ _ => if c = i then some m else none
    | _ => none)).getD 0

/-- The coverage check of R76 over the shaped contexts that a direction test accepts. -/
def covered (l : List RecBody) (engine : Nat) (dir : Nat → Bool) : Bool :=
  let ctxs := (shapedContexts l engine).filter (fun c => dir c.2.1)
  let cal := calendarOf l engine
  let inside := fun (p : PitchEntry) (c : Nat) => decide (p.first ≤ c) && decide (c < p.first + p.count)
  let cost := (cal.map (fun p => p.units * ((ctxs.filter (fun c => inside p c.1)).map (fun c => c.2.2.2)).sum)).sum
  ctxs.all (fun c =>
    let grant := ((cal.filter (fun p => inside p c.1)).map (fun p => p.units)).sum
    decide (c.2.2.1 * cost ≤ grant * (clockOf l engine * 1000000)) && (c.2.2.1 = 0 || decide (0 < grant)))

/-- Every calendar covers its engine's shaped contexts (check 2 of R79). -/
def coverageOk (l : List RecBody) : Bool :=
  covered l 9 (fun _ => true)
    && covered l 10 (fun k => decide (128 ≤ k) || k % 2 = 1) && covered l 10 (fun k => decide (k < 128) && bitsOf k 1 1 = 1)
    && covered l 11 (fun k => k % 2 = 0) && covered l 11 (fun k => k % 2 = 1)
    && covered l 12 (fun _ => true)

/-- The largest burst of a source island's ports, B of R71. -/
def burst : Nat → Nat
  | 8 => 4 | 11 => 4 | _ => 8

/-- The limits of an island in 10^6 tokens/s: received, sent, and per output port (R150, R225, R278, R331, R392). -/
def portLimits : Nat → Nat × Nat × Nat
  | 8 => (0, 160, 20)
  | 9 => (640000, 4000, 1250)
  | 10 => (640000, 0, 0)
  | 11 => (1000, 300, 1250)
  | 12 => (4000, 2500, 1250)
  | 7 => (3200, 1600, 1250)
  | _ => (0, 0, 0)

/-- The strand rates of check 4 of R79. -/
def ratesOk (ws : List Wire) : Bool :=
  (List.range 14).all (fun i =>
    let lim := portLimits i
    decide (((ws.filter (fun w => w.si = i)).map (fun w => w.rate)).sum ≤ lim.2.1)
      && decide (((ws.filter (fun w => w.di = i)).map (fun w => w.rate)).sum ≤ lim.1)
      && ws.all (fun w => w.si != i || decide (w.rate ≤ lim.2.2)))

/-- Every depth satisfies R71. -/
def depthsOk (ws : List Wire) : Bool :=
  ws.all (fun w => decide (max 8 (burst w.si + ceilDiv (w.rate * 64) 10000) ≤ w.depth))

/-- Whether two runs overlap. -/
def overlap (a n b m : Nat) : Bool := decide (a < b + m) && decide (b < a + n)

/-- Whether two records claim one resource (R77). -/
def doubleClaim (p q : RecBody) : Bool :=
  match p, q with
  | .ball r c _ _, .ball r2 c2 _ _ => r = r2 && c = c2
  | .timer t _ _, .timer t2 _ _ => t = t2
  | .pool a n _ _ _, .pool b m _ _ _ => overlap a n b m
  | .dram a n _ _ _ _ _ _, .dram b m _ _ _ _ _ _ => overlap a n b m
  | .strand i a b c d _ _, .strand j a2 b2 c2 d2 _ _ => i = j || (a = a2 && b = b2) || (c = c2 && d = d2)
  | .shape e f n _ _ _ _, .shape e2 f2 n2 _ _ _ _ => e = e2 && overlap f n f2 n2
  | _, _ => false

/-- Whether a record set claims one resource twice. -/
def doubleClaims : List RecBody → Bool
  | [] => false
  | p :: r => r.any (doubleClaim p) || doubleClaims r

/-- The ingress capacity in lines of a DEV context at a width (R164). -/
def ingressLines (l : List RecBody) (ctx w : Nat) : Nat :=
  let banks := (l.map (fun r => match r with | .pool _ n 8 u _ => if u = ctx then n else 0 | _ => 0)).sum
  banks * bankBytes / (ceilDiv (2 * w) 64 * 64)

/-- Check 6 of R79: every shaped DEV context has at least 136 ingress lines (R167). -/
def ingressOk (l : List RecBody) : Bool :=
  l.all (fun r => match r with
    | .shape 9 f n a _ _ _ => (List.range n).all (fun i => decide (136 ≤ ingressLines l (f + i) a))
    | _ => true)

/-- The admission checks of R79 on a whole configuration; `own` are the records of the image being loaded, `locked` the
locked MEMC_CFG value, if it is locked (R469). -/
def admitted (own : List RecBody) (whole : List Record) (frag : Bool) (locked : Option Nat) : Bool :=
  let l := whole.map (fun r => r.body)
  let w := memcWord l
  let chans := if bitsOf w 6 6 = 1 then 2 ^ bitsOf w 1 0 else 0
  (memcCapacity w).isSome
    && (match locked with | some k => bitsOf k 6 0 = bitsOf (memcWord own) 6 0 | none => true)
    && !doubleClaims own
    && coverageOk l
    && decide ((l.map (fun r => match r with | .dram _ _ _ _ _ _ _ x => x | _ => 0)).sum ≤ 40960 * chans)
    && ratesOk (wires whole) && acyclic (wires whole) && depthsOk (wires whole)
    && ingressOk l
    && (!frag || ((tieFaults whole).isEmpty && !boundariesMissing whole))

/-- The configuration that a fragment gives with the active image (R65): the region's records replaced as a set, an
engine's calendar replaced whole. -/
def mergeFragment (act : Image) (frag : Image) : Image :=
  let kept := act.recs.filter (fun r => match r.body with
    | .strand _ _ _ _ _ _ _ | .shape _ _ _ _ _ _ _ | .boundary _ _ _ | .timer _ _ _ | .pool _ _ _ _ _
    | .dram _ _ _ _ _ _ _ _ => r.region != frag.regionId
    | .calendar e _ => !frag.bodies.any (fun b => match b with | .calendar e2 _ => e = e2 | _ => false)
    | .finish => false
    | _ => true)
  ⟨true, 0, frag.resultClass, kept ++ frag.recs⟩

/-- The header fields of an image (R24). -/
structure Header where
  bodyLen : Nat
  count : Nat
deriving DecidableEq, Repr

/-- The codes of RIG_LOAD_STATUS (R83). -/
inductive LoadCode where
  | idle | running | ok | magic | version | lengthRange | crc | signature | record | region | admission | busy | lifecycle
deriving DecidableEq, Repr

/-- A code's number (R83). -/
def LoadCode.num : LoadCode → Nat
  | .idle => 0 | .running => 1 | .ok => 2 | .magic => 3 | .version => 4 | .lengthRange => 5 | .crc => 6
  | .signature => 7 | .record => 8 | .region => 9 | .admission => 10 | .busy => 11 | .lifecycle => 12

/-- What steps 4 to 9 find: the image, or a code and the offset of the first bad record. -/
inductive LoadResult where
  | image (im : Image)
  | fail (c : LoadCode) (ofs : Nat)
deriving DecidableEq, Repr

/-- Steps 4 to 9 of R57 on the loaded bytes. `fullOnly` holds at boot, where a FRAGMENT fails at step 4 (R59). -/
def checkImage (s : State) (l : List Byte) (fullOnly : Bool) (verifyKey : Nat → Option (List Byte)) : LoadResult :=
  let bodyLen := leAt l 12 4
  let kind := leAt l 10 1
  let region := leAt l 20 2
  let body := slice l 64 bodyLen
  let trailer := slice l (64 + bodyLen) 104
  let step := s.sys.fuses.stepLetter % 16 * 16 + s.sys.fuses.stepDigit % 16
  let no := 0xFFFFFFFF
  if l.length < 64 then .fail .magic no
  else if leAt l 0 4 ≠ 0x4B574941 ∨ leAt l 6 2 ≠ 64 ∨ 1 < kind ∨ (fullOnly ∧ kind = 1) ∨ zeroAt l 11 1 = false
      ∨ zeroAt l 22 2 = false ∨ zeroAt l 33 3 = false ∨ zeroAt l 40 24 = false
      ∨ (kind = 0 ∧ region ≠ 0) ∨ (kind = 1 ∧ (region < 1 ∨ 255 < region)) then .fail .magic no
  else if leAt l 4 1 ≠ 1 ∨ s.sys.fuses.imgMinor < leAt l 5 1 ∨ leAt l 9 1 < leAt l 8 1 ∨ step < leAt l 8 1
      ∨ leAt l 9 1 < step then .fail .version no
  else if bodyLen % 8 ≠ 0 ∨ bodyLen < 8 ∨ 2096984 < bodyLen ∨ 64 + bodyLen + 104 ≠ l.length then .fail .lengthRange no
  else if crc32c body ≠ leAt l 36 4 then .fail .crc no
  else if slice trailer 0 8 ≠ [0x53, 0x49, 0x47, 0x31, 0, 0, 0, 0]
      ∨ (match verifyKey (leAt l 32 1) with
        | some k => ecdsaVerify k (sha384 (l.take (64 + bodyLen))) (leAt trailer 8 48) (leAt trailer 56 48)
        | none => false) = false then .fail .signature no
  else
    let cap := (memcCapacity (scanPreset 262124 body 0)).getD (2 ^ 38)
    let p := parseRecs (kind = 0) region cap (leAt l 16 4) (bodyLen / 8 + 1) 64 body []
    let recs := p.recs.reverse
    let ties := if kind = 0 then portFaults recs ++ tieFaults recs else []
    let atEnd := match p.bad, p.recs with
      | none, e :: _ =>
        if kind = 0 ∧ (boundariesMissing recs = true
            ∨ ((List.range 13).all (fun c => (presentRec recs (c + 1)).isSome)) = false) then [e.ofs] else []
      | _, _ => []
    match leastOfs (p.bad.toList ++ ties ++ atEnd) with
    | some o => .fail .record o
    | none => .image ⟨kind = 0, region, leAt l 24 8, recs⟩

end Sys2Proof.Machine
end

