-- ==== Sys2Proof/Machine/Host.lean ====
section
/-! DEFINITION. Chapter 13: mailboxes, doorbells, firmware activation, the DRAM aperture and the host link. -/
namespace Sys2Proof.Machine

/-! ## Mailboxes (R510 to R512) -/

/-- Whether a master may be the sender of a mailbox (R510). -/
def mboxSender (m : Master) (mb : Nat) : Bool :=
  match m with
  | .mgt => decide (16 ≤ mb)
  | _ => decide (mb < 16)

/-- Whether a master is the receiver of a mailbox (R510). -/
def mboxReads (m : Master) (mb : Nat) : Bool := targetOf (masterCode m) = some (mboxReceiver mb)

/-- A claim write (R510). [assumption 11, DEDUCED] -/
def State.mboxClaimOp (s : State) (m : Master) (mb : Nat) : State :=
  if mboxSender m mb && s.fld (F.MBOX_STATUS_holder mb) = 0 then s.put (F.MBOX_STATUS_holder mb) (masterCode m) else s

/-- A release write: dropped unless the holder makes it while no message waits (R510). -/
def State.mboxReleaseOp (s : State) (m : Master) (mb : Nat) : State :=
  if s.fld (F.MBOX_STATUS_holder mb) = masterCode m && !s.bit (F.MBOX_STATUS_full mb) then
    s.put (F.MBOX_STATUS_holder mb) 0
  else s

/-- A send (R511). [assumption 11, DEDUCED] -/
def State.mboxSendOp (s : State) (m : Master) (mb v : Nat) : State :=
  let len := bitsOf v 4 0
  if s.fld (F.MBOX_STATUS_holder mb) ≠ masterCode m then s.put (F.MBOX_STATUS_result mb) 3
  else
    let s := s.regWrite (R.MBOX_CTRL mb) (v % 2 ^ 31)
    if len < 1 ∨ 16 < len then s.put (F.MBOX_STATUS_result mb) 2
    else if s.bit (F.MBOX_STATUS_full mb) then s.put (F.MBOX_STATUS_result mb) 1
    else
      (((s.put (F.MBOX_STATUS_full mb) 1).put (F.MBOX_STATUS_sender mb) (masterCode m)).put
        (F.MBOX_STATUS_msg_len mb) len).put (F.MBOX_STATUS_result mb) 0

/-- A data word write: the holder's while no message waits; anyone else's is dropped with DENIED (R511).
[assumption 11, DEDUCED] -/
def State.mboxWordWrite (s : State) (m : Master) (mb n v : Nat) : State :=
  if s.fld (F.MBOX_STATUS_holder mb) ≠ masterCode m then s.put (F.MBOX_STATUS_result mb) 3
  else if s.bit (F.MBOX_STATUS_full mb) then s
  else (s.wr (R.MBOX_W mb n) v).put (F.MBOX_STATUS_result mb) 0

/-- A data word read (R511, R512): the receiver reads the message, and its read of the last word empties the mailbox. -/
def State.mboxWordReadOp (s : State) (m : Master) (mb n : Nat) : Nat × State :=
  if s.bit (F.MBOX_STATUS_full mb) then
    if mboxReads m mb then
      let v := s.rd (R.MBOX_W mb n)
      if n + 1 = s.fld (F.MBOX_STATUS_msg_len mb) then
        let sender := s.fld (F.MBOX_STATUS_sender mb)
        let s := ((s.put (F.MBOX_STATUS_full mb) 0).put (F.MBOX_STATUS_holder mb) 0)
        if s.bit (F.MBOX_CTRL_notify mb) then
          (v, { s.put (F.MBOX_STATUS_emptied mb) 1 with
            mbox := { s.mbox with emptiedFor := mapSet s.mbox.emptiedFor mb sender } })
        else (v, s)
      else (v, s)
    else (0, s)
  else if s.fld (F.MBOX_STATUS_holder mb) = masterCode m then (s.rd (R.MBOX_W mb n), s)
  else (0, s)

/-- MBOX_CLAIM. -/
def execMboxClaim (m : Master) (mb : Nat) (s : State) : Host.Outcome State Fault Refusal :=
  done (s.guardedWrite m (R.MBOX_CLAIM (mb % 32)) (fun s => s.mboxClaimOp m (mb % 32)))

/-- MBOX_RELEASE. -/
def execMboxRelease (m : Master) (mb : Nat) (s : State) : Host.Outcome State Fault Refusal :=
  done (s.guardedWrite m (R.MBOX_CLAIM (mb % 32)) (fun s => s.mboxReleaseOp m (mb % 32)))

/-- MBOX_SEND: the write sets `go` whatever bit 31 of the operand says, since the row is the go write. -/
def execMboxSend (m : Master) (mb : Nat) (v : Word) (s : State) : Host.Outcome State Fault Refusal :=
  done (s.guardedWrite m (R.MBOX_CTRL (mb % 32)) (fun s => s.mboxSendOp m (mb % 32) v.toNat))

/-- MBOX_WORD_READ. -/
def execMboxWordRead (m : Master) (mb n : Nat) (s : State) : Host.Outcome State Fault Refusal :=
  done (s.guardedRead m (R.MBOX_W (mb % 32) (n % 16)) (fun s => s.mboxWordReadOp m (mb % 32) (n % 16)))

/-! ## Doorbells (R513) -/

/-- The offset of the pending register beside a ring register. -/
def dbPend (hi : Bool) : Nat := if hi then 0x38100C else 0x381008

/-- A ring sets pending bits. [assumption 11, DEDUCED] -/
def State.doorbellRingOp (s : State) (hi : Bool) (v : Nat) : State :=
  s.wr (dbPend hi) (s.rd (dbPend hi) ||| v % 2 ^ 32)

/-- The bits of a pending register whose doorbells a master is the target of (R513). -/
def doorbellMask (m : Master) (hi : Bool) : Nat :=
  match m, hi with
  | .mgt, false => 0xFFFFFFFF
  | .pf0, true => 0x0000FFFF
  | .pf1, true => 0xFFFF0000
  | _, _ => 0

/-- A clearing write: only the target clears a pending bit (R513). Those of its doorbells that stay pending count as newly
asserted (R509). -/
def State.doorbellClear (s : State) (m : Master) (hi : Bool) (v : Nat) : State :=
  let s := s.wr (dbPend hi) (s.rd (dbPend hi) &&& (0xFFFFFFFF ^^^ (v &&& doorbellMask m hi)))
  ((List.range 32).filter (fun d => (doorbellMask m hi).testBit d)).foldl (fun (s : State) d => s.rearm (if hi then 48 + d else 256 + d)) s

/-- DOORBELL_RING. -/
def execDoorbellRing (m : Master) (hi : Bool) (v : Word) (s : State) : Host.Outcome State Fault Refusal :=
  done (s.guardedWrite m (R.MBOX_DB_RING (if hi then 1 else 0)) (fun s => s.doorbellRingOp hi v.toNat))

/-! ## Firmware activation (R515 to R517) -/

/-- An activation that ends reports itself (R517). -/
def State.fwactEnd (s : State) (code : Nat) : State :=
  (s.put F.MBOX_FWACT_STATUS_state code).put F.HOST_EVT_fwact 1

/-- The verification key of an index (R28, R542): the slot's key while it is ACTIVE, or in BASECAMP the manufacturing
key for a slot that is UNPROVISIONED. -/
def State.verifyKey (s : State) (index : Nat) : Option (List Byte) :=
  match s.sys.fuses.keys[index]? with
  | some k =>
    if k.st = 1 then some k.key
    else if k.st = 0 ∧ s.sys.fuses.lcState = 0 then some Config.manufacturingKey
    else none
  | none => none

/-- The stepping as an image or package compares it (R24). -/
def State.stepping (s : State) : Nat := s.sys.fuses.stepLetter % 16 * 16 + s.sys.fuses.stepDigit % 16

/-- Whether every bank a pool range touches has an owner that a test accepts, the range lying in the pool. -/
def State.banksOwned (s : State) (a n : Nat) (own : Nat → Bool) : Bool :=
  decide (a + n ≤ 1024 * bankBytes) &&
    ((List.range 1024).filter (fun b => decide (b * bankBytes < a + n) && decide (a < (b + 1) * bankBytes))).all
      (fun b => own (s.bankOwner b))

/-- The go write of MBOX_FWACT_CTRL (R515, R517). [assumption 12, DESIGN CHOICE] -/
def State.fwactOp (s : State) : State :=
  let st := s.fld F.MBOX_FWACT_STATUS_state
  if st = 1 ∨ st = 2 ∨ st = 3 then s.put F.MBOX_FWACT_STATUS_busy 1
  else
    let src := s.rd R.MBOX_FWACT_SRC
    let len := s.fld F.MBOX_FWACT_LEN_len
    let pkg := s.poolRead src len
    if s.sys.fuses.lcState = 3 then s.fwactEnd 8
    else if len % 8 ≠ 0 ∨ len < 4096 ∨ 1048576 < len ∨ s.banksOwned src len (fun o => o = 2 || o = 5) = false then
      s.fwactEnd 5
    else if (match s.verifyKey (Config.packageKeyIndex pkg) with
        | some k => Config.packageSigned k pkg
        | none => false) = false then s.fwactEnd 6
    else if s.stepping < Config.packageStepMin pkg ∨ Config.packageStepMax pkg < s.stepping then s.fwactEnd 7
    else
      let s := s.put F.MBOX_FWACT_STATUS_state 2
      ({ s with mbox := { s.mbox with fwact := some ⟨s.real, false, true⟩ } }).emit .fwNotice

/-- FWACT. -/
def execFwact (m : Master) (s : State) : Host.Outcome State Fault Refusal :=
  done (s.guardedWrite m R.MBOX_FWACT_CTRL State.fwactOp)

/-- The size of management SRAM and the base of its 64 KiB handover area (R516). [assumption 12, DESIGN CHOICE] -/
def handoverBase : Nat := 0x1F0000

/-- Step 2 and 3 of R516: the handover area is written, the cores are held, the rest of MGT SRAM is zeroed, the package
is loaded and the cores are released. [assumption 12, DESIGN CHOICE] -/
def State.handover (s : State) (area : List Byte) : State :=
  match s.mbox.fwact with
  | some f =>
    if f.starting then s
    else
      let s := { s with
        sram := memWrite (memZero s.sram 0 0x200000) handoverBase (area.take 0x10000)
        mbox := { s.mbox with fwact := some { f with starting := true }, fwPackage := true } }
      s.put F.MBOX_FWACT_STATUS_state 3
  | none => s

/-- FWACT_HANDOVER. -/
def execFwactHandover (area : List Byte) (s : State) : Host.Outcome State Fault Refusal := done (s.handover area)

/-- Step 4 of R516: the activation is DONE, taking resumes, the hold is recorded and the watchdog resumes from its full
timeout (R527). -/
def State.fwReadyOp (s : State) (ms : Nat) : State :=
  match s.mbox.fwact with
  | some f =>
    if f.starting then
      let now := max s.real (f.since + ms * 1000000)
      let s := { s with real := now, mbox := { s.mbox with fwact := none }, sys := { s.sys with wdtKickAt := now } }
      (s.put F.MBOX_FWACT_STATUS_hold_ms (min ms 0xFFFF)).fwactEnd 4
    else s
  | none => s

/-- Step 5 of R516: taking resumes. -/
def State.fwTakingResume (s : State) : State :=
  match s.mbox.fwact with
  | some f => { s with real := max s.real (f.since + 50000000), mbox := { s.mbox with fwact := some { f with takingHeld := false } } }
  | none => s

/-- FWACT_TAKING_RESUME. -/
def execFwactTakingResume (s : State) : Host.Outcome State Fault Refusal := done s.fwTakingResume

/-- Step 6 of R516: the cores boot the firmware in boot flash, with the handover area kept.
[assumption 12, DESIGN CHOICE] -/
def State.fwFallback (s : State) : State :=
  match s.mbox.fwact with
  | some f =>
    let now := max s.real (f.since + 500000000)
    let keep := memRead s.sram handoverBase 0x10000
    let s := { s with
      real := now
      sram := memWrite (memZero s.sram 0 0x200000) handoverBase keep
      mbox := { s.mbox with fwact := none, fwPackage := false }
      sys := { s.sys with wdtKickAt := now } }
    s.fwactEnd 9
  | none => s

/-- Whether the clip store's taking is held by an activation (R459, R516). -/
def State.takingHeld (s : State) : Bool :=
  match s.mbox.fwact with
  | some f => f.takingHeld
  | none => false

/-! ## The aperture (R501 to R503) -/

/-- Whether every byte of a range lies in a DRAM_REGION with `bar4` set (R502). [assumption 13, DEDUCED] -/
def State.bar4Covers (s : State) (a n : Nat) : Bool :=
  let rs := (dramRegions s.bodies).filter (fun r => r.bar4)
  (List.range n).all (fun i => rs.any (fun r => decide (r.base ≤ a + i) && decide (a + i < r.base + r.size)))

/-- A BAR4 access of a function (R502, R503). -/
def State.apertureOp (s : State) (fn off : Nat) (acc : MemAccess) : State :=
  let m : Master := if fn = 1 then .pf1 else .pf0
  if s.served m then
    if s.bit F.MEMC_STATUS_ready then
      let a := s.fld (if fn = 1 then F.HOST_AP1_BASE_base_gib else F.HOST_AP0_BASE_base_gib) * 2 ^ 30 + off % 2 ^ 36
      match acc with
      | .read n =>
        if s.bar4Covers a n then
          let r := s.dramFetch a n
          (if r.2.1 then r.2.2.bump F.HOST_POISON_count 1 else r.2.2).emit (.apertureData fn r.1 r.2.1)
        else (s.bump F.HOST_AP_VIOL_count 1).emit (.apertureData fn (zeroBytes n) false)
      | .write d poisoned =>
        if poisoned then
          let p := s.pcie fn
          s.setPcie fn { p with aerPoisoned := p.aerPoisoned + 1 }
        else if s.bar4Covers a d.length then s.dramWrite a d
        else s.bump F.HOST_AP_VIOL_count 1
    else match acc with
      | .read _ => (s.recordDead 0 2 fn false .memc).emit (.abort m off)
      | .write _ _ => s.recordDead 0 2 fn true .memc
  else s

/-- APERTURE_ACCESS. -/
def execApertureAccess (fn off : Nat) (acc : MemAccess) (s : State) : Host.Outcome State Fault Refusal :=
  done (s.apertureOp (fn % 2) off acc)

/-! ## The host link (R495) -/

/-- The link trains while PCIE_PERST_N is high, whatever the release sequence does (R494, R495). -/
def State.linkTrain (s : State) (speed width : Nat) : State :=
  if s.sys.perstN && decide (1 ≤ speed) && decide (speed ≤ 5) && [1, 2, 4, 8].contains width && !s.sys.tripped then
    let s := (s.put F.HOST_LINK_speed speed).put F.HOST_LINK_width width
    if s.runs .host && !s.host.readyMsg then
      ({ s with host := { s.host with readyMsg := true } }).emit .readinessStatus
    else s
  else s

/-- LINK_TRAINING. [assumption 8, DESIGN CHOICE] -/
def execLinkTraining (speed width : Nat) (s : State) : Host.Outcome State Fault Refusal :=
  done (s.linkTrain speed width)

end Sys2Proof.Machine
end

