-- ==== Sys2Proof/Machine/Pool.lean ====
section
/-! DEFINITION. Chapter 12, the on-chip pool: arbitration, ownership and regions, error correction, march tests and
repair. -/
namespace Sys2Proof.Machine

/-! ## Regions (R486) -/

/-- Whether a byte lies in an enabled region of a host-side master that grants a direction. -/
def State.regionGrants (s : State) (m a : Nat) (write : Bool) : Bool :=
  (List.range 64).any (fun r =>
    let b := s.rd (R.POOL_RGN_BASE m r)
    let base := bitsOf b 26 12 * 4096
    let size := s.fld (F.POOL_RGN_SIZE_size m r) * 4096
    b.testBit 0 && b.testBit (if write then 2 else 1) && decide (base ≤ a) && decide (a < base + size))

/-- Whether an enabled TEST_EXEMPT region of any master covers a byte of a range (R487). -/
def State.regionExempt (s : State) (a n : Nat) : Bool :=
  (List.range 7).any (fun m => (List.range 64).any (fun r =>
    let b := s.rd (R.POOL_RGN_BASE m r)
    let base := bitsOf b 26 12 * 4096
    let size := s.fld (F.POOL_RGN_SIZE_size m r) * 4096
    b.testBit 0 && b.testBit 3 && decide (base < a + n) && decide (a < base + size)))

/-- A write of a region's BASE register: while the region is enabled only `enable` changes; setting `enable` on a region
outside the pool or of size 0 leaves it disabled and sets bad_cfg (R486, R493). -/
def State.regionBaseWrite (s : State) (m r v : Nat) : State :=
  let o := R.POOL_RGN_BASE m r
  if s.bit (F.POOL_RGN_BASE_enable m r) then s.put (F.POOL_RGN_BASE_enable m r) (v % 2)
  else
    let s := s.wr o (v &&& 0x07FFF00E)
    if v % 2 = 1 then
      let size := s.fld (F.POOL_RGN_SIZE_size m r) * 4096
      if size = 0 ∨ 1024 * bankBytes < bitsOf v 26 12 * 4096 + size then s.put F.POOL_EVT_bad_cfg 1
      else s.put (F.POOL_RGN_BASE_enable m r) 1
    else s

/-- A write of a region's SIZE register: dropped while the region is enabled (R493). -/
def State.regionSizeWrite (s : State) (m r v : Nat) : State :=
  if s.bit (F.POOL_RGN_BASE_enable m r) then s else s.regWrite (R.POOL_RGN_SIZE m r) v

/-- REGION_ENABLE: the write sets `enable`. -/
def execRegionEnable (m : Master) (mst rgn : Nat) (v : Word) (s : State) : Host.Outcome State Fault Refusal :=
  done (s.guardedWrite m (R.POOL_RGN_BASE (mst % 7) (rgn % 64))
    (fun s => s.regionBaseWrite (mst % 7) (rgn % 64) (v.toNat ||| 1)))

/-! ## Errors (R483) -/

/-- The latest error of the pool (R493). [assumption 14, DEDUCED] -/
def State.poolErr (s : State) (word : Nat) (ue march : Bool) : State :=
  s.wr R.POOL_ERR (word % 2 ^ 24 + (if ue then 2 ^ 24 else 0) + (if march then 2 ^ 25 else 0))

/-- What a read of a pool word finds (R483). [assumption 14, DEDUCED] -/
def State.poolCheck (s : State) (word : Nat) (e : EccResult) : State :=
  if s.poolSt.poison.contains word ∨ e = .uncorrectable then
    let s := ((s.bump F.POOL_UE_count 1).poolErr word true false).put F.POOL_EVT_ue 1
    { s with poolSt := { s.poolSt with poison := setAdd s.poolSt.poison word } }
  else if e = .correctable then
    let s := (s.bump F.POOL_CE_count 1).poolErr word false false
    { s with poolSt := { s.poolSt with writeBack := s.poolSt.writeBack ++ [word] } }
  else s

/-- POOL_WRITE_BACK: a corrected word is written back in an idle bank cycle (R483). The array holds the corrected data. -/
def execPoolWriteBack (word : Nat) (s : State) : Host.Outcome State Fault Refusal :=
  done { s with poolSt := { s.poolSt with writeBack := s.poolSt.writeBack.filter (· != word) } }

/-! ## March tests (R487, R488) -/

/-- The under_test mark of a bank (R493). -/
def State.markTest (s : State) (b : Nat) (on : Bool) : State := s.flag ⟨R.POOL_BANK b, 18, 18⟩ on

/-- MARCH_STATUS.bank: the lowest bank now under test. -/
def State.marchBank (s : State) : State :=
  match s.poolSt.march with
  | some r => s.put F.POOL_MARCH_STATUS_bank ((r.borrowed.map (fun e => e.1)).foldl min 1023)
  | none => s

/-- Whether a bank may be tested destructively: no owner, and not being zeroed (R487). -/
def State.destructible (s : State) (b : Nat) : Bool :=
  s.bankOwner b = 0xFF && !s.rig.zeroing.contains b && !s.rig.zeroWait.contains b

/-- Whether a segment may be borrowed by a preserving test (R487). -/
def State.borrowable (s : State) (b seg : Nat) : Bool :=
  decide (b < 992) && !s.bit ⟨R.POOL_BANK b, 16, 16⟩ && !s.rig.zeroing.contains b && !s.rig.zeroWait.contains b
    && !s.regionExempt (b * bankBytes + seg * 2048) 2048

/-- One attempt to take the next item of the queue under test: at most 64 banks destructively, or one segment in each of
at most 16 banks. [assumption 15, DEDUCED] -/
def State.marchTake (s : State) (r : MarchRun) : State × MarchRun :=
  match r.todo with
  | [] => (s, r)
  | (b, g) :: rest =>
    if r.destructive then
      if 64 ≤ r.borrowed.length then (s, r)
      else if s.destructible b then (s.markTest b true, { r with todo := rest, borrowed := r.borrowed ++ [(b, g)] })
      else (s.bump F.POOL_MARCH_SKIPPED_count 1, { r with todo := rest })
    else
      if 16 ≤ r.borrowed.length ∨ (r.borrowed.any (fun e => e.1 = b)) = true then (s, r)
      else if s.borrowable b g then
        (s.markTest b true, { r with todo := rest, borrowed := r.borrowed ++ [(b, g)] })
      else (s, { r with todo := rest })

/-- The engine's queue advances by up to `n` items; an empty run is DONE (R488, R493). -/
def State.marchFill (s : State) (n : Nat) (r : MarchRun) : State :=
  match n with
  | 0 => { s with poolSt := { s.poolSt with march := some r } }
  | n + 1 =>
    let p := s.marchTake r
    p.1.marchFill n p.2

/-- A run with nothing left is DONE. -/
def State.marchEndCheck (s : State) : State :=
  match s.poolSt.march with
  | some r =>
    if r.todo.isEmpty && r.borrowed.isEmpty then
      (({ s with poolSt := { s.poolSt with march := none } }).put F.POOL_MARCH_STATUS_state 2).put F.POOL_EVT_march_done 1
    else s.marchBank
  | none => s

/-- A go write (R488, R493). [assumption 15, DEDUCED] -/
def State.marchGoOp (s : State) (v : Nat) : State :=
  if s.poolSt.march.isSome then s.put F.POOL_MARCH_STATUS_bad_cfg 1
  else
    let first := s.fld F.POOL_MARCH_RANGE_first
    let count := s.fld F.POOL_MARCH_RANGE_count
    let s := s.regWrite R.POOL_MARCH_CTRL (v / 4 * 4)
    if count = 0 ∨ 1024 < first + count then s.put F.POOL_MARCH_STATUS_bad_cfg 1
    else
      let d := s.bit F.POOL_MARCH_CTRL_destructive
      let banks := (List.range count).map (· + first)
      let todo := if d then banks.map (fun b => (b, 0))
        else (List.range 64).flatMap (fun g => banks.map (fun b => (b, g)))
      let r : MarchRun := ⟨d, s.fld F.POOL_MARCH_CTRL_alg, s.fld F.POOL_MARCH_CTRL_bg,
        s.bit F.POOL_MARCH_CTRL_repair, first, count, todo, [], []⟩
      ((s.put F.POOL_MARCH_STATUS_state 1).marchFill todo.length r).marchEndCheck

/-- MARCH_GO. -/
def execMarchGo (m : Master) (v : Word) (s : State) : Host.Outcome State Fault Refusal :=
  done (s.guardedWrite m R.POOL_MARCH_CTRL (fun s => s.marchGoOp v.toNat))

/-- A stop write: borrowed segments are restored and banks under a destructive test are zeroed (R488).
[assumption 15, DEDUCED] -/
def State.marchStopOp (s : State) (v : Nat) : State :=
  let s := s.regWrite R.POOL_MARCH_CTRL (v / 4 * 4)
  match s.poolSt.march with
  | none => s
  | some r =>
    let s := r.borrowed.foldl (fun s e =>
      (if r.destructive then s.zeroBank e.1 else s).markTest e.1 false) s
    (({ s with poolSt := { s.poolSt with march := none } }).put F.POOL_MARCH_STATUS_state 3).put F.POOL_EVT_march_done 1

/-- MARCH_STOP. -/
def execMarchStop (m : Master) (v : Word) (s : State) : Host.Outcome State Fault Refusal :=
  done (s.guardedWrite m R.POOL_MARCH_CTRL (fun s => s.marchStopOp v.toNat))

/-- The repairs of a bank. -/
def repairsOf (l : List (Nat × List (Nat × Nat))) (b : Nat) : List (Nat × Nat) :=
  (l.filter (fun e => e.1 = b)).flatMap (fun e => e.2)

/-- A failing row of a bank: counted, and with `repair` mapped to the next unused spare row; with no spare row left the bank is
reported as exhausted (R489). -/
def State.rowFails (s : State) (b row : Nat) (repair : Bool) : State :=
  let s := (s.bump F.POOL_MARCH_FAILS_count 1).poolErr (b * 16384 + row % 512 * 32) false true
  let used := s.fld ⟨R.POOL_BANK b, 21, 19⟩
  if 4 ≤ used then (s.put ⟨R.POOL_BANK b, 23, 23⟩ 1).put F.POOL_EVT_exhausted 1
  else if repair then
    let s : State := { s with poolSt := { s.poolSt with repairs := s.poolSt.repairs ++ [(b, [(row % 512, used)])] } }
    s.put ⟨R.POOL_BANK b, 21, 19⟩ (used + 1)
  else s

/-- The test of the oldest borrowed segment or bank ends (R487): its failing rows are dealt with, a destructively tested
bank is zeroed, the segment returns with its data, and the engine takes the next. [assumption 15, DEDUCED] -/
def State.marchSegmentOp (s : State) (failRows : List Nat) : State :=
  match s.poolSt.march with
  | none => s
  | some r =>
    match r.borrowed with
    | [] => s.marchEndCheck
    | (b, g) :: rest =>
      let rows := (failRows.filter (fun w => r.destructive || decide (w % 512 / 8 = g))).eraseDups
      let s := rows.foldl (fun s w => s.rowFails b w r.repair) s
      let s := if r.destructive then s.zeroBank b else s
      let s := s.markTest b false
      (s.marchFill (r.todo.length) { r with borrowed := rest, abandons := r.abandons.filter (· != (b, g)) }).marchEndCheck

/-- MARCH_SEGMENT. -/
def execMarchSegment (failRows : List Nat) (s : State) : Host.Outcome State Fault Refusal :=
  done (s.marchSegmentOp failRows)

/-- Another master's access to a borrowed segment: its test is abandoned, its data restored, and it goes to the end of
the queue; a segment abandoned four times in a row is skipped for the rest of the run (R487). [assumption 15, DEDUCED] -/
def State.marchAbandon (s : State) (a n : Nat) : State :=
  match s.poolSt.march with
  | none => s
  | some r =>
    if r.destructive then s
    else
      match r.borrowed.find? (fun e => decide (e.1 * bankBytes + e.2 * 2048 < a + n)
          && decide (a < e.1 * bankBytes + e.2 * 2048 + 2048)) with
      | none => s
      | some e =>
        let s := (s.bump F.POOL_MARCH_ABANDON_count 1).markTest e.1 false
        let ab := r.abandons ++ [e]
        if 4 ≤ (ab.filter (· = e)).length then
          let s := s.bump F.POOL_MARCH_SKIPPED_count 1
          (s.marchFill r.todo.length { r with borrowed := r.borrowed.filter (· != e), abandons := ab.filter (· != e) }).marchEndCheck
        else
          s.marchFill r.todo.length { r with
            borrowed := r.borrowed.filter (· != e), abandons := ab, todo := r.todo ++ [e] }

/-- A claim or owner change of a bank under a destructive test ends that bank's test at once (R485); a segment that a preserving
test has borrowed in the bank is given back (R487). [assumption 15, DEDUCED] -/
def State.marchDropBank (s : State) (b : Nat) : State :=
  match s.poolSt.march with
  | none => s
  | some r =>
    if r.destructive && r.borrowed.any (fun e => e.1 = b) then
      let s := (s.bump F.POOL_MARCH_SKIPPED_count 1).markTest b false
      (({ s with poolSt := { s.poolSt with
        march := some { r with borrowed := r.borrowed.filter (fun e => e.1 != b) } } })).marchEndCheck
    else s.marchAbandon (b * bankBytes) bankBytes

/-- A fuse write (R489): refused in DESCENT and when the bank has no soft repair that is not already fused.
[assumption 15, DEDUCED] -/
def State.repairFuseOp (s : State) (v : Nat) : State :=
  let b := bitsOf v 9 0
  let s := s.regWrite R.POOL_REPAIR_CTRL (v % 2 ^ 31)
  let fusedRows := repairsOf s.sys.fuses.repairs b
  let fresh := (repairsOf s.poolSt.repairs b).filter (fun e => !fusedRows.contains e)
  if s.fld F.POOL_REPAIR_STATUS_state = 1 then s
  else if s.sys.fuses.lcState = 3 ∨ fresh.isEmpty then s.put F.POOL_REPAIR_STATUS_state 3
  else
    let s := { s with sys := { s.sys with fuseSeqs := s.sys.fuseSeqs ++ [([FusePulse.repair b fresh], FuseEnd.repair)] } }
    (s.put F.SYS_STATUS_fuse_busy 1).put F.POOL_REPAIR_STATUS_state 1

/-- REPAIR_FUSE. -/
def execRepairFuse (m : Master) (v : Word) (s : State) : Host.Outcome State Fault Refusal :=
  done (s.guardedWrite m R.POOL_REPAIR_CTRL (fun s => s.repairFuseOp v.toNat))

/-! ## Accesses (R484 to R487, R501, R503) -/

/-- The length of an access. -/
def accLen : MemAccess → Nat
  | .read n => n
  | .write d _ => d.length

/-- The grant class of a request at a bank (R484): engine ports of the owning island by port, then the management
masters and MGT DMA, then PF0 and PF1. -/
def State.grantRank (s : State) (r : PoolReq) : Nat :=
  match r.master with
  | .engine i p => if i = s.bankOwner (r.addr / bankBytes) then p else 100 + p
  | .hostSide m => if 2 ≤ m then 200 + m else 300 + m

/-- The request granted among those that wait at a bank: the lowest rank, the earliest among equals. -/
def State.bestReq (s : State) : List PoolReq → Option PoolReq
  | [] => none
  | r :: rest =>
    match s.bestReq rest with
    | none => some r
    | some b => if s.grantRank r ≤ s.grantRank b then some r else some b

/-- The function of a host-side master, for the records of R501. -/
def poolFn (m : Nat) : Nat := if m = 1 then 1 else 0

/-- A host-side access refused under R486. -/
def State.poolRefuse (s : State) (m a : Nat) (write owned : Bool) (n : Nat) : State :=
  let s := s.bump F.POOL_VIOL_count 1
  let s := s.wr R.POOL_VIOL_INFO (a / 8 % 2 ^ 24 + m % 8 * 2 ^ 24 + (if write then 2 ^ 27 else 0)
    + (if owned then 2 ^ 28 else 0))
  if write then s else s.emit (.poolData m (zeroBytes n) false)

/-- Whether the owner of a bank refuses a host-side write (R486). -/
def State.ownerRefuses (s : State) (a n : Nat) : Bool :=
  !s.banksOwned a n (fun o => o = 2 || o = 5 || o = 0xFF)

/-- What a read of a range records (R483): the word read first is checked with the result given for it, and every other word
of the range that carries the poison mark is uncorrectable. -/
def State.poolReadCheck (s : State) (a n : Nat) (e : EccResult) : State :=
  let s := s.poolCheck (a / 8) e
  let bad := s.poolSt.poison.filter (fun w => decide (a / 8 < w) && decide (8 * w < a + n))
  bad.foldl (fun s w => s.poolCheck w .uncorrectable) s

/-- What the merge of a write narrower than a word finds (R483): an error not yet marked is recorded; a word that carries the
mark is merged and keeps it, and nothing is delivered, so nothing is recorded. -/
def State.poolMergeCheck (s : State) (a : Nat) (e : EccResult) : State :=
  if s.poolSt.poison.contains (a / 8) then s else s.poolCheck (a / 8) e

/-- A granted access is served. -/
def State.poolServe (s : State) (r : PoolReq) : State :=
  let n := accLen r.acc
  let b := r.addr / bankBytes
  if s.rig.zeroing.contains b || s.rig.zeroWait.contains b then
    { s with rig := { s.rig with stalled := s.rig.stalled ++ [r] } }
  else
    let s := s.marchAbandon r.addr n
    match r.master, r.acc with
    | .engine i _, .read _ =>
      if s.bankOwner b = i then
        let s := s.poolReadCheck r.addr n r.ecc
        s.emit (.poolData (16 + i) (s.poolRead r.addr n) (s.poolPoisoned r.addr n))
      else s
    | .engine i _, .write d _ => if s.bankOwner b = i then s.poolWrite r.addr d else s
    | .hostSide m, .read _ =>
      if (List.range n).all (fun k => s.regionGrants m (r.addr + k) false) && decide (r.addr + n ≤ 1024 * bankBytes) then
        let s := s.poolReadCheck r.addr n r.ecc
        let p := s.poolPoisoned r.addr n
        let s := if p && decide (m < 2) then s.bump F.HOST_POISON_count 1 else s
        s.emit (.poolData m (s.poolRead r.addr n) p)
      else s.poolRefuse m r.addr false false n
    | .hostSide m, .write d poisoned =>
      if poisoned && decide (m < 2) then
        let p := s.pcie (poolFn m)
        s.setPcie (poolFn m) { p with aerPoisoned := p.aerPoisoned + 1 }
      else if s.ownerRefuses r.addr n then s.poolRefuse m r.addr true true n
      else if (List.range n).all (fun k => s.regionGrants m (r.addr + k) true) then
        let s := if r.addr % 8 = 0 ∧ n % 8 = 0 then s else s.poolMergeCheck r.addr r.ecc
        s.poolWrite r.addr d
      else s.poolRefuse m r.addr true false n

/-- Whether a request reaches the pool: BAR2 of a function in D3hot or with HOST in reset is not decoded. -/
def State.poolReaches (s : State) (r : PoolReq) : Bool :=
  match r.master with
  | .hostSide 0 => s.served .pf0
  | .hostSide 1 => s.served .pf1
  | .hostSide _ => s.runs .mgt
  | .engine i _ => match islandOf i with
    | some x => s.runs x
    | none => false

/-- The requests left when the first occurrence of one is granted. -/
def dropReq (r : PoolReq) : List (List PoolReq) → List (List PoolReq)
  | [] => []
  | l :: ls => if l.contains r then l.erase r :: ls else l :: dropReq r ls

/-- The requests that meet at one bank in one cycle (R484): one that has lost is granted before every one that arrived after
it; one is granted and the others have lost. While POOL is in reset BAR2 answers under R501. -/
def State.poolCycle (s : State) (reqs : List PoolReq) : State :=
  let reqs := reqs.filter s.poolReaches
  if s.held .pool then
    reqs.foldl (fun s r => match r.master, r.acc with
      | .hostSide m, .read _ =>
        if m < 2 then (s.recordDead 0 1 (poolFn m) false .pool).emit (.abort (if m = 1 then .pf1 else .pf0) r.addr) else s
      | .hostSide m, .write _ _ => if m < 2 then s.recordDead 0 1 (poolFn m) true .pool else s
      | _, _ => s) s
  else
    let waiting := s.poolSt.losers ++ [reqs]
    match reqs ++ waiting.flatten with
    | [] => s
    | h :: _ =>
      let b := h.addr / bankBytes
      match waiting.findSome? (fun l => s.bestReq (l.filter (fun r => r.addr / bankBytes = b))) with
      | none => s
      | some r =>
        let left := (dropReq r waiting).filter (fun l => !l.isEmpty)
        ({ s with poolSt := { s.poolSt with losers := left } } : State).poolServe r

/-- POOL_ACCESS. -/
def execPoolAccess (reqs : List PoolReq) (s : State) : Host.Outcome State Fault Refusal := done (s.poolCycle reqs)

end Sys2Proof.Machine
end

