-- ==== Sys2Proof/Machine/Users.lean ====
section
/-! DEFINITION. What every engine that uses memory shares: the region check of R67 and reads of DRAM and the pool that
meet the poison mark. -/
namespace Sys2Proof.Machine

/-- An image slot's image: 0 slot A, 1 slot B. -/
def State.slotImage (s : State) (k : Nat) : Option Image := if k = 0 then s.rig.slotA.img else s.rig.slotB.img

/-- The records that a change of a slot's image would leave in force (R64, R65). -/
def State.resultOf (s : State) (rerig : Bool) (slot : Nat) : Option Image :=
  match s.slotImage slot, s.rig.active with
  | some im, some act => if rerig then some (mergeFragment act im) else some im
  | some im, none => if rerig then none else some im
  | none, _ => none

/-- The records that the pending change would leave in force. -/
def State.changeBodies (s : State) : Option (List RecBody) :=
  match s.rig.change with
  | some ch => if ch.applying then none else (s.resultOf ch.rerig ch.slot).map Image.bodies
  | none => none

/-- Whether a user's range lies in one of its own DRAM regions, under the active configuration and, while a change is
pending, under the one that would result (R67). -/
def State.userRegion (s : State) (a n : Nat) (own : Nat → Nat → Bool) : Bool :=
  s.inRegion a n own && (match s.changeBodies with
    | some l => rangeIn l a n own
    | none => true)

/-- Bytes that an engine reads from its pool banks (R483). -/
def State.poolFetch (s : State) (a n : Nat) : List Byte × Bool × State :=
  let bad := s.poolSt.poison.filter (fun w => decide (8 * w < a + n) && decide (a < 8 * w + 8))
  (s.poolRead a n, !bad.isEmpty, bad.foldl (fun s w => s.poolCheck w .uncorrectable) s)

end Sys2Proof.Machine
end

