-- ==== Sys2Proof/Machine/Dev.lean ====
section
/-! DEFINITION. Chapters 04 and 05, the Developer: commits, stripes, output streams, the raw tap and the contact sheet. -/
namespace Sys2Proof.Machine

/-! ## Commits (R171, R212, R230) -/

/-- A DRAM address held as a low and a high register of a bank. -/
def bankAddr (b : SMap Word) (lo hi : Nat) : Nat := bankRd b lo + (bankRd b hi % 64) * 2 ^ 32

/-- The tables of R171 that a bank of a context enables, with their sizes. -/
def devTables (b : SMap Word) (c : Nat) : List (Nat × Nat) :=
  let n := bankFld b (F.DEV_CTX_DPC_MAP_COUNT_count c)
  (if bankBit b (F.DEV_CTX_DPC_CTRL_static c) && n != 0 then
      [(bankAddr b (R.DEV_CTX_DPC_MAP_LO c) (R.DEV_CTX_DPC_MAP_HI c), 4 * n)] else [])
    ++ (if bankBit b (F.DEV_CTX_SHD_CTRL_enable c) then [(bankAddr b (R.DEV_CTX_SHD_LO c) (R.DEV_CTX_SHD_HI c), 4488)] else [])
    ++ (if bankBit b (F.DEV_CTX_STAT_CTRL_enable c) then
      [(bankAddr b (R.DEV_CTX_STAT_LO c) (R.DEV_CTX_STAT_HI c), 2 ^ bankFld b (F.DEV_CTX_STAT_CTRL_log_slots c) * 65536)] else [])

/-- The tables of R210 that a bank of a context enables. -/
def colourTables (b : SMap Word) (c : Nat) : List (Nat × Nat) :=
  (if bankBit b (F.DEV_CTX_DB_CTRL_enable c) then [(bankAddr b (R.DEV_CTX_DB_LO c) (R.DEV_CTX_DB_HI c), 384)] else [])
    ++ (if bankBit b (F.DEV_CTX_TONE_CTRL_enable c) then [(bankAddr b (R.DEV_CTX_TONE_LO c) (R.DEV_CTX_TONE_HI c), 24768)] else [])
    ++ (if bankBit b (F.DEV_CTX_LUT_CTRL_enable c) then [(bankAddr b (R.DEV_CTX_LUT_LO c) (R.DEV_CTX_LUT_HI c), 287496)] else [])

/-- The geometry of a stream's bank (R216). -/
structure Geometry where
  x0 : Nat
  y0 : Nat
  cw : Nat
  ch : Nat
  p : Nat
  ow : Nat
  oh : Nat

/-- A stream's geometry. With `prebin` 3, for which the spec gives no P and which check 6 of R230 refuses as FILTER, the checks
before that one take P as 1. [assumption 23, DESIGN CHOICE] -/
def geometry (b : SMap Word) (k : Nat) : Geometry where
  x0 := bankFld b (F.DEV_OS_CROP_XY_x0 k)
  y0 := bankFld b (F.DEV_OS_CROP_XY_y0 k)
  cw := bankFld b (F.DEV_OS_CROP_WH_cw k)
  ch := bankFld b (F.DEV_OS_CROP_WH_ch k)
  p := if bankFld b (F.DEV_OS_CTRL_prebin k) = 1 then 2 else if bankFld b (F.DEV_OS_CTRL_prebin k) = 2 then 4 else 1
  ow := bankFld b (F.DEV_OS_OUT_WH_ow k)
  oh := bankFld b (F.DEV_OS_OUT_WH_oh k)

/-- The address, pitch, buffer count and stride of a stream's buffers (R214, R233). -/
def osBase (b : SMap Word) (k : Nat) : Nat := bankAddr b (R.DEV_OS_BASE_LO k) (R.DEV_OS_BASE_HI k)
@[inherit_doc osBase] def osPitch (b : SMap Word) (k : Nat) : Nat := bankFld b (F.DEV_OS_PITCH_pitch k) * 64
@[inherit_doc osBase] def osBufs (b : SMap Word) (k : Nat) : Nat := bankFld b (F.DEV_OS_BUF_bufs k)
@[inherit_doc osBase] def osStride (b : SMap Word) (k : Nat) : Nat := bankFld b (F.DEV_OS_STRIDE_stride k) * 4096

/-- The least pitch and the least stride of a picture in DRAM (R224, R321). -/
def minPitch (layout fmt w : Nat) : Nat :=
  if layout = 1 then ceilDiv w 32 * 1536
  else if fmt ≤ 3 then 6 * w
  else if fmt ≤ 5 then 4 * w
  else if fmt ≤ 7 then 2 * w
  else 0
@[inherit_doc minPitch] def minStride (layout fmt h pitch : Nat) : Nat :=
  if layout = 1 then pitch * ceilDiv h 8
  else if fmt = 6 ∨ fmt = 7 then pitch * 3 * h / 2
  else pitch * h

/-- Whether a matrix is the one that a format allows (R220). -/
def matrixFits (fmt matrix : Nat) : Bool :=
  if fmt ≤ 2 ∨ fmt = 8 then matrix = 0 else matrix = 1 || matrix = 2

/-- What a commit check reports: a state of DEV_CTX_STATUS, and for a colour check its detail, stream and tap. -/
structure Refused where
  state : Nat
  detail : Nat
  stream : Nat
  tap : Bool

/-- The first failing stream of a check. -/
def firstBad (l : List Nat) (p : Nat → Bool) (state detail : Nat) : Option Refused :=
  (l.find? p).map (fun k => ⟨state, detail, k, false⟩)

/-- The first of a list of outcomes. -/
def firstOf (l : List (Option Refused)) : Option Refused := l.findSome? id

/-- The checks of R171 and R230 on a context's shadow bank `b` and the shadow banks `os` of its streams, in their
order. -/
def State.commitChecks (s : State) (c : Nat) (b : SMap Word) (os : List (Nat × SMap Word)) : Option Refused :=
  let w := bankFld b (F.DEV_CTX_SIZE_width c)
  let h := bankFld b (F.DEV_CTX_SIZE_height c)
  let own := fun (o u : Nat) => o = 9 && u = c
  let shapeOk := match s.shape 9 c with
    | none => false
    | some sh => w % 2 = 0 && decide (16 ≤ w) && decide (w ≤ sh.dimA) && h % 2 = 0 && decide (2 ≤ h) && decide (h ≤ sh.dimB)
        && decide (bankFld b (F.DEV_CTX_FMT_cfa c) ≤ 4) && sh.format.testBit (bankFld b (F.DEV_CTX_FMT_depth c))
  let log := bankFld b (F.DEV_CTX_STAT_CTRL_log_slots c)
  let lengthOk := decide (bankFld b (F.DEV_CTX_DPC_MAP_COUNT_count c) ≤ 65536)
    && (!bankBit b (F.DEV_CTX_STAT_CTRL_enable c) || (decide (1 ≤ log) && decide (log ≤ 10)))
  let inside := fun (l : List (Nat × Nat)) => l.all (fun e => s.userRegion e.1 e.2 own)
  let on := os.filter (fun e => bankBit e.2 (F.DEV_OS_CTRL_enable e.1))
  let ids := on.map (fun e => e.1)
  let bank := fun k => ((on.find? (fun e => e.1 = k)).map (fun e => e.2)).getD []
  let osTables := on.flatMap (fun e =>
    (if bankFld e.2 (F.DEV_OS_CTRL_filter e.1) = 2 then [(bankAddr e.2 (R.DEV_OS_FILT_LO e.1) (R.DEV_OS_FILT_HI e.1), 2048)] else [])
      ++ (if bankBit e.2 (F.DEV_OS_CTRL_to_dram e.1) then [(osBase e.2 e.1, osBufs e.2 e.1 * osStride e.2 e.1)] else []))
  let lengthBad := fun k =>
    let v := bank k
    let g := geometry v k
    let layout := bankFld v (F.DEV_OS_FMT_layout k)
    let fmt := bankFld v (F.DEV_OS_FMT_fmt k)
    !(decide (16 ≤ g.cw) && decide (g.cw ≤ 16384) && decide (2 ≤ g.ch) && decide (g.ch ≤ 8192) && decide (16 ≤ g.ow)
        && decide (g.ow ≤ 16384) && decide (2 ≤ g.oh) && decide (g.oh ≤ 8192) && g.cw % g.p = 0 && g.ch % g.p = 0)
      || (bankBit v (F.DEV_OS_CTRL_to_dram k) && !(decide (minPitch layout fmt g.ow ≤ osPitch v k)
        && decide (minStride layout fmt g.oh (osPitch v k) ≤ osStride v k) && decide (1 ≤ osBufs v k) && decide (osBufs v k ≤ 4)))
  let ownedBad := fun k =>
    let a := (s.stream k).active
    bankBit a (F.DEV_OS_CTRL_enable k) && bankFld a (F.DEV_OS_CTRL_src k) != c
  let cropBad := fun k => let g := geometry (bank k) k; decide (w < g.x0 + g.cw) || decide (h < g.y0 + g.ch)
  let scaleBad := fun k =>
    let g := geometry (bank k) k
    let cb := g.cw / g.p
    let hb := g.ch / g.p
    decide (4 * g.ow < cb) || decide (8 * cb < g.ow) || decide (4 * g.oh < hb) || decide (8 * hb < g.oh)
  let filterBad := fun k => bankFld (bank k) (F.DEV_OS_CTRL_filter k) = 3 || bankFld (bank k) (F.DEV_OS_CTRL_prebin k) = 3
  let ways := fun k =>
    let v := bank k
    (bankBit v (F.DEV_OS_CTRL_to_dram k), bankBit v (F.DEV_OS_CTRL_to_strand k), bankBit v (F.DEV_OS_CTRL_notify k))
  let formatBad := fun k =>
    let v := bank k
    let g := geometry v k
    let fmt := bankFld v (F.DEV_OS_FMT_fmt k)
    !([(true, false, false), (true, false, true), (false, true, false)].contains (ways k))
      || decide (8 < fmt) || !matrixFits fmt (bankFld v (F.DEV_OS_FMT_matrix k))
      || (decide (4 ≤ fmt) && decide (fmt ≤ 7) && g.ow % 2 = 1) || ((fmt = 6 || fmt = 7) && g.oh % 2 = 1)
      || (bankBit v (F.DEV_OS_FMT_layout k) && decide (2 < fmt)) || (fmt = 8 && !bankBit v (F.DEV_OS_CTRL_fuse k))
  let fuseBad := fun k =>
    let v := bank k
    bankBit v (F.DEV_OS_CTRL_fuse k) &&
      !(bankFld v (F.DEV_OS_FMT_fmt k) = 8 && ways k == (false, true, false) && bankFld v (F.DEV_OS_FMT_matrix k) = 0
        && !bankBit v (F.DEV_OS_FMT_layout k) && !bankBit b (F.DEV_CTX_LUT_CTRL_enable c)
        && s.bodies.any (fun r => match r with
          | .strand _ si sp di _ _ _ => si = 9 && sp = 16 + k && di = 12
          | _ => false))
  let strandBad := fun k => ((ways k).2.1 || (ways k).2.2) && (s.strandFrom .dev (16 + k)).isNone
  if !shapeOk then some ⟨4, 0, 0, false⟩
  else if !lengthOk then some ⟨3, 0, 0, false⟩
  else if !inside (devTables b c) then some ⟨5, 0, 0, false⟩
  else firstOf [
    if inside (colourTables b c ++ osTables) then none else some ⟨5, 0, 0, false⟩,
    firstBad ids lengthBad 3 0, firstBad ids ownedBad 6 1, firstBad ids cropBad 6 2, firstBad ids scaleBad 6 3,
    firstBad ids filterBad 6 4, firstBad ids formatBad 6 5, firstBad ids fuseBad 6 6, firstBad ids strandBad 6 7,
    if bankBit b (F.DEV_CTX_RAW_TAP_enable c) && (s.strandFrom .dev c).isNone then some ⟨6, 7, 0, true⟩ else none]

/-- A commit of a context (R171, R172, R173, R212). A fifth accepted generation while four are held takes the place of the
oldest, which can then no longer be bound: the spec says only that the device holds up to four. [assumption 23, DESIGN CHOICE] -/
def State.devCommit (s : State) (c : Nat) : State :=
  let b := s.snap (R.DEV_CTX_SIZE c) (R.DEV_CTX_CTRL (c + 1))
  let os := ((List.range 8).map (fun k => (k, s.snap (R.DEV_OS_CTRL k) (R.DEV_OS_STATUS k)))).filter (fun e =>
    bankFld e.2 (F.DEV_OS_CTRL_src e.1) = c)
  match s.commitChecks c b os with
  | some r =>
    let s := (s.put (F.DEV_CTX_STATUS_commit_state c) r.state).put ⟨R.DEV_EVT, 16 + c, 16 + c⟩ 1
    if r.state = 6 then s.wr (R.DEV_REFUSE_DETAIL c) (r.detail + 16 * r.stream + (if r.tap then 128 else 0)) else s
  | none =>
    let g := (s.fld (F.DEV_CTX_GEN_PEND_value c) + 1) % 2 ^ 32
    let x := s.ctx c
    let new := (⟨g, b, os⟩, s.nowNs)
    let pend := if s.follows 7 s.nowNs then (x.pend ++ [new]).drop ((x.pend.length + 1) - 4) else [new]
    let s := s.setCtx c { x with pend := pend }
    let s := ((s.put (F.DEV_CTX_GEN_PEND_value c) g).put (F.DEV_CTX_STATUS_commit_state c) 1).wr (R.DEV_REFUSE_DETAIL c) 0
    ((s.ctx c).frames.filter (fun f => !f.bound)).foldl (fun s f => s.bindResume c f.tag false) s

/-- DEV_COMMIT: the write sets `commit`. A context that no CONTEXT_SHAPE covers does not exist (R50, R191). -/
def execDevCommit (m : Master) (ctx : Nat) (_v : Word) (s : State) : Host.Outcome State Fault Refusal :=
  done (s.guardedWrite m (R.DEV_CTX_CTRL (ctx % 16)) (fun s =>
    if (s.shape 9 (ctx % 16)).isSome then s.devCommit (ctx % 16) else s.shapeMiss))

/-! ## Reading the ingress buffer and the tables -/

/-- 16-bit little-endian words of bytes. -/
def words16 : List Byte → List Nat
  | a :: b :: r => (a.toNat + 256 * b.toNat) :: words16 r
  | _ => []

/-- 32-bit little-endian words of bytes. -/
def words32 : List Byte → List Nat
  | a :: b :: c :: d :: r => (a.toNat + 256 * b.toNat + 65536 * c.toNat + 16777216 * d.toNat) :: words32 r
  | _ => []

/-- The code values of an in-frame line: those in its slot, or the pad value for a line at or beyond a, or of a frame
whose every line is padded (R163, R170). -/
def State.frameLine (s : State) (c : Nat) (f : CamFrame) (y : Nat) : List Nat :=
  let w := declW f.gen c
  if f.allPad ∨ (f.isOpen = false ∧ f.lines ≤ y) ∨ f.held.contains y = false then List.replicate w (declPad f.gen c)
  else words16 ((f.lineSpans y w).flatMap (fun p => s.poolRead p.1 p.2))

/-- A window of code values. -/
def State.rawWindow (s : State) (c : Nat) (f : CamFrame) (lo hi : Int) : Window :=
  let h := declH f.gen c
  ⟨lo, declW f.gen c, ((List.range (hi + 1 - lo).toNat).map (fun (i : Nat) =>
    ((s.frameLine c f (reflect h (lo + i))).map (fun (v : Nat) => (v : Int))).toArray)).toArray⟩

/-- A frame reads bytes of DRAM; poisoned data excludes its digests (R110). -/
def State.frameFetch (s : State) (f : CamFrame) (a n : Nat) : List Byte × CamFrame × State :=
  let r := s.dramFetch a n
  (r.1, if r.2.1 then { f with excluded := true } else f, r.2.2)

/-- The keys of a static defect map that are not ignored, and the number of ignored entries (R177). -/
def defectMap (w h : Nat) (l : List Nat) : List Nat × Nat :=
  let r := l.foldl (fun (acc : List Nat × Nat) e =>
    let x := e % 16384
    let y := e / 16384 % 8192
    let key := y * 16384 + x
    let later := match acc.1 with
      | [] => true
      | k :: _ => decide (k < key)
    if e < 2 ^ 27 ∧ x < w ∧ y < h ∧ later = true then (key :: acc.1, acc.2) else (acc.1, acc.2 + 1)) ([], 0)
  (r.1, r.2)

/-! ## The contact sheet (R185 to R190) -/

/-- No statistics yet. -/
def Contact.clear : Contact := ⟨[], 0, 0, [], [], []⟩

/-- One photosite's contribution: its position, phase, colour, X and X′ (R186 to R188). -/
def Contact.site (k : Contact) (w h x y phase colour : Nat) (xv xs : Nat) : Contact :=
  let clip := decide (0x100000 ≤ xv)
  let z := 64 * (36 * y / h) + 64 * x / w
  let a := mapGet ⟨0, 0, 0, 0, 0⟩ k.zones z
  let v := xs / 256
  let a : ZoneAcc := ⟨a.r + (if colour = 0 then v else 0), a.g + (if colour = 1 then v else 0),
    a.b + (if colour = 2 then v else 0), a.clip + (if clip then 1 else 0), a.n + 1⟩
  { k with
    clip := if clip then mapSet k.clip phase (mapGet 0 k.clip phase + 1) else k.clip
    hist := mapSet k.hist (192 * phase + binOf xs) (mapGet 0 k.hist (192 * phase + binOf xs) + 1)
    zones := mapSet k.zones z a }

/-- One difference's contribution to its focus window (R189). -/
def Contact.focusDiff (k : Contact) (w h x y : Nat) (vertical : Bool) (d : Nat) : Contact :=
  let i := 16 * (9 * y / h) + 16 * x / w
  let a := mapGet ⟨0, 0, 0⟩ k.focus i
  let v := d / 256
  let a : FocusAcc := ⟨if vertical then a.h else min (a.h + v) 0xFFFFFFFF, if vertical then min (a.v + v) 0xFFFFFFFF else a.v, max a.peak v⟩
  { k with focus := mapSet k.focus i a }

/-- The 96 bits of a timestamp (R13), as 12 little-endian bytes. -/
def stampBytes (ns : Nat) : List Byte := leBytes 8 (ns / 1000000000) ++ leBytes 4 (ns % 1000000000)

/-- The record of a finished frame (R186). -/
def contactRecord (c : Nat) (f : CamFrame) (k : Contact) (seq : Nat) : List Byte :=
  let b := f.gen.regs
  let bit := fun (x : Bool) (n : Nat) => if x then 2 ^ n else 0
  let sflags := bit f.predicted 0 + bit f.fs.echo 1 + bit (bankBit b (F.DEV_CTX_DPC_CTRL_static c)) 2
    + bit (bankBit b (F.DEV_CTX_DPC_CTRL_dynamic c)) 3 + bit (bankBit b (F.DEV_CTX_SHD_CTRL_enable c)) 4
  leBytes 4 seq ++ leBytes 2 f.tag ++ leBytes 2 f.setTag ++ leBytes 2 sflags ++ leBytes 2 f.flags ++ leBytes 4 f.gen.num
    ++ leBytes 2 (declW f.gen c) ++ leBytes 2 (declH f.gen c) ++ leBytes 2 f.lines ++ leBytes 1 (declDepth f.gen c)
    ++ leBytes 1 (declCfa f.gen c) ++ leBytes 4 f.fs.expNs ++ leBytes 2 f.fs.gain ++ zeroBytes 2 ++ fitBytes 12 f.fs.meta12
    ++ zeroBytes 4 ++ stampBytes f.sof ++ zeroBytes 4
    ++ ([0, 1, 2, 3] : List Nat).flatMap (fun p => leBytes 4 (mapGet 0 k.clip p))
    ++ leBytes 4 k.dpcStatic ++ leBytes 4 k.dpcDynamic ++ zeroBytes 36 ++ leBytes 4 (0xFFFFFFFF - seq % 2 ^ 32)
    ++ (List.range 768).flatMap (fun n => leBytes 4 (mapGet 0 k.hist n))
    ++ (List.range 2304).flatMap (fun z =>
      let a := mapGet ⟨0, 0, 0, 0, 0⟩ k.zones z
      leBytes 4 a.r ++ leBytes 4 a.g ++ leBytes 4 a.b ++ leBytes 2 a.clip ++ leBytes 2 a.n)
    ++ (List.range 144).flatMap (fun i =>
      let a := mapGet ⟨0, 0, 0⟩ k.focus i
      leBytes 4 a.h ++ leBytes 4 a.v ++ leBytes 4 a.peak ++ zeroBytes 4)

/-- The record of the oldest frame that owes one is written, once that frame is finished: records are completed in frame order
(R185, R190). -/
def State.contactSheet (s : State) (c : Nat) : State :=
  let x := s.ctx c
  let owes := fun (f : CamFrame) => f.stats.isSome && !f.recorded
  match x.frames.find? owes with
  | none => s
  | some f =>
    if !f.finished then s else
    let b := f.gen.regs
    let slots := 2 ^ bankFld b (F.DEV_CTX_STAT_CTRL_log_slots c)
    let a := bankAddr b (R.DEV_CTX_STAT_LO c) (R.DEV_CTX_STAT_HI c) + 65536 * (x.statSeq % slots)
    let s := s.dramWrite a (contactRecord c f (f.stats.getD .clear) x.statSeq)
    let next := (x.statSeq + 1) % 2 ^ 32
    let s := s.setCtx c { x with statSeq := next, frames := replaceFirst owes { f with recorded := true } x.frames }
    ((s.wr (R.DEV_CTX_STAT_SEQ c) next).put ⟨R.DEV_EVT, c, c⟩ 1).frameEnds c

/-- CONTACT_SHEET_RECORD. -/
def execContactSheetRecord (ctx : Nat) (s : State) : Host.Outcome State Fault Refusal :=
  done (if s.runs .dev then s.contactSheet (ctx % 16) else s)

/-! ## Output streams (R213 to R229) -/

/-- The FRAME_START token (R226). -/
def frameStartToken (fmt tag gen w h raw stream sof : Nat) : Token :=
  BitVec.ofNat 256 (1 + tokenAt 8 (fmt % 256) + tokenAt 16 (tag % 65536) + tokenAt 32 (gen % 2 ^ 32) + tokenAt 64 (w % 65536)
    + tokenAt 80 (h % 65536) + tokenAt 96 (raw % 65536) + tokenAt 112 (stream % 65536) + tokenAt 128 (sof / 1000000000 % 2 ^ 64)
    + tokenAt 192 (sof % 1000000000))

/-- The LINE token, with the data tokens that follow (R226). -/
def streamLineToken (line n : Nat) : Token := BitVec.ofNat 256 (2 + tokenAt 16 (line % 65536) + tokenAt 32 n)

/-- The SURFACE_DONE token (R226). -/
def surfaceDoneToken (tag num buf : Nat) : Token :=
  BitVec.ofNat 256 (4 + tokenAt 16 (tag % 65536) + tokenAt 32 (num % 2 ^ 32) + tokenAt 64 (buf % 256))

/-- Samples of `bits` bits packed into tokens, `per` to a token, the last padded with zero samples (R227).
[assumption 21, DESIGN CHOICE] -/
def dataTokens (bits per : Nat) : Nat → List Nat → List Token
  | 0, _ => []
  | _, [] => []
  | n + 1, l =>
    BitVec.ofNat 256 (((l.take per).zipIdx.map (fun e => tokenAt (bits * e.2) (e.1 % 2 ^ bits))).sum)
      :: dataTokens bits per n (l.drop per)

/-- A line's tokens: its LINE token and data tokens, a chroma row starting in a fresh token (R227).
[assumption 21, DESIGN CHOICE] -/
def lineTokens (fmt line : Nat) (luma chroma : List Nat) : List Token :=
  let bits := if fmt = 8 then 32 else 16
  let d := fun (l : List Nat) => dataTokens bits (256 / bits) l.length l
  let body := d luma ++ d chroma
  streamLineToken line body.length :: body

/-- A component of a pixel. -/
def Pix.comp (p : Pix) (k : Nat) : Nat := if k = 0 then p.r else if k = 1 then p.g else p.b

/-- The binned sample of a stream's crop (R217): `line` gives the developed lines. -/
def binned (g : Geometry) (line : Nat → Array Pix) (k r q : Nat) : Int :=
  let sum := ((List.range g.p).flatMap (fun dy =>
    let row := line (g.y0 + g.p * q + dy)
    (List.range g.p).map (fun dx => (row.getD (g.x0 + g.p * r + dx) ⟨0, 0, 0⟩).comp k))).sum
  ((sum + g.p * g.p / 2) / (g.p * g.p) : Nat)

/-- An output line of a stream's enlarger (R218). -/
def enlargeLine (b : SMap Word) (k : Nat) (filt : List Byte) (v : Int) (line : Nat → Array Pix) (j : Nat) : List Pix :=
  let g := geometry b k
  let cb := g.cw / g.p
  let hb := g.ch / g.p
  let filter := bankFld b (F.DEV_OS_CTRL_filter k)
  let tab := (words16 filt).toArray
  let coefH := fun q t => filterTap filter (fun q t => signedOf 16 (tab.getD (8 * q + t) 0)) q t
  let coefV := fun q t => filterTap filter (fun q t => signedOf 16 (tab.getD (512 + 8 * q + t) 0)) q t
  let (iy, qy) := scalePos hb g.oh j
  let rows : Array (Array (Array Int)) := ((List.range 8).map (fun (t : Nat) =>
    let q := (clampI 0 ((hb : Int) - 1) (iy - 3 + t)).toNat
    ((List.range 3).map (fun comp =>
      let src : Array Int := ((List.range cb).map (fun r => binned g line comp r q)).toArray
      ((List.range g.ow).map (fun i =>
        let (ix, qx) := scalePos cb g.ow i
        filterH v (filterAt (coefH qx) (fun n => src.getD n 0) cb ix))).toArray)).toArray)).toArray
  (List.range g.ow).map (fun i =>
    let at3 := fun comp => (filterV v (((List.range 8).map (fun t =>
      coefV qy t * ((rows.getD t #[]).getD comp #[]).getD i 0)).sum)).toNat
    ⟨at3 0, at3 1, at3 2⟩)

/-- The frame line that an output line waits for (R219). -/
def lineNeeds (g : Geometry) (j : Nat) : Nat :=
  let hb := g.ch / g.p
  let iy := (scalePos hb g.oh j).1
  g.y0 + g.p * (min (iy + 4) ((hb : Int) - 1)).toNat + g.p - 1

/-- The samples of an output line: those of the line and, after an odd line of a 4:2:0 format, its chroma row (R220 to
R223). `prev` is the scaled line before. -/
def lineSamples (fmt matrix : Nat) (narrow : Bool) (j : Nat) (px prev : List Pix) : List Nat × List Nat :=
  let n := formatBits fmt
  let q := fun (chroma : Bool) (v : Int) => (quantise n narrow chroma v).toNat
  let ycc := fun (l : List Pix) => (l.map (fun p => toYcc matrix p.r p.g p.b)).toArray
  let cur := ycc px
  let w := px.length
  let cb := fun (a : Array (Int × Int × Int)) i => (a.getD i (0, 0, 0)).2.1
  let cr := fun (a : Array (Int × Int × Int)) i => (a.getD i (0, 0, 0)).2.2
  if fmt = 8 then (px.flatMap (fun p => [p.r, p.g, p.b]), [])
  else if fmt ≤ 2 then (px.flatMap (fun p => [q false p.r, q false p.g, q false p.b]), [])
  else if fmt = 3 then (cur.toList.flatMap (fun t => [q false t.1, q true t.2.1, q true t.2.2]), [])
  else if fmt ≤ 5 then
    (cur.toList.zipIdx.flatMap (fun e =>
      [q false e.1.1, if e.2 % 2 = 0 then q true (subsample (cb cur) w (e.2 / 2)) else q true (subsample (cr cur) w (e.2 / 2))]), [])
  else
    let before := ycc prev
    (cur.toList.map (fun t => q false t.1),
      if j % 2 = 1 then
        (List.range (w / 2)).flatMap (fun m =>
          [q true ((subsample (cb before) w m + subsample (cb cur) w m + 1) / 2),
            q true ((subsample (cr before) w m + subsample (cr cur) w m + 1) / 2)])
      else [])

/-- The bytes of samples. -/
def sampleBytes (size : Nat) (l : List Nat) : List Byte := l.flatMap (leBytes size)

/-- A line written in the tiled layout of R322, with zero beyond the picture. -/
def State.writeTiled (s : State) (base pitch w h j : Nat) (samples : List Nat) : State :=
  let tiles := ceilDiv w 32
  let row := samples ++ List.replicate (96 * tiles - samples.length) 0
  let put := fun (s : State) (line : Nat) (l : List Nat) => (List.range tiles).foldl (fun s mx =>
    s.dramWrite (base + pitch * (line / 8) + 1536 * mx + 192 * (line % 8)) (sampleBytes 2 ((l.drop (96 * mx)).take 96))) s
  let s := put s j row
  if j + 1 = h then
    (List.range (ceilDiv h 8 * 8 - h)).foldl (fun s k => put s (h + k) (List.replicate (96 * tiles) 0)) s
  else s

/-- An output line leaves: to DRAM, to the strand and into the digest (R102, R214, R224, R226). -/
def State.outLine (s : State) (o : OutFrame) (px : List Pix) : OutFrame × State :=
  let k := o.stream
  let b := o.bank
  let g := geometry b k
  let fmt := bankFld b (F.DEV_OS_FMT_fmt k)
  let j := o.next
  let sm := lineSamples fmt (bankFld b (F.DEV_OS_FMT_matrix k)) (bankBit b (F.DEV_OS_FMT_narrow k)) j px o.prevLine
  let size := if fmt = 8 then 4 else 2
  let s := if bankBit b (F.DEV_OS_CTRL_to_dram k) then
      let base := osBase b k + (o.num % max 1 (osBufs b k)) * osStride b k
      let pitch := osPitch b k
      if bankBit b (F.DEV_OS_FMT_layout k) then s.writeTiled base pitch g.ow g.oh j sm.1
      else
        let s := s.dramWrite (base + pitch * j) (sampleBytes size sm.1)
        if sm.2.isEmpty then s else s.dramWrite (base + pitch * (g.oh + j / 2)) (sampleBytes size sm.2)
    else s
  let s := match o.link with
    | some (id, d) => if bankBit b (F.DEV_OS_CTRL_to_strand k) then s.strandSend id d (lineTokens fmt j sm.1 sm.2) else s
    | none => s
  ({ o with next := j + 1, prevLine := px
            crc := crcReflected 0xC96C5795D7870F42 o.crc (sampleBytes size sm.1 ++ sampleBytes size sm.2) }, s)

/-- The output lines that a stripe ending at frame line `last` produces (R219). -/
def State.outLines (s : State) (lines : Bool → Nat → Array Pix) (last : Nat) : Nat → OutFrame → OutFrame × State
  | 0, o => (o, s)
  | n + 1, o =>
    let g := geometry o.bank o.stream
    if o.next < g.oh ∧ lineNeeds g o.next ≤ last then
      let fused := bankBit o.bank (F.DEV_OS_CTRL_fuse o.stream)
      let px := enlargeLine o.bank o.stream o.filt (if fused then 16777216 else 65536) (lines fused) o.next
      let r := s.outLine o px
      r.2.outLines lines last n r.1
    else (o, s)

/-! ## The stripe (R168, R169, R196) -/

/-- Whether the next stripe of a frame is a ready work unit (R169). A frame that is padded whole, because its bound generation
is not the one of its intake (R173), has no received line to go by: its stripes wait for its close.
[assumption 23, DESIGN CHOICE] -/
def State.stripeReady (s : State) (c : Nat) (f : CamFrame) : Bool :=
  let h := declH f.gen c
  f.bound && (!f.isOpen || (!f.allPad && !s.closeFollowed f &&
    (List.range (min (64 * f.stripes + 69) h - 64 * f.stripes)).all (fun i =>
      f.count (64 * f.stripes + i) = declW f.intake c)))

/-- The frame whose stripes a context processes now: the first whose stripes have not all completed. -/
def State.stripeFrame (s : State) (c : Nat) : Option CamFrame :=
  (s.ctx c).frames.find? (fun f => f.link.isSome && !f.developed c)

/-- What stripe 0 reads and sends before its photosites (R175, R211, R226, R228). The defect map is read whole here, and all
its ignored entries counted, although R175 lets the reading go on while the stripes are processed; of the shading grid a
monochrome frame reads phase 0 alone (R181). [assumption 23, DESIGN CHOICE] -/
def State.beginFrame (s : State) (c : Nat) (f : CamFrame) : CamFrame × State :=
  let b := f.gen.regs
  let w := declW f.gen c
  let h := declH f.gen c
  let load := fun (fs : CamFrame × State) (on : Bool) (lo hi n : Nat) (put : CamFrame → List Byte → CamFrame) =>
    if on then
      let r := fs.2.frameFetch fs.1 (bankAddr b lo hi) n
      (put r.2.1 r.1, r.2.2)
    else fs
  let r := (f, s)
  let r := load r (bankBit b (F.DEV_CTX_SHD_CTRL_enable c)) (R.DEV_CTX_SHD_LO c) (R.DEV_CTX_SHD_HI c) (if declCfa f.gen c = 4 then 1122 else 4488)
    (fun f l => { f with grid := some l })
  let r := load r (bankBit b (F.DEV_CTX_DB_CTRL_enable c)) (R.DEV_CTX_DB_LO c) (R.DEV_CTX_DB_HI c) 384
    (fun f l => { f with dodge := some l })
  let r := load r (bankBit b (F.DEV_CTX_TONE_CTRL_enable c)) (R.DEV_CTX_TONE_LO c) (R.DEV_CTX_TONE_HI c) 24768
    (fun f l => { f with tone := some l })
  let r := load r (bankBit b (F.DEV_CTX_LUT_CTRL_enable c)) (R.DEV_CTX_LUT_LO c) (R.DEV_CTX_LUT_HI c) 287496
    (fun f l => { f with lut := some l })
  let n := bankFld b (F.DEV_CTX_DPC_MAP_COUNT_count c)
  let r := if bankBit b (F.DEV_CTX_DPC_CTRL_static c) && n != 0 then
      let q := r.2.frameFetch r.1 (bankAddr b (R.DEV_CTX_DPC_MAP_LO c) (R.DEV_CTX_DPC_MAP_HI c)) (4 * n)
      let d := defectMap w h (words32 q.1)
      ({ q.2.1 with dmap := d.1 }, q.2.2.bump (F.DEV_CTX_DPC_IGNORED_count c) d.2)
    else r
  let r := r.1.outs.foldl (fun (acc : (CamFrame × List OutFrame) × State) o =>
      if bankFld o.bank (F.DEV_OS_CTRL_filter o.stream) = 2 then
        let q := acc.2.frameFetch acc.1.1 (bankAddr o.bank (R.DEV_OS_FILT_LO o.stream) (R.DEV_OS_FILT_HI o.stream)) 2048
        ((q.2.1, acc.1.2 ++ [{ o with filt := q.1 }]), q.2.2)
      else ((acc.1.1, acc.1.2 ++ [o]), acc.2)) ((r.1, []), r.2)
  let f := { r.1.1 with
    outs := r.1.2
    stats := if bankBit b (F.DEV_CTX_STAT_CTRL_enable c) then some .clear else none }
  let s := match f.tapLink with
    | some (id, d) => r.2.strandSend id d
        [frameStartToken 0xF0 f.tag f.gen.num w h (declDepth f.gen c + 256 * declCfa f.gen c) 0xFF f.sof]
    | none => r.2
  (f, f.outs.foldl (fun s o => match o.link with
    | some (id, d) =>
      let g := geometry o.bank o.stream
      s.strandSend id d [frameStartToken (bankFld o.bank (F.DEV_OS_FMT_fmt o.stream)) f.tag f.gen.num g.ow g.oh 0 o.stream f.sof]
    | none => s) s)

/-- Raw tap tokens of a stripe (R228). -/
def State.tapStripe (s : State) (f : CamFrame) (c y0 y1 : Nat) : State :=
  match f.tapLink with
  | some (id, d) => (List.range (y1 + 1 - y0)).foldl (fun s i =>
      s.strandSend id d (lineTokens 0 (y0 + i) (s.frameLine c f (y0 + i)) [])) s
  | none => s

/-- What a stripe computes from its window of code values: statistics, the dodge and burn gains, and the developed lines
of the context's output and of the fused tap (R176 to R209). -/
structure Developed where
  stats : Option Contact
  gains : List Nat
  fused : List (Nat × List Pix)
  out : List (Nat × List Pix)

/-- Stripe `st` of a frame, lines `y0` to `y1`, of which those below `a` count in the statistics. -/
def developStripe (c : Nat) (f : CamFrame) (raw : Window) (st y0 y1 a : Nat) : Developed :=
  let b := f.gen.regs
  let w := declW f.gen c
  let h := declH f.gen c
  let cfa := declCfa f.gen c
  let dyn := bankBit b (F.DEV_CTX_DPC_CTRL_dynamic c)
  let hot : Int := bankFld b (F.DEV_CTX_DPC_THR_hot c)
  let cold : Int := bankFld b (F.DEV_CTX_DPC_THR_cold c)
  let grid := (words16 (f.grid.getD [])).toArray
  let knot := fun k j i => grid.getD (561 * k + 33 * j + i) 0
  let kind := fun (x y : Nat) =>
    if f.dmap.contains (y * 16384 + x) then 1 else if dyn && dynamicDefect raw cfa x y hot cold then 2 else 0
  let norm := fun (x y : Nat) (p : Int) =>
    let k := phaseOf cfa x y
    normalise p (bankFld b (F.DEV_CTX_BLACK_black c k)) (bankFld b (F.DEV_CTX_NORM_norm c k))
  let shaded := fun (x y : Nat) (v : Int) => if f.grid.isSome then shade knot w h (phaseOf cfa x y) x y v else v
  let gain := fun (x y : Nat) => (bankFld b ⟨R.DEV_CTX_WB_GAIN c (colourAt cfa x y), 19, 0⟩ : Int)
  let lo : Int := (y0 : Int) - 3
  let hi : Int := (y1 : Int) + 3
  let xw := buildWindow w h lo hi (fun x y =>
    norm x y (if kind x y = 0 then raw.px x y else replaceSite raw cfa x y))
  let xs := buildWindow w h lo hi (fun x y => shaded x y (xw.px x y))
  let p := buildWindow w h lo hi (fun x y => balance (xs.px x y) (gain x y))
  let gr := if cfa = 4 then p else buildWindow w h ((y0 : Int) - 1) ((y1 : Int) + 1) (fun x y =>
    if colourAt cfa x y = 1 then p.px x y else greenAt p x y)
  -- statistics
  let rows := (List.range (y1 + 1 - y0)).map (y0 + ·)
  let cols := List.range w
  let step := if cfa = 4 then 1 else 2
  let stats := f.stats.map (fun k0 => (rows.filter (fun y => decide (y < a))).foldl (fun k y => cols.foldl (fun k x =>
    let k := match kind x y with
      | 1 => { k with dpcStatic := k.dpcStatic + 1 }
      | 2 => { k with dpcDynamic := k.dpcDynamic + 1 }
      | _ => k
    let v := xs.px x y
    let k := k.site w h x y (phaseOf cfa x y) (colourAt cfa x y) (xw.px x y).toNat v.toNat
    if colourAt cfa x y = 1 then
      let k := if x + step < w then k.focusDiff w h x y false (v - xs.px (x + step : Nat) y).natAbs else k
      if y + step < a then k.focusDiff w h x y true (v - xs.px x (y + step : Nat)).natAbs else k
    else k) k) k0)
  -- dodge and burn
  let nb := ceilDiv w 64
  let table := (words16 (f.dodge.getD [])).toArray
  let meterP := fun (x y : Nat) => balance (shaded x y (norm x y (raw.px x y))) (gain x y)
  let gains := if f.dodge.isSome then (List.range nb).map (fun bx =>
      let cells := ((List.range ((y1 + 1 - y0) / 2)).flatMap (fun j => (List.range (min 32 ((w - 64 * bx) / 2))).map (fun i =>
        let x := 64 * bx + 2 * i
        let y := y0 + 2 * j
        ((meterP x y + meterP (x + 1) y + meterP x (y + 1) + meterP (x + 1) (y + 1) + 2) / 4).toNat)))
      let n := max 1 cells.length
      table.getD (binOf ((cells.sum + n / 2) / n)) 0)
    else []
  let cur := gains.toArray
  let prev := if st = 0 then cur else f.gPrev.toArray
  -- colour
  let cm := fun (o i : Nat) => signedOf 19 (bankRd b (0x50110 + 0x1000 * c + 4 * (3 * o + i)))
  let off := fun (o : Nat) => signedOf 25 (bankRd b (R.DEV_CTX_CM_OFF c o))
  let curve := (words16 (f.tone.getD [])).toArray
  let cube := (words16 (f.lut.getD [])).toArray
  let fusedAt := fun (x y : Nat) =>
    let (r, g, bl) := demosaicAt cfa p gr x y
    let m := fun o => matrixOut (cm o 0) (cm o 1) (cm o 2) (off o) r g bl
    let d := fun (v : Int) => if f.dodge.isSome then
        applyDodge v (dodgeGain (fun i => prev.getD i 0) (fun i => cur.getD i 0) nb st x y) else v
    (⟨(d (m 0)).toNat, (d (m 1)).toNat, (d (m 2)).toNat⟩ : Pix)
  let toneAt := fun (k v : Nat) => if f.tone.isSome then toneCurve (fun i => curve.getD (4128 * k + i) 0) v else toneLinear v
  let outAt := fun (q : Pix) =>
    let (r, g, bl) := (toneAt 0 q.r, toneAt 1 q.g, toneAt 2 q.b)
    if f.lut.isSome then
      let (r2, g2, b2) := cubeLut (fun k i j l => cube.getD (4 * (i + 33 * j + 1089 * l) + k) 0) r g bl
      (⟨r2, g2, b2⟩ : Pix)
    else ⟨r, g, bl⟩
  let fused := rows.map (fun y => (y, cols.map (fun x => fusedAt x y)))
  ⟨stats, gains, fused, fused.map (fun l => (l.1, l.2.map outAt))⟩

/-- Whether any slot that a stripe may read is poisoned, and the state with what the reads record (R110, R483). -/
def State.readSlots (s : State) (c : Nat) (f : CamFrame) (lo hi : Nat) : Bool × State :=
  let w := declW f.gen c
  let ys := f.held.filter (fun y => decide (lo ≤ y) && decide (y ≤ hi) && !f.allPad)
  (ys.flatMap (fun y => f.lineSpans y w)).foldl (fun (acc : Bool × State) sp =>
    let r := acc.2.poolFetch sp.1 sp.2
    (acc.1 || r.2.1, r.2.2)) (false, s)

/-- One stripe of a frame is processed to its end (R168 to R228). [assumption 23, DEDUCED] -/
def State.runStripe (s : State) (c : Nat) (f : CamFrame) : State :=
  let h := declH f.gen c
  let st := f.stripes
  let y0 := 64 * st
  let y1 := min (64 * st + 63) (h - 1)
  let r := if st = 0 then s.beginFrame c f else (f, s)
  let f := r.1
  let q := r.2.readSlots c f (y0 - 5) (y1 + 5)
  let f := if q.1 then { f with excluded := true } else f
  let s := q.2
  let a := if f.isOpen then h else f.lines
  let raw := s.rawWindow c f ((y0 : Int) - 5) ((y1 : Int) + 5)
  let d := developStripe c f raw st y0 y1 a
  let keep := fun (l : SMap (List Pix)) => l.filter (fun e => decide (y0 ≤ e.1 + 64))
  let devLines := keep f.devLines ++ d.out
  let fusedLines := keep f.fusedLines ++ d.fused
  let lines := fun (fused : Bool) (y : Nat) => (mapGet [] (if fused then fusedLines else devLines) y).toArray
  let s := s.tapStripe f c y0 y1
  let r := f.outs.foldl (fun (acc : List OutFrame × State) o =>
    let r := acc.2.outLines lines y1 (geometry o.bank o.stream).oh o
    (acc.1 ++ [r.1], r.2)) ([], s)
  let s := r.2
  let last := decide (y1 + 1 = h)
  -- slots are released (R166)
  let held := if last then [] else f.held.filter (fun l => decide (64 * st + 59 ≤ l))
  let f := { f with
    stripes := st + 1, stats := d.stats, gPrev := d.gains, devLines := devLines, fusedLines := fusedLines
    outs := r.1, held := held }
  let x := s.ctx c
  let s := s.setCtx c { x with frames := replaceFirst (fun g => g.link.isSome && !g.developed c) f x.frames }
  if last then
    ((s.put (F.DEV_CTX_LAST_tag c) f.tag).put (F.DEV_CTX_LAST_lines c) (if f.isOpen then f.accepted c else f.lines)).frameEnds c
  else s

/-- The next stripe of a context, when it is ready (R169) and no strand holds up the stripe before it (R69, R74). The Developer has consumed the tokens of its input port
(R170). [assumption 23, DEDUCED] -/
def State.stripeOp (s : State) (c : Nat) : State :=
  if s.runs .dev then
    let s := match s.strandTo .dev c with
      | some (id, _) => s.strandUse id (s.strandStream id).length
      | none => s
    match s.stripeFrame c with
    | some f => if s.stripeReady c f && !s.senderBlocked .dev (fun _ => true) then s.runStripe c f else s
    | none => s
  else s

/-- STRIPE. -/
def execStripe (ctx : Nat) (s : State) : Host.Outcome State Fault Refusal := done (s.stripeOp (ctx % 16))

/-- The oldest finished output frame of a stream completes (R234): its status changes together, its digest is complete
(R102) and SURFACE_DONE follows when `notify` is set. [assumption 23, DEDUCED] -/
def State.outputComplete (s : State) (k : Nat) : State :=
  let owes := fun (f : CamFrame) => f.finished && f.outs.any (fun o => o.stream = k && !o.complete)
  match (List.range 16).findSome? (fun c => ((s.ctx c).frames.find? owes).map (fun f => (c, f))) with
  | none => s
  | some (c, f) =>
    match f.outs.find? (fun o => o.stream = k) with
    | none => s
    | some o =>
      let buf := o.num % max 1 (osBufs o.bank k)
      let x := s.ctx c
      let g := { f with outs := f.outs.map (fun o => if o.stream = k then { o with complete := true } else o) }
      let s := s.setCtx c { x with frames := replaceFirst owes g x.frames }
      let s := ((s.put (F.DEV_OS_STATUS_tag k) f.tag).put (F.DEV_OS_STATUS_buf k) buf).wr (R.DEV_OS_GEN k) f.gen.num
      let s := s.digestDone 1 k ⟨o.num, o.crc ^^^ 0xFFFFFFFFFFFFFFFF, f.excluded, f.replayed, f.override⟩
      let s := match o.link with
        | some (id, d) => if bankBit o.bank (F.DEV_OS_CTRL_notify k) then s.strandSend id d [surfaceDoneToken f.tag o.num buf] else s
        | none => s
      s.frameEnds c

/-- OUTPUT_FRAME_COMPLETE. -/
def execOutputFrameComplete (stream : Nat) (s : State) : Host.Outcome State Fault Refusal :=
  done (if s.runs .dev then s.outputComplete (stream % 8) else s)

end Sys2Proof.Machine
end

