-- ==== Sys2Proof/Machine/RawMath.lean ====
section
/-! DEFINITION. The Negative block format (R235 to R248), as functions of values alone. -/
namespace Sys2Proof.Machine

/-! ## Bits of a payload (R240) -/

/-- `k` bits of a number, most significant first. -/
def msbBits : Nat → Nat → List Bool
  | 0, _ => []
  | k + 1, n => n.testBit k :: msbBits k n

/-- The number that bits spell, most significant first. -/
def msbNat (l : List Bool) : Nat := l.foldl (fun n b => 2 * n + (if b then 1 else 0)) 0

/-- Bits packed into bytes from the most significant bit down, zero bits padding the last byte. -/
def packMsb : List Bool → List Byte
  | a :: b :: c :: d :: e :: f :: g :: h :: r => BitVec.ofNat 8 (msbNat [a, b, c, d, e, f, g, h]) :: packMsb r
  | [] => []
  | l => [BitVec.ofNat 8 (msbNat ((l ++ List.replicate 8 false).take 8))]

/-- The bits of bytes in the order of R240. -/
def unpackMsb (l : List Byte) : List Bool := l.flatMap (fun b => msbBits 8 b.toNat)

/-! ## Blocks and planes (R235 to R237) -/

/-- The place of a block: its column, row, width and height. -/
structure BlockPlace where
  bx : Nat
  by_ : Nat
  bw : Nat
  bh : Nat
deriving DecidableEq, Repr

/-- Block columns and rows of a frame (R235). -/
def blockCols (w : Nat) : Nat := ceilDiv w 1024
@[inherit_doc blockCols] def blockBands (h : Nat) : Nat := ceilDiv h 16

/-- The number of blocks of a frame. -/
def blockCount (w h : Nat) : Nat := blockCols w * blockBands h

/-- Block `n` of a frame of `w` by `h` (R235). -/
def blockPlace (w h n : Nat) : BlockPlace :=
  let bx := n % blockCols w
  let by_ := n / blockCols w
  ⟨bx, by_, min 1024 (w - 1024 * bx), min 16 (h - 16 * by_)⟩

/-- The planes of a block, as the block-relative positions (x, y) of their values, row by row (R237). -/
def planeSites (cfa bw bh : Nat) : List (List (List (Nat × Nat))) :=
  if cfa = 4 then [(List.range bh).map (fun y => (List.range bw).map (fun x => (x, y)))]
  else (List.range 4).map (fun k => (List.range (bh / 2)).map (fun j => (List.range (bw / 2)).map (fun i =>
    (2 * i + k % 2, 2 * j + k / 2))))

/-- The payload of a VERBATIM block in bytes (R239). -/
def verbatimLen (d bw bh : Nat) : Nat := ceilDiv (bw * bh * d) 64 * 8

/-- A length rounded up to a multiple of 8. -/
def up8 (n : Nat) : Nat := ceilDiv n 8 * 8

/-! ## Prediction and the adaptive coder (R241 to R244) -/

/-- The prediction of a value (R241); `left` is `none` at column 0, `top` holds on row 0. -/
def predictRaw (d : Nat) (top : Bool) (left : Option Nat) (b c : Nat) : Nat :=
  match left, top with
  | none, true => 2 ^ (d - 1)
  | some a, true => a
  | none, false => b
  | some a, false => if max a b ≤ c then min a b else if c ≤ min a b then max a b else a + b - c

/-- The residual of a value (R242). -/
def residual (d v p : Nat) : Int := wrapTo d ((v : Int) - p + (2 ^ (d - 1) : Nat)) - ((2 ^ (d - 1) : Nat) : Int)

/-- The mapped residual, and its inverse (R242). -/
def mapResidual (e : Int) : Nat := if 0 ≤ e then (2 * e).toNat else (-2 * e - 1).toNat
@[inherit_doc mapResidual] def unmapResidual (m : Nat) : Int := if m % 2 = 0 then (m / 2 : Nat) else -((m + 1) / 2 : Nat)

/-- The Golomb-Rice parameter of step 1 of R243. -/
def riceK (d : Nat) (st : Nat × Nat) : Nat := ((List.range d).find? (fun k => decide (st.1 ≤ st.2 <<< k))).getD (d - 1)

/-- The accumulator and count after a residual (R243 steps 3 and 4). -/
def riceNext (st : Nat × Nat) (e : Int) : Nat × Nat :=
  if st.2 + 1 = 64 then ((st.1 + e.natAbs) / 2, 32) else (st.1 + e.natAbs, st.2 + 1)

/-- The accumulator and count at the start of a plane (R243). -/
def riceStart (d : Nat) : Nat × Nat := (2 ^ (d - 8), 1)

/-- A code word (R244). -/
def codeWord (d k m : Nat) : List Bool :=
  if m >>> k < 24 then List.replicate (m >>> k) true ++ false :: msbBits k m
  else List.replicate 24 true ++ msbBits d m

/-- One row of a plane coded: the bits and the coder's state after it. -/
def codeRow (d : Nat) (top : Bool) : List Nat → List Nat → Option Nat → Nat → Nat × Nat → List Bool × (Nat × Nat)
  | [], _, _, _, st => ([], st)
  | v :: r, above, left, c, st =>
    let b := above.headD 0
    let e := residual d v (predictRaw d top left b c)
    let q := codeRow d top r above.tail (some v) b (riceNext st e)
    (codeWord d (riceK d st) (mapResidual e) ++ q.1, q.2)

/-- The rows of a plane coded after the row above them. -/
def codeRows (d : Nat) : Bool → List Nat → List (List Nat) → Nat × Nat → List Bool
  | _, _, [], _ => []
  | top, above, row :: r, st =>
    let q := codeRow d top row above none 0 st
    q.1 ++ codeRows d false row r q.2

/-- A plane's code, padded to a whole byte (R239, R243). -/
def codePlane (d : Nat) (rows : List (List Nat)) : List Byte := packMsb (codeRows d true [] rows (riceStart d))

/-- Leading one-bits, at most `n` of them, with the bits after them. -/
def takeOnes : Nat → List Bool → Nat × List Bool
  | n + 1, true :: r => let q := takeOnes n r; (q.1 + 1, q.2)
  | _, l => (0, l)

/-- A decoder reads one code word: the mapped residual and the bits left, or `none` where the bits run out (R244). -/
def readWord (d k : Nat) (bits : List Bool) : Option (Nat × List Bool) :=
  let q := takeOnes 24 bits
  if q.1 = 24 then
    if q.2.length < d then none else some (msbNat (q.2.take d), q.2.drop d)
  else match q.2 with
    | [] => none
    | _ :: r => if r.length < k then none else some ((q.1 <<< k) + msbNat (r.take k), r.drop k)

/-- One row of `n` values decoded. -/
def decodeRow (d : Nat) (top : Bool) : Nat → List Nat → Option Nat → Nat → Nat × Nat → List Bool →
    Option (List Nat × (Nat × Nat) × List Bool)
  | 0, _, _, _, st, bits => some ([], st, bits)
  | n + 1, above, left, c, st, bits =>
    match readWord d (riceK d st) bits with
    | none => none
    | some (m, bits) =>
      let b := above.headD 0
      let e := unmapResidual m
      let v := wrapTo d ((predictRaw d top left b c : Nat) + e)
      (decodeRow d top n above.tail (some v) b (riceNext st e) bits).map (fun q => (v :: q.1, q.2))

/-- `h` rows of `w` values decoded after the row above them, with the bits left. -/
def decodeRows (d w : Nat) : Nat → Bool → List Nat → Nat × Nat → List Bool → Option (List (List Nat) × List Bool)
  | 0, _, _, _, bits => some ([], bits)
  | h + 1, top, above, st, bits =>
    match decodeRow d top w above none 0 st bits with
    | none => none
    | some (row, st, bits) => (decodeRows d w h false row st bits).map (fun q => (row :: q.1, q.2))

/-- A plane of `h` rows of `w` values decoded from exactly its bytes; `none` where it breaks R245. -/
def decodePlane (d w h : Nat) (code : List Byte) : Option (List (List Nat)) :=
  match decodeRows d w h true [] (riceStart d) (unpackMsb code) with
  | none => none
  | some (rows, rest) => if rest.length < 8 then some rows else none

/-! ## Blocks (R238, R239) -/

/-- A block: header and payload. `site` gives the value at a block-relative position. -/
def codeBlock (d cfa tag : Nat) (p : BlockPlace) (site : Nat → Nat → Nat) : List Byte :=
  let planes := (planeSites cfa p.bw p.bh).map (fun pl => pl.map (fun row => row.map (fun q => site q.1 q.2)))
  let codes := planes.map (codePlane d)
  let total := (codes.map List.length).sum
  let vb := verbatimLen d p.bw p.bh
  let coded := decide (up8 total < vb)
  let payload := if coded then fitBytes (up8 total) codes.flatten
    else fitBytes vb (packMsb (planes.flatMap (fun pl => pl.flatMap (fun row => row.flatMap (msbBits d)))))
  let head := leBytes 2 0x474E ++ leBytes 1 d ++ leBytes 1 cfa ++ leBytes 1 (if coded then 0 else 1) ++ leBytes 1 p.bh
    ++ leBytes 2 p.bw ++ leBytes 2 p.bx ++ leBytes 2 p.by_ ++ leBytes 2 tag ++ leBytes 2 0
    ++ (List.range 4).flatMap (fun k => leBytes 2 (if coded then (codes.getD k []).length else 0))
    ++ leBytes 4 (crc32c payload)
  head ++ leBytes 4 (crc32c head) ++ payload

/-- The planes of a payload, or `none` where it is damaged (R263). -/
def decodePlanes (d : Nat) (planes : List (List (List (Nat × Nat)))) (verbatim : Bool) (lens : List Nat)
    (payload : List Byte) : Option (List (List (List Nat))) :=
  if verbatim then
    let bits := unpackMsb payload
    some ((planes.foldl (fun (acc : List (List (List Nat)) × List Bool) pl =>
      let r := pl.foldl (fun (a : List (List Nat) × List Bool) row =>
        let v := (List.range row.length).map (fun i => msbNat ((a.2.drop (d * i)).take d))
        (a.1 ++ [v], a.2.drop (d * row.length))) ([], acc.2)
      (acc.1 ++ [r.1], r.2)) ([], bits)).1)
  else
    (planes.zipIdx.foldl (fun (acc : Option (List (List (List Nat)) × List Byte)) e =>
      match acc with
      | none => none
      | some (l, rest) =>
        let n := lens.getD e.2 0
        match decodePlane d ((e.1.headD []).length) e.1.length (rest.take n) with
        | none => none
        | some pl => some (l ++ [pl], rest.drop n)) (some ([], payload))).map (fun q => q.1)

/-- The rows of values of a block from its planes (R237). -/
def joinPlanes (cfa bw bh : Nat) (planes : List (List (List Nat))) : List (List Nat) :=
  let arr := (planes.map (fun pl => (pl.map List.toArray).toArray)).toArray
  (List.range bh).map (fun y => (List.range bw).map (fun x =>
    if cfa = 4 then ((arr.getD 0 #[]).getD y #[]).getD x 0
    else ((arr.getD (2 * (y % 2) + x % 2) #[]).getD (y / 2) #[]).getD (x / 2) 0))

/-- The rows of values of a block of `8 * len8` bytes, or `none` where it is damaged (R263). -/
def decodeBlock (d cfa tag : Nat) (p : BlockPlace) (b : List Byte) : Option (List (List Nat)) :=
  let mode := leAt b 4 1
  let lens := (List.range 4).map (fun k => leAt b (16 + 2 * k) 2)
  let vb := verbatimLen d p.bw p.bh
  let plen := if mode = 1 then vb else up8 lens.sum
  let payload := b.drop 32
  if leAt b 0 2 = 0x474E ∧ leAt b 28 4 = crc32c (b.take 28) ∧ mode ≤ 1
      ∧ leAt b 2 1 = d ∧ leAt b 3 1 = cfa ∧ leAt b 12 2 = tag ∧ leAt b 8 2 = p.bx ∧ leAt b 10 2 = p.by_
      ∧ leAt b 6 2 = p.bw ∧ leAt b 5 1 = p.bh ∧ 32 + plen = b.length ∧ (mode = 1 ∨ plen < vb)
      ∧ leAt b 24 4 = crc32c payload then
    (decodePlanes d (planeSites cfa p.bw p.bh) (mode = 1) lens payload).map (joinPlanes cfa p.bw p.bh)
  else none

/-! ## The frame index (R246, R247) -/

/-- The length of the index of a frame of `n` blocks. -/
def indexLen (n : Nat) : Nat := ceilDiv (64 + 8 * n) 64 * 64

/-- An index entry (R247). -/
def indexEntry (e : Nat × Nat) : List Byte := leBytes 4 e.1 ++ leBytes 2 e.2 ++ leBytes 2 0

/-- The index of a frame up to its last entry (R246, R247). -/
def indexBytes (d cfa w h tag fflags gen lines dataLen : Nat) (entries : List (Nat × Nat)) : List Byte :=
  let body := entries.flatMap indexEntry
  let head := [0x4E, 0x49, 0x44, 0x58] ++ leBytes 1 0 ++ leBytes 1 d ++ leBytes 1 cfa ++ leBytes 1 0 ++ leBytes 2 w ++ leBytes 2 h
    ++ leBytes 2 (blockCols w) ++ leBytes 2 (blockBands h) ++ leBytes 4 (blockCount w h) ++ leBytes 2 tag ++ leBytes 2 fflags
    ++ leBytes 4 gen ++ leBytes 2 lines ++ leBytes 2 0 ++ leBytes 4 dataLen ++ leBytes 4 (crc32c body) ++ zeroBytes 20
  head ++ leBytes 4 (crc32c head) ++ body

/-- Whether an index header is in order by itself (R262); its entries' check is `icrc`. -/
def indexHeadOk (l : List Byte) : Bool :=
  let w := leAt l 8 2
  let h := leAt l 10 2
  let d := leAt l 5 1
  l.take 4 = [0x4E, 0x49, 0x44, 0x58] && leAt l 4 1 = 0 && leAt l 60 4 = crc32c (l.take 60) && leAt l 7 1 = 0
    && leAt l 30 2 = 0 && (slice l 40 20).all (fun x => x = 0)
    && (d = 10 || d = 12 || d = 14 || d = 16) && decide (leAt l 6 1 ≤ 4)
    && w % 2 = 0 && decide (2 ≤ w) && decide (w ≤ 16384) && h % 2 = 0 && decide (2 ≤ h) && decide (h ≤ 8192)
    && leAt l 12 2 = blockCols w && leAt l 14 2 = blockBands h && leAt l 16 4 = blockCount w h

end Sys2Proof.Machine
end

