-- ==== Sys2Proof/Machine/Raw.lean ====
section
/-! DEFINITION. Chapter 06, the raw coder: its queues, jobs, blocks, completions and resets (R249 to R272). -/
namespace Sys2Proof.Machine

/-! ## Queues -/

/-- A queue with no job. -/
def RawQueue.clear : RawQueue := ⟨none, 0, false, []⟩

/-- A RAWC queue. -/
def State.rawq (s : State) (q : Nat) : RawQueue := mapGet RawQueue.clear s.raw q

/-- A RAWC queue changed. -/
def State.setRawq (s : State) (q : Nat) (x : RawQueue) : State := { s with raw := mapSet s.raw q x }

/-- Whether a queue's shape makes it a TAP queue (R249). -/
def Shape.tap (h : Shape) : Bool := decide (h.format / 128 % 2 = 1)

/-- The shape of a queue. -/
def State.rawShape (s : State) (q : Nat) : Option Shape := s.shape 10 q

/-- Regions of RAWC unit q; and those of RAWC unit q or HOST. -/
def rawOwn (q o u : Nat) : Bool := o = 10 && u = q
@[inherit_doc rawOwn] def rawOrHost (q o u : Nat) : Bool := rawOwn q o u || o = 5

/-- The base of a queue's rings and slots (R272). -/
def State.rawBase (s : State) (lo hi : Fld) : Nat := s.fld lo * 2 ^ 12 + s.fld hi * 2 ^ 32

/-- The bytes of a slot (R272). -/
def State.slotBytes (s : State) (q : Nat) : Nat := s.fld (F.RAWC_Q_SLOT_SIZE_slot_size q) * 4096

/-- The ring size of a queue in entries (R255). -/
def State.rawRing (s : State) (q : Nat) : Nat := 2 ^ s.fld (F.RAWC_Q_SIZE_log_size q)

/-- A distance between 16-bit ring indices (R255). -/
def ringDist (a b : Nat) : Nat := (a + 65536 - b % 65536) % 65536

/-! ## Submission and enable (R254, R255, R267, R268) -/

/-- A write of RAWC_Qq_SQ_TAIL (R255, R268). -/
def State.rawTail (s : State) (q v : Nat) : State :=
  if s.bit (F.RAWC_Q_STATUS_resetting q) then s
  else if s.rawRing q < ringDist (v % 65536) (s.fld (F.RAWC_Q_SQ_HEAD_index q)) then s.put (F.RAWC_Q_STATUS_bad_tail q) 1
  else s.put (F.RAWC_Q_SQ_TAIL_index q) v

/-- A write of RAWC_Qq_CQ_HEAD (R255, R268). -/
def State.rawCqHead (s : State) (q v : Nat) : State :=
  if s.bit (F.RAWC_Q_STATUS_resetting q) then s else s.put (F.RAWC_Q_CQ_HEAD_index q) v

/-- Whether a queue of a shape may be enabled (R254, R267). [assumption 32, DEDUCED] -/
def State.rawCfgOk (s : State) (q : Nat) (h : Shape) : Bool :=
  let n := s.rawRing q
  let cq := s.rawBase (F.RAWC_Q_CQ_LO_base_lo q) (F.RAWC_Q_CQ_HI_base_hi q)
  if h.tap then
    let k := s.fld (F.RAWC_Q_SLOT_COUNT_slot_count q)
    let z := s.slotBytes q
    decide (1 ≤ k) && decide (k ≤ 256) && z != 0
      && s.userRegion (s.rawBase (F.RAWC_Q_SLOT_LO_base_lo q) (F.RAWC_Q_SLOT_HI_base_hi q)) (k * z) (rawOwn q)
      && s.userRegion cq (32 * n) (rawOwn q)
  else
    let l := s.fld (F.RAWC_Q_SIZE_log_size q)
    decide (4 ≤ l) && decide (l ≤ 12)
      && s.userRegion (s.rawBase (F.RAWC_Q_SQ_LO_base_lo q) (F.RAWC_Q_SQ_HI_base_hi q)) (64 * n) (rawOrHost q)
      && s.userRegion cq (32 * n) (rawOrHost q)

/-- A write of `enable` (R254, R267, R50). -/
def State.rawEnable (s : State) (q v : Nat) : State :=
  if v % 2 = 0 then s.put (F.RAWC_Q_CTRL_enable q) 0
  else match s.rawShape q with
    | none => s.shapeMiss
    | some h =>
      if s.bit (F.RAWC_Q_CTRL_enable q) then s
      else if s.rawCfgOk q h then s.put (F.RAWC_Q_CTRL_enable q) 1
      else s.put (F.RAWC_Q_STATUS_bad_cfg q) 1

/-- Steps 3 to 5 of R268. -/
def State.rawResetEnd (s : State) (q : Nat) : State :=
  let n := ringDist (s.fld (F.RAWC_Q_SQ_TAIL_index q)) (s.fld (F.RAWC_Q_SQ_HEAD_index q))
  let s := s.put (F.RAWC_Q_DROPPED_index q) n
  let s := [F.RAWC_Q_SQ_HEAD_index q, F.RAWC_Q_SQ_TAIL_index q, F.RAWC_Q_CQ_HEAD_index q, F.RAWC_Q_CQ_TAIL_index q,
    F.RAWC_Q_NEXT_SEQ_value q, F.RAWC_Q_CTRL_enable q, F.RAWC_Q_STATUS_resetting q].foldl (fun s f => s.put f 0) s
  s.setRawq q { s.rawq q with taps := 0 }

/-- A write of `reset` (R268): with no job in progress its steps end at once. -/
def State.rawReset (s : State) (q : Nat) : State :=
  let s := s.put (F.RAWC_Q_STATUS_resetting q) 1
  if (s.rawq q).job.isSome then s else s.rawResetEnd q

/-- A write of RAWC_Qq_CTRL. [assumption 32, DEDUCED] -/
def State.rawCtrl (s : State) (q v : Nat) : State :=
  let s := s.rawEnable q v
  if bitsOf v 1 1 = 1 then s.rawReset q else s

/-! ## Taking a descriptor (R255 to R257, R262) -/

/-- A job of a MEM queue as its descriptor gives it. -/
def descriptorJob (l : List Byte) : RawJob where
  decode := leAt l 0 1 = 2
  tap := false
  irq := leAt l 1 1 % 2 = 1
  id := leAt l 2 2
  width := leAt l 4 2
  height := leAt l 6 2
  bits := leAt l 8 1
  cfa := leAt l 9 1
  tag := leAt l 10 2
  gen := leAt l 12 4
  fflags := 0
  lines := leAt l 6 2
  src := leAt l 16 8
  srcPitch := leAt l 28 4
  dst := leAt l 32 8
  limit := leAt l 40 4
  dstPitch := leAt l 44 4
  first := leAt l 48 4
  count := leAt l 52 4
  slot := 0
  next := 0
  written := []
  place := 0
  entries := []
  consumed := 0
  firstBad := 0
  bad := 0
  status := none
  ended := true
  cut := false
  marks := ⟨false, false, false⟩

/-- A check of one field: the first test that fails gives the status (R256). [assumption 30, DEDUCED] -/
def firstFail (l : List (Bool × Nat)) : Option Nat := (l.find? (fun e => e.1)).map (fun e => e.2)

/-- The fields of R256 in offset order: the status of the first breach (1 LENGTH_RANGE, 2 INVALID). A zero that R256
asks of a field the operation does not use is no size or count range (assumption 30). [assumption 30, DEDUCED] -/
def fieldChecks (h : Shape) (l : List Byte) : Option Nat :=
  let j := descriptorJob l
  let op := leAt l 0 1
  let cmp := op = 1
  let n := leAt l 24 4
  let odd := fun (x : Nat) => decide (x % 2 = 1)
  let size := fun (x m : Nat) => (cmp && (decide (x < 2) || decide (m < x)), 1)
  let only := fun (x : Nat) (wants : Bool) => (!wants && x != 0, 2)
  firstFail [
    (!((op = 1 && decide (h.format % 2 = 1)) || (op = 2 && decide (h.format / 2 % 2 = 1))), 2),
    (decide (2 ≤ leAt l 1 1), 2),
    size j.width h.dimA, (odd j.width, 2), only j.width cmp,
    size j.height h.dimB, (odd j.height, 2), only j.height cmp,
    (cmp && !(j.bits = 10 || j.bits = 12 || j.bits = 14 || j.bits = 16), 2),
    (cmp && decide (4 < j.cfa), 2),
    (j.src % (if cmp then 2 else 64) != 0, 2),
    (n = 0 || (if cmp then decide (n < j.srcPitch * (j.height - 1) + 2 * j.width) else decide (n < 64)), 1),
    (cmp && decide (j.srcPitch < 2 * j.width), 1), (odd j.srcPitch, 2), only j.srcPitch cmp,
    (j.dst % (if cmp then 64 else 2) != 0, 2),
    (decide (j.limit < (if cmp then indexLen (blockCount j.width j.height) else 2)), 1),
    (odd j.dstPitch, 2), only j.dstPitch (!cmp),
    only j.first (!cmp),
    (!cmp && j.count = 0, 1), only j.count (!cmp),
    (leAt l 56 8 != 0, 2)]

/-- The index checks of R262 and the fields of R256 that refer to the index: the status of the first breach.
[assumption 30, DEDUCED] -/
def indexChecks (h : Shape) (j : RawJob) (srcLen : Nat) (x : List Byte) : Option Nat :=
  let n := leAt x 16 4
  let i := indexLen n
  let w := leAt x 8 2
  let entry := fun (k : Nat) => slice x (64 + 8 * k) 8
  let sel := ((List.range j.count).map (· + j.first)).filter (fun k => decide (k < n))
  firstFail [
    (!indexHeadOk x, 5),
    (leAt x 36 4 != crc32c (slice x 64 (8 * n)), 5),
    ((List.range n).any (fun k => leAt (entry k) 6 2 != 0), 5),
    (decide (h.dimA < w) || decide (h.dimB < leAt x 10 2), 1),
    (sel.any (fun k =>
      let o := leAt (entry k) 0 4
      let z := leAt (entry k) 4 2
      o % 8 != 0 || decide (o < i) || decide (z < 5) || decide (4100 < z) || decide (srcLen < o + 8 * z)), 5),
    (decide (j.dstPitch < 2 * w), 1),
    (decide (n < j.first + j.count), 1)]

/-- The ranges of R257 steps 3 and 4. [assumption 30, DEDUCED] -/
def State.rangeChecks (s : State) (q : Nat) (j : RawJob) (srcLen : Nat) : Option Nat :=
  firstFail [
    (!s.inRegion j.src srcLen (rawOrHost q) || !s.inRegion j.dst j.limit (rawOrHost q), 1),
    (decide (j.src < j.dst + j.limit) && decide (j.dst < j.src + srcLen), 2)]

/-- Whether a MEM queue takes its next descriptor now (R251, R255, R267). [assumption 30, DEDUCED] -/
def State.rawTakes (s : State) (q : Nat) : Bool :=
  s.runs .rawc && s.bit (F.RAWC_Q_CTRL_enable q) && !s.bit (F.RAWC_Q_STATUS_resetting q) && (s.rawq q).job.isNone
    && s.fld (F.RAWC_Q_SQ_HEAD_index q) != s.fld (F.RAWC_Q_SQ_TAIL_index q)
    && decide (ringDist (s.fld (F.RAWC_Q_CQ_TAIL_index q)) (s.fld (F.RAWC_Q_CQ_HEAD_index q)) < s.rawRing q)

/-- A queue's job begins; one of a tap frame from before a change belongs to the replaced configuration (R63). -/
def State.rawBegin (s : State) (q : Nat) (j : RawJob) (old : Bool := false) : State :=
  ((s.setRawq q { s.rawq q with job := some j, lines := [] }).workBegins 10 q old).put (F.RAWC_Q_STATUS_busy q) 1

/-- A taken descriptor is checked and its job starts (R257); a job refused has only its completion left. -/
def State.rawTake (s : State) (q : Nat) (h : Shape) (l : List Byte) : State :=
  let head := s.fld (F.RAWC_Q_SQ_HEAD_index q)
  let s := s.put (F.RAWC_Q_SQ_HEAD_index q) ((head + 1) % 65536)
  let j := descriptorJob l
  let n := leAt l 24 4
  match fieldChecks h l with
  | some st => s.rawBegin q { j with status := some st }
  | none =>
    if j.decode then
      let x := s.dramFetch j.src 64
      let m := leAt x.1 16 4
      let y := if indexHeadOk x.1 then x.2.2.dramFetch (j.src + 64) (8 * m) else ([], false, x.2.2)
      let s := y.2.2
      let idx := x.1 ++ y.1
      match firstOfStatus (indexChecks h j n idx) (s.rangeChecks q j n) with
      | some st => s.rawBegin q { j with status := some st }
      | none =>
        s.rawBegin q { j with
          width := leAt idx 8 2, height := leAt idx 10 2, bits := leAt idx 5 1, cfa := leAt idx 6 1, tag := leAt idx 20 2
          consumed := indexLen m
          entries := (List.range j.count).map (fun k =>
            (leAt idx (64 + 8 * (j.first + k)) 4, leAt idx (68 + 8 * (j.first + k)) 2))
          marks := ⟨x.2.1 || y.2.1, false, false⟩ }
    else match s.rangeChecks q j n with
      | some st => s.rawBegin q { j with status := some st }
      | none => s.rawBegin q { j with
          count := blockCount j.width j.height
          place := indexLen (blockCount j.width j.height) }
where
  /-- The first status of two checks made one after the other. -/
  firstOfStatus (a b : Option Nat) : Option Nat := match a with | some x => some x | none => b

/-- A MEM queue takes its next descriptor: one whose `op` is 2 for DECOMPRESS, any other for COMPRESS. -/
def State.rawDescriptor (s : State) (q : Nat) (decode : Bool) : State :=
  match s.rawShape q with
  | none => s
  | some h =>
    if !h.tap && s.rawTakes q then
      let a := s.rawBase (F.RAWC_Q_SQ_LO_base_lo q) (F.RAWC_Q_SQ_HI_base_hi q)
        + 64 * (s.fld (F.RAWC_Q_SQ_HEAD_index q) % s.rawRing q)
      let l := s.dramFetch a 64
      if decide (leAt l.1 0 1 = 2) = decode then l.2.2.rawTake q h l.1 else s
    else s

/-! ## Tap frames (R252 to R254) -/

/-- A field of a token. -/
def tokenField (t : Token) (hi lo : Nat) : Nat := bitsOf t.toNat hi lo

/-- The samples of a line's data tokens (R227). -/
def tokenSamples (l : List Token) : List Nat := l.flatMap (fun t => (List.range 16).map (fun i => tokenField t (16 * i + 15) (16 * i)))

/-- The job of a tap frame from its FRAME_START token (R252, R253). -/
def State.tapJob (s : State) (q : Nat) (t : Token) : RawJob :=
  let x := s.rawq q
  let w := tokenField t 79 64
  let h := tokenField t 95 80
  let slot := x.taps % max 1 (s.fld (F.RAWC_Q_SLOT_COUNT_slot_count q))
  let i := indexLen (blockCount w h)
  let size := s.slotBytes q
  { descriptorJob [] with
    tap := true, irq := true, id := tokenField t 31 16, width := w, height := h, bits := tokenField t 103 96, cfa := tokenField t 111 104
    tag := tokenField t 31 16, gen := tokenField t 63 32, slot := slot
    dst := s.rawBase (F.RAWC_Q_SLOT_LO_base_lo q) (F.RAWC_Q_SLOT_HI_base_hi q) + slot * size
    limit := size, count := blockCount w h, place := i
    status := if size < i then some 3 else none
    ended := false }

/-- Tokens taken from a TAP queue's port: lines of the frame in progress while its line store has room (R252), the rest
of a frame that failed or is ignored (R254, R260), and tokens that belong to no frame (assumption 31).
[assumption 31, DEDUCED] -/
def State.rawPull (q strand : Nat) : Nat → State → State
  | 0, s => s
  | n + 1, s =>
    let x := s.rawq q
    match s.strandStream strand with
    | [] => s
    | t :: rest =>
      let kind := tokenField t 7 0
      let len := 1 + (if kind = 2 then tokenField t 63 32 else 0)
      if rest.length + 1 < len then s
      else match x.job with
        | some j =>
          if j.ended then s
          else if kind = 3 then
            let mk := mapGet (⟨false, false, false⟩ : Marks) s.cam.marks
              (65536 * ((s.strandSource strand).map (fun e => e.2)).getD 0 + j.tag)
            (s.strandUse strand 1).setRawq q { x with job := some { j with
              ended := true, lines := tokenField t 47 32, fflags := tokenField t 63 48
              marks := ⟨j.marks.excluded || mk.excluded, mk.replayed, mk.override⟩ } }
          else if kind = 2 then
            if j.status.isSome then State.rawPull q strand n (s.strandUse strand len)
            else
              let y := tokenField t 31 16
              if y / 16 < j.next / blockCols j.width + 2 then
                State.rawPull q strand n ((s.strandUse strand len).setRawq q { x with
                  lines := mapSet x.lines y ((tokenSamples (rest.take (len - 1))).take j.width) })
              else s
          else State.rawPull q strand n (s.strandUse strand 1)
        | none =>
          if kind = 1 && !x.ignoring then s
          else State.rawPull q strand n ((s.strandUse strand len).setRawq q
            { x with ignoring := x.ignoring && kind != 3 })

/-- The start-of-frame timestamp of a FRAME_START token, in ns (R226). -/
def tokenSof (t : Token) : Nat := tokenField t 191 128 * 1000000000 + tokenField t 221 192

/-- Whether the frame that a strand delivers next belongs to the replaced configuration (R63). -/
def State.frontOld (s : State) (strand : Nat) : Bool :=
  match s.strandStream strand with
  | t :: _ => tokenField t 7 0 = 1 && s.frameOld strand (tokenSof t)
  | [] => false

/-- The strand that feeds a TAP queue: for work of a replaced configuration, by the queue's shape there (R63, R249). -/
def State.tapStrand (s : State) (q : Nat) : Option Nat :=
  let strand := fun (h : Option Shape) => h.bind (fun h =>
    if h.tap then (s.strandTo .rawc (h.format % 16)).map (fun e => e.1) else none)
  match s.rig.before.bind (fun im => strand (shapeIn im.bodies 10 q)) with
  | some id => if s.isOld 10 q || s.frontOld id then some id else strand (s.rawShape q)
  | none => strand (s.rawShape q)

/-- What a queue can take from its port now. -/
def State.rawIntake (s : State) (q : Nat) : State :=
  match s.tapStrand q with
  | some id => if s.runs .rawc then State.rawPull q id (s.strandStream id).length s else s
  | none => s

/-- A raw-tap frame arrives: it starts a job, or is consumed and counted in RAWC_Qq_IGNORED (R252, R254, R268). Only frames
that start a job advance the tap frame count f of R253, which leaves open whether a frame consumed without one does.
[assumption 31, DESIGN CHOICE] -/
def State.tapFrame (s : State) (q : Nat) : State :=
  let s := s.rawIntake q
  match s.tapStrand q with
  | none => s
  | some id =>
    let x := s.rawq q
    match s.strandStream id with
    | t :: _ =>
      if s.runs .rawc && x.job.isNone && !x.ignoring && tokenField t 7 0 = 1 then
        if s.bit (F.RAWC_Q_CTRL_enable q) && !s.bit (F.RAWC_Q_STATUS_resetting q) then
          let j := s.tapJob q t
          let old := s.frontOld id
          let s := (s.strandUse id 1).setRawq q { x with taps := x.taps + 1 }
          (s.rawBegin q j old).rawIntake q
        else
          (((s.strandUse id 1).setRawq q { x with ignoring := true }).bump (F.RAWC_Q_IGNORED_count q) 1).rawIntake q
      else s
    | [] => s

/-! ## Blocks (R251, R260, R261, R263) -/

/-- Whether a queue has a block that its half can work on (R251, R252). -/
def State.rawReady (s : State) (q : Nat) (decode : Bool) : Bool :=
  let x := s.rawq q
  match x.job with
  | none => false
  | some j =>
    s.runs .rawc && j.status.isNone && j.decode = decode && decide (j.next < j.count)
      && (!j.tap || j.cut ||
        (let p := blockPlace j.width j.height j.next
         (List.range p.bh).all (fun i => (mapFind x.lines (16 * p.by_ + i)).isSome)))

/-- A job changed. -/
def State.setRawJob (s : State) (q : Nat) (j : RawJob) : State := s.setRawq q { s.rawq q with job := some j }

/-- The code values of the lines of a block, the poison met and the state. A line of a tap frame whose tokens were
discarded holds values that the spec does not state: free values. -/
def State.rawLines (s : State) (q : Nat) (j : RawJob) (p : BlockPlace) : List (List Nat) × Bool × State :=
  let x := s.rawq q
  (List.range p.bh).foldl (fun (acc : List (List Nat) × Bool × State) i =>
    let y := 16 * p.by_ + i
    if j.tap then
      match mapFind x.lines y with
      | some l => (acc.1 ++ [(l.drop (1024 * p.bx)).take p.bw], acc.2.1, acc.2.2)
      | none =>
        let k := acc.2.2.freeCtr
        (acc.1 ++ [(List.range p.bw).map (fun c => Config.freeValue (k + c) % 65536)], acc.2.1,
          { acc.2.2 with freeCtr := k + p.bw })
    else
      let r := acc.2.2.dramFetch (j.src + j.srcPitch * y + 2048 * p.bx) (2 * p.bw)
      (acc.1 ++ [(List.range p.bw).map (fun c => leAt (r.1.drop (2 * c)) 0 2)], acc.2.1 || r.2.1, r.2.2))
    ([], false, s)

/-- One block is coded (R239, R253, R260). -/
def State.compressBlock (s : State) (q : Nat) (j : RawJob) : State :=
  let p := blockPlace j.width j.height j.next
  let r := s.rawLines q j p
  let s := r.2.2
  let rows := (r.1.map List.toArray).toArray
  let b := codeBlock j.bits j.cfa j.tag p (fun x y => ((rows.getD y #[]).getD x 0) >>> (16 - j.bits))
  let mk : Marks := { j.marks with excluded := j.marks.excluded || r.2.1 }
  if j.limit < j.place + b.length then s.setRawJob q { j with status := some 3, marks := mk }
  else
    let s := (s.dramWrite (j.dst + j.place) b).bump F.RAWC_CBLK_count 1
    let x := s.rawq q
    let last := decide (j.next % blockCols j.width + 1 = blockCols j.width)
    s.setRawq q { x with
      job := some { j with
        next := j.next + 1
        written := (j.place, b) :: j.written
        place := j.place + b.length
        entries := j.entries ++ [(j.place, b.length / 8)]
        consumed := j.consumed + 2 * (p.bw * p.bh)
        status := if j.next + 1 = j.count then some 0 else none
        marks := mk }
      lines := if last then x.lines.filter (fun e => decide (16 * (p.by_ + 1) ≤ e.1)) else x.lines }

/-- One block is decoded (R261, R263). -/
def State.decompressBlock (s : State) (q : Nat) (j : RawJob) : State :=
  let p := blockPlace j.width j.height (j.first + j.next)
  let y0 := 16 * (j.first / blockCols j.width)
  let e := j.entries.getD j.next (0, 0)
  let at_ := fun (i : Nat) => j.dstPitch * (16 * p.by_ + i - y0) + 2048 * p.bx
  if j.limit ≤ at_ (p.bh - 1) + 2 * p.bw - 1 then s.setRawJob q { j with status := some 4 }
  else
    let r := s.dramFetch (j.src + e.1) (8 * e.2)
    let d := decodeBlock j.bits j.cfa j.tag p r.1
    let rows := (d.getD (List.replicate p.bh (List.replicate p.bw 0))).map (fun row =>
      row.flatMap (fun v => leBytes 2 (v <<< (16 - j.bits))))
    let s := rows.zipIdx.foldl (fun s k => s.dramWrite (j.dst + at_ k.2) k.1) (r.2.2.bump F.RAWC_DBLK_count 1)
    let bad := j.bad + (if d.isNone then 1 else 0)
    s.setRawJob q { j with
      next := j.next + 1
      written := (rows.zipIdx.map (fun k => (at_ k.2, k.1))).reverse ++ j.written
      consumed := j.consumed + 8 * e.2
      firstBad := if j.bad = 0 && d.isNone then j.first + j.next else j.firstBad
      bad := bad
      status := if j.next + 1 = j.count then some (if bad = 0 then 0 else 6) else none
      marks := { j.marks with excluded := j.marks.excluded || r.2.1 } }

/-- A queue's next block, if it is ready, as a work unit of one half (R251). -/
def State.rawUnit (s : State) (q : Nat) (decode : Bool) : State :=
  let s := s.rawIntake q
  if s.rawReady q decode then
    match (s.rawq q).job with
    | some j => if j.decode then s.decompressBlock q j else (s.compressBlock q j).rawIntake q
    | none => s
  else s

/-! ## Completions (R258 to R265) -/

/-- A range of DRAM written with zeros, after the requests queued for its lines; the lines at its ends that it covers in part
are read and merged (R476). -/
def State.dramZero (s : State) (a n : Nat) : State :=
  let s := s.dramTurn a n
  let s := s.meetPoison ((if n = 0 then [] else [a / 64, (a + n - 1) / 64].eraseDups).filter (fun l =>
    decide (64 * l < a) || decide (a + n < 64 * l + 64)))
  { s with
    dram := memZero s.dram a n
    memc := { s.memc with
      poison := s.memc.poison.filter (fun l => decide (64 * l < a) || decide (a + n < 64 * l + 64))
      writeBack := s.memc.writeBack.filter (fun l => decide (64 * l.1 + 64 ≤ a) || decide (a + n ≤ 64 * l.1)) } }

/-- Insertion of written bytes in ascending offset. -/
def insertWritten (e : Nat × List Byte) : List (Nat × List Byte) → List (Nat × List Byte)
  | [] => [e]
  | f :: r => if e.1 ≤ f.1 then e :: f :: r else f :: insertWritten e r

/-- What a job wrote, in ascending address order (R265). [assumption 31, DEDUCED] -/
def writtenBytes (l : List (Nat × List Byte)) : List Byte := (l.foldl (fun acc e => insertWritten e acc) []).flatMap (fun e => e.2)

/-- One more than the highest offset written (R258). -/
def writtenEnd (l : List (Nat × List Byte)) : Nat := l.foldl (fun n e => max n (e.1 + e.2.length)) 0

/-- A completion entry (R258). -/
def completionBytes (q : Nat) (s : State) (j : RawJob) (st : Nat) : List Byte :=
  let ok := decide (st = 0) || decide (st = 6)
  let seq := s.fld (F.RAWC_Q_NEXT_SEQ_value q)
  leBytes 4 seq ++ leBytes 2 j.id ++ leBytes 1 st ++ leBytes 1 (if j.decode then 2 else 1)
    ++ leBytes 4 (if ok then writtenEnd j.written else 0)
    ++ leBytes 4 (if decide (3 ≤ st) && decide (st ≠ 5) || ok then j.consumed else 0)
    ++ leBytes 4 j.next ++ leBytes 4 (if j.tap then j.slot % 256 else if st = 6 then j.firstBad else 0)
    ++ leBytes 4 (if st = 6 then j.bad else 0) ++ leBytes 4 (0xFFFFFFFF - seq)

/-- The index of a finished compression job, the bytes between its last entry and the first block being values that the
spec does not state (R246, R253). [assumption 31, DEDUCED] -/
def State.writeIndex (s : State) (q : Nat) (j : RawJob) : RawJob × State :=
  let n := blockCount j.width j.height
  let free := (List.range (indexLen n - (64 + 8 * n))).map (fun i => BitVec.ofNat 8 (Config.freeValue (s.freeCtr + i)))
  let x := indexBytes j.bits j.cfa j.width j.height j.tag j.fflags j.gen j.lines (j.place - indexLen n) j.entries ++ free
  let j := { j with written := (0, x) :: j.written }
  (j, ({ s with freeCtr := s.freeCtr + free.length }.dramWrite j.dst x).setRawJob q j)

/-- A finished job zeroes its destination on failure, writes its index and posts its completion (R253, R258 to R265);
a reset that waits for it then ends (R268). [assumption 31, DEDUCED] -/
def State.rawComplete (s : State) (q : Nat) : State :=
  let s := s.rawIntake q
  match (s.rawq q).job with
  | none => s
  | some j =>
    match j.status with
    | none => s
    | some st =>
      if s.runs .rawc && j.ended then
        let r : RawJob × State :=
          if st = 0 && !j.decode then s.writeIndex q j
          else if st = 3 || st = 4 then (j, s.dramZero j.dst j.limit)
          else (j, s)
        let j := r.1
        let s := r.2
        let ok := decide (st = 0) || decide (st = 6)
        let seq := s.fld (F.RAWC_Q_NEXT_SEQ_value q)
        let tail := s.fld (F.RAWC_Q_CQ_TAIL_index q)
        let s := s.dramWrite (s.rawBase (F.RAWC_Q_CQ_LO_base_lo q) (F.RAWC_Q_CQ_HI_base_hi q) + 32 * (tail % s.rawRing q))
          (completionBytes q s j st)
        let s := s.digestDone 4 q (if ok then
            ⟨seq, crc64 (writtenBytes j.written), j.marks.excluded, j.marks.replayed, j.marks.override⟩
          else ⟨seq, 0, j.marks.excluded, j.marks.replayed, j.marks.override⟩)
        let s := (s.put (F.RAWC_Q_CQ_TAIL_index q) ((tail + 1) % 65536)).put (F.RAWC_Q_NEXT_SEQ_value q) ((seq + 1) % 2 ^ 32)
        let s := (s.bump (if ok then F.RAWC_Q_JOBS_count q else F.RAWC_Q_FAILED_count q) 1).bump (F.RAWC_Q_DAMAGED_count q) j.bad
        let s := if j.irq then s.put ⟨R.RAWC_EVT, q, q⟩ 1 else s
        let s := (s.setRawq q { s.rawq q with job := none, lines := [] }).put (F.RAWC_Q_STATUS_busy q) 0
        if s.bit (F.RAWC_Q_STATUS_resetting q) then s.rawResetEnd q else s
      else s

/-- The discarding of a strand's tokens by an island reset reaches the tap frame that they belong to (R73, R110).
[assumption 31, DEDUCED] -/
def State.rawCut (s : State) (strand : Nat) : State :=
  (List.range 32).foldl (fun s q =>
    if s.tapStrand q = some strand then
      let x := s.rawq q
      match x.job with
      | some j => if j.ended then s
        else
          let k := s.freeCtr
          ({ s with freeCtr := k + 2 }).setRawq q { x with job := some { j with
            ended := true, cut := true
            lines := Config.freeValue k % 65536, fflags := Config.freeValue (k + 1) % 65536
            marks := { j.marks with excluded := true } } }
      | none => s.setRawq q { x with ignoring := false }
    else s) s

/-! ## Commands -/

/-- RAWC_SQ_TAIL. -/
def execRawcSqTail (m : Master) (q : Nat) (v : Word) (s : State) : Host.Outcome State Fault Refusal :=
  done (s.guardedWrite m (R.RAWC_Q_SQ_TAIL (q % 32)) (fun s => s.rawTail (q % 32) v.toNat))

/-- RAWC_CQ_HEAD. -/
def execRawcCqHead (m : Master) (q : Nat) (v : Word) (s : State) : Host.Outcome State Fault Refusal :=
  done (s.guardedWrite m (R.RAWC_Q_CQ_HEAD (q % 32)) (fun s => s.rawCqHead (q % 32) v.toNat))

/-- COMPRESS. [assumption 30, DEDUCED] -/
def execCompress (q : Nat) (s : State) : Host.Outcome State Fault Refusal := done (s.rawDescriptor (q % 32) false)

/-- DECOMPRESS. -/
def execDecompress (q : Nat) (s : State) : Host.Outcome State Fault Refusal := done (s.rawDescriptor (q % 32) true)

/-- TAP_FRAME. -/
def execTapFrame (q : Nat) (s : State) : Host.Outcome State Fault Refusal := done (s.tapFrame (q % 32))

/-- NEGATIVE_BLOCK: the queue's next block, by the half that its job belongs to. -/
def execNegativeBlock (q : Nat) (s : State) : Host.Outcome State Fault Refusal :=
  done (s.rawUnit (q % 32) (match (s.rawq (q % 32)).job with | some j => j.decode | none => false))

/-- RAWC_COMPLETION. -/
def execRawcCompletion (q : Nat) (s : State) : Host.Outcome State Fault Refusal := done (s.rawComplete (q % 32))

/-- RAWC_QUEUE_ENABLE: a write of RAWC_Qq_CTRL whose bit 0 is the new `enable` and whose `reset` is 0. -/
def execRawcQueueEnable (m : Master) (q : Nat) (v : Word) (s : State) : Host.Outcome State Fault Refusal :=
  done (s.guardedWrite m (R.RAWC_Q_CTRL (q % 32)) (fun s => s.rawCtrl (q % 32) (v.toNat % 2)))

/-- RAWC_QUEUE_RESET: a write of RAWC_Qq_CTRL with `reset` 1. -/
def execRawcQueueReset (m : Master) (q : Nat) (v : Word) (s : State) : Host.Outcome State Fault Refusal :=
  done (s.guardedWrite m (R.RAWC_Q_CTRL (q % 32)) (fun s => s.rawCtrl (q % 32) (putBits v.toNat 1 1 1)))

end Sys2Proof.Machine
end

