-- ==== Sys2Proof/Machine/WallMath.lean ====
section
/-! DEFINITION. Chapter 08, the arithmetic of the wall: frame times (R310, R311), sample expansion and colour (R326 to
R328), calibration (R335), Print micro-tiles (R324, R325), blocks, and the packets of a block (R355 to R357). -/
namespace Sys2Proof.Machine

/-! ## Ports -/

/-- The logical ports that carry a WALL output strand (R331, R361). -/
def State.wallPorts (s : State) : List Nat := (List.range 8).filter (fun p => (s.strandFrom .wall p).isSome)

/-! ## Times -/

/-- Whether a mode keeps the ranges of R310, with P = den × 10⁹ / num not rounded. -/
def WallMode.ok (m : WallMode) : Bool :=
  let span := m.den * 1000000000
  decide (24000 ≤ m.num) && decide (m.num ≤ 240000) && (m.den = 1000 || m.den = 1001)
    && decide (250 ≤ m.lead) && decide ((m.lead * 1000 + 250000) * m.num ≤ span) && decide (m.margin + 100 ≤ m.lead)
    && decide (m.lead * 1000 ≤ m.phase) && decide ((m.phase - m.lead * 1000 + 1) * m.num ≤ span)

/-- The number of frame k (R310). -/
def WallMode.number (m : WallMode) (k : Nat) : Nat := (m.orgFrame + k) % 2 ^ 32

/-- The present time T of frame k, in Anchor ns (R310). -/
def WallMode.present (m : WallMode) (k : Nat) : Nat :=
  m.orgSec * 1000000000 + m.phase + k * m.den * 1000000000 / m.num

/-- The latch point L of frame k (R311). -/
def WallMode.latch (m : WallMode) (k : Nat) : Nat := m.present k - m.lead * 1000

/-- The push deadline D of frame k (R311). -/
def WallMode.deadline (m : WallMode) (k : Nat) : Nat := m.present k - m.margin * 1000

/-- The first k whose present time is at or after an instant. -/
def WallMode.firstAt (m : WallMode) (x : Nat) : Nat :=
  let base := m.orgSec * 1000000000 + m.phase
  if x ≤ base then 0 else ceilDiv ((x - base) * m.num) (m.den * 1000000000)

/-- The first k whose latch point is at or after an instant. -/
def WallMode.firstLatch (m : WallMode) (x : Nat) : Nat := m.firstAt (x + m.lead * 1000)

/-! ## Samples (R326 to R328) -/

/-- A sample of `n` bits expanded (R326). -/
def expandSample (v n : Nat) (narrow chroma : Bool) : Int :=
  let s : Int := (2 ^ (n - 8) : Nat)
  let v : Int := v
  let d : Int := (2 ^ n : Nat) - 1
  match narrow, chroma with
  | false, false => (2 * v * 65535 + d) / (2 * d)
  | false, true => clampI (-32768) 32767 ((2 * (v - (2 ^ (n - 1) : Nat)) * 65536 + d) / (2 * d))
  | true, false => clampI 0 65535 ((2 * (v - 16 * s) * 65535 + 219 * s) / (438 * s))
  | true, true => clampI (-32768) 32767 ((2 * (v - 128 * s) * 65536 + 224 * s) / (448 * s))

/-- A YCbCr pixel converted to RGB (R327). -/
def ycbcrToRgb (matrix : Nat) (y cb cr : Int) : Int × Int × Int :=
  let c : Int × Int × Int × Int := if matrix = 1 then (103206, 12276, 30679, 121609) else (96640, 10784, 37444, 123299)
  (clampI 0 65535 (y + (c.1 * cr + 32768) / 65536),
   clampI 0 65535 (y - (c.2.1 * cb + c.2.2.1 * cr + 32768) / 65536),
   clampI 0 65535 (y + (c.2.2.2 * cb + 32768) / 65536))

/-- The decode curve with points `t` at a component (R328). -/
def decodeCurve (t : Nat → Nat) (u : Nat) : Nat := (t (u / 16) * (16 - u % 16) + t (u / 16 + 1) * (u % 16) + 8) / 16

/-! ## Print surfaces (R323 to R325) -/

/-- The bits of `n` residuals of width `w`, from a bit position of a slot on (R240, R324). -/
def residualAt (bits : Array Bool) (pos w : Nat) : Nat :=
  (List.range w).foldl (fun n i => 2 * n + (if bits.getD (pos + i) false then 1 else 0)) 0

/-- A micro-tile decoded from its header and its slot: its pixel (px, py), or `none` where it is damaged (R324, R325).
[assumption 38, DEDUCED] -/
def printPixel (hdr : Nat) (slot : List Byte) (px py : Nat) : Option (Nat × Nat × Nat) :=
  let mode := bitsOf hdr 1 0
  let units := bitsOf hdr 13 8
  let used := slot.take (32 * units)
  let rd := fun a => leAt used a 2
  let wr := leAt used 6 1 % 16
  let wg := leAt used 6 1 / 16
  let wb := leAt used 7 1 % 16
  let whole := bitsOf hdr 7 2 = 0 && bitsOf hdr 15 14 = 0 && bitsOf hdr 31 16 = crc32c used % 65536
  if !whole then none
  else match mode with
    | 0 =>
      if units = 48 then
        let a := 6 * (32 * py + px)
        some (rd a, rd (a + 2), rd (a + 4))
      else none
    | 1 => if units = 1 then some (rd 0, rd 2, rd 4) else none
    | 2 =>
      if units = wr + wg + wb + 1 ∧ leAt used 7 1 / 16 = 0 then
        let bits := (unpackMsb (used.drop 8)).toArray
        let j := 32 * py + px
        let r := residualAt bits (wr * j) wr
        let g := residualAt bits (256 * wr + wg * j) wg
        let b := residualAt bits (256 * (wr + wg) + wb * j) wb
        some ((rd 0 + r) % 65536, (rd 2 + g) % 65536, (rd 4 + b) % 65536)
      else none
    | _ => none

/-! ## Blocks (R332, R335, R355 to R357) -/

/-- A field of tile context contents, by its register and bits. -/
def tileFld (b : SMap Word) (off hi lo : Nat) : Nat := bitsOf (bankRd b off) hi lo

/-- What contents of tile context `i` say (R332). -/
structure TileCtx where
  enable : Bool
  clone : Bool
  noDetect : Bool
  seam : Bool
  portA : Nat
  portB : Nat
  lutSet : Nat
  tileId : Nat
  x : Nat
  y : Nat
  w : Nat
  h : Nat
  km : List Int
  bg : Pix
deriving DecidableEq, Repr

@[inherit_doc TileCtx] def tileCtx (i : Nat) (b : SMap Word) : TileCtx :=
  let c := R.WALL_TCTX_CTRL i
  { enable := tileFld b c 0 0 = 1, clone := tileFld b c 1 1 = 1, noDetect := tileFld b c 2 2 = 1
    seam := tileFld b c 3 3 = 1, portA := tileFld b c 6 4, portB := tileFld b c 10 8, lutSet := tileFld b c 23 16
    tileId := tileFld b (R.WALL_TCTX_ID i) 15 0, x := tileFld b (R.WALL_TCTX_XY i) 15 0
    y := tileFld b (R.WALL_TCTX_XY i) 31 16, w := tileFld b (R.WALL_TCTX_WH i) 15 0
    h := tileFld b (R.WALL_TCTX_WH i) 31 16
    km := (List.range 9).map (fun j => signedOf 19 (tileFld b (R.WALL_TCTX_KM i j) 18 0))
    bg := ⟨tileFld b (R.WALL_TCTX_BG0 i) 11 0, tileFld b (R.WALL_TCTX_BG0 i) 27 16, tileFld b (R.WALL_TCTX_BG1 i) 11 0⟩ }

/-- Whether reserved fields of contents are zero (R332, R333 check 4). -/
def tileReservedZero (i : Nat) (b : SMap Word) : Bool :=
  let c := R.WALL_TCTX_CTRL i
  let z := fun off hi lo => tileFld b off hi lo = 0
  z c 7 7 && z c 15 11 && z c 31 24 && z (R.WALL_TCTX_ID i) 31 16
    && (List.range 9).all (fun j => z (R.WALL_TCTX_KM i j) 31 19 && z (R.WALL_TCTX_RSV i j) 31 0)
    && z (R.WALL_TCTX_BG0 i) 15 12 && z (R.WALL_TCTX_BG0 i) 31 28 && z (R.WALL_TCTX_BG1 i) 31 12
    && z (R.WALL_TCTX_RSV2 i) 31 0 && z (R.WALL_TCTX_RSV3 i 0) 31 0 && z (R.WALL_TCTX_RSV3 i 1) 31 0

/-- The ports that contents name. -/
def TileCtx.ports (c : TileCtx) : List Nat := if c.clone then [c.portA, c.portB] else [c.portA]

/-- The blocks that a region has, in ascending order (R332). -/
def TileCtx.blocks (c : TileCtx) : List Nat :=
  (List.range 64).filter (fun b => decide (64 * (b % 8) < c.w) && decide (64 * (b / 8) < c.h))

/-- Width and height of a block (R355). -/
def TileCtx.blockSize (c : TileCtx) (b : Nat) : Nat × Nat := (min 64 (c.w - 64 * (b % 8)), min 64 (c.h - 64 * (b / 8)))

/-- The region positions of a block's pixels, in row-major order. -/
def TileCtx.pixels (c : TileCtx) (b : Nat) : List (Nat × Nat) :=
  let z := c.blockSize b
  (List.range z.2).flatMap (fun v => (List.range z.1).map (fun u => (64 * (b % 8) + u, 64 * (b / 8) + v)))

/-- Every block of a region, as a mask. -/
def TileCtx.allBlocks (c : TileCtx) : Nat := (c.blocks.map (fun b => 2 ^ b)).sum

/-- The seam gain at a region position, U2.14; `knot j i` gives K[j][i] (R335). -/
def seamGain (knot : Nat → Nat → Nat) (w h u v : Nat) : Nat :=
  let fx := u * 16 * 65536 / w
  let fy := v * 16 * 65536 / h
  let i := fx / 65536
  let a := fx % 65536
  let j := fy / 65536
  let c := fy % 65536
  let top := knot j i * (65536 - a) + knot j (i + 1) * a
  let bot := knot (j + 1) i * (65536 - a) + knot (j + 1) (i + 1) * a
  (top * (65536 - c) + bot * c + 2 ^ 31) / 2 ^ 32

/-- A covered pixel calibrated and quantised; `lut k` gives channel k's curve (R335). -/
def calibrate (c : TileCtx) (knot : Nat → Nat → Nat) (lut : Nat → Nat → Nat) (u v : Nat) (l : Pix) : Pix :=
  let row := fun (o : Nat) =>
    let m := clampI 0 max24 ((c.km.getD (3 * o) 0 * l.r + c.km.getD (3 * o + 1) 0 * l.g + c.km.getD (3 * o + 2) 0 * l.b
      + 32768) / 65536)
    let m := m.toNat
    let m := if c.seam then min ((m * seamGain knot c.w c.h u v + 8192) / 16384) 0xFFFFFF else m
    min ((toneCurve (lut o) m + 8) / 16) 4095
  ⟨row 0, row 1, row 2⟩

/-- A block's pixels as the words that its CRC-64 takes (R101, R338). -/
def pixelBytes (l : List Pix) : List Byte := l.flatMap (fun p => leBytes 2 p.r ++ leBytes 2 p.g ++ leBytes 2 p.b)

/-- Pixels as the bit string of a PUSH packet (R357). -/
def pushBits (l : List Pix) : List Byte := packMsb (l.flatMap (fun p => msbBits 12 p.r ++ msbBits 12 p.g ++ msbBits 12 p.b))

/-- The bodies of the PUSH packets of a block (R355, R356). -/
def pushBodies (c : TileCtx) (b : Nat) (px : List Pix) (fill : Bool) : List (List Byte) :=
  let z := c.blockSize b
  let n := ceilDiv z.2 16
  (List.range n).map (fun j =>
    let lines := min 16 (z.2 - 16 * j)
    let part := (px.drop (16 * j * z.1)).take (lines * z.1)
    beBytes 2 c.tileId ++ beBytes 1 b ++ beBytes 1 (16 * j) ++ beBytes 1 lines ++ beBytes 1 z.1
      ++ beBytes 1 ((if j + 1 = n then 1 else 0) + (if fill then 2 else 0)) ++ beBytes 1 0 ++ pushBits part)

end Sys2Proof.Machine
end

