-- ==== Sys2Proof/Machine/Surface.lean ====
section
/-! DEFINITION. Chapter 08, surfaces: their feeds and registers, generations, bindings at latch points, line stores, and
the values of their pixels (R314 to R328, R347). -/
namespace Sys2Proof.Machine

/-! ## Access -/

/-- A surface with nothing available. -/
def Surface.clear : Surface := ⟨[], none, [], 0⟩

/-- A surface. -/
def State.surf (s : State) (n : Nat) : Surface := mapGet Surface.clear s.wall.surfs n

/-- A surface changed. -/
def State.setSurf (s : State) (n : Nat) (x : Surface) : State :=
  { s with wall := { s.wall with surfs := mapSet s.wall.surfs n x } }

/-- A surface's feed (R314): 0 HOST, 1 DEV, 2 HEVC, 3 NET, 4 DIRECT. -/
def State.feed (s : State) (n : Nat) : Nat := s.fld (F.WALL_SURF_CFG_feed n)

/-- A surface's source (R314). -/
def State.src (s : State) (n : Nat) : Nat := s.fld (F.WALL_SURF_CFG_src n)

/-- WIDTH and HEIGHT of a surface. -/
def State.surfW (s : State) (n : Nat) : Nat := s.fld (F.WALL_SURF_SIZE_width n)
@[inherit_doc State.surfW] def State.surfH (s : State) (n : Nat) : Nat := s.fld (F.WALL_SURF_SIZE_height n)

/-- BASE, PITCH, STRIDE and the header plane of a surface (R321, R323, R347). -/
def State.surfBase (s : State) (n : Nat) : Nat :=
  s.fld (F.WALL_SURF_BASE_LO_base_lo n) * 2 ^ 12 + s.fld (F.WALL_SURF_BASE_HI_base_hi n) * 2 ^ 32
@[inherit_doc State.surfBase] def State.surfHdr (s : State) (n : Nat) : Nat :=
  s.fld (F.WALL_SURF_HDR_LO_base_lo n) * 2 ^ 12 + s.fld (F.WALL_SURF_HDR_HI_base_hi n) * 2 ^ 32
@[inherit_doc State.surfBase] def State.surfPitch (s : State) (n : Nat) : Nat := s.fld (F.WALL_SURF_PITCH_pitch n) * 64
@[inherit_doc State.surfBase] def State.surfStride (s : State) (n : Nat) : Nat := s.fld (F.WALL_SURF_STRIDE_stride n) * 4096

/-- Hb of R323. -/
def headerBytes (w h : Nat) : Nat := ceilDiv (4 * (ceilDiv w 32 * ceilDiv h 8)) 4096 * 4096

/-- Whether a surface is in use: enabled, or not yet idle (R317). -/
def State.surfLive (s : State) (n : Nat) : Bool := !s.bit (F.WALL_SURF_STATUS_idle n)

/-- The surfaces in use, in ascending order. -/
def State.liveSurfs (s : State) : List Nat := (s.wall.surfs.map (fun e => e.1)).filter s.surfLive

/-- The enabled surfaces of a feed and source. -/
def State.surfsOf (s : State) (feed src : Nat) : List Nat :=
  (s.wall.surfs.map (fun e => e.1)).filter (fun n =>
    s.bit (F.WALL_SURF_CFG_enable n) && s.feed n = feed && s.src n = src)

/-! ## Line stores (R320) -/

/-- Bytes of a line of a DIRECT surface. -/
def directLine (fmt w : Nat) : Nat := ceilDiv ((if fmt = 8 then 12 else 6) * w) 32 * 32

/-- The banks of a DIRECT surface's line store, counted. [assumption 38, DEDUCED] -/
def storeBanks (l : List RecBody) (n : Nat) : Nat :=
  (l.map (fun r => match r with
    | .pool _ c o u _ => if o = 12 ∧ u = n % 256 then c else 0
    | _ => 0)).sum

/-- The lines that a DIRECT surface's line store holds. -/
def State.storeLines (s : State) (n : Nat) : Nat :=
  let b := directLine (s.fld (F.WALL_SURF_CFG_fmt n)) (s.surfW n)
  if b = 0 then 0 else storeBanks s.bodies n * bankBytes / b

/-- The largest `dim_b` among the WALL CONTEXT_SHAPE records. -/
def State.wallDimB (s : State) : Nat :=
  (s.bodies.map (fun r => match r with
    | .shape 12 _ _ _ b _ _ => b
    | _ => 0)).foldl max 0

/-! ## Enabling (R315) -/

/-- The least PITCH and STRIDE of a surface (R321, R224). -/
def State.minLayout (s : State) (n : Nat) : Nat × Nat :=
  let w := s.surfW n
  let h := s.surfH n
  let p := s.surfPitch n
  match s.fld (F.WALL_SURF_CFG_layout n) with
  | 0 =>
    let f := s.fld (F.WALL_SURF_CFG_fmt n)
    if f ≤ 3 then (6 * w, p * h) else if f ≤ 5 then (4 * w, p * h) else (2 * w, p * 3 * h / 2)
  | 3 => (2 * w, p * 2 * h)
  | _ => (ceilDiv w 32 * 1536, p * ceilDiv h 8)

/-- The DRAM ranges of a surface's buffers: base and size. [assumption 38, DEDUCED] -/
def State.surfRanges (s : State) (n : Nat) : List (Nat × Nat) :=
  let k := s.fld (F.WALL_SURF_BUF_bufs n)
  if s.feed n = 4 then []
  else (s.surfBase n, k * s.surfStride n)
    :: (if s.feed n ≠ 2 ∧ s.fld (F.WALL_SURF_CFG_layout n) = 2 then [(s.surfHdr n, k * headerBytes (s.surfW n) (s.surfH n))] else [])

/-- Owners whose regions may hold surfaces: DEV, HEVC, NET, HOST or WALL (R315). -/
def surfOwner (o _u : Nat) : Bool := o = 9 || o = 11 || o = 7 || o = 5 || o = 12

/-- The WALL input port of a feed (R314). -/
def feedPort (feed src : Nat) : Option Nat :=
  match feed with
  | 1 => some src
  | 2 => some (8 + src)
  | 3 => some 72
  | 4 => some src
  | _ => none

/-- Whether the feed, source, format, layout, matrix and decode of a surface keep the tables of R314 and R315. -/
def State.surfFormOk (s : State) (n : Nat) : Bool :=
  let f := s.fld (F.WALL_SURF_CFG_fmt n)
  let lay := s.fld (F.WALL_SURF_CFG_layout n)
  let m := s.fld (F.WALL_SURF_CFG_matrix n)
  let rgb := decide (f ≤ 2)
  let matOk := if rgb then m = 0 else m = 1 || m = 2
  let src := s.src n
  let decodeOk := decide (s.fld (F.WALL_SURF_CFG_decode n) ≤ 16)
  match s.feed n with
  | 0 => src = 0 && decide (f ≤ 7) && (lay = 0 || (decide (lay ≤ 2) && rgb)) && matOk && decodeOk
  | 1 => decide (src ≤ 7) && decide (f ≤ 7) && (lay = 0 || (lay = 1 && rgb)) && matOk && decodeOk
  | 2 => decide (src ≤ 63) && lay = 3 && (m = 1 || m = 2) && decodeOk
  | 3 => decide (src ≤ 63) && decide (f ≤ 7) && lay = 0 && matOk && decodeOk
  | 4 => decide (src ≤ 7) && (rgb || f = 8) && m = 0 && (f = 8 || decodeOk)
  | _ => false

/-- Whether a surface may be enabled (R315). [assumption 38, DEDUCED] -/
def State.surfOk (s : State) (n : Nat) : Bool :=
  let w := s.surfW n
  let h := s.surfH n
  let lay := s.minLayout n
  let k := s.fld (F.WALL_SURF_BUF_bufs n)
  s.surfFormOk n && decide (1 ≤ w) && decide (w ≤ 16888) && decide (1 ≤ h) && decide (h ≤ 16888)
    && (if s.feed n = 4 then decide (2 * s.wallDimB + 8 ≤ s.storeLines n)
        else decide (1 ≤ k) && decide (k ≤ 4) && decide (lay.1 ≤ s.surfPitch n) && decide (lay.2 ≤ s.surfStride n)
          && (s.surfRanges n).all (fun r => s.userRegion r.1 r.2 surfOwner))
    && (if s.feed n = 3 then s.boundary 4 (s.src n) else s.boundary 5 n).isSome
    && (match feedPort (s.feed n) (s.src n) with
        | some p => (s.strandTo .wall p).isSome
        | none => true)

/-! ## Generations (R314, R317, R319) -/

/-- A generation becomes available. -/
def State.surfAvail (s : State) (n : Nat) (f : SurfGen → SurfGen) : State :=
  let x := s.surf n
  let num := (s.rd (R.WALL_SURF_AVAIL n) + 1) % 2 ^ 32
  let g := f ⟨num, s.nowNs, false, false, 0, none, 0, 0, 0, .none⟩
  (s.setSurf n { x with gens := x.gens ++ [g] }).wr (R.WALL_SURF_AVAIL n) num

/-- A surface's write of `bad_cfg`. -/
def State.surfBad (s : State) (n : Nat) : State := s.put (F.WALL_SURF_STATUS_bad_cfg n) 1

/-- A write of WALL_SURFs_CFG (R315, R317). -/
def State.surfCfgWrite (s : State) (n v : Nat) : State :=
  let o := R.WALL_SURF_CFG n
  let old := s.rd o
  if s.surfLive n then
    let s := if (v % 2 ^ 26) / 2 ≠ (old % 2 ^ 26) / 2 then s.surfBad n else s
    if v % 2 = 1 then (if old % 2 = 1 then s else s.surfBad n)
    else if old % 2 = 1 then (s.wr o (old - 1)).surfAvail n (fun g => { g with empty := true })
    else s
  else
    let s := s.wr o (v % 2 ^ 26 / 2 * 2)
    if v % 2 = 1 then
      if s.surfOk n then
        let s := (s.wr o (v % 2 ^ 26)).put (F.WALL_SURF_STATUS_idle n) 0
        ((s.wr (R.WALL_SURF_AVAIL n) 0).wr (R.WALL_SURF_BOUND n) 0).setSurf n Surface.clear
      else s.surfBad n
    else s

/-- A write of a configuration register at +0x04 to +0x20 (R315). -/
def State.surfConfigWrite (s : State) (n off v : Nat) : State := if s.surfLive n then s.surfBad n else s.regWrite off v

/-- A write of WALL_SURFs_COMMIT (R314, R347): a `buf` not below `bufs` makes no generation. [assumption 38, DEDUCED] -/
def State.surfCommit (s : State) (n v : Nat) : State :=
  let s := s.wr (R.WALL_SURF_COMMIT n) (v % 4)
  if bitsOf v 31 31 = 1 ∧ s.bit (F.WALL_SURF_CFG_enable n) = true ∧ s.feed n = 0 ∧ v % 4 < s.fld (F.WALL_SURF_BUF_bufs n) then
    s.surfAvail n (fun g => { g with buf := v % 4 })
  else s

/-! ## Input ports -/

/-- The flags that travel beside a DEV output frame (R103), looked up by the port that feeds a WALL input port. -/
def State.feedMarks (s : State) (port tag : Nat) : Marks :=
  match (s.strandTo .wall port).bind (fun e => s.strandSource e.1) with
  | some (si, sp) => mapGet .none s.cam.marks (65536 * (if si = 11 then 64 + sp else sp) + tag % 65536)
  | none => .none

/-- The DIRECT surfaces in use that a port feeds. -/
def State.directOf (s : State) (port : Nat) : List Nat := s.liveSurfs.filter (fun n => s.feed n = 4 && s.src n = port)

/-- Whether a DIRECT surface still wants the lines of its arriving generation. -/
def Surface.wants (x : Surface) : Bool :=
  x.gens.any (fun g => g.num = x.arriving && !g.empty) || (match x.bound with
    | some g => g.num = x.arriving && !g.empty
    | none => false)

/-- The 32-bit words of data tokens (R227). [assumption 21, DESIGN CHOICE] -/
def tokenWords (l : List Token) : List Nat := l.flatMap (fun t => (List.range 8).map (fun i => tokenField t (32 * i + 23) (32 * i)))

/-- The lines of a frame have all arrived at the DIRECT surfaces of a port. -/
def State.directEnd (s : State) (port : Nat) : State :=
  (s.directOf port).foldl (fun (s : State) d => s.setSurf d { s.surf d with arriving := 0 }) s

/-- WALL takes LINE, data and FRAME_END tokens from a port of a DEV stream, and FRAME_START where no DIRECT surface waits
for it, until a token that makes a generation available stands first, a line has not arrived whole, or a line store is
full (R320). -/
def State.wallPull (port strand : Nat) : Nat → State → State
  | 0, s => s
  | n + 1, s =>
    match s.strandStream strand with
    | [] => s
    | t :: rest =>
      let direct := s.directOf port
      match tokenField t 7 0 with
      | 1 =>
        if direct.isEmpty then
          let s := { s with wall := { s.wall with
            sizes := mapSet s.wall.sizes port (tokenField t 79 64, tokenField t 95 80, tokenField t 31 16) } }
          State.wallPull port strand n (s.strandUse strand 1)
        else s
      | 2 =>
        let k := tokenField t 63 32
        let want := direct.filter (fun d => (s.surf d).wants)
        if decide (rest.length < k) || want.any (fun d => decide (s.storeLines d ≤ (s.surf d).store.length)) then s
        else
          let data := rest.take k
          let s := want.foldl (fun (s : State) d =>
            let x := s.surf d
            let px := if s.fld (F.WALL_SURF_CFG_fmt d) = 8 then tokenWords data else tokenSamples data
            s.setSurf d { x with store := x.store ++ [⟨x.arriving, tokenField t 31 16, px⟩] }) s
          State.wallPull port strand n (s.strandUse strand (1 + k))
      | 3 => State.wallPull port strand n ((s.directEnd port).strandUse strand 1)
      | _ => s

/-- WALL takes what it can from an input port of a DEV stream. -/
def State.wallIntake (s : State) (port : Nat) : State :=
  match s.strandTo .wall port with
  | some (id, _) => State.wallPull port id (s.strandStream id).length s
  | none => s

/-- The first token of a WALL input port, with its strand. -/
def State.wallFront (s : State) (port : Nat) : Option (Nat × Token) :=
  match s.strandTo .wall port with
  | some (id, _) => (s.strandStream id).head?.map (fun t => (id, t))
  | none => none

/-- SURFACE_DONE on port 0–7 (R226, R314, R318). -/
def State.surfaceDoneOp (s : State) (port t : Nat) : State :=
  let s := if s.runs .wall then (s.reach t).wallIntake port else s
  match s.wallFront port with
  | some (id, tok) =>
    if s.runs .wall && tokenField tok 7 0 = 4 then
      let z := mapGet (0, 0, 0) s.wall.sizes port
      let tag := tokenField tok 31 16
      let s := (s.surfsOf 1 port).foldl (fun (s : State) n => s.surfAvail n (fun g => { g with
        buf := tokenField tok 71 64
        bad := decide (z.1 ≠ s.surfW n) || decide (z.2.1 ≠ s.surfH n)
        marks := s.feedMarks port tag })) s
      (s.strandUse id 1).wallIntake port
    else s
  | none => s

/-- FRAME_START on a port that feeds a DIRECT surface (R314, R317). -/
def State.directStart (s : State) (port t : Nat) : State :=
  let s := if s.runs .wall then (s.reach t).wallIntake port else s
  match s.wallFront port with
  | some (id, tok) =>
    if s.runs .wall && tokenField tok 7 0 = 1 then
      let w := tokenField tok 79 64
      let h := tokenField tok 95 80
      let tag := tokenField tok 31 16
      let s := { s with wall := { s.wall with sizes := mapSet s.wall.sizes port (w, h, tag) } }
      let s := (s.directOf port).foldl (fun (s : State) n =>
        if s.bit (F.WALL_SURF_CFG_enable n) then
          let s := s.surfAvail n (fun g => { g with
            bad := decide (w ≠ s.surfW n) || decide (h ≠ s.surfH n), marks := s.feedMarks port tag })
          s.setSurf n { s.surf n with arriving := s.rd (R.WALL_SURF_AVAIL n) }
        else s.setSurf n { s.surf n with arriving := 0 }) s
      (s.strandUse id 1).wallIntake port
    else s
  | none => s

/-- PICTURE_DONE of a decode session (R298, R314, R317). -/
def State.pictureDoneOp (s : State) (k t : Nat) : State :=
  match s.wallFront (8 + k) with
  | some (id, tok) =>
    if s.runs .wall then
      let s := s.reach t
      let out := tokenField tok 63 32
      let s := if tokenField tok 7 0 = 8 then
          (s.surfsOf 2 k).foldl (fun (s : State) n => s.surfAvail n (fun g => { g with
            buf := tokenField tok 71 64, depth := 8 + tokenField tok 75 72, chroma := tokenField tok 77 76
            bad := decide (tokenField tok 95 80 ≠ s.surfW n) || decide (tokenField tok 111 96 ≠ s.surfH n)
            marks := s.feedMarks (8 + k) out })) s
        else s
      s.strandUse id 1
    else s
  | none => s

/-- RX_DONE of a receive stream (R319). -/
def State.rxDoneOp (s : State) (t : Nat) : State :=
  match s.wallFront 72 with
  | some (id, tok) =>
    if s.runs .wall then
      let s := s.reach t
      let r := tokenField tok 15 8
      let frame := tokenField tok 63 32
      let s := if tokenField tok 7 0 = 9 then
          (s.surfsOf 3 r).foldl (fun (s : State) n => s.surfAvail n (fun g => { g with
            buf := tokenField tok 71 64, frame := some frame, lines := tokenField tok 95 80
            marks := mapGet .none s.cam.marks (65536 * (128 + r) + frame % 65536) })) s
        else s
      s.strandUse id 1
    else s
  | none => s

/-! ## Binding (R316, R317) -/

/-- A frame of the frame clock, named by its latch point, changed. -/
def State.setFrame (s : State) (latch : Nat) (f : WallFrame → WallFrame) : State :=
  { s with fclk := { s.fclk with
    frames := s.fclk.frames.map (fun x => if x.latch = latch then f x else x) } }

/-- The newest generation that a frame may bind by the rule of R316. -/
def newestGen (net : Bool) (l : List SurfGen) (num latch : Nat) : Option SurfGen :=
  (l.filter (fun g =>
    if net && !g.empty then (match g.frame with
      | some n => n = num || laterThan 32 num n
      | none => false)
    else decide (g.since < latch))).getLast?

/-- A surface's generation for a frame is `g`: it is the bound one from now on, older ones are skipped, and a DIRECT
surface's lines of skipped generations go (R316, R317, R320, R330). -/
def State.surfTake (s : State) (n : Nat) (fr : WallFrame) (g : SurfGen) : State :=
  let x := s.surf n
  let after := (x.gens.dropWhile (fun h => h.num != g.num)).drop 1
  let s := s.setSurf n { x with
    bound := some g, gens := after, store := x.store.filter (fun l => l.gen = g.num || after.any (fun h => h.num = l.gen)) }
  let s := s.wr (R.WALL_SURF_BOUND n) g.num
  let s := if g.bad then s.put (F.WALL_SURF_STATUS_mismatch n) 1 else s
  s.setFrame fr.latch (fun f => { f with fresh := n :: f.fresh })

/-- The binding of a surface for a frame is settled: the frame shows the bound generation. -/
def State.surfSettle (s : State) (n : Nat) (fr : WallFrame) (how : Nat) : State :=
  let b := (s.surf n).bound
  ((s.setFrame fr.latch (fun f => { f with
    binds := match b with
      | some g => mapSet f.binds n g
      | none => f.binds
    openSurf := f.openSurf.filter (· != n)
    marks := ⟨f.marks.excluded, f.marks.replayed || how = 1, f.marks.override || how = 2⟩ })).unblock 5 0 n fr.num).unblock 4 1 n fr.num

/-- Whether an RX_DONE token that a frame may bind is still on its way to WALL: kind 4 has decided it, so the binding waits
for it as for any token (R316). -/
def State.rxComing (s : State) (r frame : Nat) : Bool :=
  match s.strandTo .wall 72 with
  | some (id, _) => (s.strandStream id).any (fun t => tokenField t 15 8 = r && !laterThan 32 (tokenField t 63 32) frame)
  | none => false

/-- The binding of a surface for a frame whose latch point has come: decided, or blocked (R316, R105, R106). A NET surface
waits for the RX_DONE tokens that the frame may bind. [assumption 38, DEDUCED] -/
def State.surfDecide (s : State) (n : Nat) (fr : WallFrame) (force : Bool) : State :=
  let x := s.surf n
  let net := decide (s.feed n = 3)
  let newest := newestGen net x.gens fr.num fr.latch
  let take := fun (s : State) => match newest with
    | some g => s.surfTake n fr g
    | none => s
  if net then
    if s.rxComing (s.src n) fr.num then s
    else if s.follows 4 fr.latch && !s.ownWall fr.num && (s.heldEntry 4 0 (s.src n) fr.num).isSome && !force then
      s.block 4 1 n fr.num fr.latch
    else (take s).surfSettle n fr 0
  else
    match s.ruling 5 0 n fr.num fr.latch (some (1, 0)) (s.ownWall fr.num) with
    | .locally =>
      match newest with
      | some g => ((s.surfTake n fr g).jnlWrite 5 0 n fr.num g.num 0 0 false false).surfSettle n fr 0
      | none => s.surfSettle n fr 0
    | .nothing => s.surfSettle n fr 3
    | .entry e =>
      match x.gens.find? (fun g => g.num = e.a), x.bound with
      | some g, _ => ((s.replay e).surfTake n fr g).surfSettle n fr 1
      | none, some b =>
        if b.num = e.a then (s.replay e).surfSettle n fr 1
        else if force then
          let s := take s
          (s.overrideWrite 5 0 n fr.num (s.rd (R.WALL_SURF_BOUND n)) 0 0).surfSettle n fr 2
        else s.block 5 0 n fr.num fr.latch
      | none, none =>
        if force then
          let s := take s
          (s.overrideWrite 5 0 n fr.num (s.rd (R.WALL_SURF_BOUND n)) 0 0).surfSettle n fr 2
        else s.block 5 0 n fr.num fr.latch
    | .wait =>
      if force then
        let s := take s
        (s.overrideWrite 5 0 n fr.num (s.rd (R.WALL_SURF_BOUND n)) 0 0).surfSettle n fr 2
      else s.block 5 0 n fr.num fr.latch

/-- At a frame's deadline, a surface whose empty generation the frame was the first to bind becomes idle (R317).
[assumption 38, DEDUCED] -/
def State.surfDeadline (s : State) (fr : WallFrame) : State :=
  fr.binds.foldl (fun (s : State) e =>
    if e.2.empty && (match (s.surf e.1).bound with | some b => b.num = e.2.num | none => false) then
      s.put (F.WALL_SURF_STATUS_idle e.1) 1
    else s) s

/-! ## Discarded tokens (R73, R110) -/

/-- A generation that an excluding event affected. -/
def SurfGen.exclude (g : SurfGen) : SurfGen := { g with marks := { g.marks with excluded := true } }

/-- A generation of a surface is affected by an excluding event, wherever it stands. [assumption 39, DEDUCED] -/
def State.genCut (s : State) (n num : Nat) : State :=
  let f := fun (g : SurfGen) => if g.num = num then g.exclude else g
  let x := s.surf n
  let s := s.setSurf n { x with gens := x.gens.map f, bound := x.bound.map f }
  { s with fclk := { s.fclk with frames := s.fclk.frames.map (fun fr =>
      { fr with binds := fr.binds.map (fun e => if e.1 = n then (e.1, f e.2) else e) }) } }

/-- The tokens of a strand into WALL, or the frame that they carry, have been cut short: the DIRECT generation that was
arriving is affected, and, where tokens were discarded, the newest generation of every other surface of the port, which
stands in for what was lost. [assumption 39, DEDUCED] -/
def State.wallCut (s : State) (id : Nat) (lost : Bool) : State :=
  s.liveSurfs.foldl (fun (s : State) n =>
    if (feedPort (s.feed n) (s.src n)).any (fun p => (s.strandTo .wall p).any (fun e => e.1 = id)) then
      let x := s.surf n
      if s.feed n = 4 then (if x.arriving = 0 then s else s.genCut n x.arriving)
      else if lost then
        match x.gens.getLast?, x.bound with
        | some g, _ => s.genCut n g.num
        | none, some g => s.genCut n g.num
        | none, none => s
      else s
    else s) s

/-! ## Pixels (R321 to R328) -/

/-- A pixel's three samples, the DRAM ranges that it is read from, and whether its micro-tile is damaged. -/
structure Sampled where
  v : List Nat
  reads : List (Nat × Nat)
  damaged : Bool
deriving DecidableEq, Repr

/-- The micro-tile slot of a pixel (R322). [assumption 38, DEDUCED] -/
def microSlot (base pitch px py : Nat) : Nat := base + pitch * (py / 8) + 1536 * (px / 32)

/-- The samples of pixel (px, py) of a surface's generation (R224, R298, R321 to R325). [assumption 38, DEDUCED] -/
def State.surfSample (s : State) (n : Nat) (g : SurfGen) (px py : Nat) : Sampled :=
  let fmt := s.fld (F.WALL_SURF_CFG_fmt n)
  let pitch := s.surfPitch n
  let base := s.surfBase n + g.buf * s.surfStride n
  let h := s.surfH n
  let words := fun (reads : List (Nat × Nat)) =>
    (⟨(reads.flatMap (fun r => s.dramRead r.1 r.2) |> fun l => (List.range (l.length / 2)).map (fun i => leAt l (2 * i) 2)),
      reads, false⟩ : Sampled)
  if s.feed n = 4 then
    match (s.surf n).store.find? (fun l => l.gen = g.num && l.line = py) with
    | some l => ⟨(l.px.drop (3 * px)).take 3, [], false⟩
    | none => ⟨[0, 0, 0], [], false⟩
  else if s.feed n = 2 then
    let y := (base + pitch * py + 2 * px, 2)
    match g.chroma with
    | 0 => words [y]
    | 1 => words [y, (base + pitch * (h + py / 2) + 4 * (px / 2), 4)]
    | _ => words [y, (base + pitch * (h + py) + 4 * (px / 2), 4)]
  else
    match s.fld (F.WALL_SURF_CFG_layout n) with
    | 1 => words [(microSlot base pitch px py + 6 * (32 * (py % 8) + px % 32), 6)]
    | 2 =>
      let mtw := ceilDiv (s.surfW n) 32
      let ha := s.surfHdr n + g.buf * headerBytes (s.surfW n) h + 4 * (mtw * (py / 8) + px / 32)
      let hdr := leNat (s.dramRead ha 4)
      let slot := microSlot base pitch px py
      let len := 32 * bitsOf hdr 13 8
      match printPixel hdr (s.dramRead slot len) (px % 32) (py % 8) with
      | some (r, gr, b) => ⟨[r, gr, b], [(ha, 4), (slot, len)], false⟩
      | none => ⟨[0, 0, 0], [(ha, 4), (slot, len)], true⟩
    | _ =>
      if fmt ≤ 3 then words [(base + pitch * py + 6 * px, 6)]
      else if fmt ≤ 5 then
        let q := base + pitch * py + 8 * (px / 2)
        words [(base + pitch * py + 4 * px, 2), (q + 2, 2), (q + 6, 2)]
      else words [(base + pitch * py + 2 * px, 2), (base + pitch * (h + py / 2) + 4 * (px / 2), 4)]

/-- The decode curve of a surface, point by point (R328, R336), with the table's base. -/
def State.decodeBase (s : State) (n : Nat) : Nat :=
  s.fld F.WALL_DECODE_LO_addr_lo * 64 + s.fld F.WALL_DECODE_HI_addr_hi * 2 ^ 32 + 16448 * s.fld (F.WALL_SURF_CFG_decode n)

/-- The linear RGB value of samples, with the decode curve points read (R326 to R328). -/
def State.surfLinear (s : State) (n : Nat) (g : SurfGen) (p : Sampled) : Pix :=
  let fmt := s.fld (F.WALL_SURF_CFG_fmt n)
  let hevc := decide (s.feed n = 2)
  let v := fun (i : Nat) => p.v.getD i 0
  if fmt = 8 ∧ hevc = false then ⟨v 0 % 2 ^ 24, v 1 % 2 ^ 24, v 2 % 2 ^ 24⟩
  else
    let bits := if hevc then g.depth else formatBits fmt
    let narrow := s.bit (F.WALL_SURF_CFG_narrow n)
    let ex := fun (i : Nat) (c : Bool) => expandSample (v i % 2 ^ bits) bits narrow c
    let rgb := if hevc && g.chroma = 0 then (ex 0 false, ex 0 false, ex 0 false)
      else if hevc || decide (3 ≤ fmt) then
        ycbcrToRgb (s.fld (F.WALL_SURF_CFG_matrix n)) (ex 0 false) (ex 1 true) (ex 2 true)
      else (ex 0 false, ex 1 false, ex 2 false)
    let d := s.fld (F.WALL_SURF_CFG_decode n)
    let base := s.decodeBase n
    let lin := fun (u : Int) =>
      if d = 16 then u.toNat * 16 else decodeCurve (fun i => leNat (s.dramRead (base + 4 * i) 3)) u.toNat
    ⟨lin rgb.1, lin rgb.2.1, lin rgb.2.2⟩

end Sys2Proof.Machine
end

