-- ==== Sys2Proof/Machine/Wall.lean ====
section
/-! DEFINITION. Chapter 08, tile contexts and layers: commits and their bindings (R332 to R334), the canvas (R329, R330),
push passes with their fills (R337 to R340), the wall digest (R101), and PRESENT (R341, R358). -/
namespace Sys2Proof.Machine

/-! ## Contents and layers -/

/-- Contents with every field at its reset value. -/
def TileGen.zero : TileGen := ⟨0, [], []⟩

/-- A tile context after reset. -/
def Tile.clear : Tile := ⟨.zero, [], 0⟩

/-- A tile context. -/
def State.tile (s : State) (i : Nat) : Tile := mapGet Tile.clear s.wall.tiles i

/-- A tile context changed. -/
def State.setTile (s : State) (i : Nat) (x : Tile) : State :=
  { s with wall := { s.wall with tiles := mapSet s.wall.tiles i x } }

/-- The newest contents of a context: the newest pending ones, else the active ones. -/
def Tile.newest (x : Tile) : TileGen := match x.pend.getLast? with
  | some p => p.1
  | none => x.active

/-- The shadow contents of a context (R332). -/
def State.tileShadow (s : State) (i : Nat) : SMap Word := s.snap (0x400000 + 128 * i) (0x400000 + 128 * i + 128)

/-- A layer of a layer table (R329, R348). -/
structure Layer where
  enable : Bool
  surface : Nat
  sx : Nat
  sy : Nat
  cx : Nat
  cy : Nat
  w : Nat
  h : Nat
deriving DecidableEq, Repr

@[inherit_doc Layer] def layerOf (b : SMap Word) (l : Nat) : Layer :=
  ⟨bankBit b (F.WALL_LAYER_CTRL_enable l), bankFld b (F.WALL_LAYER_CTRL_surface l), bankFld b (F.WALL_LAYER_SRC_sx l),
    bankFld b (F.WALL_LAYER_SRC_sy l), bankFld b (F.WALL_LAYER_DST_cx l), bankFld b (F.WALL_LAYER_DST_cy l),
    bankFld b (F.WALL_LAYER_SIZE_w l), bankFld b (F.WALL_LAYER_SIZE_h l)⟩

/-- The enabled layers of a table, the highest-numbered first. -/
def enabledLayers (b : SMap Word) : List Layer := (((List.range 64).map (layerOf b)).filter (fun l => l.enable)).reverse

/-- Whether a rectangle at (x, y) of w × h meets a layer's rectangle on the canvas. -/
def Layer.meets (l : Layer) (x y w h : Nat) : Bool :=
  decide (x < l.cx + l.w) && decide (l.cx < x + w) && decide (y < l.cy + l.h) && decide (l.cy < y + h)

/-! ## Commits (R333, R334) -/

/-- Whether a layer keeps check 3. -/
def State.layerOk (s : State) (l : Layer) : Bool :=
  !l.enable || (decide (1 ≤ l.w) && decide (1 ≤ l.h) && decide (l.w ≤ 16888) && decide (l.h ≤ 16888)
    && decide (l.sx + l.w ≤ s.surfW l.surface) && decide (l.sy + l.h ≤ s.surfH l.surface)
    && decide (l.cx + l.w ≤ 65536) && decide (l.cy + l.h ≤ 16384))

/-- The first context of a list that fails a test, with a code. -/
def firstCtx (l : List Nat) (code : Nat) (bad : Nat → Bool) : Option (Nat × Nat) := (l.find? bad).map (fun i => (code, i))

/-- Checks 4 to 9 of R333 on the contexts of a commit, with the contents that each commits: the code and the context of the
first failure. Check 9 alone looks only at contexts that the commit enables. [assumption 39, DEDUCED] -/
def State.tileChecks (s : State) (l : List (Nat × SMap Word)) : Option (Nat × Nat) :=
  let ctxs := l.map (fun e => e.1)
  let regs := fun (i : Nat) => (mapFind l i).getD []
  let c := fun (i : Nat) => tileCtx i (regs i)
  let on := ctxs.filter (fun i => (c i).enable)
  let dims := fun (i : Nat) => match s.shape 12 i with
    | some h => decide (1 ≤ (c i).w) && decide ((c i).w ≤ h.dimA) && decide (1 ≤ (c i).h) && decide ((c i).h ≤ h.dimB)
    | none => true
  let others := (s.wall.tiles.filter (fun e => !ctxs.contains e.1)).filterMap (fun e =>
    let k := tileCtx e.1 e.2.newest.regs
    if k.enable then some k else none)
  let clash := fun (i : Nat) =>
    let k := c i
    let same := fun (d : TileCtx) => d.tileId = k.tileId && d.ports.any k.ports.contains
    others.any same || on.any (fun j => decide (j < i) && same (c j))
  [firstCtx ctxs 7 (fun i => !tileReservedZero i (regs i) || (c i).tileId = 0xFFFF),
   firstCtx ctxs 3 (fun i => !dims i),
   firstCtx ctxs 4 (fun i => decide (65536 < (c i).x + (c i).w) || decide (16384 < (c i).y + (c i).h)),
   firstCtx ctxs 5 (fun i => (c i).clone && ((c i).portA = (c i).portB || (match s.shape 12 i with
     | some h => h.format % 2 = 0
     | none => false))),
   firstCtx ctxs 6 (fun i => (c i).ports.any (fun p => (s.strandFrom .wall p).isNone)),
   firstCtx on 8 clash].findSome? id

/-- The contexts that join a commit of the layer table: those whose region meets a changed layer's old or new rectangle.
[assumption 39, DEDUCED] -/
def State.tileJoined (s : State) (ctxs : List Nat) (new : SMap Word) : List Nat :=
  let rects := (List.range 64).flatMap (fun l =>
    let a := layerOf s.wall.layers l
    let b := layerOf new l
    if a = b then [] else [a, b].filter (fun r => r.enable))
  (s.wall.tiles.filter (fun e =>
    let k := tileCtx e.1 e.2.newest.regs
    k.enable && !ctxs.contains e.1 && (s.shape 12 e.1).isSome && rects.any (fun r => r.meets k.x k.y k.w k.h))).map (fun e => e.1)

/-- A context takes a pending generation of contents. [assumption 39, DEDUCED] -/
def State.tilePend (s : State) (i : Nat) (regs : SMap Word) (layers : SMap Word) (time num : Nat) : State :=
  let x := s.tile i
  let g : TileGen := ⟨(x.newest.num + 1) % 2 ^ 32, regs, layers⟩
  s.setTile i { x with pend := x.pend ++ [(g, time, num)] }

/-- The result of a commit in WALL_COMMIT_STATUS (R346). -/
def State.commitState (s : State) (code ctx : Nat) : State := s.wr R.WALL_COMMIT_STATUS (code + ctx * 2 ^ 16)

/-- A commit of given contexts, and of the layer table, made at a time (R333, R334). -/
def State.tileCommit (s : State) (range : List Nat) (withLayers : Bool) (time : Nat) : State :=
  let new := s.snap 0xC8000 0xC8400
  if 4 ≤ s.wall.commits.length then s.commitState 9 0
  else if withLayers && (List.range 64).any (fun l => !s.layerOk (layerOf new l)) then s.commitState 10 0
  else
    let ctxs := range.filter (fun i => (s.shape 12 i).isSome)
    let s := if ctxs.length < range.length then s.shapeMiss else s
    let joined := if withLayers then s.tileJoined ctxs new else []
    let contents := ctxs.map (fun i => (i, s.tileShadow i)) ++ joined.map (fun i => (i, (s.tile i).newest.regs))
    match s.tileChecks (contents.foldl (fun m e => mapSet m e.1 e.2) []) with
    | some (code, i) => s.commitState code i
    | none =>
      let num := s.wall.nextCommit
      let lay := if withLayers then new else s.wall.layers
      let s := ctxs.foldl (fun s i => s.tilePend i (s.tileShadow i) lay time num) s
      let s := joined.foldl (fun s i => s.tilePend i (s.tile i).newest.regs lay time num) s
      ({ s with wall := { s.wall with
        commits := s.wall.commits ++ [num], nextCommit := num + 1
        layers := if withLayers then new else s.wall.layers } }).commitState 1 0

/-- A write of WALL_COMMIT_CTRL (R333, R346). -/
def State.wallCommit (s : State) (v : Nat) : State :=
  let s := s.wr R.WALL_COMMIT_CTRL (bitsOf v 1 1 * 2)
  if v % 2 = 1 then
    let n := s.fld F.WALL_COMMIT_RANGE_count
    let first := s.fld F.WALL_COMMIT_RANGE_first
    if n = 0 ∨ 16384 < n ∨ 16384 < first + n then s.commitState 3 0
    else s.tileCommit ((List.range n).map (fun i => first + i)) (v.testBit 1) s.nowNs
  else s

/-- Commits whose contexts have all bound leave the count of R333; the latest shows BOUND (R346). -/
def State.commitSweep (s : State) : State :=
  let live := s.wall.tiles.flatMap (fun e => e.2.pend.map (fun p => p.2.2))
  let rest := s.wall.commits.filter live.contains
  let done := !s.wall.commits.isEmpty && rest.isEmpty
  let s := { s with wall := { s.wall with commits := rest } }
  if done && s.fld F.WALL_COMMIT_STATUS_state = 1 then s.commitState 2 0 else s

/-! ## Marks (R332, R338, R339) -/

/-- The blocks marked for mandatory push. -/
def State.repush (s : State) (i : Nat) : Nat := s.rd (R.WALL_TCTX_REPUSH i 0) + s.rd (R.WALL_TCTX_REPUSH i 1) * 2 ^ 32
@[inherit_doc State.repush] def State.setRepush (s : State) (i m : Nat) : State :=
  (s.wr (R.WALL_TCTX_REPUSH i 0) (m % 2 ^ 32)).wr (R.WALL_TCTX_REPUSH i 1) (m / 2 ^ 32 % 2 ^ 32)

/-- Every block of every context is marked, at once in the registers and for the next wall frame (R339, R375, R377). -/
def State.markAllTiles (s : State) : State :=
  let s := s.wall.tiles.foldl (fun (s : State) e => s.setRepush e.1 (tileCtx e.1 e.2.active.regs).allBlocks) s
  { s with wall := { s.wall with markAll := true } }

/-- Blocks marked for mandatory push, in the register and in the pass of a frame. -/
def State.tileMark (s : State) (i : Nat) (fr : WallFrame) (mask : Nat) : State :=
  (s.setRepush i (s.repush i ||| mask)).setFrame fr.latch (fun f => { f with
    passes := f.passes.map (fun p => if p.ctx = i then { p with force := p.force ||| mask } else p) })

/-! ## Binding contents (R334) -/

/-- A context's pending generation at a place takes effect from a frame on. -/
def State.tileBind (s : State) (i k : Nat) (fr : WallFrame) : State :=
  let x := s.tile i
  match x.pend[k]? with
  | none => s
  | some p =>
    let s := s.setTile i { x with active := p.1, pend := x.pend.drop (k + 1) }
    let s := s.wr (R.WALL_TCTX_GEN i) p.1.num
    (s.setRepush i 0).tileMark i fr (tileCtx i p.1.regs).allBlocks

/-- The binding of a context for a frame is settled: its pass runs with the active contents, or not at all where they are
disabled. -/
def State.tileSettle (s : State) (i : Nat) (fr : WallFrame) (how : Nat) : State :=
  let g := (s.tile i).active
  let on := (tileCtx i g.regs).enable
  (s.setFrame fr.latch (fun f => { f with
    openTile := f.openTile.filter (· != i)
    passes := if on then f.passes.map (fun p => if p.ctx = i then { p with gen := some g } else p)
      else f.passes.filter (fun p => p.ctx != i)
    marks := ⟨f.marks.excluded, f.marks.replayed || how = 1, f.marks.override || how = 2⟩ })).unblock 7 2 i fr.num

/-- The binding of a tile context for a frame whose latch point has come (R334, R173, R105, R106). -/
def State.tileDecide (s : State) (i : Nat) (fr : WallFrame) (force : Bool) : State :=
  let x := s.tile i
  let due := ((x.pend.zipIdx.filter (fun p => decide (p.1.2.1 < fr.latch))).map (fun p => p.2)).getLast?
  let newest := fun (s : State) => s.tileBind i (x.pend.length - 1) fr
  let ownChoice := fun (s : State) => match due with
    | some k => s.tileBind i k fr
    | none => s
  let override := fun (s : State) => (s.overrideWrite 7 2 i fr.num (s.tile i).active.num 0 0).tileSettle i fr 2
  match s.ruling 7 2 i fr.num fr.latch (some (1, 0)) (s.ownWall fr.num) with
  | .locally =>
    match due with
    | some k =>
      let s := s.tileBind i k fr
      (s.jnlWrite 7 2 i fr.num (s.tile i).active.num 0 0 false false).tileSettle i fr 0
    | none => s.tileSettle i fr 0
  | .nothing => s.tileSettle i fr 3
  | .entry e =>
    match x.pend.findIdx? (fun p => p.1.num = e.a) with
    | some k => ((s.replay e).tileBind i k fr).tileSettle i fr 1
    | none =>
      if e.a = x.active.num then (s.replay e).tileSettle i fr 1
      else if laterThan 32 e.a x.newest.num then
        if force then override (ownChoice s) else s.block 7 2 i fr.num fr.latch
      else override (newest s)
  | .wait =>
    if force then override (ownChoice s)
    else s.block 7 2 i fr.num fr.latch

/-- Once every decision of a frame's latch point is made, its seal is written and the state of commits shown (R580). -/
def State.latchSeal (s : State) (latch : Nat) : State :=
  match s.fclk.frames.find? (fun f => f.latch = latch) with
  | some f =>
    if f.openSurf.isEmpty && f.openTile.isEmpty && !f.sealed then
      ((s.seal 1 0 f.num).setFrame latch (fun f => { f with sealed := true })).commitSweep
    else s
  | none => s

/-- The decisions of one frame that no earlier frame holds up are looked at. `force`: the surface (kind 5) or context
(kind 7) whose hold has expired. -/
def State.frameDecide (force : Option (Nat × Nat)) (s : State) (latch : Nat) : State :=
  match s.fclk.frames.find? (fun f => f.latch = latch) with
  | none => s
  | some f =>
    let before := s.fclk.frames.takeWhile (fun g => g.latch != latch)
    let surfs := f.openSurf.filter (fun n => !before.any (fun g => g.openSurf.contains n))
    let tiles := f.openTile.filter (fun i => !before.any (fun g => g.openTile.contains i))
    let s := surfs.foldl (fun s n => s.surfDecide n f (force = some (5, n))) s
    (tiles.foldl (fun s i => s.tileDecide i f (force = some (7, i))) s).latchSeal latch

/-! ## The canvas (R329, R330) -/

/-- The surface, its generation and its pixel that a canvas pixel shows, among the enabled layers given highest first. -/
def State.canvasSource (s : State) (binds : SMap SurfGen) (x y : Nat) : List Layer → Option (Nat × SurfGen × Nat × Nat)
  | [] => none
  | l :: r =>
    let hit := decide (l.cx ≤ x) && decide (x < l.cx + l.w) && decide (l.cy ≤ y) && decide (y < l.cy + l.h)
    match mapFind binds l.surface with
    | some g =>
      let py := l.sy + y - l.cy
      if hit && !g.empty && !g.bad && (s.feed l.surface != 3 || decide (py < g.lines)) then
        some (l.surface, g, l.sx + x - l.cx, py)
      else s.canvasSource binds x y r
    | none => s.canvasSource binds x y r

/-- The sources of a block's pixels. -/
def State.blockSources (s : State) (binds : SMap SurfGen) (c : TileCtx) (layers : List Layer) (b : Nat) :
    List (Option (Nat × SurfGen × Nat × Nat)) :=
  (c.pixels b).map (fun p => s.canvasSource binds (c.x + p.1) (c.y + p.2) layers)

/-- Whether R330 defers a block: it reads a DIRECT surface that binds no new generation in the frame. -/
def State.deferred (s : State) (fr : WallFrame) (src : List (Option (Nat × SurfGen × Nat × Nat))) : Bool :=
  src.any (fun p => match p with
    | some (n, _, _, _) => s.feed n = 4 && !fr.fresh.contains n
    | none => false)

/-- Whether a source pixel can be fetched: a DIRECT line must be in its line store. -/
def State.fetchable (s : State) (p : Option (Nat × SurfGen × Nat × Nat)) : Bool :=
  match p with
  | some (n, g, _, py) => s.feed n != 4 || (s.surf n).store.any (fun l => l.gen = g.num && l.line = py)
  | none => true

/-! ## Tables (R336) -/

/-- A table base (R336). -/
def State.wallBase (s : State) (lo hi : Fld) : Nat := s.fld lo * 64 + s.fld hi * 2 ^ 32

/-- The output LUT set of contents, by channel and point. -/
def State.lutPoint (s : State) (set k i : Nat) : Nat :=
  leNat (s.dramRead (s.wallBase F.WALL_LUT_LO_addr_lo F.WALL_LUT_HI_addr_hi + 24768 * set + 8256 * k + 2 * i) 2)

/-- The seam grid of a context, by row and column. -/
def State.seamKnot (s : State) (i row col : Nat) : Nat :=
  leNat (s.dramRead (s.wallBase F.WALL_SEAM_LO_addr_lo F.WALL_SEAM_HI_addr_hi + 640 * i + 2 * (17 * row + col)) 2)

/-- The address of a stored hash. -/
def State.hashAddr (s : State) (i b : Nat) : Nat :=
  s.wallBase F.WALL_HASH_LO_addr_lo F.WALL_HASH_HI_addr_hi + 8 * (64 * i + b)

/-- The DRAM ranges of the tables that contents read: the LUT set, and the seam grid where it is on. -/
def State.tableReads (s : State) (i : Nat) (c : TileCtx) : List (Nat × Nat) :=
  (s.wallBase F.WALL_LUT_LO_addr_lo F.WALL_LUT_HI_addr_hi + 24768 * c.lutSet, 24768)
    :: (if c.seam then [(s.wallBase F.WALL_SEAM_LO_addr_lo F.WALL_SEAM_HI_addr_hi + 640 * i, 578)] else [])

/-! ## Blocks of a pass -/

/-- The blocks of a pass that R330 does not defer, with their sources. -/
def State.passBlocks (s : State) (fr : WallFrame) (p : Pass) (g : TileGen) : List (Nat × List (Option (Nat × SurfGen × Nat × Nat))) :=
  let c := tileCtx p.ctx g.regs
  let layers := enabledLayers g.layers
  (c.blocks.map (fun b => (b, s.blockSources fr.binds c layers b))).filter (fun e => !s.deferred fr e.2)

/-- A block fetched and calibrated whole (R326 to R335), after the requests that were queued before, with the reads of
poisoned lines recorded. [assumption 13, DEDUCED] -/
def State.fetchBlock (s : State) (i : Nat) (c : TileCtx) (b : Nat) (src : List (Option (Nat × SurfGen × Nat × Nat))) :
    BlockPix × State :=
  let s := s.dramAllTurn
  let samples := src.map (fun p => p.map (fun q => (q, s.surfSample q.1 q.2.1 q.2.2.1 q.2.2.2)))
  let reads := samples.flatMap (fun p => match p with
    | some (_, v) => v.reads
    | none => [])
  let curves := (samples.filterMap (fun p => p.map (fun e => e.1.1))).eraseDups.filter (fun n => s.fld (F.WALL_SURF_CFG_decode n) ≠ 16)
  let bad := s.engineReads (reads ++ curves.map (fun n => (s.decodeBase n, 16388)) ++ s.tableReads i c)
  let px := (List.zip samples (c.pixels b)).map (fun e => match e.1 with
    | some (q, v) =>
      calibrate c (s.seamKnot i) (s.lutPoint c.lutSet) e.2.1 e.2.2
        (if v.damaged then s.surfLinear q.1 q.2.1 { v with v := [0, 0, 0] } else s.surfLinear q.1 q.2.1 v)
    | none => c.bg)
  let tiles := (samples.filterMap (fun p => match p with
    | some (q, v) => if v.damaged then some (q.1, q.2.2.1 / 32, q.2.2.2 / 8) else none
    | none => none)).eraseDups
  (⟨b, px, bad.1⟩, if tiles.isEmpty then bad.2 else bad.2.bump F.WALL_PRINT_BAD_count tiles.length)

/-- The blocks of a pass fetched whole. -/
def State.fetchPass (s : State) (fr : WallFrame) (p : Pass) (g : TileGen) : List BlockPix × State :=
  let c := tileCtx p.ctx g.regs
  (s.passBlocks fr p g).foldl (fun acc e =>
    let r := acc.2.fetchBlock p.ctx c e.1 e.2
    (acc.1 ++ [r.1], r.2)) ([], s)

/-- The first pixel of a block that may not be pushed as fetched: from there on it is background (R340). -/
def Pass.fillOf (p : Pass) (b : Nat) : Option Nat :=
  if p.fillAll then some 0 else (p.fills.find? (fun e => e.1 = b)).map (fun e => e.2)

/-- The flags of R103 behind a block: those of the generations that its pixels show before its fill. -/
def blockMarks (src : List (Option (Nat × SurfGen × Nat × Nat))) (fill : Option Nat) : Marks :=
  ((src.take (fill.getD src.length)).filterMap (fun q => q.map (fun e => e.2.1.marks))).foldl Marks.or .none

/-! ## Pushing a block (R338, R355) -/

/-- A block of a pass is hashed and, where R338 selects it, pushed: whether it was, its pixels, and whether the stored hash
that it was compared with was damaged. A pass pushes the blocks marked for its own frame or left marked by an earlier
one. [assumption 21, DESIGN CHOICE] -/
def State.pushBlock (s : State) (fr : WallFrame) (p : Pass) (c : TileCtx) (k : BlockPix) : Bool × List Pix × Bool × State :=
  let i := p.ctx
  let fill := p.fillOf k.block
  let px := match fill with
    | some n => k.px.take n ++ (k.px.drop n).map (fun _ => c.bg)
    | none => k.px
  let hash := crc64 (pixelBytes px)
  let period := s.fld F.WALL_REFRESH_period
  let sure := c.noDetect || p.force.testBit k.block || (period != 0 && (fr.num + i + k.block) % period = 0)
  let old := if sure then (false, s) else s.engineReads [(s.hashAddr i k.block, 8)]
  let s := old.2
  if sure || leNat (s.dramRead (s.hashAddr i k.block) 8) != hash then
    let s := s.dramWrite (s.hashAddr i k.block) (leBytes 8 hash)
    let s := s.bump F.WALL_PUSHED_count 1
    let bodies := pushBodies c k.block px fill.isSome
    let s := if fr.sends then
        c.ports.foldl (fun s port =>
          if (s.strandFrom .wall port).isSome then
            bodies.foldl (fun (s : State) body => s.fenSend fr.num port 1 body) s
          else s) s
      else s
    (true, px, old.1, s)
  else (false, px, old.1, s)

/-- c_i XOR (i × 0x9E3779B97F4A7C15) of R101 step 3. -/
def digestTerm (i : Nat) (data : List Byte) : Nat := crc64 data ^^^ (i * 0x9E3779B97F4A7C15 % 2 ^ 64)

/-- A frame's pass is complete: its digest, its DIGEST packet and its seal (R101, R112, R384, R580).
[assumption 39, DEDUCED] -/
def State.frameComplete (s : State) (latch : Nat) : State :=
  match s.fclk.frames.find? (fun f => f.latch = latch) with
  | some f =>
    if f.wall && f.passes.isEmpty && !f.complete then
      let s := s.setFrame latch (fun f => { f with complete := true })
      let s : State := s.digestDone 0 0 ⟨f.num, f.digest, f.marks.excluded, f.marks.replayed, f.marks.override⟩
      let s := s.digOwn ⟨f.num, f.digest, f.marks.excluded⟩
      let body := beBytes 8 f.digest
        ++ beBytes 1 ((if f.marks.excluded then 1 else 0) + (if f.marks.replayed then 2 else 0) + (if f.marks.override then 4 else 0))
        ++ beBytes 3 0 ++ beBytes 4 f.pushed
      let s := (portsOf (s.fld F.FEN_PORTS_beacon_ports)).foldl (fun s p => s.fenSend f.num p 6 body) s
      s.seal 2 0 f.num
    else s
  | none => s

/-- DIRECT lines that no push pass still needs leave their line stores (R320). -/
def State.releaseLines (s : State) : State :=
  s.liveSurfs.foldl (fun s n =>
    if s.feed n = 4 then
      let x := s.surf n
      let waiting := fun (g line : Nat) => s.fclk.frames.any (fun f =>
        (match mapFind f.binds n with | some b => b.num = g | none => false) && f.fresh.contains n
          && f.passes.any (fun p => p.pix.isNone && !p.fillAll && (match p.gen with
            | some t =>
              let c := tileCtx p.ctx t.regs
              (enabledLayers t.layers).any (fun l => l.surface = n && l.meets c.x c.y c.w c.h && decide (l.sy ≤ line)
                && decide (line < l.sy + l.h) && decide (c.y ≤ l.cy + (line - l.sy)) && decide (l.cy + (line - l.sy) < c.y + c.h))
            | none => true)))
      let old := fun (g : Nat) => match x.bound with
        | some b => decide (g = b.num)
        | none => false
      s.setSurf n { x with store := x.store.filter (fun l => !old l.gen || waiting l.gen l.line) }
    else s) s

/-- Ports of DIRECT surfaces take what they can, after lines were released. -/
def State.directIntake (s : State) : State :=
  let s := s.releaseLines
  ((s.liveSurfs.filter (fun n => s.feed n = 4)).map s.src).eraseDups.foldl (fun s p => (s.wallIntake p).releaseLines) s

/-- What pushing the blocks of a pass gives. -/
structure PushRun where
  /-- Blocks pushed, their part of the digest's data, and blocks whose stored hash was damaged. -/
  pushed : List Nat
  data : List Byte
  damaged : List Nat
  st : State
deriving DecidableEq, Repr

/-- The blocks of a pass are pushed in order. -/
def State.pushBlocks (s : State) (fr : WallFrame) (p : Pass) (c : TileCtx) (blocks : List BlockPix) : PushRun :=
  blocks.foldl (fun (acc : PushRun) k =>
    let r := acc.st.pushBlock fr p c k
    let acc := { acc with damaged := if r.2.2.1 then k.block :: acc.damaged else acc.damaged, st := r.2.2.2 }
    if r.1 then { acc with pushed := acc.pushed ++ [k.block], data := acc.data ++ leBytes 2 k.block ++ pixelBytes r.2.1 } else acc)
    ⟨[], [], [], s⟩

/-- The blocks that a pass leaves marked are marked for the next pass of its context, if that has begun (R338, R340). -/
def State.carryMarks (s : State) (fr : WallFrame) (i mask : Nat) : State :=
  match (s.fclk.frames.find? (fun f => decide (fr.latch < f.latch) && f.passes.any (fun q => q.ctx = i))) with
  | some f => s.setFrame f.latch (fun f => { f with
      passes := f.passes.map (fun q => if q.ctx = i then { q with force := q.force ||| mask } else q) })
  | none => s

/-- A pass whose fetched blocks and fills are known is hashed and pushed (R337, R338). Its digest carries the flags of the
decisions behind what it pushes (R103); data that an excluding event affected affects the context, so every block is marked
for push (R110, R339). -/
def State.runPass (s : State) (fr : WallFrame) (p : Pass) (g : TileGen) (blocks : List BlockPix) : State :=
  let i := p.ctx
  let c := tileCtx i g.regs
  let x0 := s.tile i
  let behind := (s.passBlocks fr p g).map (fun e => (e.1, blockMarks e.2 (p.fillOf e.1)))
  let r := s.pushBlocks fr p c blocks
  let pushed := r.pushed
  let s := r.st
  let mask := (pushed.map (fun b => 2 ^ b)).sum
  let bad := fun (k : BlockPix) => k.bad || r.damaged.contains k.block || behind.any (fun e => e.1 = k.block && e.2.excluded)
  let badMask := ((blocks.filter bad).map (fun k => 2 ^ k.block)).sum
  let shown := (behind.filter (fun e => pushed.contains e.1)).foldl (fun m e => m.or e.2) Marks.none
  let under := ((c.blocks.filter (fun b => (p.fillOf b).isSome && blocks.any (fun k => k.block = b))).map (fun b => 2 ^ b)).sum
  let later := (s.fclk.frames.filter (fun f => decide (fr.latch < f.latch))).foldl (fun m f =>
    (f.passes.filter (fun q => q.ctx = i)).foldl (fun m q => m ||| q.force) m) 0
  let again : Nat := if badMask == (0 : Nat) then 0 else c.allBlocks
  let left := (p.force - (p.force &&& mask)) ||| under ||| again
  let every := if s.wall.markAll then (tileCtx i x0.active.regs).allBlocks else 0
  let s := (s.setRepush i (left ||| later ||| every)).carryMarks fr i left
  let s := s.setTile i { s.tile i with excluded := (x0.excluded - (x0.excluded &&& mask)) ||| badMask }
  let s := (s.wr (R.WALL_TCTX_LAST i) fr.num).put (F.WALL_TCTX_PUSHED_pushed i) pushed.length
  let s := s.setFrame fr.latch (fun f => { f with
    passes := f.passes.filter (fun q => q.ctx != i)
    digest := if pushed.isEmpty then f.digest else (f.digest + digestTerm i r.data) % 2 ^ 64
    pushed := f.pushed + pushed.length
    marks := f.marks.or ⟨x0.excluded != 0 || badMask != 0, shown.replayed, shown.override⟩ })
  (s.directIntake).frameComplete fr.latch

/-! ## Fills (R340, R105, R581) -/

/-- The kind 8 entries held for a context and a frame. -/
def State.fillEntries (s : State) (i num : Nat) : List Entry :=
  s.jnl.held.filter (fun e => e.kind = 8 && e.unit = i && e.frame = num)

/-- The raster index in a block that a kind 8 entry names. -/
def fillIndex (c : TileCtx) (b argB : Nat) : Nat := bitsOf argB 5 0 * (c.blockSize b).1 + bitsOf argB 13 8

/-- Fills made at a deadline: their entries, counts and marks (R340). `how`: 0 local, 2 override.
[assumption 39, DEDUCED] -/
def State.noteFills (s : State) (fr : WallFrame) (i : Nat) (c : TileCtx) (fills : List (Nat × Nat)) (how : Nat) : State :=
  let n := fills.length
  let s := fills.foldl (fun (s : State) e =>
    let w := max 1 (c.blockSize e.1).1
    let arg := e.2 / w + e.2 % w * 2 ^ 8
    if how = 2 then s.overrideWrite 8 0 i fr.num e.1 arg 0 else s.jnlWrite 8 0 i fr.num e.1 arg 0 false false) s
  let s := if n = 0 then s else (s.bump F.WALL_UNDERRUN_count n).bump (F.WALL_TCTX_PUSHED_underruns i) n
  s

/-- The fills of a pass at a deadline: each block from its first unfetched pixel. `fetched` says how many pixels of a block
had been fetched; no block whose DIRECT lines are missing is fetched beyond them. [assumption 39, DEDUCED] -/
def State.localFills (s : State) (fr : WallFrame) (p : Pass) (g : TileGen) (fetched : List (Nat × Nat)) : List (Nat × Nat) :=
  (s.passBlocks fr p g).filterMap (fun e =>
    let n := e.2.length
    let miss := (e.2.findIdx? (fun q => !s.fetchable q)).getD n
    let got := min miss (((fetched.find? (fun f => f.1 = e.1)).map (fun f => f.2)).getD 0)
    if got < n then some (e.1, got) else none)

/-- A pass changed. -/
def State.setPass (s : State) (latch i : Nat) (f : Pass → Pass) : State :=
  s.setFrame latch (fun fr => { fr with passes := fr.passes.map (fun p => if p.ctx = i then f p else p) })

/-- A pass takes its fills and is fetched (R340). -/
def State.settlePass (s : State) (fr : WallFrame) (p : Pass) (g : TileGen) (fills : List (Nat × Nat)) (how : Nat) : State :=
  let c := tileCtx p.ctx g.regs
  let s := s.noteFills fr p.ctx c fills how
  let r := s.fetchPass fr p g
  r.2.setPass fr.latch p.ctx (fun q => { q with fills := fills, pix := some r.1 })

/-- Whether every source pixel that a pass needs before its fills is there. -/
def State.passFetchable (s : State) (fr : WallFrame) (p : Pass) (g : TileGen) (fills : List (Nat × Nat)) : Bool :=
  (s.passBlocks fr p g).all (fun e =>
    (e.2.take (((fills.find? (fun f => f.1 = e.1)).map (fun f => f.2)).getD e.2.length)).all s.fetchable)

/-- Whether the surfaces that a pass reads are all bound for its frame. -/
def passBound (fr : WallFrame) (g : TileGen) : Bool :=
  (enabledLayers g.layers).all (fun l => !fr.openSurf.contains l.surface)

/-- The oldest pass of a context, with its frame. -/
def State.nextPass (s : State) (i : Nat) : Option (WallFrame × Pass) :=
  s.fclk.frames.findSome? (fun f => (f.passes.find? (fun p => p.ctx = i)).map (fun p => (f, p)))

/-- A context's oldest pass is settled where its kind 8 decisions are followed and known (R340, R581).
[assumption 39, DEDUCED] -/
def State.followFills (s : State) (fr : WallFrame) (p : Pass) (g : TileGen) : State :=
  let c := tileCtx p.ctx g.regs
  let es := s.fillEntries p.ctx fr.num
  let fills := es.map (fun e => (e.a, fillIndex c e.a e.b))
  if s.sealed 2 0 fr.num && s.passFetchable fr p g fills then
    let s := es.foldl (fun s e => s.replay e) s
    let s := if es.isEmpty then s
      else (s.bump F.WALL_UNDERRUN_count es.length).bump (F.WALL_TCTX_PUSHED_underruns p.ctx) es.length
    let s := s.unblock 8 0 p.ctx fr.num
    let r := s.fetchPass fr p g
    (r.2.setPass fr.latch p.ctx (fun q => { q with fills := fills, pix := some r.1 })).setFrame fr.latch
      (fun f => { f with marks := ⟨f.marks.excluded, f.marks.replayed || !es.isEmpty, f.marks.override⟩ })
  else s

/-- Whether kind 8 is followed for a frame. -/
def State.followsFill (s : State) (fr : WallFrame) : Bool := s.follows 8 fr.latch && !s.ownWall fr.num

/-- A push pass of a context runs, if it is ready (R337). -/
def State.pushPass (s : State) (i : Nat) : State :=
  if !s.runs .wall then s
  else
    let s := s.directIntake
    match s.nextPass i with
    | none => s
    | some (fr, p) =>
      match p.gen with
      | none => s
      | some g =>
        if !passBound fr g then s
        else match p.pix with
          | some k => s.runPass fr p g k
          | none =>
            if p.fillAll then
              let c := tileCtx i g.regs
              let all := (s.passBlocks fr p g).map (fun e => (e.1, 0))
              let s := s.noteFills fr i c all 0
              let px := (s.passBlocks fr p g).map (fun e => (⟨e.1, e.2.map (fun _ => c.bg), false⟩ : BlockPix))
              s.runPass fr { p with fills := all, fillAll := false } g px
            else if s.followsFill fr then
              let s := s.followFills fr p g
              match s.nextPass i with
              | some (fr2, q) => match q.pix with
                | some k => s.runPass fr2 q g k
                | none => s
              | none => s
            else if s.passFetchable fr p g [] then
              let r := s.fetchPass fr p g
              r.2.runPass fr p g r.1
            else s

/-- Whether a context's push pass is ready (R337). -/
def State.passReady (s : State) (i : Nat) : Bool :=
  match s.nextPass i with
  | some (fr, p) => match p.gen with
    | some g => passBound fr g && (p.pix.isSome || p.fillAll
        || (if s.followsFill fr then s.sealed 2 0 fr.num else s.passFetchable fr p g []))
    | none => false
  | none => false

/-- The hold of a blocked kind 8 decision has expired: the pass is fetched, and what is missing is filled (R106).
[assumption 39, DEDUCED] -/
def State.fillOverride (s : State) (i num : Nat) : State :=
  match s.nextPass i with
  | some (fr, p) =>
    if fr.num = num then
      match p.gen with
      | some g =>
        let es := s.fillEntries i num
        let c := tileCtx i g.regs
        let known := es.map (fun e => (e.a, fillIndex c e.a e.b))
        let all := (s.passBlocks fr p g).map (fun e => (e.1, e.2.length))
        let miss := (s.localFills fr p g all).filter (fun e => !known.any (fun k => k.1 = e.1 && decide (k.2 ≤ e.2)))
        let s := es.foldl (fun s e => s.replay e) s
        let s := if miss.isEmpty then s.noteOverride else s
        let s := (s.settlePass fr p g miss 2).unblock 8 0 i num
        (s.setPass fr.latch i (fun q => { q with fills := q.fills ++ known })).setFrame fr.latch
          (fun f => { f with marks := ⟨f.marks.excluded, f.marks.replayed || !es.isEmpty, true⟩ })
      | none => s.unblock 8 0 i num
    else s.unblock 8 0 i num
  | none => s.unblock 8 0 i num

/-! ## The deadline and the present (R340, R341, R358) -/

/-- Frames of which nothing is left leave. -/
def State.sweepFrames (s : State) : State :=
  { s with fclk := { s.fclk with
    frames := s.fclk.frames.filter (fun f =>
      !(f.due && f.lit && f.passes.isEmpty && f.presented && f.openSurf.isEmpty && f.openTile.isEmpty)) } }

/-- Blocked wall decisions are looked at again, oldest frame first (R105, R581). -/
def State.wallResume (s : State) (force : Option (Nat × Nat × Nat)) : State :=
  let s := s.fclk.frames.foldl (fun s f =>
    s.frameDecide (match force with
      | some (k, u, n) => if n = f.num then some (k, u) else none
      | none => none) f.latch) s
  (s.fclk.frames.foldl (fun (s : State) f => if f.due then s.frameComplete f.latch else s) s).sweepFrames

/-- The push deadline of the oldest frame that has not met it. `fetched` gives, for passes that still run, how many pixels
of a block had been fetched: context, block, pixels. [assumption 39, DEDUCED] -/
def State.deadlineOp (s : State) (fetched : List (Nat × Nat × Nat)) : State :=
  match s.fclk.frames.find? (fun f => !f.due) with
  | none => s
  | some f0 =>
    let s := s.reach f0.deadline
    let s := s.directIntake
    let fr := (s.fclk.frames.find? (fun f => f.latch = f0.latch)).getD f0
    let s := fr.passes.foldl (fun (s : State) p =>
      if s.followsFill fr then s.block 8 0 p.ctx fr.num fr.deadline
      else match p.gen with
        | some g =>
          if passBound fr g then
            s.settlePass fr p g (s.localFills fr p g ((fetched.filter (fun e => e.1 = p.ctx)).map (fun e => e.2))) 0
          else s.setPass fr.latch p.ctx (fun q => { q with fillAll := true })
        | none => s.setPass fr.latch p.ctx (fun q => { q with fillAll := true })) s
    let s := s.surfDeadline fr
    let s := s.setFrame fr.latch (fun f => { f with due := true, presented := f.presented || !f.wall })
    let s := if fr.count = 0 && !fr.wall then s.seal 2 0 fr.num else s
    (s.frameComplete fr.latch).directIntake.sweepFrames

/-- PRESENT of the oldest frame that is due for one: after its last push and not before its deadline (R341, R358). -/
def State.presentOp (s : State) : State :=
  match s.fclk.frames.find? (fun f => f.wall && !f.presented) with
  | none => s
  | some f =>
    if f.due && f.passes.isEmpty then
      let body := fun (p : Nat) => beBytes 8 (f.present / 1000000000) ++ beBytes 4 (f.present % 1000000000) ++ beBytes 4 f.modeGen
        ++ beBytes 4 (mapGet 0 f.pkts p) ++ beBytes 4 0
      let s := if f.sends then s.wallPorts.foldl (fun s p => s.fenSend f.num p 2 (body p)) s else s
      ((s.setFrame f.latch (fun f => { f with presented := true })).fenFlush).sweepFrames
    else s

end Sys2Proof.Machine
end

