-- ==== Sys2Proof/Machine/Clock.lean ====
section
/-! DEFINITION. The frame clock (R310 to R313, R418): WALL enable and disable, timing mode changes, the points of a wall
frame, and the writes of WALL registers with their commands. -/
namespace Sys2Proof.Machine

/-! ## Enable and disable (R312) -/

/-- The timing mode that the WALL_MODE registers hold. -/
def State.modeRegs (s : State) : WallMode :=
  { num := s.fld F.WALL_MODE_RATE_num, den := s.fld F.WALL_MODE_RATE_den, phase := s.fld F.WALL_MODE_PHASE_phase
    lead := s.fld F.WALL_MODE_LEAD_lead, margin := s.fld F.WALL_MODE_LEAD_margin
    orgSec := s.rd2 (R.WALL_MODE_ORG_SEC 0) (R.WALL_MODE_ORG_SEC 1), orgFrame := s.rd R.WALL_MODE_ORG_FRAME
    gen := s.rd R.WALL_MODE_GEN }

/-- Whether every table base lies in a WALL unit 0 region (R312, R336). [assumption 37, DEDUCED] -/
def State.tablesOk (s : State) : Bool :=
  [s.wallBase F.WALL_HASH_LO_addr_lo F.WALL_HASH_HI_addr_hi, s.wallBase F.WALL_SEAM_LO_addr_lo F.WALL_SEAM_HI_addr_hi,
   s.wallBase F.WALL_LUT_LO_addr_lo F.WALL_LUT_HI_addr_hi, s.wallBase F.WALL_DECODE_LO_addr_lo F.WALL_DECODE_HI_addr_hi].all
    (fun a => s.inRegion a 1 (fun o u => o = 12 && u = 0))

/-- The wall starts under the mode of its registers, at the first frame whose latch point is 1 ms away or more (R312).
[assumption 37, DEDUCED] -/
def State.wallStart (s : State) : State :=
  let m := s.modeRegs
  let s := (s.put F.WALL_CTRL_enable 1).markAllTiles
  let s := s.wall.tiles.foldl (fun (s : State) e => s.put (F.WALL_TCTX_PUSHED_underruns e.1) 0) s
  { s with fclk := { s.fclk with start := some (m, m.firstLatch (s.nowNs + 1000000)) } }

/-- The present time of the latest wall frame latched, if one is outstanding. -/
def FrameClock.lastPresent (c : FrameClock) : Nat := ((c.frames.filter (fun f => f.wall)).map (fun f => f.present)).foldl max 0

/-- The numbering of wall frames passes to another mode: the device's seals for points of the old numbering are done
with. -/
def State.forgetWallSeals (s : State) : State :=
  { s with jnl := { s.jnl with seals := s.jnl.seals.filter (fun x => decide (2 < x.1)) } }

/-- The frame clock returns to the reference mode, at its first latch point after now and after the last served frame's
present time (R311, R312, R418). A change of mode that was pending is withdrawn. [assumption 37, DEDUCED] -/
def State.clockToRef (s : State) : State :=
  let c := s.fclk
  let s := if c.change.isSome then (s.put F.WALL_MODE_STATUS_state 0).dropWaits (fun w => w.kind = 7 && w.target = 5) else s
  if c.wall then
    let t := max c.lastPresent s.nowNs
    ({ s with fclk := { c with
      mode := .ref, wall := false, next := WallMode.ref.firstLatch (t + 1), start := none, change := none, decided := false } }
      : State).forgetWallSeals
  else { s with fclk := { c with start := none, change := none, decided := false } }

/-- The wall stops (R312). -/
def State.wallStop (s : State) : State := (s.put F.WALL_CTRL_enable 0).clockToRef

/-- A write of WALL_CTRL (R312). [assumption 37, DEDUCED] -/
def State.wallCtrlWrite (s : State) (v : Nat) : State :=
  if s.rig.change.isSome then s.put F.WALL_STATUS_bad_cfg 1
  else if v % 2 = 1 then
    if s.bit F.WALL_CTRL_enable then s
    else if s.modeRegs.ok && s.tablesOk then s.wallStart
    else s.put F.WALL_STATUS_bad_cfg 1
  else if s.bit F.WALL_CTRL_enable then s.wallStop
  else s

/-! ## Mode changes (R313) -/

/-- The wall's mode now running or about to start, with the k of its next frame. -/
def FrameClock.wallMode (c : FrameClock) : WallMode × Nat :=
  if c.wall then (c.mode, c.next) else c.start.getD (c.mode, c.next)

/-- The first frame that a mode presents at or after S, and S, for a commit made at an instant (R313 steps 2 to 4). -/
def WallMode.changeAt (m : WallMode) (t : Nat) : Nat × Nat :=
  let sec := ceilDiv (t * m.num + m.den * 1000000000) (m.num * 1000000000)
  (m.number (m.firstAt (sec * 1000000000)), sec)

/-- S for a followed entry that names N_s: the whole second in (T of the frame before, T of N_s] of the old mode (R313). -/
def FrameClock.secondOf (c : FrameClock) (n : Nat) : Nat :=
  let m := c.wallMode
  let ahead := (n + 2 ^ 32 - m.1.number m.2) % 2 ^ 32
  let k := if ahead < 2 ^ 31 then m.2 + ahead else m.2 - (2 ^ 32 - ahead)
  m.1.present k / 1000000000

/-- A mode change takes its origin. -/
def State.modeOrigin (s : State) (n sec : Nat) : State :=
  { s with fclk := { s.fclk with
    change := s.fclk.change.map (fun m => { m with orgFrame := n, orgSec := sec }), decided := true } }

/-- The decision of a committed mode change (R313, R105, R106). Its key holds the frame that this device finds; where the
source's seal shows that it made no change there, the next frame that a change can name is the first one presented at or
after the following whole second (R581). `force`: the hold for that frame has expired. [assumption 37, DEDUCED] -/
def State.modeResume (s : State) (force : Bool) : State :=
  match s.fclk.change with
  | none => s
  | some m =>
    if s.fclk.decided then s
    else
      let n := m.orgFrame
      let local_ := fun (s : State) => s.modeOrigin n m.orgSec
      if s.follows 7 (s.pointTime 7 5 0 n) && !s.ownWall n then
        match s.jnl.held.find? (fun e => e.kind = 7 && e.target = 5 && e.unit = 0 && e.a = m.gen) with
        | some e => ((s.replay e).unblock 7 5 0 n).modeOrigin e.frame (s.fclk.secondOf e.frame)
        | none =>
          if s.sealed 1 0 n then
            let w := s.fclk.wallMode.1
            let next := { m with orgFrame := w.number (w.firstAt ((m.orgSec + 1) * 1000000000)), orgSec := m.orgSec + 1 }
            ({ s with fclk := { s.fclk with change := some next } } : State).unblock 7 5 0 n
          else if force then local_ (s.overrideWrite 7 5 0 n m.gen 0 0)
          else s.block 7 5 0 n s.nowNs
      else local_ ((s.jnlWrite 7 5 0 n m.gen 0 0 false false).unblock 7 5 0 n)

/-- Whether the latch point of frame N must wait for a followed mode change: the decision for N is open here, or the source's
entry names N with a mode that the host has not committed to this device (R105). [assumption 37, DEDUCED] -/
def State.modeWaits (s : State) (n t : Nat) : Bool :=
  s.fclk.wall && s.follows 7 t && !s.ownWall n && !s.fclk.decided
    && ((s.fclk.change.any (fun m => m.orgFrame = n)) || (s.heldEntry 7 5 0 n).isSome)

/-- The hold of a mode change for frame N has expired: the device decides it, or, with nothing committed, lets the source's
entry go (R106). -/
def State.modeForce (s : State) (n : Nat) : State :=
  if !s.fclk.decided && s.fclk.change.any (fun m => m.orgFrame = n) then s.modeResume true
  else s.overrideWrite 7 5 0 n s.fclk.mode.gen 0 0

/-- A commit write of WALL_MODE_CTRL (R313, R345). With the wall off it takes effect at once. [assumption 37, DEDUCED] -/
def State.modeCommitOp (s : State) : State :=
  let m := s.modeRegs
  if s.fclk.change.isSome then s.put F.WALL_MODE_STATUS_state 4
  else if !m.ok then s.put F.WALL_MODE_STATUS_state 3
  else
    let gen := (m.gen + 1) % 2 ^ 32
    if !s.bit F.WALL_CTRL_enable then (s.wr R.WALL_MODE_GEN gen).put F.WALL_MODE_STATUS_state 2
    else
      let c := s.fclk.wallMode.1.changeAt s.nowNs
      let s := s.put F.WALL_MODE_STATUS_state 1
      let s : State := { s with fclk := { s.fclk with
        change := some { m with gen := gen, orgFrame := c.1, orgSec := c.2 }, decided := false } }
      s.modeResume false

/-- The clock's next latch point: a mode that takes over there is in effect (R313, R418). [assumption 37, DEDUCED] -/
def FrameClock.roll (c : FrameClock) : FrameClock :=
  if c.wall then
    match c.change with
    | some m =>
      if c.decided && decide (m.orgSec * 1000000000 ≤ c.mode.present c.next) then
        { c with mode := m, next := 0, change := none, decided := false }
      else c
    | none => c
  else
    match c.start with
    | some (m, k) => if m.latch k ≤ c.mode.latch c.next then { c with mode := m, next := k, wall := true, start := none } else c
    | none => c

/-- A mode change has taken effect: the registers show the new mode's generation and origin (R313, R343). -/
def State.modeShown (s : State) (m : WallMode) : State :=
  let s := ((s.wr R.WALL_MODE_GEN m.gen).wr R.WALL_MODE_ORG_FRAME m.orgFrame).wr (R.WALL_MODE_ORG_SEC 0) (m.orgSec % 2 ^ 32)
  (s.wr (R.WALL_MODE_ORG_SEC 1) (m.orgSec / 2 ^ 32 % 2 ^ 32)).put F.WALL_MODE_STATUS_state 2

/-- What the clock does before its next point: a change of mode that is due takes effect; the reference mode gives way to
the wall's, and its frames have no further deadline or present time (R418). [assumption 37, DEDUCED] -/
def State.clockRoll (s : State) : State :=
  let old := s.fclk
  let new := old.roll
  let s := { s with fclk := new }
  if old.wall then (if new.mode = old.mode then s else s.modeShown new.mode)
  else if new.wall then
    let s := s.forgetWallSeals
    let l := new.mode.latch new.next
    { s with fclk := { new with
      frames := new.frames.map (fun f =>
        if !f.wall then { f with due := f.due || decide (l ≤ f.deadline), lit := f.lit || decide (l ≤ f.present), presented := true }
        else f) } }
  else s

/-- MODE_CHANGE_EFFECT: Anchor time reaches S, once every frame that the old mode presents before S has been latched.
[assumption 37, DEDUCED] -/
def State.modeEffectOp (s : State) : State :=
  match s.fclk.change with
  | some m =>
    if s.fclk.wall && s.fclk.decided && decide (m.orgSec * 1000000000 ≤ s.fclk.mode.present s.fclk.next) then
      (s.reach (m.orgSec * 1000000000)).clockRoll
    else s
  | none => s

/-! ## The points of a frame (R311, R316, R334, R337, R418) -/

/-- The contexts that a frame looks at: shaped, and enabled or with contents to bind. -/
def State.liveTiles (s : State) : List Nat :=
  (s.wall.tiles.filter (fun e => (s.shape 12 e.1).isSome
    && (!e.2.pend.isEmpty || (tileCtx e.1 e.2.active.regs).enable))).map (fun e => e.1)

/-- The next latch point, in ns. -/
def State.nextLatch (s : State) : Nat :=
  let c := s.fclk.roll
  c.mode.latch c.next

/-- The number of the frame of the next latch point. -/
def State.nextFrame (s : State) : Nat :=
  let c := s.fclk.roll
  c.mode.number c.next

/-- The frame that the clock latches now joins the outstanding frames, with its bindings to make. `sends`: the unit sends
its packets. -/
def State.frameOpen (s : State) (sends : Bool) : State :=
  let c := s.fclk
  let k := c.next
  let m := c.mode
  let up := s.runs .wall
  let wall := c.wall && up
  let tiles := if up then s.liveTiles else []
  let surfs := if up then s.liveSurfs else []
  let all := wall && s.wall.markAll
  let begun := fun (i : Nat) => c.frames.any (fun f => f.passes.any (fun q => q.ctx = i))
  let s := if all then tiles.foldl (fun (s : State) i => s.setRepush i (tileCtx i (s.tile i).active.regs).allBlocks) s else s
  let passes := if wall then tiles.map (fun i => (⟨i, none, if !all && begun i then 0 else s.repush i, [], false, none⟩ : Pass)) else []
  let fr : WallFrame := {
    num := m.number k, latch := m.latch k, deadline := m.deadline k, present := m.present k, modeGen := m.gen
    wall := wall, sends := sends && wall, binds := [], fresh := [], openSurf := surfs, openTile := tiles
    sealed := false, passes := passes, count := passes.length, digest := 0, pushed := 0, marks := .none
    due := false, lit := false, complete := false, presented := !wall, pkts := [] }
  let s : State := { s with
    fclk := { c with frames := c.frames ++ [fr], next := k + 1, last := fr.latch }
    wall := { s.wall with markAll := s.wall.markAll && !all } }
  if up then
    (s.wr R.WALL_FRAME fr.num).flag F.WALL_STATUS_running wall
  else s

/-- The wall's part of a latch point: surfaces and contexts bind, and the passes of the frame begin. -/
def State.wallLatch (s : State) : State :=
  let l := s.fclk.last
  let s := s.frameDecide none l
  let s := s.setFrame l (fun f => { f with count := f.passes.length })
  s.directIntake.sweepFrames

/-- PRESENT_TIME: the oldest frame past its deadline reaches T. -/
def State.presentTimeOp (s : State) : State :=
  match s.fclk.frames.find? (fun f => f.due && !f.lit) with
  | some f => ((s.reach f.present).setFrame f.latch (fun f => { f with lit := true })).sweepFrames
  | none => s

/-! ## WALL registers (R343 to R348) -/

/-- Whether a WALL offset holds its value while `enable` is 1: the origin and the table bases (R312, R336). -/
def wallFrozen (off : Nat) : Bool :=
  off = 0xC0024 || off = 0xC0028 || off = 0xC002C || (decide (0xC0050 ≤ off) && decide (off < 0xC0070))

/-- A write of a register of the WALL block. -/
def State.wallRegWrite (s : State) (off v : Nat) : State :=
  if off = R.WALL_CTRL then s.wallCtrlWrite v
  else if off = R.WALL_MODE_CTRL then (if v % 2 = 1 then s.modeCommitOp else s)
  else if off = R.WALL_COMMIT_CTRL then s.wallCommit v
  else if 0xC1000 ≤ off ∧ off < 0xC5000 then
    let n := (off - 0xC1000) / 0x40
    let r := (off - 0xC1000) % 0x40
    if r = 0 then s.surfCfgWrite n v
    else if r ≤ 0x20 then s.surfConfigWrite n off v
    else if r = 0x24 then s.surfCommit n v
    else s.regWrite off v
  else if wallFrozen off && s.bit F.WALL_CTRL_enable then s
  else s.regWrite off v

/-- A row's write of a WALL register. -/
def State.wallRow (s : State) (m : Master) (off v : Nat) : State := s.guardedWrite m off (fun s => s.wallRegWrite off v)

/-- WALL_ENABLE. -/
def execWallEnable (m : Master) (s : State) : Host.Outcome State Fault Refusal := done (s.wallRow m R.WALL_CTRL 1)

/-- WALL_DISABLE. -/
def execWallDisable (m : Master) (s : State) : Host.Outcome State Fault Refusal := done (s.wallRow m R.WALL_CTRL 0)

/-- MODE_COMMIT. -/
def execModeCommit (m : Master) (s : State) : Host.Outcome State Fault Refusal := done (s.wallRow m R.WALL_MODE_CTRL 1)

/-- MODE_CHANGE_EFFECT. -/
def execModeChangeEffect (s : State) : Host.Outcome State Fault Refusal := done s.modeEffectOp

/-- SURFACE_ENABLE. -/
def execSurfaceEnable (m : Master) (surf : Nat) (v : Word) (s : State) : Host.Outcome State Fault Refusal :=
  done (s.wallRow m (R.WALL_SURF_CFG (surf % 256)) (putBits v.toNat 0 0 1))

/-- SURFACE_DISABLE. -/
def execSurfaceDisable (m : Master) (surf : Nat) (v : Word) (s : State) : Host.Outcome State Fault Refusal :=
  done ((s.wallRow m (R.WALL_SURF_CFG (surf % 256)) (putBits v.toNat 0 0 0)).wallResume none)

/-- SURFACE_COMMIT. -/
def execSurfaceCommit (m : Master) (surf buf : Nat) (s : State) : Host.Outcome State Fault Refusal :=
  done ((s.wallRow m (R.WALL_SURF_COMMIT (surf % 256)) (2 ^ 31 + buf % 4)).wallResume none)

/-- SURFACE_DONE. -/
def execSurfaceDone (port t : Nat) (s : State) : Host.Outcome State Fault Refusal := done ((s.surfaceDoneOp (port % 8) t).wallResume none)

/-- PICTURE_DONE. -/
def execPictureDone (k t : Nat) (s : State) : Host.Outcome State Fault Refusal := done ((s.pictureDoneOp (k % 64) t).wallResume none)

/-- RX_DONE. -/
def execRxDone (t : Nat) (s : State) : Host.Outcome State Fault Refusal := done ((s.rxDoneOp t).wallResume none)

/-- DIRECT_FRAME_START. -/
def execDirectFrameStart (port t : Nat) (s : State) : Host.Outcome State Fault Refusal := done ((s.directStart (port % 8) t).wallResume none)

/-- PUSH_DEADLINE. -/
def execPushDeadline (fetched : List (Nat × Nat × Nat)) (s : State) : Host.Outcome State Fault Refusal :=
  done (s.deadlineOp fetched)

/-- PRESENT_TIME. -/
def execPresentTime (s : State) : Host.Outcome State Fault Refusal := done s.presentTimeOp

/-- PUSH_PASS. -/
def execPushPass (ctx : Nat) (s : State) : Host.Outcome State Fault Refusal := done (s.pushPass (ctx % 16384))

/-- WALL_COMMIT. -/
def execWallCommit (m : Master) (layers : Bool) (s : State) : Host.Outcome State Fault Refusal :=
  done ((s.wallRow m R.WALL_COMMIT_CTRL (if layers then 3 else 1)).wallResume none)

/-- PRESENT. -/
def execPresent (s : State) : Host.Outcome State Fault Refusal := done s.presentOp

end Sys2Proof.Machine
end

