-- ==== Sys2Proof/Machine/Fenmas.lean ====
section
/-! DEFINITION. Chapter 09, Fenmas and belay pairs: the ports' links (R350), the acceptance of packets (R351 to R353),
enabling (R369, R387), MODE and CAL (R360 to R363), roles and epochs (R365, R372 to R379), BEACONs, digests and JOURNAL
packets (R370, R371, R381 to R385). -/
namespace Sys2Proof.Machine

/-! ## Roles -/

/-- The unit's role: 0 off, 1 lead, 2 second, 3 solo (R389). -/
def State.fenRole (s : State) : Nat := s.fld F.FEN_BELAY_STATUS_role

/-- The unit's epoch. -/
def State.fenEpoch (s : State) : Nat := s.rd R.FEN_CUR_EPOCH

/-- `silence_n` (R389). -/
def State.silenceN (s : State) : Nat := s.fld F.FEN_BELAY_CFG_silence_n

/-- Whether claim (epoch, unit) `a` beats claim `b` (R365). -/
def beats (a b : Nat × Nat) : Bool := laterThan 32 a.1 b.1 || (a.1 = b.1 && decide (a.2 < b.2))

/-- An epoch that the unit holds or hears replaces the running epoch when it is later (R375 step 1). -/
def State.runEpoch (s : State) (e : Nat) : State :=
  if laterThan 32 e s.fen.epochE then { s with fen := { s.fen with epochE := e } } else s

/-- The unit takes an epoch. -/
def State.setEpoch (s : State) (e : Nat) : State := (s.wr R.FEN_CUR_EPOCH e).runEpoch e

/-- A write of RIG_JNL_CTRL.mode by a role change, where `auto_follow` is 1 (R375, R376); it takes effect under R104.
[assumption 44, DEDUCED] -/
def State.autoFollow (s : State) (mode : Nat) : State :=
  if s.bit F.FEN_BELAY_CFG_auto_follow then s.put F.RIG_JNL_CTRL_mode mode else s

/-- The waiting CAL submissions are dropped; the latest one, if it waited, ends NOT_LEAD (R363, R376).
[assumption 45, DEDUCED] -/
def State.calDrop (s : State) : State :=
  let s := if !s.fen.cals.isEmpty && s.fld F.FEN_CAL_STATUS_state = 1 then s.put F.FEN_CAL_STATUS_state 6 else s
  { s with fen := { s.fen with cals := [] } }

/-- A write of `bad_cfg` (R386, R387, R389). -/
def State.fenBad (s : State) : State := s.put F.FEN_BELAY_STATUS_bad_cfg 1

/-! ## Enabling (R369, R373, R387) -/

/-- FEN_SRC_MAC. -/
def State.macBase (s : State) : Nat := s.fld F.FEN_SRC_MAC_LO_mac_lo + s.fld F.FEN_SRC_MAC_HI_mac_hi * 2 ^ 32

/-- Whether Fenmas may be enabled. [assumption 44, DEDUCED] -/
def State.fenOk (s : State) : Bool :=
  let unit := s.fld F.FEN_ADDR_unit
  unit != 255 && s.macBase != 0 && !s.macBase.testBit 40 && s.macBase % 8 = 0
    && (!s.bit F.FEN_BELAY_CFG_belay || (s.boundary 6 unit).isSome)

/-- What Fenmas forgets when it is enabled or disabled: everything but the unit's own wall digests. -/
def State.fenClear (s : State) (role : Nat) : State :=
  let seed := s.rd R.FEN_EPOCH_SEED
  let s := s.calDrop
  let s := (((s.put F.FEN_BELAY_STATUS_role role).put F.FEN_BELAY_STATUS_peer 0).put F.FEN_BELAY_STATUS_peer_silent 0).put
    F.FEN_BELAY_STATUS_missing 0
  let s := (s.wr R.FEN_LEAD 255).wr R.FEN_CUR_EPOCH (if role = 0 then 0 else seed)
  { s with
    fen := { Fen.reset with epochE := seed, digs := s.fen.digs }
    jnl := { s.jnl with forwardQ := [], recent := [], leadFrom := none } }

/-- A write of FEN_BELAY_CFG (R369, R389). Where it changes `belay` while Fenmas is enabled, the unit is solo from then on,
or starts as second, if the image declares its boundary. [assumption 44, DESIGN CHOICE] -/
def State.belayCfgWrite (s : State) (v : Nat) : State :=
  let was := s.bit F.FEN_BELAY_CFG_belay
  let short := decide (bitsOf v 5 2 < 2)
  let s := s.regWrite R.FEN_BELAY_CFG (if short then putBits v 5 2 s.silenceN else v)
  let s := if short then s.fenBad else s
  let now := s.bit F.FEN_BELAY_CFG_belay
  if !s.bit F.FEN_CFG_enable || was = now then s
  else if now && (s.boundary 6 (s.fld F.FEN_ADDR_unit)).isNone then (s.put F.FEN_BELAY_CFG_belay 0).fenBad
  else
    let s := if now then s.calDrop else s
    let s := ((s.put F.FEN_BELAY_STATUS_role (if now then 2 else 3)).put F.FEN_BELAY_STATUS_missing 0).put
      F.FEN_BELAY_STATUS_peer_silent 0
    let s := s.setEpoch (s.rd R.FEN_EPOCH_SEED)
    { s with
      fen := { s.fen with
        heard := false, demote := none, forceLead := false, forceSecond := false, rise := none
        startLead := now && s.bit F.FEN_BELAY_CFG_start_lead }
      jnl := { s.jnl with leadFrom := none } }

/-- A write of FEN_CFG (R369, R373, R387). -/
def State.fenCfgWrite (s : State) (v : Nat) : State :=
  let on := s.bit F.FEN_CFG_enable
  let s := s.regWrite R.FEN_CFG v
  if v % 2 = 1 then
    if on then s
    else if s.fenOk then
      let belay := s.bit F.FEN_BELAY_CFG_belay
      let s := s.fenClear (if belay then 2 else 3)
      { s with fen := { s.fen with startLead := belay && s.bit F.FEN_BELAY_CFG_start_lead } }
    else (s.put F.FEN_CFG_enable 0).fenBad
  else if on then s.fenClear 0
  else s

/-- FENMAS_ENABLE. -/
def execFenmasEnable (m : Master) (v : Word) (s : State) : Host.Outcome State Fault Refusal :=
  done (s.guardedWrite m R.FEN_CFG (fun s => s.fenCfgWrite (putBits v.toNat 0 0 1)))

/-! ## Ports (R350, R387) -/

/-- A write of NET_PHYp_CFG: `split` and `kr` hold their values while `enable` is 1; a port turned off has no link. -/
def State.phyWrite (s : State) (p v : Nat) : State :=
  let o := R.NET_PHY_CFG p
  let old := s.rd o
  let v := if old % 2 = 1 then putBits v 2 1 (bitsOf old 2 1) else v
  let s := s.regWrite o v
  if v % 2 = 0 then (s.put (F.NET_PHY_CFG_link_a p) 0).put (F.NET_PHY_CFG_link_b p) 0 else s

/-- ETHERNET_LINK_CHANGE: a logical port goes down, or, where it exists and its physical port is on, up. -/
def State.linkChange (s : State) (port : Nat) (up : Bool) : State :=
  let p := port / 2
  let up := up && s.runs .net && s.portExists port && s.bit (F.NET_PHY_CFG_enable p)
  s.flag (if port % 2 = 0 then F.NET_PHY_CFG_link_a p else F.NET_PHY_CFG_link_b p) up

@[inherit_doc State.linkChange] def execEthernetLinkChange (port : Nat) (up : Bool) (s : State) : Host.Outcome State Fault Refusal :=
  done (s.linkChange (port % 8) up)

/-! ## CAL (R362, R363) -/

/-- The enabled tile contexts, by number and contents. -/
def State.servedTiles (s : State) : List TileCtx :=
  (s.wall.tiles.map (fun e => tileCtx e.1 e.2.active.regs)).filter (fun c => c.enable)

/-- A `go` of FEN_CAL_CTRL. [assumption 45, DEDUCED] -/
def State.calSubmit (s : State) : State :=
  let len := s.fld F.FEN_CAL_CTRL_len
  let addr := s.fld F.FEN_CAL_ADDR_LO_addr_lo * 64 + s.fld F.FEN_CAL_ADDR_HI_addr_hi * 2 ^ 32
  let tile := s.fld F.FEN_CAL_DESC_tile_id
  let fail := fun (c : Nat) => s.put F.FEN_CAL_STATUS_state c
  if 1024 < len then fail 3
  else if !s.userRegion addr len (fun o _ => o = 7 || o = 5) then fail 4
  else if tile ≠ 0xFFFF ∧ !s.servedTiles.any (fun c => c.tileId = tile) then fail 5
  else if !s.leads then fail 6
  else if 64 ≤ s.fen.cals.length then fail 7
  else
    let n := s.fen.calNext
    let s : State := { s with fen := { s.fen with
      cals := s.fen.cals ++ [⟨n, tile, s.fld F.FEN_CAL_DESC_class, addr, len⟩], calNext := (n + 1) % 65536 } }
    (s.put F.FEN_CAL_STATUS_state 1).put F.FEN_CAL_STATUS_cal_seq n

/-- A write of FEN_CAL_CTRL. -/
def State.calCtrlWrite (s : State) (v : Nat) : State :=
  let s := s.regWrite R.FEN_CAL_CTRL v
  if v.testBit 31 then s.calSubmit else s

/-- CAL_SUBMIT. -/
def execCalSubmit (m : Master) (v : Word) (s : State) : Host.Outcome State Fault Refusal :=
  done (s.guardedWrite m R.FEN_CAL_CTRL (fun s => s.calCtrlWrite (putBits v.toNat 31 31 1)))

/-- The waiting submissions go out at the latch point of frame N (R363). -/
def State.calSend (s : State) (n : Nat) : State :=
  if s.fen.cals.isEmpty then s
  else
    let s := s.fen.cals.foldl (fun (s : State) k =>
      let d := s.dramFetch k.addr k.len
      let s := d.2.2
      let body := beBytes 2 k.tile ++ beBytes 1 k.cls ++ beBytes 1 0 ++ beBytes 4 n ++ beBytes 2 k.len ++ beBytes 2 k.seq ++ d.1
      let ports := if k.tile = 0xFFFF then s.wallPorts
        else (s.servedTiles.filter (fun c => c.tileId = k.tile)).flatMap TileCtx.ports
      ports.foldl (fun s p => s.fenSend n p 4 body) s) s
    let s := if s.fld F.FEN_CAL_STATUS_state = 1 then s.put F.FEN_CAL_STATUS_state 2 else s
    ({ s with fen := { s.fen with cals := [] } }).put F.FEN_EVT_cal_sent 1

/-! ## MODE (R360, R361) -/

/-- The body of a MODE packet. -/
def modeBody (m : WallMode) (pending : Bool) : List Byte :=
  beBytes 4 m.num ++ beBytes 2 m.den ++ beBytes 2 (if pending then 1 else 0) ++ beBytes 4 m.phase ++ beBytes 2 m.lead
    ++ beBytes 2 m.margin ++ beBytes 8 m.orgSec ++ beBytes 4 m.orgFrame ++ beBytes 4 m.gen

/-- The MODE packets of a latch point; `fresh` holds at the first one after a whole second. -/
def State.modeSend (s : State) (n : Nat) (fresh : Bool) : State :=
  let l := (if fresh then [modeBody s.fclk.mode false] else [])
    ++ (match s.fclk.change with | some m => [modeBody m true] | none => [])
  l.foldl (fun s b => s.wallPorts.foldl (fun s p => s.fenSend n p 3 b) s) s

/-! ## Role changes (R373 to R378) -/

/-- A unit takes over at L_N: it leads from frame N + 1 (R375, R108). [assumption 44, DEDUCED] -/
def State.takeover (s : State) (n : Nat) : State :=
  let new := (s.fen.epochE + 1) % 2 ^ 32
  let first := (n + 1) % 2 ^ 32
  let s := s.jnlWrite 6 0 (s.fld F.FEN_ADDR_unit) first new s.fenEpoch 0 false false
  let s : State := { s with
    fen := { s.fen with rise := some new, forceLead := false, startLead := false }
    jnl := { s.jnl with leadFrom := some (first, s.nextLatch) } }
  let s := s.markAllTiles.autoFollow 0
  (s.bump F.FEN_TAKEOVERS_count 1).put F.FEN_EVT_takeover 1

/-- A lead demotes (R376, R378). [assumption 44, DEDUCED] -/
def State.demoteNow (s : State) (epoch : Option Nat) (lost : Bool) : State :=
  let s := (s.put F.FEN_BELAY_STATUS_role 2).put F.FEN_BELAY_STATUS_missing 0
  let s := match epoch with
    | some e => s.setEpoch e
    | none => s
  let s := if lost then ((s.put F.FEN_BELAY_STATUS_role_lost 1).put F.FEN_EVT_role_lost 1).bump F.FEN_ROLE_LOST_COUNT_count 1 else s
  let s : State := { s with
    fen := { s.fen with demote := none, forceSecond := false, heard := false }, jnl := { s.jnl with leadFrom := none } }
  (s.autoFollow 1).calDrop

/-- What a latch point does to the role before its frame begins: whether the unit demoted. [assumption 44, DEDUCED] -/
def State.fenRoleStep (s : State) : Bool × State :=
  if s.fenRole = 0 || !s.runs .net then (false, s)
  else
    let down := s.fenRole = 1 && (s.fen.demote.isSome || s.fen.forceSecond)
    let s := if down then s.demoteNow (s.fen.demote.map (fun d => d.1)) s.fen.demote.isSome else s
    match s.fen.rise with
    | some e =>
      let s := ((s.put F.FEN_BELAY_STATUS_role 1).put F.FEN_BELAY_STATUS_missing 0).setEpoch e
      (down, { s with fen := { s.fen with rise := none } })
    | none => (down, s)

/-- A write of FEN_BELAY_CTRL (R378). -/
def State.belayCtrl (s : State) (v : Nat) : State :=
  let lead := v.testBit 0 && s.fenRole = 2 && s.fen.rise.isNone
  let second := v.testBit 1 && s.fenRole = 1
  { s with fen := { s.fen with forceLead := s.fen.forceLead || lead, forceSecond := s.fen.forceSecond || second } }

/-- FORCE_LEAD. -/
def execForceLead (m : Master) (s : State) : Host.Outcome State Fault Refusal :=
  done (s.guardedWrite m R.FEN_BELAY_CTRL (fun s => s.belayCtrl 1))

/-- FORCE_SECOND. -/
def execForceSecond (m : Master) (s : State) : Host.Outcome State Fault Refusal :=
  done (s.guardedWrite m R.FEN_BELAY_CTRL (fun s => s.belayCtrl 2))

/-! ## Latch points (R371, R374, R379) -/

/-- Whether an island is throttled (R370). -/
def State.throttled (s : State) : Bool := s.isl.any (fun e => !e.2.inReset && (e.2.throttle != 0 || e.2.skipN != 0))

/-- The body of a BEACON (R370). -/
def State.beaconBody (s : State) : List Byte :=
  let flags := (if s.bit F.FEN_BELAY_STATUS_peer then 1 else 0) + (if s.throttled then 2 else 0)
    + (if s.bit F.RIG_JNL_STATUS_following then 4 else 0)
  beBytes 1 (if s.leads then 1 else 2) ++ beBytes 1 flags ++ beBytes 1 s.silenceN ++ beBytes 1 0
    ++ beBytes 4 s.fclk.mode.gen ++ beBytes 4 ((s.fen.digs.head?.map (fun d => d.frame)).getD 0) ++ beBytes 4 s.jnl.nextSeq
    ++ beBytes 8 (s.rd R.RIG_ACTIVE_CLASS_LO + s.rd R.RIG_ACTIVE_CLASS_HI * 2 ^ 32)

/-- What Fenmas does at the latch point of a frame that the wall serves, once the frame has begun: counts of silence,
takeover, BEACON, MODE and CAL. `fresh` holds at the first latch point after a whole second. [assumption 44, DEDUCED] -/
def State.fenLatch (s : State) (n : Nat) (demoted fresh : Bool) : State :=
  if s.fenRole = 0 || !s.fenOn then s
  else
    let sn := s.silenceN
    let quiet := if s.fen.peerHeard then 0 else min (s.fen.quiet + 1) 15
    let s : State := { s with fen := { s.fen with
      quiet := quiet, peerHeard := false, staleQuiet := min (s.fen.staleQuiet + 1) 15 } }
    let s := s.flag F.FEN_BELAY_STATUS_peer (s.fen.peerEver && decide (quiet < sn))
    let s := if s.fenRole = 2 && !demoted then
        let m := if s.fen.heard then 0 else min (s.fld F.FEN_BELAY_STATUS_missing + 1) 15
        let s := if s.fen.heard then s else s.bump F.FEN_BEACON_MISS_count 1
        let s : State := (({ s with fen := { s.fen with heard := false } }) : State).put F.FEN_BELAY_STATUS_missing m
        if s.fen.forceLead || s.fen.startLead || decide (sn ≤ m) then s.takeover n else s
      else s
    let s := if s.fenRole = 1 && decide (sn ≤ quiet) && !s.bit F.FEN_BELAY_STATUS_peer_silent then
        (s.put F.FEN_BELAY_STATUS_peer_silent 1).put F.FEN_EVT_peer_silent 1 else s
    let body := s.beaconBody
    let s := (portsOf (s.fld F.FEN_PORTS_beacon_ports)).foldl (fun s p => s.fenSend n p 5 body) s
    if s.leads then (s.modeSend n fresh).calSend n else s

/-! ## Receiving (R351, R353) -/

/-- The header of a received Fenmas packet, with the packet (R352). -/
structure FenRx where
  ftype : Nat
  wall : Nat
  epoch : Nat
  frame : Nat
  unit : Nat
  pair : Nat
  bytes : List Byte
deriving DecidableEq, Repr

/-- What a received frame is to Fenmas: not accepted, invalid, or a packet. -/
inductive FenSeen where
  | ignored | invalid | packet (p : FenRx)
deriving DecidableEq, Repr

/-- The least length of a packet of a type, by its own fields (R353, R381). -/
def fenLength (b : List Byte) : Option Nat :=
  match beAt b 1 1 with
  | 1 => some (24 + ceilDiv (beAt b 20 1 * beAt b 21 1 * 9) 2)
  | 2 => some 40
  | 3 => some 48
  | 4 => some (28 + beAt b 24 2)
  | 5 => some 40
  | 6 => some 32
  | 7 =>
    let n := beAt b 16 1
    if 1 ≤ n ∧ n ≤ 32 ∧ beAt b 17 1 ≤ 16 then some (24 + 32 * n) else none
  | _ => none

/-- A received frame looked at under R351 and R353. [assumption 44, DEDUCED] -/
def State.fenSeen (s : State) (port : Nat) (f : List Byte) : FenSeen :=
  let belay := s.fld F.FEN_BELAY_MAC_LO_mac_lo + s.fld F.FEN_BELAY_MAC_HI_mac_hi * 2 ^ 32
  let n := f.length
  let o := if beAt f 12 2 = 0x8100 then 16 else 12
  if s.runs .net && s.bit F.FEN_CFG_enable && (s.fld F.FEN_PORTS_rx_ports).testBit port && s.portUp port
      && decide (o + 6 ≤ n) && f.drop (n - 4) = frameCheck (f.take (n - 4)) && beAt f 0 6 = belay
      && beAt f o 2 = s.fld F.FEN_ETYPE_etype then
    let b := (f.take (n - 4)).drop (o + 2)
    if 16 ≤ b.length ∧ beAt b 0 1 = 1 then
      match fenLength b with
      | some k =>
        if k ≤ b.length then
          .packet ⟨beAt b 1 1, beAt b 2 2, beAt b 4 4, beAt b 8 4, beAt b 12 1, beAt b 13 1, b.take k⟩
        else .invalid
      | none => .invalid
    else .invalid
  else .ignored

/-- A packet of the other unit of the pair is heard: its epoch counts for the running epoch (R375 step 1). -/
def State.hearEpoch (s : State) (p : FenRx) : State :=
  if p.wall = s.fld F.FEN_ADDR_wall_id ∧ p.pair = s.fld F.FEN_ADDR_pair ∧ p.unit ≠ s.fld F.FEN_ADDR_unit then s.runEpoch p.epoch
  else s

/-- A BEACON received (R372 to R377, R379). [assumption 44, DEDUCED] -/
def State.beaconOp (s : State) (p : FenRx) : State :=
  let me := s.fld F.FEN_ADDR_unit
  let pair := s.fld F.FEN_ADDR_pair
  let claim := (p.epoch, p.unit)
  let lead := beAt p.bytes 16 1 = 1
  if p.wall ≠ s.fld F.FEN_ADDR_wall_id ∨ (p.pair = pair ∧ p.unit = me) then s
  else
    let better := match mapFind s.fen.claims p.pair with
      | some c => beats claim c
      | none => true
    let s := if lead && better then ({ s with fen := { s.fen with claims := mapSet s.fen.claims p.pair claim } }) else s
    if p.pair ≠ pair then s
    else
      let s := match mapFind s.fen.claims pair with
        | some c => s.wr R.FEN_LEAD c.2
        | none => s
      let s : State := { s with fen := { s.fen with peerHeard := true, peerEver := true } }
      let s := (s.put F.FEN_BELAY_STATUS_peer 1).put F.FEN_BELAY_STATUS_peer_silent 0
      if !lead then s
      else if s.fenRole = 2 then
        if laterThan 32 s.fenEpoch p.epoch then s
        else
          let s : State := { s with fen := { s.fen with heard := true } }
          (s.put F.FEN_BELAY_STATUS_missing 0).setEpoch p.epoch
      else if s.fenRole = 1 then
        if beats claim (s.fenEpoch, me) then
          let worse := match s.fen.demote with
            | some d => laterThan 32 d.1 p.epoch
            | none => false
          if worse then s else { s with fen := { s.fen with demote := some (p.epoch, true) } }
        else if !beats (s.fenEpoch, me) claim then s
        else
          let s := s.bump F.FEN_STALE_count 1
          let s := if s.silenceN ≤ s.fen.staleQuiet then s.markAllTiles.put F.FEN_EVT_stale_lead 1 else s
          { s with fen := { s.fen with staleQuiet := 0 } }
      else s

/-- A DIGEST received from the other unit of the pair (R385). [assumption 45, DEDUCED] -/
def State.digestOp (s : State) (p : FenRx) : State :=
  if p.wall = s.fld F.FEN_ADDR_wall_id ∧ p.pair = s.fld F.FEN_ADDR_pair ∧ p.unit ≠ s.fld F.FEN_ADDR_unit then
    s.digPeer ⟨p.frame, beAt p.bytes 16 8, beAt p.bytes 24 1 % 2 = 1⟩
  else s

/-! ## JOURNAL packets (R382) -/

/-- JOURNAL_SEND_TIMER: 10 µs after the oldest waiting entry, or after a packet without a new one. -/
def execJournalSendTimer (s : State) : Host.Outcome State Fault Refusal := done s.jnlPacket

/-! ## Registers (R386 to R390) -/

/-- Whether a FENMAS register holds its value while Fenmas is enabled (R386). -/
def fenFrozen (off : Nat) : Bool := decide (0xE8004 ≤ off) && decide (off ≤ 0xE8024)

/-- A write of a NET_PHYp_CFG or FENMAS register. -/
def State.fenRegWrite (s : State) (off v : Nat) : State :=
  if 0xE0000 ≤ off ∧ off < 0xE0010 then s.phyWrite ((off - 0xE0000) / 4) v
  else if off = R.FEN_CFG then s.fenCfgWrite v
  else if fenFrozen off && s.bit F.FEN_CFG_enable then s.fenBad
  else if off = R.FEN_BELAY_CFG then s.belayCfgWrite v
  else if off = R.FEN_BELAY_CTRL then s.belayCtrl v
  else if off = R.FEN_CAL_CTRL then s.calCtrlWrite v
  else if off = R.FEN_EPOCH_SEED then
    let s := s.regWrite off v
    if s.fenRole = 3 then s.setEpoch (v % 2 ^ 32) else s
  else s.regWrite off v

end Sys2Proof.Machine
end

