-- ==== Sys2Proof/Machine/Audio.lean ====
section
/-! DEFINITION. Chapter 10, the serial audio ports and alignment groups (R421 to R430, R436, R437), and the decisions of
audio receive streams (R398). -/
namespace Sys2Proof.Machine

/-! ## Access -/

/-- A port with nothing in its buffer. -/
def AudPort.clear : AudPort := ⟨[], false, 0, false, 0, 0, none⟩

/-- A serial audio port. -/
def State.sap (s : State) (n : Nat) : AudPort := mapGet AudPort.clear s.aud.ports n

/-- A serial audio port changed. -/
def State.setSap (s : State) (n : Nat) (x : AudPort) : State := { s with aud := { s.aud with ports := mapSet s.aud.ports n x } }

/-- A running group. -/
def State.grp (s : State) (g : Nat) : Option AudGroup := mapFind s.aud.groups g

/-- A running group changed. -/
def State.setGrp (s : State) (g : Nat) (x : AudGroup) : State := { s with aud := { s.aud with groups := mapSet s.aud.groups g x } }

/-- An audio receive stream with no frame. -/
def AudRx.clear : AudRx := ⟨[], 0, 0, []⟩

/-- An audio receive stream. -/
def State.audRx (s : State) (r : Nat) : AudRx := mapGet AudRx.clear s.aud.rx r

/-- An audio receive stream changed. -/
def State.setAudRx (s : State) (r : Nat) (x : AudRx) : State := { s with aud := { s.aud with rx := mapSet s.aud.rx r x } }

/-! ## Formats (R421, R422) -/

/-- Slots, slot width and sample width of a port. -/
def State.sapSlots (s : State) (n : Nat) : Nat := s.fld (F.AUD_SAP_CFG_slots n) + 1
@[inherit_doc State.sapSlots] def State.sapSlotW (s : State) (n : Nat) : Nat := 16 + 8 * s.fld (F.AUD_SAP_CFG_slot_w n)
@[inherit_doc State.sapSlots] def State.sapWidth (s : State) (n : Nat) : Nat := if s.bit (F.AUD_SAP_CFG_sample_w n) then 24 else 16

/-- The sample rate of a code (R437). -/
def rateOf : Nat → Nat
  | 0 => 48000
  | 1 => 96000
  | _ => 192000

/-- Whether a port keeps R421 at a rate. -/
def State.sapOk (s : State) (n rate : Nat) : Bool :=
  let f := s.fld (F.AUD_SAP_CFG_fmt n)
  f != 3 && s.fld (F.AUD_SAP_CFG_slot_w n) != 3 && (if f = 2 then decide (2 ≤ s.sapSlots n) else s.sapSlots n = 2)
    && decide (s.sapWidth n ≤ s.sapSlotW n) && decide (rate * s.sapSlots n * s.sapSlotW n ≤ 24576000)

/-- The levels of a port's FS and data line at the edges of BCLK on which it samples: the rising ones, or with `bclk_inv` the
falling ones (R421). -/
def State.sapLevel (s : State) (n : Nat) (p : SapPeriod) : Bool × Bool :=
  let x := if s.bit (F.AUD_SAP_CFG_bclk_inv n) then (p.fsFall, p.dataFall) else (p.fsRise, p.dataRise)
  (x.1 != s.bit (F.AUD_SAP_CFG_fs_inv n), x.2)

/-- BCLK periods from the FS edge of a frame to its first data bit (R421). -/
def State.sapDelay (s : State) (n : Nat) : Nat :=
  match s.fld (F.AUD_SAP_CFG_fmt n) with
  | 0 => 1
  | 1 => 0
  | _ => s.fld (F.AUD_SAP_CFG_delay n)

/-- Whether the BCLK periods between two frame starts are an undamaged frame: as many as its slots have, and no FS edge but
those of its format (R421, R429). In formats 0 and 1 slot 0 lasts while FS has the level that starts a frame; in format 2 FS
may fall after any period. [assumption 47, DEDUCED] -/
def State.frameWhole (s : State) (n : Nat) (fs : List Bool) : Bool :=
  let w := s.sapSlotW n
  fs.length = s.sapSlots n * w &&
    (match s.fld (F.AUD_SAP_CFG_fmt n) with
    | 0 => fs = List.replicate w false ++ List.replicate w true
    | 1 => fs = List.replicate w true ++ List.replicate w false
    | _ => fs.head? = some true && (fs.dropWhile id).all (fun x => !x))

/-- The samples that the levels of a data line spell, slot by slot: most significant bit first, left-aligned (R421). -/
def State.sapSamples (s : State) (n : Nat) (levels : List Bool) : List Nat :=
  (List.range (s.sapSlots n)).map (fun i =>
    ((levels.drop (i * s.sapSlotW n)).take (s.sapWidth n)).foldl (fun a b => 2 * a + (if b then 1 else 0)) 0)

/-- The levels of a data line that carries samples of a port: each in its slot, the rest of the slot zero (R421). -/
def State.sapLevels (s : State) (n : Nat) (samples : List Nat) : List Bool :=
  let w := s.sapWidth n
  samples.flatMap (fun x => (List.range w).map (fun i => x.testBit (w - 1 - i)) ++ List.replicate (s.sapSlotW n - w) false)

/-- A sample frame leaves an output port, which drives its data line on the falling edges of BCLK, or with `bclk_inv` on the
rising ones (R421). -/
def State.sapDrive (s : State) (n : Nat) (samples : List Nat) : State :=
  s.emit (.sap n (s.bit (F.AUD_SAP_CFG_bclk_inv n)) (s.sapDelay n) (s.sapLevels n samples))

/-- A sample as its 32-bit word, its most significant bit at bit 31 (R422). -/
def sampleWord (w x : Nat) : Nat := (x % 2 ^ w) * 2 ^ (32 - w)

/-! ## Groups (R423, R424) -/

/-- The ports that are members of a group. -/
def State.sapMembers (s : State) (g : Nat) : List Nat :=
  (List.range 8).filter (fun n => s.bit (F.AUD_SAP_CFG_member n) && s.fld (F.AUD_SAP_CFG_group n) = g)

/-- Whether an audio receive stream runs as a member of a group (R395, R398). -/
def State.streamIn (s : State) (g r : Nat) : Bool :=
  s.bit (F.NET_RX_CFG_enable r) && s.fld (F.NET_RX_CFG_type r) = 3 && s.bit (F.NET_RX_CFG_member r)
    && s.fld (F.NET_RX_MEDIA_group r) = g

/-- The enabled audio receive streams that are members of a group (R395, R398). -/
def State.netMembers (s : State) (g : Nat) : List Nat := ((List.range 8).map (· + 56)).filter (s.streamIn g)

/-- Channels of each member, in member order (R427). -/
def State.memberCounts (s : State) (g : Nat) : List Nat :=
  (s.sapMembers g).map s.sapSlots ++ (s.netMembers g).map (fun r => s.fld (F.NET_RX_MEDIA_chans r) + 1)

/-- The ring of a group (R427, R436): its base, and the bytes of a record for C channels. -/
def State.grpBase (s : State) (g : Nat) : Nat :=
  s.fld (F.AUD_GRP_RING_LO_base_lo g) * 2 ^ 12 + s.fld (F.AUD_GRP_RING_HI_base_hi g) * 2 ^ 32
@[inherit_doc State.grpBase] def recBytes (c : Nat) : Nat := 32 + 256 * c

/-- Where block k lies in the ring (R427). -/
def State.grpRecord (s : State) (g c k : Nat) : Nat :=
  s.grpBase g + k % 2 ^ s.fld (F.AUD_GRP_SIZE_log_size g) * recBytes c

/-- The block period in ns. -/
def blockPeriod (fs : Nat) : Nat := 64 * 1000000000 / fs

/-- Whether a group may be enabled (R423). [assumption 46, DEDUCED] -/
def State.grpOk (s : State) (g : Nat) : Bool :=
  let saps := s.sapMembers g
  let nets := s.netMembers g
  let rate := s.fld (F.AUD_GRP_CFG_rate g)
  let fs := rateOf rate
  let c := (s.memberCounts g).sum
  let log := s.fld (F.AUD_GRP_SIZE_log_size g)
  let target := s.fld (F.AUD_GRP_CFG_target g)
  let window := s.fld (F.AUD_GRP_CFG_window g)
  rate != 3 && (saps.isEmpty != nets.isEmpty) && saps.all (fun n => s.sapOk n fs)
    && (saps.all (fun n => s.bit (F.AUD_SAP_CFG_dir n)) || saps.all (fun n => !s.bit (F.AUD_SAP_CFG_dir n)))
    && (match s.boundary 2 g with
      | some d => decide (d < blockPeriod fs) && nets.all (fun r => match s.boundary 4 r with
        | some e => decide (e ≤ d)
        | none => true)
      | none => false)
    && decide (4 ≤ log) && decide (log ≤ 12) && decide (64 ≤ target) && decide (target ≤ 256)
    && decide (8 ≤ window) && decide (window ≤ 63) && decide (c ≤ 128)
    && s.userRegion (s.grpBase g) (2 ^ log * recBytes c) (fun o u => (o = 13 && u = g) || o = 5)

/-- A group starts: its origin is the first whole second at least 10 ms away, and its members stand at reset (R424).
[assumption 46, DEDUCED] -/
def State.grpStart (s : State) (g : Nat) : State :=
  let saps := s.sapMembers g
  let nets := s.netMembers g
  let fs := rateOf (s.fld (F.AUD_GRP_CFG_rate g))
  let x : AudGroup := {
    net := !nets.isEmpty, output := saps.any (fun n => s.bit (F.AUD_SAP_CFG_dir n)), fs := fs
    deadline := (s.boundary 2 g).getD 0, members := saps ++ nets, counts := s.memberCounts g
    origin := ceilDiv (s.nowNs + 10000000) 1000000000 * 1000000000, next := 0, reached := 0, stopping := false
    prevTs := 0, glitched := [], outs := [], missed := [] }
  let s := saps.foldl (fun (s : State) n =>
    let s := s.setSap n AudPort.clear
    ((((s.put (F.AUD_SAP_STATUS_clock_lost n) 0).put (F.AUD_SAP_STATUS_rate_bad n) 0).put (F.AUD_SAP_STATUS_muted n) 0).put
      (F.AUD_SAP_STATUS_ppm n) 0)) s
  let s := nets.foldl (fun (s : State) r => s.setAudRx r AudRx.clear) s
  let s := ((s.put (F.AUD_GRP_STATUS_running g) 0).put (F.AUD_GRP_STATUS_filling g) 0).wr (R.AUD_GRP_BLOCK g) 0
  s.setGrp g x

/-- A group's write of `bad_cfg`. -/
def State.grpBad (s : State) (g : Nat) : State := s.put (F.AUD_GRP_STATUS_bad_cfg g) 1

/-- A write of AUD_GRPg_CFG (R423, R437). -/
def State.grpCfgWrite (s : State) (g v : Nat) : State :=
  let o := R.AUD_GRP_CFG g
  let old := s.rd o
  let v := v &&& 0x7FFF0007
  if old % 2 = 1 then
    let s := if v / 2 ≠ old / 2 then s.grpBad g else s
    if v % 2 = 1 then s
    else
      let s := s.wr o (old - 1)
      match s.grp g with
      | some x => s.setGrp g { x with stopping := true }
      | none => s
  else
    let s := s.wr o (v / 2 * 2)
    if v % 2 = 1 then (if s.grpOk g then (s.wr o v).grpStart g else s.grpBad g) else s

/-- GROUP_ENABLE. -/
def execGroupEnable (m : Master) (g : Nat) (v : Word) (s : State) : Host.Outcome State Fault Refusal :=
  done (s.guardedWrite m (R.AUD_GRP_CFG (g % 8)) (fun s => s.grpCfgWrite (g % 8) (putBits v.toNat 0 0 1)))

/-- GROUP_DISABLE. -/
def execGroupDisable (m : Master) (g : Nat) (v : Word) (s : State) : Host.Outcome State Fault Refusal :=
  done (s.guardedWrite m (R.AUD_GRP_CFG (g % 8)) (fun s => s.grpCfgWrite (g % 8) (putBits v.toNat 0 0 0)))

/-- Whether a group's configuration is held (R423). -/
def State.grpHeld (s : State) (g : Nat) : Bool := s.bit (F.AUD_GRP_CFG_enable g)

/-- A write of an AUD register. -/
def State.audRegWrite (s : State) (off v : Nat) : State :=
  if 0xF8000 ≤ off ∧ off < 0xF8200 ∧ (off - 0xF8000) % 0x40 = 0 then
    let n := (off - 0xF8000) / 0x40
    let g := s.fld (F.AUD_SAP_CFG_group n)
    let h := bitsOf v 15 13
    if s.bit (F.AUD_SAP_CFG_member n) ∧ s.grpHeld g = true then s.grpBad g
    else if v.testBit 16 ∧ s.grpHeld h = true then s.grpBad h
    else s.regWrite off v
  else if 0xF8400 ≤ off ∧ off < 0xF8600 then
    let g := (off - 0xF8400) / 0x40
    let r := (off - 0xF8400) % 0x40
    if r = 0 then s.grpCfgWrite g v
    else if (r = 8 ∨ r = 0xC ∨ r = 0x10) ∧ s.grpHeld g = true then s.grpBad g
    else s.regWrite off v
  else s.regWrite off v

/-- A group whose `enable` was written as 0 stops at its next boundary (R437). [assumption 46, DEDUCED] -/
def State.grpStop (s : State) (g : Nat) : State :=
  match s.grp g with
  | some x =>
    let s := if x.net then x.members.foldl (fun (s : State) r => s.setAudRx r AudRx.clear) s
      else x.members.foldl (fun (s : State) n => (s.setSap n AudPort.clear).put (F.AUD_SAP_STATUS_muted n) 0) s
    let s := (s.put (F.AUD_GRP_STATUS_running g) 0).put (F.AUD_GRP_STATUS_filling g) 0
    { s with
      aud := { s.aud with groups := mapDel s.aud.groups g }
      jnl := { s.jnl with waits := s.jnl.waits.filter (fun w => !((w.kind = 2 && w.unit = g)
        || (x.net && w.kind = 4 && x.members.contains w.unit))) } }
  | none => s

/-- G_k (R424). -/
def AudGroup.time (x : AudGroup) (k : Nat) : Nat := x.origin + k * 64 * 1000000000 / x.fs

/-- GROUP_ORIGIN: Anchor time reaches G₀. -/
def execGroupOrigin (g : Nat) (s : State) : Host.Outcome State Fault Refusal :=
  done (match s.grp (g % 8) with
    | some x => if x.stopping then s.reach x.origin else (s.reach x.origin).put (F.AUD_GRP_STATUS_running (g % 8)) 1
    | none => s)

/-! ## Events (R425, R426) -/

/-- The members of a mask. -/
def membersOf (mask : Nat) : List Nat := (List.range 8).filter (fun n => mask.testBit n)

/-- A mask of members. -/
def maskOf (l : List Nat) : Nat := (l.map (fun n => 2 ^ n)).sum

/-- A kind 2 event: 0 none, else R96's code, its count and its members. -/
structure AudEvent where
  code : Nat
  n : Nat
  mask : Nat
deriving DecidableEq, Repr

/-- s of an event: positive for a drop, negative for a repeat. [assumption 46, DEDUCED] -/
def AudEvent.slip (e : AudEvent) : Int := if e.code = 1 then (e.n : Int) else if e.code = 2 then -(e.n : Int) else 0

/-- The excess of a member (R425). [assumption 46, DEDUCED] -/
def State.excess (s : State) (g : Nat) (x : AudGroup) (n : Nat) : Int :=
  ((s.sap n).buf.length : Int) - ((s.fld (F.AUD_GRP_CFG_target g) + (if x.output then 0 else 64) : Nat) : Int)

/-- The excess that decides a slip: the largest, of the lowest-numbered member. -/
def worstOf : List (Nat × Int) → Int
  | [] => 0
  | (_, e) :: r => let w := worstOf r; if w.natAbs ≤ e.natAbs then e else w

/-- The event that a group's own tests find at a boundary (R426). `missing`: the output block is missing (R428).
[assumption 46, DEDUCED] -/
def State.audLocal (s : State) (g : Nat) (x : AudGroup) (missing : Bool) : AudEvent :=
  let m := x.members
  let lost := fun n => s.bit (F.AUD_SAP_STATUS_clock_lost n)
  let bad := fun n => s.bit (F.AUD_SAP_STATUS_rate_bad n)
  let muted := fun n => s.bit (F.AUD_SAP_STATUS_muted n)
  let filled := fun n => (s.sap n).filled
  let mute := m.filter (fun n => bad n && !muted n)
  let unmute := m.filter (fun n => muted n && !bad n)
  let fill := m.filter (fun n => !filled n && (lost n || missing))
  let unfill := m.filter (fun n => filled n && !lost n && !missing)
  let w := worstOf ((m.filter (fun n => !lost n && !muted n)).map (fun n => (n, s.excess g x n)))
  if !mute.isEmpty then ⟨5, 0, maskOf mute⟩
  else if !unmute.isEmpty then ⟨6, 0, maskOf unmute⟩
  else if !fill.isEmpty then ⟨3, 0, maskOf (if missing then m else fill)⟩
  else if !unfill.isEmpty then ⟨4, 0, maskOf unfill⟩
  else if decide (s.fld (F.AUD_GRP_CFG_window g) < w.natAbs) then ⟨if 0 < w then 1 else 2, min w.natAbs 64, maskOf m⟩
  else ⟨0, 0, 0⟩

/-- What an event changes beside the samples: the members under fill and mute, slip counts and event bits (R426, R437).
[assumption 46, DEDUCED] -/
def State.audApply (s : State) (g : Nat) (x : AudGroup) (e : AudEvent) : State :=
  let on := (membersOf e.mask).filter x.members.contains
  match e.code with
  | 0 => s
  | 1 | 2 =>
    let s := x.members.foldl (fun (s : State) n => s.bump (F.AUD_SAP_SLIP_count n) e.n) s
    (s.bump (F.AUD_GRP_SLIPS_count g) 1).put ⟨R.AUD_EVT, 8 + g, 8 + g⟩ 1
  | 3 => (on.foldl (fun (s : State) n => s.setSap n { s.sap n with filled := true }) s).put ⟨R.AUD_EVT, 16 + g, 16 + g⟩ 1
  | 4 => on.foldl (fun (s : State) n => s.setSap n { s.sap n with filled := false }) s
  | 5 => (on.foldl (fun (s : State) n => s.put (F.AUD_SAP_STATUS_muted n) 1) s).put ⟨R.AUD_EVT, 16 + g, 16 + g⟩ 1
  | _ => on.foldl (fun (s : State) n => s.put (F.AUD_SAP_STATUS_muted n) 0) s

/-! ## Taking a block (R425, R427) -/

/-- Whether a member plays or gives zeros (R426). -/
def State.silent (s : State) (n : Nat) : Bool := (s.sap n).filled || s.bit (F.AUD_SAP_STATUS_muted n)

/-- Frames of a take, with those that the buffer lacks as free values of width `w` on `c` slots, drawn from `k` on, or as
zeros where the member has no clock. [assumption 47, DEDUCED] -/
def fillFrames (zero : Bool) (w c : Nat) : Nat → List (Option AudFrame) → List AudFrame
  | _, [] => []
  | k, some f :: r => f :: fillFrames zero w c k r
  | k, none :: r =>
    (if zero then ⟨0, List.replicate c 0, false, 0⟩
     else ⟨Config.freeValue k, (List.range c).map (fun i => sampleWord w (Config.freeValue (k + 1 + i))), false, 0⟩)
      :: fillFrames zero w c (k + 1 + c) r

/-- The take of one input member at a slip: the 64 frames of the block, and the buffer after it. [assumption 47, DEDUCED] -/
def State.takeInput (s : State) (n : Nat) (slip : Int) : List AudFrame × State :=
  let x := s.sap n
  let c := s.sapSlots n
  let drop := slip.toNat
  let rep := (-slip).toNat
  let rest := x.buf.drop drop
  let want := 64 - rep
  let got := (rest.take want).map some ++ List.replicate (want - rest.length) none
  let need := got ++ (if want = 0 ∧ rep ≠ 0 then [x.last] else [])
  let zero := s.bit (F.AUD_SAP_STATUS_clock_lost n)
  let frames := fillFrames zero (s.sapWidth n) c s.freeCtr need
  let s := { s with freeCtr := s.freeCtr + (1 + c) * (need.filter Option.isNone).length }
  let last := frames.getLast?
  let block := (frames.take want) ++ List.replicate rep (last.getD ⟨0, List.replicate c 0, false, 0⟩)
  let s := s.setSap n { x with buf := rest.drop want, last := last }
  if s.silent n then (block.map (fun f => { f with words := List.replicate c 0 }), s) else (block, s)

/-- The samples of a block, frame by frame in channel order, from the members' frames (R427). -/
def interleave (members : List (List (List Nat))) : List Nat :=
  (List.range 64).flatMap (fun f => members.flatMap (fun m => m.getD f []))

/-- `bflags` of a block (R427). [assumption 46, DEDUCED] -/
def State.blockFlags (s : State) (x : AudGroup) (e : AudEvent) (glitch missing : Bool) : Nat :=
  let sap := fun (p : Nat → Bool) => !x.net && x.members.any p
  (if e.slip ≠ 0 then 1 else 0) + (if sap (fun n => (s.sap n).filled) then 2 else 0)
    + (if sap (fun n => s.bit (F.AUD_SAP_STATUS_muted n)) then 4 else 0) + (if glitch then 8 else 0) + (if missing then 16 else 0)

/-- Bytes 4 to 27 of a block's record (R427). -/
def recordMiddle (x : AudGroup) (flags : Nat) (slip : Int) (ts : Nat) : List Byte :=
  leBytes 2 flags ++ leBytes 1 (if x.net then 0 else maskOf x.members) ++ leBytes 1 x.counts.sum
    ++ leBytes 2 (wrapTo 16 slip) ++ leBytes 1 (if x.net then maskOf (x.members.map (· - 56)) else 0) ++ leBytes 1 0
    ++ stampBytes ts ++ leBytes 4 0

/-- `ts` of a block on a port, from its first frame's start in 2^-16 ns, whose fraction a record does not carry (R13, R427). -/
def State.adjusted (s : State) (n start : Nat) : Nat :=
  (((start / 65536 : Nat) : Int) - signedOf 16 (s.fld (F.AUD_SAP_TS_ADJ_adj n))).toNat

/-- The lowest-numbered member that has a clock. -/
def State.clockedMember (s : State) (x : AudGroup) : Option Nat :=
  x.members.find? (fun n => !s.bit (F.AUD_SAP_STATUS_clock_lost n))

/-- `ts` of a block when no member is clocked. [assumption 46, DEDUCED] -/
def AudGroup.unclocked (x : AudGroup) (k : Nat) : Nat := if k = 0 then x.time 0 else x.prevTs + (x.time k - x.time (k - 1))

/-- A block is done: its digest, event bit, registers and seal (R102, R427, R436, R580). -/
def State.blockDone (s : State) (g : Nat) (x : AudGroup) (words : List Nat) (marks : Marks) : State :=
  let k := x.next
  let s := s.digestDone 5 g ⟨k % 2 ^ 32, crc64 (words.flatMap (leBytes 4)), marks.excluded, marks.replayed, marks.override⟩
  let s := (s.put ⟨R.AUD_EVT, g, g⟩ 1).wr (R.AUD_GRP_BLOCK g) ((k + 1) % 2 ^ 32)
  let s := s.flag (F.AUD_GRP_STATUS_filling g) (!x.net && x.members.any (fun n => (s.sap n).filled))
  (s.setGrp g { x with next := k + 1 }).seal 4 g (k % 2 ^ 32)

/-- An input group takes a block and writes its record whole. [assumption 47, DEDUCED] -/
def State.inputBlock (s : State) (g : Nat) (x : AudGroup) (e : AudEvent) (marks : Marks) : State :=
  let k := x.next
  let c := x.counts.sum
  let r := x.members.foldl (fun (acc : List (Nat × List AudFrame) × State) n =>
    let t := acc.2.takeInput n e.slip
    (acc.1 ++ [(n, t.1)], t.2)) (([] : List (Nat × List AudFrame)), s)
  let s := r.2
  let words := interleave (r.1.map (fun m => m.2.map (fun f => f.words)))
  let ts := match s.clockedMember x with
    | some n => match (r.1.find? (fun m => m.1 = n)).bind (fun m => m.2.head?) with
      | some f => s.adjusted n f.start
      | none => x.unclocked k
    | none => x.unclocked k
  let glitch := r.1.any (fun m => m.2.any (fun f => f.glitch))
  let flags := s.blockFlags x e glitch false
  let s := s.dramWrite (s.grpRecord g c k) (leBytes 4 k ++ recordMiddle x flags e.slip ts ++ leBytes 4 (k % 2 ^ 32 ^^^ 0xFFFFFFFF)
    ++ words.flatMap (leBytes 4))
  s.blockDone g { x with prevTs := ts } words marks

/-- An input group of network members takes a block (R398). A member whose stream a reset of NET has stopped gives zeros, and
the block is affected (R110, R404). [assumption 49, DEDUCED] -/
def State.netBlock (s : State) (g : Nat) (x : AudGroup) : State :=
  let k := x.next
  let done := x.members.map (fun r => ((s.audRx r).done.find? (fun d => d.k = k)).getD ⟨k, [], ⟨true, false, false⟩⟩)
  let parts := (List.zip done x.counts).map (fun d => d.1.frames ++ List.replicate (64 - d.1.frames.length) (List.replicate d.2 0))
  let words := interleave parts
  let marks := done.foldl (fun m d => m.or d.marks) Marks.none
  let ts := x.time k
  let s := x.members.foldl (fun (s : State) r =>
    s.setAudRx r { s.audRx r with done := (s.audRx r).done.filter (fun d => d.k != k) }) s
  let s := s.dramWrite (s.grpRecord g x.counts.sum k) (leBytes 4 k ++ recordMiddle x 0 0 ts ++ leBytes 4 (k % 2 ^ 32 ^^^ 0xFFFFFFFF)
    ++ words.flatMap (leBytes 4))
  s.blockDone g { x with prevTs := ts } words marks

/-- The record of an output block in the ring: its bytes, whether it is valid, and whether the read is damaged (R428). -/
def State.outputRecord (s : State) (g : Nat) (x : AudGroup) : List Byte × Bool × Bool × State :=
  let k := x.next % 2 ^ 32
  let d := s.dramFetch (s.grpRecord g x.counts.sum x.next) (recBytes x.counts.sum)
  (d.1, leAt d.1 0 4 = k && leAt d.1 28 4 = (k ^^^ 0xFFFFFFFF), d.2.1, d.2.2)

/-- One output member's frames of a block: the words of its slots. -/
def memberFrames (data : List Byte) (c first n : Nat) : List (List Nat) :=
  (List.range 64).map (fun f => (List.range n).map (fun i => leAt data (32 + 4 * (c * f + first + i)) 4))

/-- Frames put into an output member's buffer: none while it is silent, whose buffer is emptied; a full buffer takes no more
(R425, R426). [assumption 47, DEDUCED] -/
def State.putOutput (s : State) (n k : Nat) (frames : List (List Nat)) (slip : Int) : State :=
  let x := s.sap n
  if s.silent n then s.setSap n { x with buf := [] }
  else
    let l := frames.take (64 - slip.toNat) ++ List.replicate (-slip).toNat (frames.getLastD [])
    s.setSap n { x with buf := (x.buf ++ l.map (fun w => (⟨0, w, false, k⟩ : AudFrame))).take 512 }

/-- An output group takes a block from its ring. [assumption 47, DEDUCED] -/
def State.outputBlock (s : State) (g : Nat) (x : AudGroup) (e : AudEvent) (data : List Byte) (missing : Bool) (marks : Marks) :
    State :=
  let k := x.next
  let c := x.counts.sum
  let data := if missing then zeroBytes (recBytes c) else data
  let firsts := (List.range x.counts.length).map (fun i => (x.counts.take i).sum)
  let parts := (List.zip x.members (List.zip firsts x.counts)).map (fun m => (m.1, memberFrames data c m.2.1 m.2.2))
  let s := parts.foldl (fun (s : State) m => s.putOutput m.1 k m.2 e.slip) s
  let words := interleave (parts.map (fun m => m.2))
  let flags := s.blockFlags x e false missing
  s.blockDone g { x with
    outs := x.outs ++ [⟨k, flags, e.slip⟩], missed := if missing then (k :: x.missed).take 4096 else x.missed } words marks

/-! ## Boundaries (R425, R426, R105, R581) -/

/-- Whether a group's block has what a followed event leaves it to need: frames on every input member that is not silent, or
a valid record for the members of an output group (R105). -/
def State.hasData (s : State) (x : AudGroup) (e : AudEvent) (missing : Bool) : Bool :=
  let s := s.audApply 0 x { e with mask := if 3 ≤ e.code then e.mask else 0, code := if 3 ≤ e.code then e.code else 0 }
  if x.output then !missing || x.members.all (fun n => (s.sap n).filled)
  else x.members.all (fun n => s.silent n || s.bit (F.AUD_SAP_STATUS_clock_lost n)
    || decide (((64 : Int) + e.slip).toNat ≤ (s.sap n).buf.length))

/-- One block of a group whose boundary instant has passed: decided and taken, or blocked. [assumption 46, DEDUCED] -/
def State.groupBlock (s : State) (g : Nat) (force : Bool) : State :=
  match s.grp g with
  | none => s
  | some x =>
    let k := x.next
    let n := k % 2 ^ 32
    if x.reached ≤ k ∨ x.stopping = true then s
    else if x.net then
      if x.members.all (fun r => !s.streamIn g r || (s.audRx r).done.any (fun d => d.k = k)) then s.netBlock g x else s
    else
      let rec0 : List Byte × Bool × Bool × State := if x.output then s.outputRecord g x else ([], true, false, s)
      let missing := x.output && !rec0.2.1
      let take := fun (s : State) (e : AudEvent) (m : Marks) =>
        let s := s.audApply g x e
        let m := { m with excluded := m.excluded || rec0.2.2.1 }
        if x.output then s.outputBlock g x e rec0.1 missing m else s.inputBlock g x e m
      let own := s.audLocal g x missing
      match s.ruling 2 0 g n (x.time k + x.deadline) (some (4, g)) false with
      | .locally =>
        let s := rec0.2.2.2
        let s := if own.code = 0 then s else s.jnlWrite 2 0 g n own.code own.n own.mask false false
        take s own .none
      | .nothing =>
        if force then take ((rec0.2.2.2.noteOverride).unblock 2 0 g n) ⟨0, 0, 0⟩ ⟨false, false, true⟩
        else if s.hasData x ⟨0, 0, 0⟩ missing then take (rec0.2.2.2.unblock 2 0 g n) ⟨0, 0, 0⟩ .none
        else s.block 2 0 g n (x.time k + x.deadline)
      | .entry e =>
        let ev : AudEvent := ⟨e.a, e.b, e.c⟩
        if s.hasData x ev missing then take (rec0.2.2.2.replay e) ev ⟨false, true, false⟩
        else if force then
          let s := rec0.2.2.2
          let s := if own.code = 0 then (s.noteOverride.dropHeld 2 0 g n).unblock 2 0 g n
            else s.overrideWrite 2 0 g n own.code own.n own.mask
          take s own ⟨false, false, true⟩
        else s.block 2 0 g n (x.time k + x.deadline)
      | .wait =>
        if force then
          let s := rec0.2.2.2
          let s := if own.code = 0 then s.noteOverride.unblock 2 0 g n
            else s.overrideWrite 2 0 g n own.code own.n own.mask
          take s own ⟨false, false, true⟩
        else s.block 2 0 g n (x.time k + x.deadline)

/-- Every block of a group that can be taken is taken, in order. -/
def State.groupRun (s : State) (g : Nat) : State :=
  match s.grp g with
  | some x => (List.range (x.reached - x.next)).foldl (fun (s : State) _ => s.groupBlock g false) s
  | none => s

/-- A kind 2 decision is looked at again; `force`: its hold has expired (R106). -/
def State.groupResume (s : State) (g : Nat) (force : Bool) : State := (if force then s.groupBlock g true else s).groupRun g

/-! ## Audio receive streams (R398) -/

/-- The frames of a block that are present, from its first on. -/
def AudRx.present (x : AudRx) (k : Nat) : List (List Nat) :=
  (((List.range 64).map (fun f => mapFind x.frames (64 * k + f))).takeWhile Option.isSome).filterMap id

/-- The group of an audio receive stream, where it runs and the stream is a member. -/
def State.rxGroup (s : State) (r : Nat) : Option AudGroup :=
  match s.grp (s.fld (F.NET_RX_MEDIA_group r)) with
  | some x => if x.net && x.members.contains r && s.streamIn (s.fld (F.NET_RX_MEDIA_group r)) r then some x else none
  | none => none

/-- The expected timestamp of frame 0 of a block. -/
def State.expectedTs (s : State) (r : Nat) (x : AudGroup) (k : Nat) : Nat :=
  wrapTo 32 (((x.origin / 1000000000 * x.fs + 64 * k : Nat) : Int) - (s.fld (F.NET_RX_MEDIA_offset r) : Int))

/-- A stream decides its next block, whose decision instant has passed, or blocks. -/
def State.audDecide (s : State) (r : Nat) (force : Bool) : State :=
  match s.rxGroup r with
  | none => s
  | some x =>
    let y := s.audRx r
    let k := y.next
    if y.reached ≤ k then s
    else
      let n := k % 2 ^ 32
      let got := y.present k
      let ts := s.expectedTs r x k
      let since := x.time k + (s.boundary 4 r).getD 0
      let take := fun (s : State) (c : Nat) (m : Marks) =>
        let s := s.setAudRx r { y with
          next := k + 1, done := y.done ++ [⟨k, got.take c, m⟩]
          frames := y.frames.filter (fun e => decide (64 * k + 64 ≤ e.1)) }
        if c < 64 then s.bump (F.NET_RX_CUT_count r) 1 else s
      match s.ruling 4 0 r n since none false with
      | .locally => take (s.jnlWrite 4 0 r n ts got.length 0 false false) got.length .none
      | .entry e =>
        if e.b ≤ got.length then take (s.replay e) e.b ⟨false, true, false⟩
        else if force then
          take (s.overrideWrite 4 0 r n ts got.length 0) got.length ⟨false, false, true⟩
        else s.block 4 0 r n since
      | _ => if force then take (s.overrideWrite 4 0 r n ts got.length 0) got.length ⟨false, false, true⟩ else s.block 4 0 r n since

/-- Every block of a stream that can be decided is decided, in order. -/
def State.audDecideAll (s : State) (r : Nat) : State :=
  (List.range ((s.audRx r).reached - (s.audRx r).next)).foldl (fun (s : State) _ => s.audDecide r false) s

/-- A kind 4 decision of an audio stream is looked at again, and its group after it. -/
def State.audResume (s : State) (r : Nat) (force : Bool) : State :=
  let s := ((if force then s.audDecide r true else s).audDecideAll r)
  s.groupRun (s.fld (F.NET_RX_MEDIA_group r))

/-- The decision instants of a stream up to a block have been reached. -/
def State.audReached (s : State) (r upTo : Nat) : State :=
  let y := s.audRx r
  (s.setAudRx r { y with reached := max y.reached upTo }).audDecideAll r

/-- AUDIO_BLOCK_DECISION: G_k plus the `deadline_ns` of the stream's kind 4 record, for the stream's next block. -/
def State.audioDecision (s : State) (r : Nat) : State :=
  match s.rxGroup r with
  | some x =>
    if x.stopping then s
    else
      let k := (s.audRx r).reached
      ((s.reach (x.time k + (s.boundary 4 r).getD 0)).audReached r (k + 1)).groupRun (s.fld (F.NET_RX_MEDIA_group r))
  | none => s

@[inherit_doc State.audioDecision] def execAudioBlockDecision (r : Nat) (s : State) : Host.Outcome State Fault Refusal :=
  done (s.audioDecision (56 + r % 8))

/-- GROUP_BOUNDARY: the boundary instant of a group's next block. -/
def State.groupBoundary (s : State) (g : Nat) : State :=
  match s.grp g with
  | none => s
  | some x =>
    let s := s.reach (x.time x.reached + x.deadline)
    if x.stopping then s.grpStop g
    else
      let s := (s.setGrp g { x with reached := x.reached + 1 }).put (F.AUD_GRP_STATUS_running g) 1
      let s := if x.net then x.members.foldl (fun (s : State) r => s.audReached r (x.reached + 1)) s else s
      s.groupRun g

@[inherit_doc State.groupBoundary] def execGroupBoundary (g : Nat) (s : State) : Host.Outcome State Fault Refusal :=
  done (s.groupBoundary (g % 8))

/-! ## Ports (R425, R429, R430) -/

/-- The running group of a port. -/
def State.sapGroup (s : State) (n : Nat) : Option (Nat × AudGroup) :=
  let g := s.fld (F.AUD_SAP_CFG_group n)
  match s.grp g with
  | some x => if !x.net && x.members.contains n then some (g, x) else none
  | none => none

/-- A damaged frame is counted and flagged (R429); `inStream` holds for one of the group's stream, whose block is flagged. -/
def State.glitchFrame (s : State) (n : Nat) (inStream : Bool) : State :=
  let x := s.sap n
  ((s.setSap n { x with good := 0, glitch := x.glitch || inStream }).bump (F.AUD_SAP_GLITCH_count n) 1).put (F.AUD_SAP_STATUS_glitch n) 1

/-- A good frame counts towards the end of CLOCK_LOST (R429). -/
def State.goodFrame (s : State) (n : Nat) : State :=
  if s.bit (F.AUD_SAP_STATUS_clock_lost n) then
    let x := s.sap n
    if 64 ≤ x.good + 1 then (s.setSap n { x with good := 0 }).put (F.AUD_SAP_STATUS_clock_lost n) 0
    else s.setSap n { x with good := x.good + 1 }
  else s

/-- A sample frame on an input port, with its frame start in 2^-16 ns. One that starts before G₀ is counted, and is no part of
the stream (R424). [assumption 47, DEDUCED] -/
def State.frameIn (s : State) (g n fine : Nat) (x : AudGroup) (good : Bool) (samples : List Nat) : State :=
  let inStream := decide (x.origin * 65536 ≤ fine)
  if !good then s.glitchFrame n inStream
  else
    let s := s.goodFrame n
    if inStream then
      let y := s.sap n
      let words := samples.map (sampleWord (s.sapWidth n))
      let s := s.setSap n (if y.buf.length < 512 then { y with buf := y.buf ++ [⟨fine, words, y.glitch, 0⟩], glitch := false } else y)
      s.groupRun g
    else s

/-- A sample frame on an output port: the oldest frame of the buffer leaves, or is consumed unsent (R425, R429).
[assumption 47, DEDUCED] -/
def State.frameOut (s : State) (g n : Nat) (x : AudGroup) (good : Bool) : State :=
  let y := s.sap n
  let c := s.sapSlots n
  let w := s.sapWidth n
  let s1 := s.setSap n { y with buf := y.buf.drop 1 }
  if !good then
    let s1 := s1.glitchFrame n true
    match y.buf.head? with
    | some f => s1.setGrp g { x with glitched := (f.block :: x.glitched).take 64 }
    | none => s1
  else
    let s1 := s1.goodFrame n
    if s.silent n || s.bit (F.AUD_SAP_STATUS_clock_lost n) then s1.sapDrive n (List.replicate c 0)
    else match y.buf.head? with
      | some f => s1.sapDrive n (f.words.map (fun v => v / 2 ^ (32 - w)))
      | none =>
        let k := s1.freeCtr
        ({ s1 with freeCtr := k + c } : State).sapDrive n ((List.range c).map (fun i => Config.freeValue (k + i) % 2 ^ w))

/-- SAMPLE_FRAME: a sample frame ends on a port: whether it is undamaged and what it carries follows from the levels of its
BCLK periods and the port's format. A data line of an output port whose group does not run is held low.
[assumption 47, DEDUCED] -/
def State.sampleFrame (s : State) (n fine : Nat) (line : List SapPeriod) : State :=
  let levels := line.map (s.sapLevel n)
  let d := s.sapDelay n
  let good := s.frameWhole n ((levels.take (levels.length - d)).map Prod.fst)
  if !s.runs .aud then s
  else match s.sapGroup n with
    | some (g, x) =>
      if x.output then s.frameOut g n x good else s.frameIn g n fine x good (s.sapSamples n ((levels.drop d).map Prod.snd))
    | none =>
      if s.bit (F.AUD_SAP_CFG_member n) && s.bit (F.AUD_SAP_CFG_dir n) then s.sapDrive n (List.replicate (s.sapSlots n) 0) else s

@[inherit_doc State.sampleFrame] def execSampleFrame (port t frac : Nat) (line : List SapPeriod) (s : State) :
    Host.Outcome State Fault Refusal := done (s.sampleFrame (port % 8) (t * 65536 + frac % 65536) line)

/-- CLOCK_LOST: no BCLK edge for 8 expected periods on a member of a running group (R429). -/
def State.clockLost (s : State) (n : Nat) : State :=
  match s.sapGroup n with
  | some _ =>
    let s := s.setSap n { s.sap n with good := 0 }
    if s.bit (F.AUD_SAP_STATUS_clock_lost n) then s
    else (s.put (F.AUD_SAP_STATUS_clock_lost n) 1).bump (F.AUD_SAP_CLOST_count n) 1
  | none => s

@[inherit_doc State.clockLost] def execClockLost (port : Nat) (s : State) : Host.Outcome State Fault Refusal :=
  done (s.clockLost (port % 8))

/-- RATE_WINDOW: 64 frames of a member took `dur` units of 2^-16 ns of Anchor time between their frame starts (R406, R430).
[assumption 46, DEDUCED] -/
def State.rateWindow (s : State) (n dur : Nat) : State :=
  match s.sapGroup n with
  | some (_, x) =>
    if dur = 0 then s
    else
      let d : Int := ((64 * 1000000000 * 65536 : Nat) : Int) - ((x.fs * dur : Nat) : Int)
      let whole : Int := ((x.fs * dur : Nat) : Int)
      let far := decide (1000 * (x.fs * dur) < 1000000 * d.natAbs)
      let ppm := (2 * 1000000 * d + whole) / (2 * whole)
      let y := s.sap n
      let off := if far then y.off + 1 else 0
      let within := if far then 0 else y.within + 1
      let s := s.setSap n { y with off := min off 2, within := min within 2 }
      let s := s.put (F.AUD_SAP_STATUS_ppm n) (wrapTo 16 (clampI (-32768) 32767 ppm))
      if 2 ≤ off then s.put (F.AUD_SAP_STATUS_rate_bad n) 1
      else if 2 ≤ within then s.put (F.AUD_SAP_STATUS_rate_bad n) 0
      else s
  | none => s

@[inherit_doc State.rateWindow] def execRateWindow (port dur : Nat) (s : State) : Host.Outcome State Fault Refusal :=
  done (s.rateWindow (port % 8) dur)

/-- OUTPUT_BLOCK_LEAVE: the first frame of the oldest block whose record is incomplete leaves, or would leave, the
lowest-numbered clocked member of an output group, with its frame start in 2^-16 ns (R427, R428). -/
def State.outputLeave (s : State) (g fine : Nat) : State :=
  match s.grp g with
  | some x =>
    match x.outs with
    | [] => s
    | b :: rest =>
      let ts := match s.clockedMember x with
        | some n => s.adjusted n fine
        | none => x.unclocked b.k
      let flags := if x.glitched.contains b.k then putBits b.flags 3 3 1 else b.flags
      let s := s.dramWrite (s.grpRecord g x.counts.sum b.k + 4) (recordMiddle x flags b.slip ts)
      s.setGrp g { x with prevTs := ts, outs := rest }
  | none => s

@[inherit_doc State.outputLeave] def execOutputBlockLeave (g t : Nat) (s : State) : Host.Outcome State Fault Refusal :=
  done (s.outputLeave (g % 8) t)

end Sys2Proof.Machine
end

