-- ==== Sys2Proof/Machine/HevcSyntax.lean ====
section
/-! DEFINITION. What the picture coding engine shares with ITU-T H.265 and does not leave to the decision model: bit strings
and NAL units, SEI messages (R276), and the picture hashes (R276). The forms are those of H.265, which the spec cites
(assumption 33). -/
namespace Sys2Proof.Machine

/-! ## Bit strings -/

/-- `u(n)`: the low `n` bits of a number, most significant first. [assumption 33, PRESUMED] -/
def uBits (n v : Nat) : List Bool := (List.range n).map (fun i => v.testBit (n - 1 - i))

/-- `ue(v)`. [assumption 33, PRESUMED] -/
def ueBits (v : Nat) : List Bool := List.replicate (v + 1).log2 false ++ uBits ((v + 1).log2 + 1) (v + 1)

/-- `se(v)`. [assumption 33, PRESUMED] -/
def seBits (v : Int) : List Bool := ueBits (if 0 < v then 2 * v.toNat - 1 else 2 * (-v).toNat)

/-- A bit string closed by a 1 and by zeros to a whole byte: `rbsp_trailing_bits()` and `byte_alignment()`.
[assumption 33, PRESUMED] -/
def closeBits (l : List Bool) : List Bool := l ++ true :: List.replicate ((8 - (l.length + 1) % 8) % 8) false

/-- The bytes of a bit string of whole bytes. -/
def bytesOfBits (l : List Bool) : List Byte :=
  (List.range (l.length / 8)).map (fun i => BitVec.ofNat 8 (((l.drop (8 * i)).take 8).foldl (fun a b => 2 * a + b.toNat) 0))

/-! ## NAL units -/

/-- Emulation prevention: a byte 3 goes before a byte of 0 to 3 that follows two zero bytes; `z` is the zero bytes just
written. The spec leaves the rule to H.265 (assumption 33). [assumption 33, PRESUMED] -/
def emulate : Nat → List Byte → List Byte
  | _, [] => []
  | z, b :: r =>
    if 2 ≤ z ∧ b.toNat ≤ 3 then 3 :: b :: emulate (if b = 0 then 1 else 0) r
    else b :: emulate (if b = 0 then z + 1 else 0) r

/-- The bytes of a NAL unit without the emulation prevention bytes; `z` is the zero bytes just read.
[assumption 33, PRESUMED] -/
def strip : Nat → List Byte → List Byte
  | _, [] => []
  | z, b :: r => if 2 ≤ z ∧ b = 3 then strip 0 r else b :: strip (if b = 0 then z + 1 else 0) r

/-- A NAL unit with its 4-byte start code. -/
def nalUnit (payload : List Byte) : List Byte := [0, 0, 0, 1] ++ emulate 0 payload

/-- The two bytes of a NAL unit header of a type, in layer 0 and with `TemporalId` 0 (R275). -/
def nalHeader (ty : Nat) : List Byte := [BitVec.ofNat 8 (2 * ty), 1]

/-- The NAL units of an Annex B byte stream: `z` zero bytes have just been read, `cur` is the unit in progress, newest byte
first, where a start code has come. [assumption 33, PRESUMED] -/
def nalScan : Nat → Option (List Byte) → List Byte → List (List Byte)
  | _, cur, [] => cur.toList.map List.reverse
  | z, cur, b :: r =>
    if 2 ≤ z ∧ b = 1 then cur.toList.map List.reverse ++ nalScan 0 (some []) r
    else if b = 0 then nalScan (z + 1) cur r
    else nalScan 0 (cur.map (fun l => b :: (List.replicate z 0 ++ l))) r

/-- The NAL units of an access unit, without start codes. -/
def nalUnits (au : List Byte) : List (List Byte) := nalScan 0 none au

/-- `nal_unit_type`. -/
def nalType (n : List Byte) : Nat := bitsOf (n.headD 0).toNat 6 1

/-- Whether a NAL unit header is one that a decoder takes: `forbidden_zero_bit` 0, layer 0, and a `TemporalId` (R301).
[assumption 33, PRESUMED] -/
def nalHeaderOk (n : List Byte) : Bool :=
  let h := beNat (n.take 2)
  decide (2 ≤ n.length) && !h.testBit 15 && bitsOf h 8 3 = 0 && bitsOf h 2 0 != 0

/-! ## SEI messages (R276) -/

/-- A number coded in bytes of 255 and a last byte, and what follows it. -/
def seiNumber : List Byte → Option (Nat × List Byte)
  | [] => none
  | b :: r => if b.toNat = 255 then (seiNumber r).map (fun e => (255 + e.1, e.2)) else some (b.toNat, r)

/-- The messages of an SEI NAL unit, as payload type and payload: `none` where it is malformed. At most `n`.
[assumption 33, PRESUMED] -/
def seiMessages : Nat → List Byte → Option (List (Nat × List Byte))
  | 0, _ => none
  | n + 1, l =>
    if l = [0x80] then some []
    else match seiNumber l with
      | none => none
      | some (ty, l) => match seiNumber l with
        | none => none
        | some (size, l) =>
          if l.length ≤ size then none else (seiMessages n (l.drop size)).map (fun r => (ty, l.take size) :: r)

/-- The payload type of the decoded picture hash. -/
def hashPayload : Nat := 132

/-- Bytes of one component's hash by method: MD5, CRC, checksum; other methods are reserved. -/
def hashSize : Nat → Option Nat
  | 0 => some 16
  | 1 => some 2
  | 2 => some 4
  | _ => none

/-- Whether a message is one that its payload type allows, for a picture of so many components. [assumption 33, PRESUMED] -/
def seiOk (comps : Nat) (suffix : Bool) (m : Nat × List Byte) : Bool :=
  if suffix && m.1 = hashPayload then
    match m.2 with
    | [] => false
    | b :: r => match hashSize b.toNat with
      | some n => decide (comps * n ≤ r.length)
      | none => true
  else true

/-- The SEI NAL units of an access unit, as their messages; `none` for a malformed one, which is ignored (R276). -/
def seiUnits (comps : Nat) (us : List (List Byte)) : List (Bool × Option (List (Nat × List Byte))) :=
  (us.filter (fun n => nalType n = 39 || nalType n = 40)).map (fun n =>
    let suffix := decide (nalType n = 40)
    let l := strip 0 (n.drop 2)
    (suffix, match seiMessages l.length l with
      | some ms => if ms.all (seiOk comps suffix) then some ms else none
      | none => none))

/-! ## Picture hashes (R276) -/

/-- The bytes of a plane: one to a sample, or two with the low byte first where samples have more than 8 bits. -/
def planeBytes (depth : Nat) (p : List Nat) : List Byte := p.flatMap (leBytes (if 8 < depth then 2 else 1))

/-- The CRC of a plane: polynomial 0x1021 over its bits, most significant first, and 16 zero bits. [assumption 33, PRESUMED] -/
def planeCrc (depth : Nat) (p : List Nat) : Nat :=
  ((planeBytes depth p ++ [0, 0]).flatMap (fun (b : Byte) => uBits 8 b.toNat)).foldl (fun (c : Nat) (b : Bool) =>
    ((2 * c + b.toNat) % 2 ^ 16) ^^^ (if c.testBit 15 then 0x1021 else 0)) 0xFFFF

/-- The checksum of a plane of a width. [assumption 33, PRESUMED] -/
def planeSum (depth w : Nat) (p : List Nat) : Nat :=
  p.zipIdx.foldl (fun a e =>
    let x := e.2 % max 1 w
    let y := e.2 / max 1 w
    let m := (x % 256) ^^^ (y % 256) ^^^ (x / 256) ^^^ (y / 256)
    (a + ((e.1 % 256) ^^^ m) + (if 8 < depth then (e.1 / 256) ^^^ m else 0)) % 2 ^ 32) 0

/-- Sine and cosine of 1 in units of 2 to the -128, from their series. -/
def unitAngle : Int × Int :=
  (List.range 17).reverse.foldl (fun (a : Int × Int) n =>
    let one : Int := 2 ^ 128
    (one - a.1 / ((2 * n + 2) * (2 * n + 3) : Nat), one - a.2 / ((2 * n + 1) * (2 * n + 2) : Nat))) (2 ^ 128, 2 ^ 128)

/-- The constants of MD5: the sines of 1 to `n`, as 32-bit fractions. -/
def sineTable (n : Nat) : List Nat :=
  ((List.range n).foldl (fun (a : (Int × Int) × List Nat) _ =>
    let s := (a.1.1 * unitAngle.2 + a.1.2 * unitAngle.1) / 2 ^ 128
    let c := (a.1.2 * unitAngle.2 - a.1.1 * unitAngle.1) / 2 ^ 128
    ((s, c), (s.natAbs / 2 ^ 96) :: a.2)) ((0, 2 ^ 128), [])).2.reverse

/-- A 32-bit word turned left. -/
def turn32 (n x : Nat) : Nat := (x * 2 ^ n + x / 2 ^ (32 - n)) % 2 ^ 32

/-- One of the 64 steps of MD5 on the four chaining words, in the order in which they take part. -/
def md5Step (m : List Nat) (q : Nat × Nat × Nat × Nat) (e : Nat × Nat) : Nat × Nat × Nat × Nat :=
  let (a, b, c, d) := q
  let i := e.2
  let no := fun (x : Nat) => 2 ^ 32 - 1 - x
  let (f, g, r) := match i / 16 with
    | 0 => ((b &&& c) ||| (no b &&& d), i, [7, 12, 17, 22])
    | 1 => ((d &&& b) ||| (no d &&& c), 5 * i + 1, [5, 9, 14, 20])
    | 2 => (b ^^^ c ^^^ d, 3 * i + 5, [4, 11, 16, 23])
    | _ => (c ^^^ (b ||| no d), 7 * i, [6, 10, 15, 21])
  (d, (b + turn32 (r.getD (i % 4) 0) ((a + f + e.1 + m.getD (g % 16) 0) % 2 ^ 32)) % 2 ^ 32, b, c)

/-- One block of 64 bytes of MD5. -/
def md5Block (table : List Nat) (q : Nat × Nat × Nat × Nat) (l : List Byte) : Nat × Nat × Nat × Nat :=
  let m := (List.range 16).map (fun i => leAt l (4 * i) 4)
  let r := table.zipIdx.foldl (md5Step m) q
  ((q.1 + r.1) % 2 ^ 32, (q.2.1 + r.2.1) % 2 ^ 32, (q.2.2.1 + r.2.2.1) % 2 ^ 32, (q.2.2.2 + r.2.2.2) % 2 ^ 32)

/-- MD5 (RFC 1321), which H.265 cites. [assumption 33, PRESUMED] -/
def md5 (l : List Byte) : List Byte :=
  let pad := l ++ 0x80 :: List.replicate ((119 - l.length % 64) % 64) 0 ++ leBytes 8 (8 * l.length)
  let table := sineTable 64
  let q := (List.range (pad.length / 64)).foldl (fun q i => md5Block table q (slice pad (64 * i) 64))
    (0x67452301, 0xEFCDAB89, 0x98BADCFE, 0x10325476)
  leBytes 4 q.1 ++ leBytes 4 q.2.1 ++ leBytes 4 q.2.2.1 ++ leBytes 4 q.2.2.2

/-- The hash of a plane by a method, as a message carries it. -/
def planeHash (method depth w : Nat) (p : List Nat) : List Byte :=
  match method with
  | 0 => md5 (planeBytes depth p)
  | 1 => beBytes 2 (planeCrc depth p)
  | _ => beBytes 4 (planeSum depth w p)

end Sys2Proof.Machine
end

