-- ==== Sys2Proof/Machine/HevcMath.lean ====
section
/-! DEFINITION. The arithmetic of the picture coding engine: sizes, rate control (R292, R293), the byte stream of an
access unit (R275), supported sequences (R273, R301), the slice segments of a damaged picture (R274, R301, R303),
concealment (R302) and the layout of output pictures (R298). -/
namespace Sys2Proof.Machine

/-! ## Sizes (R285, R292, R299) -/

/-- A size rounded up to a multiple of 64. -/
def up64 (n : Nat) : Nat := ceilDiv n 64 * 64

/-- P of R285, from the chroma format (0 4:0:0, 1 4:2:0, 2 4:2:2). -/
def pictureNeed (w h chroma : Nat) : Nat :=
  up64 w * up64 h * (2 + chroma) + up64 w / 16 * (up64 h / 16) * 16

/-- FB of R292. -/
def fillBound (w : Nat) : Nat := 4 * ceilDiv w 64 + 8

/-! ## The bank of a session (R309) -/

/-- The encoder's view of a session's bank. Fields are read as session 0's, the banks being alike: `k` is the session. -/
structure EncBank where
  width : Nat
  height : Nat
  run : Bool
  chroma : Nat
  hash : Bool
  gop : Nat
  refs : Nat
  idrReq : Bool
  level : Nat
  idrPeriod : Nat
  rowsPerSlice : Nat
  qpBase : Int
  qpIOff : Int
  qpMin : Int
  qpMax : Int
  cap : Nat
deriving DecidableEq, Repr

/-- The fields of a bank of session `k`. -/
def encBank (b : SMap Word) (k : Nat) : EncBank where
  width := bankFld b (F.HEVC_SES_SIZE_width k)
  height := bankFld b (F.HEVC_SES_SIZE_height k)
  run := bankBit b (F.HEVC_SES_MODE_run k)
  chroma := bankFld b (F.HEVC_SES_MODE_chroma k)
  hash := bankBit b (F.HEVC_SES_MODE_hash k)
  gop := bankFld b (F.HEVC_SES_MODE_gop k)
  refs := bankFld b (F.HEVC_SES_MODE_refs k)
  idrReq := bankBit b (F.HEVC_SES_MODE_idr_req k)
  level := bankFld b (F.HEVC_SES_MODE_level k)
  idrPeriod := bankFld b (F.HEVC_SES_GOP_idr_period k)
  rowsPerSlice := bankFld b (F.HEVC_SES_GOP_rows_per_slice k)
  qpBase := signedOf 8 (bankFld b (F.HEVC_SES_RC_qp_base k))
  qpIOff := signedOf 8 (bankFld b (F.HEVC_SES_RC_qp_i_off k))
  qpMin := signedOf 8 (bankFld b (F.HEVC_SES_RC_qp_min k))
  qpMax := signedOf 8 (bankFld b (F.HEVC_SES_RC_qp_max k))
  cap := bankFld b (F.HEVC_SES_CAP_cap_bytes k)

/-- The rows of a picture, and the columns of coding tree units. -/
def EncBank.rows (e : EncBank) : Nat := ceilDiv e.height 64
@[inherit_doc EncBank.rows] def EncBank.cols (e : EncBank) : Nat := ceilDiv e.width 64

/-- The slices of a picture (R275). -/
def EncBank.slices (e : EncBank) : Nat := if e.rowsPerSlice = 0 then 1 else ceilDiv e.rows e.rowsPerSlice

/-- The words of a bank, which the decision model reads. -/
def bankWords (b : SMap Word) (k : Nat) : List Nat := (List.range 14).map (fun i => bankRd b (R.HEVC_SES_SIZE k + 4 * i))

/-! ## Rate control (R293) -/

/-- The starting QP of a picture. -/
def EncBank.startQp (e : EncBank) (idr : Bool) : Int := clampI e.qpMin e.qpMax (e.qpBase + (if idr then e.qpIOff else 0))

/-- The QP after a row that was not a fill row: `used` bytes so far of which `head` outside slice data, `r` its number. -/
def nextQp (e : EncBank) (head used r : Nat) (qp : Int) : Int :=
  let left := e.rows - r - 1
  let forecast := used + (used - head) * left / (r + 1)
  if left = 0 ∨ forecast ≤ e.cap then qp
  else
    let excess := forecast - e.cap
    let step : Int := if 8 * excess ≤ e.cap then 1 else if 4 * excess ≤ e.cap then 2 else 4
    min (qp + step) e.qpMax

/-- Whether row `r`, of `b` bytes at its QP, becomes a fill row. -/
def becomesFill (e : EncBank) (used b r : Nat) : Bool := decide (e.cap < used + b + (e.rows - r - 1) * fillBound e.width)

/-! ## The byte stream (R275) -/

/-- A size rounded up to a multiple of 8, the smallest coding unit. -/
def codedSize (n : Nat) : Nat := ceilDiv n 8 * 8

/-- The last part of a list again, up to a length. -/
def padTail (n k : Nat) (l : List Nat) : List Nat :=
  l ++ ((List.replicate (n - l.length) (l.drop (l.length - k))).flatten).take (n - l.length)

/-- The lines of a picture padded on the right and at the bottom to multiples of 8 by its last column and line (R275). A line
holds samples as they arrive: 4:2:2 luma and chroma interleaved; 4:2:0 luma, then on odd lines a row of chroma. -/
def padPicture (e : EncBank) (lines : List (List Nat)) : List (List Nat) :=
  let w := codedSize e.width
  let wide := lines.map (fun l =>
    if e.chroma = 1 then padTail (2 * w) 4 l
    else padTail w 1 (l.take e.width) ++ (if l.length ≤ e.width then [] else padTail w 2 (l.drop e.width)))
  let last := wide.getLastD []
  wide ++ (List.range (codedSize e.height - lines.length)).map (fun i => if e.chroma = 1 ∨ i % 2 = 1 then last else last.take w)

/-- The parts of an access unit that come before its slices, by NAL unit type: the delimiter and, for an IDR picture, the
parameter sets. [assumption 33, PRESUMED] -/
def headKinds (idr : Bool) : List Nat := if idr then [35, 32, 33, 34] else [35]

/-- `profile_tier_level()` of R275: Main 10, or profile 4 with the constraint flags of Main 4:2:2 10; Main tier; `level`, of
which 0 writes 186 (R309). [assumption 33, PRESUMED] -/
def profileBits (e : EncBank) (gap : Nat → List Bool) : List Bool :=
  let p := if e.chroma = 1 then 4 else 2
  uBits 8 p ++ (List.range 32).map (fun i => decide (i = p)) ++ gap 0
    ++ (if e.chroma = 1 then uBits 9 0b110100001 else uBits 9 0) ++ uBits 35 0 ++ uBits 8 (if e.level = 0 then 186 else e.level)

/-- The VPS, SPS and PPS, all with identifier 0 (R275), and the access unit delimiter. `gap` gives the syntax elements that
R275 does not name. [assumption 33, PRESUMED] -/
def headBits (e : EncBank) (words : List Nat) (gap : Nat → List Bool) : Nat → List Bool
  | 35 => closeBits (gap 1)
  | 32 => closeBits (uBits 4 0 ++ [true, true] ++ uBits 6 0 ++ uBits 3 0 ++ [true] ++ uBits 16 0xFFFF ++ profileBits e gap ++ gap 2)
  | 33 =>
    let vui := words.getD 5 0
    closeBits (uBits 4 0 ++ uBits 3 0 ++ [true] ++ profileBits e gap ++ ueBits 0
      -- chroma format, padded size, conformance window in chroma units
      ++ ueBits (1 + e.chroma) ++ ueBits (codedSize e.width) ++ ueBits (codedSize e.height)
      ++ (if codedSize e.width = e.width ∧ codedSize e.height = e.height then [false]
        else true :: (ueBits 0 ++ ueBits ((codedSize e.width - e.width) / 2) ++ ueBits 0
          ++ ueBits ((codedSize e.height - e.height) / (if e.chroma = 1 then 1 else 2))))
      -- bit depths, order counts, coding and transform block sizes
      ++ ueBits 2 ++ ueBits 2 ++ ueBits 12 ++ gap 3 ++ ueBits 0 ++ ueBits 3 ++ ueBits 0 ++ ueBits 3 ++ gap 4
      -- no scaling lists, no AMP, SAO, no PCM; no long-term references, temporal vectors, strong intra smoothing
      ++ [false, false, true, false] ++ gap 5 ++ [false, true, true]
      ++ (if vui.testBit 25 then
          [true, false, false, true] ++ gap 6 ++ [vui.testBit 24, true] ++ uBits 8 (bitsOf vui 7 0) ++ uBits 8 (bitsOf vui 15 8)
            ++ uBits 8 (bitsOf vui 23 16) ++ List.replicate 7 false
        else [false])
      ++ [false])
  | _ => closeBits (ueBits 0 ++ ueBits 0 ++ [false, false] ++ uBits 3 0 ++ [true] ++ gap 7 ++ seBits (Config.encInitQp words - 26)
      -- no constrained intra prediction, transform skip, cu_qp_delta with depth 0
      ++ [false, true, true] ++ ueBits 0 ++ gap 8
      -- no weighted prediction, no tiles, wavefronts
      ++ [false, false] ++ gap 9 ++ [false, true] ++ gap 10)

/-- The header of a slice segment that begins at coding tree unit `first`, of a picture with an order count and a starting
QP, with the sizes of its substreams (R275, R292). [assumption 33, PRESUMED] -/
def sliceBits (e : EncBank) (words : List Nat) (gap : Nat → List Bool) (idr : Bool) (poc first : Nat) (sizes : List Nat) : List Bool :=
  let at_ := fun (i : Nat) => gap (16 + 8 * first + i)
  let n := sizes.length - 1
  closeBits ([decide (first = 0)] ++ (if idr then at_ 0 else []) ++ ueBits 0
    ++ (if first = 0 then [] else uBits ((e.rows * e.cols - 1).log2 + 1) first)
    ++ ueBits (if idr then 2 else if e.gop = 1 then 0 else 1)
    ++ (if idr then [] else uBits 16 poc ++ at_ 1 ++ [true])
    ++ [true, true] ++ (if idr then [] else at_ 2)
    ++ seBits (e.startQp idr - Config.encInitQp words) ++ at_ 3
    ++ ueBits n ++ (if n = 0 then [] else ueBits 31 ++ (sizes.take n).flatMap (fun z => uBits 32 (z - 1))))

/-- Bytes of the hash SEI's NAL unit without its start code (H.265: header 2, type, size, method, three CRCs, trailing bits;
assumption 33). -/
def hashSeiLen : Nat := 12

/-- The suffix SEI with the CRC of each plane of the picture (R276). [assumption 33, PRESUMED] -/
def hashSei (e : EncBank) (samples : List Nat) : List Byte :=
  let y := codedSize e.width * codedSize e.height
  let c := if e.chroma = 1 then y / 2 else y / 4
  let plane := fun (at_ n : Nat) => beBytes 2 (planeCrc 10 ((List.range n).map (fun i => samples.getD (at_ + i) 0 % 1024)))
  nalHeader 40 ++ [BitVec.ofNat 8 hashPayload, 7, 1] ++ plane 0 y ++ plane y c ++ plane (y + c) c ++ [0x80]

/-- The gaps of a picture's syntax. -/
def gapsOf (words : List Nat) (model : Nat) (idr : Bool) : Nat → List Bool := Config.encOpen words model idr

/-- The rows of each slice: its first row and their number (R275). -/
def EncBank.sliceRows (e : EncBank) : List (Nat × Nat) :=
  let per := if e.rowsPerSlice = 0 then e.rows else e.rowsPerSlice
  (List.range e.slices).map (fun i => (per * i, min per (e.rows - per * i)))

/-- The bytes of a part before the slices, and of a slice segment header. -/
def headPart (e : EncBank) (words : List Nat) (model : Nat) (idr : Bool) (ty : Nat) : List Byte :=
  nalHeader ty ++ bytesOfBits (headBits e words (gapsOf words model idr) ty)
@[inherit_doc headPart] def slicePart (e : EncBank) (words : List Nat) (model : Nat) (idr : Bool) (poc row : Nat) (sizes : List Nat) :
    List Byte :=
  nalHeader (if idr then 20 else 1) ++ bytesOfBits (sliceBits e words (gapsOf words model idr) idr poc (row * e.cols) sizes)

/-- H of R292. Entry points take 32 bits each, so their values do not matter. -/
def headBytes (e : EncBank) (words : List Nat) (model : Nat) (idr : Bool) (poc : Nat) : Nat :=
  ((headKinds idr).map (fun t => 4 + (headPart e words model idr t).length)).sum
    + (e.sliceRows.map (fun r => 4 + (slicePart e words model idr poc r.1 (List.replicate r.2 1)).length)).sum
    + (if e.hash then 4 + hashSeiLen else 0)

/-- The sizes of the substreams of a slice as its NAL unit holds them, emulation prevention bytes among them. -/
def substreamSizes (rows : List EncRow) : List Nat :=
  let upTo := fun (n : Nat) => (emulate 0 ((rows.take n).flatMap (fun r => r.bytes))).length
  (List.range rows.length).map (fun i => upTo (i + 1) - upTo i)

/-- What the decoding process needs of coded rows. -/
def rowCodes (rows : List EncRow) : List (Int × List CtuCode) := rows.map (fun r => (r.qp, r.codes))

/-- The access unit of a picture, from its rows in order. -/
def accessUnit (e : EncBank) (words : List Nat) (model : Nat) (idr : Bool) (poc : Nat) (rows : List EncRow) : List Byte :=
  (headKinds idr).flatMap (fun t => nalUnit (headPart e words model idr t))
    ++ e.sliceRows.flatMap (fun r =>
      let mine := (rows.drop r.1).take r.2
      nalUnit (slicePart e words model idr poc r.1 (substreamSizes mine) ++ mine.flatMap (fun q => q.bytes)))
    ++ (if e.hash then nalUnit (hashSei e (Config.encRecon words model idr (rowCodes rows))) else [])

/-! ## What an access unit says (R273, R297, R301) -/

/-- The largest numbers of tile columns and rows at Level 6.2 (R274). [assumption 33, PRESUMED] -/
def maxTileCols : Nat := 20
@[inherit_doc maxTileCols] def maxTileRows : Nat := 22

/-- Whether a parameter set is taken, after the units before it: it parses, with values in their ranges, and its tiles keep to
Level 6.2 (R274, R301). Units of other types are taken. -/
def paramsOk (ctx : Nat) (us : List (List Byte)) (n : List Byte) : Bool :=
  let q := Config.decParams ctx us n
  if 32 ≤ nalType n ∧ nalType n ≤ 34 then
    q 0 % 2 = 1 && (nalType n != 34 || (decide (q 1 ≤ maxTileCols) && decide (q 2 ≤ maxTileRows)))
  else true

/-- The NAL units of an access unit that the decoder does not ignore (R301): one with a bad header, or a parameter set that
cannot be taken, is ignored, and what was held stays in force. -/
def usable (ctx : Nat) (au : List Byte) : List (List Byte) :=
  (nalUnits au).foldl (fun us n => if nalHeaderOk n && paramsOk ctx us n then us ++ [n] else us) []

/-- What a slice segment says. -/
structure SegInfo where
  /-- Its header has every value in its range, names a known PPS and SPS, and its entry points lie inside the data. -/
  header : Bool
  known : Bool
  entries : Bool
  first : Bool
  dependent : Bool
  /-- `slice_segment_address`. -/
  address : Nat
  /-- Coding tree units that its data gives before a syntax fault, and whether it ends at `end_of_slice_segment_flag`. -/
  units : Nat
  ends : Bool
deriving DecidableEq, Repr

/-- The slice segment with a number among the NAL units. [assumption 33, PRESUMED] -/
def segInfo (ctx : Nat) (us : List (List Byte)) (j : Nat) : SegInfo :=
  let q := Config.decSegment ctx us j
  ⟨q 0 % 2 = 1, q 1 % 2 = 1, q 2 % 2 = 1, q 3 % 2 = 1, q 4 % 2 = 1, q 5, q 6, q 7 % 2 = 1⟩

/-- The numbers of the slice segments among the NAL units. [assumption 33, PRESUMED] -/
def segmentsOf (us : List (List Byte)) : List Nat := (List.range us.length).filter (fun j => decide (nalType (us.getD j []) < 32))

/-- The questions put to the parsing process about an access unit. -/
structure DecInfo where
  /-- It has a decodable slice segment whose PPS and SPS are known. -/
  picture : Bool
  nal : Nat
  profile : Nat
  /-- Constraint flags of profile 4: 1 Main 12, 2 Main 4:2:2 10, 3 Main 4:2:2 12, 0 any other. -/
  constraint : Nat
  level : Nat
  chroma : Nat
  depthY : Nat
  depthC : Nat
  width : Nat
  height : Nat
  /-- The conformance window, which lies inside the picture. -/
  cropX : Nat
  cropY : Nat
  cropW : Nat
  cropH : Nat
  dpbMinus1 : Nat
  reorder : Nat
  latencyPlus1 : Nat
  ctbLog2 : Nat
  outputFlag : Bool
  noPrior : Bool
  afterEos : Bool
  poc : Int
deriving DecidableEq, Repr

/-- The answers of the parsing process. -/
def decInfo (ctx : Nat) (us : List (List Byte)) : DecInfo :=
  let q := Config.decInfo ctx us
  let seg := (segmentsOf us).find? (fun j => let i := segInfo ctx us j; i.header && i.known)
  let x := min (q 10) (q 8)
  let y := min (q 11) (q 9)
  { picture := seg.isSome, nal := (seg.map (fun j => nalType (us.getD j []))).getD 0, profile := q 2, constraint := q 3, level := q 4
    chroma := q 5 % 4, depthY := q 6, depthC := q 7, width := q 8, height := q 9
    cropX := x, cropY := y, cropW := min (q 12) (q 8 - x), cropH := min (q 13) (q 9 - y)
    dpbMinus1 := q 14, reorder := q 15, latencyPlus1 := q 16, ctbLog2 := q 17, outputFlag := q 18 % 2 = 1
    noPrior := q 19 % 2 = 1, afterEos := q 20 % 2 = 1
    poc := Config.decPoc ctx us }

/-- IRAP, RASL, IDR or BLA pictures by `nal_unit_type` (H.265). [assumption 33, PRESUMED] -/
def irapNal (n : Nat) : Bool := decide (16 ≤ n) && decide (n ≤ 23)
@[inherit_doc irapNal] def raslNal (n : Nat) : Bool := n = 8 || n = 9
@[inherit_doc irapNal] def craNal (n : Nat) : Bool := n = 21

/-- The rows and columns of coding tree units of a decoded picture. -/
def DecInfo.rows (i : DecInfo) : Nat := ceilDiv i.height (2 ^ i.ctbLog2)
@[inherit_doc DecInfo.rows] def DecInfo.cols (i : DecInfo) : Nat := ceilDiv i.width (2 ^ i.ctbLog2)

/-- Components of a picture. -/
def DecInfo.comps (i : DecInfo) : Nat := if i.chroma = 0 then 1 else 3

/-- Whether the profile, tier, level and bit depths are among those of R273. -/
def DecInfo.profileOk (i : DecInfo) : Bool :=
  let depths := fun (lo hi : Nat) => decide (lo ≤ i.depthY) && decide (i.depthY ≤ hi) && decide (lo ≤ i.depthC) && decide (i.depthC ≤ hi)
  decide (i.level ≤ 186) && (match i.profile with
    | 1 => i.chroma = 1 && depths 8 8
    | 2 => i.chroma = 1 && depths 8 10
    | 4 => match i.constraint with
      | 1 => decide (i.chroma ≤ 1) && depths 8 12
      | 2 => (i.chroma = 1 || i.chroma = 2) && depths 8 10
      | 3 => decide (i.chroma ≤ 2) && depths 8 12
      | _ => false
    | _ => false)

/-- The lines that a cropped picture takes in an output buffer (R298). -/
def outLinesOf (chroma h : Nat) : Nat := match chroma with | 0 => h | 1 => h + h / 2 | _ => 2 * h

/-- Whether a session can decode with the active SPS (R301). -/
def DecInfo.supported (i : DecInfo) (h : Shape) (b : SMap Word) (k bufSize quota : Nat) : Bool :=
  let pitch := bankFld b (F.HEVC_SES_OUT_PITCH_out_pitch k) * 64
  let stride := bankFld b (F.HEVC_SES_OUT_STRIDE_out_stride k) * 4096
  i.profileOk && decide (i.width ≤ h.dimA) && decide (i.height ≤ h.dimB) && decide (i.width ≤ 16888)
    && decide (i.height ≤ 16888) && decide (i.width * i.height ≤ 35651584)
    && decide (pictureNeed i.width i.height i.chroma ≤ bufSize) && decide (i.dpbMinus1 + 2 ≤ quota)
    && (i.chroma != 2 || h.format.testBit 1) && ((decide (i.depthY ≤ 10) && decide (i.depthC ≤ 10)) || h.format.testBit 2)
    && decide (2 * i.cropW ≤ pitch) && decide (pitch * outLinesOf i.chroma i.cropH ≤ stride)

/-! ## Slice segments (R274, R301, R303) -/

/-- `RawCtuBits`, the bits of a coding tree unit's samples. [assumption 33, PRESUMED] -/
def DecInfo.rawCtuBits (i : DecInfo) : Nat :=
  let n := 2 ^ i.ctbLog2 * 2 ^ i.ctbLog2
  n * i.depthY + (match i.chroma with | 0 => 0 | 1 => n / 2 | 2 => n | _ => 2 * n) * i.depthC

/-- The most slice segments of a picture (R274). -/
def maxSegments : Nat := 600

/-- The bins after which a picture's entropy decoding stops (R303). -/
def DecInfo.maxBins (i : DecInfo) : Nat := 8 * i.rawCtuBits * (i.rows * i.cols)

/-- Coding tree units of a slice segment, decoded until one breaks a limit: one of more than 5 x RawCtuBits / 3 bits, one
whose bins pass the picture's limit, or one beyond the picture (R301, R303). `fact` gives the bits and the bins of the unit
with a number. Answers the bins so far, and how many units were decoded of the `left` that follow number `n`. -/
def ctuWalk (i : DecInfo) (fact : Nat → Nat → Nat) (address : Nat) : (left n bins : Nat) → Nat × Nat
  | 0, _, bins => (bins, 0)
  | left + 1, n, bins =>
    let more := bins + fact n 1
    if i.maxBins < more then (more, 0)
    else if 5 * i.rawCtuBits < 3 * fact n 0 ∨ i.rows * i.cols ≤ address + n then (bins, 0)
    else
      let r := ctuWalk i fact address left (n + 1) more
      (r.1, r.2 + 1)

/-- The decoding of a picture's slice segments so far. -/
structure SegWalk where
  /-- Segments met, and whether one with `first_slice_segment_in_pic_flag` 1 was decoded. -/
  met : Nat
  first : Bool
  /-- The address of the last decoded segment. -/
  last : Option Nat
  /-- Whether a dependent segment may follow: no segment since the last independent one was abandoned. -/
  chain : Bool
  bins : Nat
  /-- The addresses in tile scan of the decoded coding tree units. -/
  got : List Nat
deriving DecidableEq, Repr

/-- The next slice segment (R301). It is discarded if its header has a fault, its address is outside the picture or not above
the last, it is a second first one, it is beyond the 600th, it depends on an abandoned one, or the bins have run out; else
it is decoded up to its first fault. A fault leaves dependent segments without the one they depend on. -/
def SegWalk.next (i : DecInfo) (ctx : Nat) (us : List (List Byte)) (w : SegWalk) (j : Nat) : SegWalk :=
  let g := segInfo ctx us j
  let above := match w.last with
    | some a => decide (a < g.address)
    | none => true
  let taken := g.header && g.known && g.entries && above && decide (g.address < i.rows * i.cols) && !(g.first && w.first)
    && decide (w.met < maxSegments) && (!g.dependent || w.chain) && decide (w.bins ≤ i.maxBins)
  if taken then
    let r := ctuWalk i (Config.decCtu ctx us j) g.address g.units 0 w.bins
    ⟨w.met + 1, w.first || g.first, some g.address, decide (r.2 = g.units) && g.ends, r.1,
      w.got ++ (List.range r.2).map (· + g.address)⟩
  else { w with met := w.met + 1, chain := false }

/-- The raster addresses of the coding tree units of a picture that are not decoded (R301). -/
def lostUnits (i : DecInfo) (ctx : Nat) (us : List (List Byte)) : List Nat :=
  let w := (segmentsOf us).foldl (SegWalk.next i ctx us) ⟨0, false, none, false, 0, []⟩
  let got := w.got.map (Config.decScan ctx us)
  (List.range (i.rows * i.cols)).filter (fun a => !got.contains a)

/-! ## Samples (R298, R302) -/

/-- Chroma width and height of a picture. -/
def chromaW (chroma w : Nat) : Nat := if chroma = 0 then 0 else w / 2
@[inherit_doc chromaW] def chromaH (chroma h : Nat) : Nat := if chroma = 0 then 0 else if chroma = 1 then h / 2 else h

/-- Whether two frames have one size, chroma format and bit depths. -/
def DecFrame.alike (a b : DecFrame) : Bool :=
  a.width = b.width && a.height = b.height && a.chroma = b.chroma && a.depthY = b.depthY && a.depthC = b.depthC

/-- The frame of an access unit as the decoding process gives it, its samples cut into planes. -/
def decFrame (i : DecInfo) (l : List Nat) : DecFrame :=
  let y := i.width * i.height
  let c := chromaW i.chroma i.width * chromaH i.chroma i.height
  let fit := fun (n : Nat) (d : Nat) (l : List Nat) => ((l ++ List.replicate n 0).take n).map (· % 2 ^ d)
  ⟨i.width, i.height, i.chroma, i.depthY, i.depthC,
    if i.chroma = 0 then [fit y i.depthY l]
    else [fit y i.depthY l, fit c i.depthC (l.drop y), fit c i.depthC (l.drop (y + c))]⟩

/-- The previous frame where it has the size, chroma format and bit depths of a frame, else a mid-grey one (R302). -/
def standIn (f : DecFrame) (prev : Option DecFrame) : DecFrame :=
  let grey : DecFrame := { f with planes := f.planes.zipIdx.map (fun e =>
    e.1.map (fun _ => 2 ^ ((if e.2 = 0 then f.depthY else f.depthC) - 1))) }
  match prev with
  | some p => if p.alike f then p else grey
  | none => grey

/-- The samples of one frame inside the listed coding tree units, and of another elsewhere. -/
def pickUnits (f inside outside : DecFrame) (ctbLog2 : Nat) (units : List Nat) : DecFrame :=
  let cols := ceilDiv f.width (2 ^ ctbLog2)
  { f with planes := f.planes.zipIdx.map (fun e =>
      let w := if e.2 = 0 then f.width else chromaW f.chroma f.width
      let a := (inside.planes.getD e.2 []).toArray
      let b := (outside.planes.getD e.2 []).toArray
      (List.range e.1.length).map (fun n =>
        let x := n % max 1 w
        let y := n / max 1 w
        let lx := if e.2 = 0 then x else 2 * x
        let ly := if e.2 = 0 then y else if f.chroma = 1 then 2 * y else y
        if units.contains (ly >>> ctbLog2 * cols + lx >>> ctbLog2) then a.getD n 0 else b.getD n 0)) }

/-- The frame of an access unit from its reference pictures (R302): the listed coding tree units concealed, then deblocking
and SAO everywhere but inside them and on their edges. -/
def decodeFrame (i : DecInfo) (ctx : Nat) (us : List (List Byte)) (refs : List (Int × List Nat)) (prev : Option DecFrame)
    (lost : List Nat) : DecFrame :=
  let f := decFrame i (Config.decSamples ctx us refs)
  let f := pickUnits f (standIn f prev) f i.ctbLog2 lost
  pickUnits f f (decFrame i (Config.decFilter ctx us f.planes.flatten lost)) i.ctbLog2 lost

/-- Whether a decoded picture hash of an access unit differs from the decoded picture (R276). -/
def hashBad (f : DecFrame) (comps : Nat) (us : List (List Byte)) : Bool :=
  (seiUnits comps us).any (fun u => u.1 && (u.2.getD []).any (fun m => m.1 = hashPayload && (match m.2 with
    | [] => false
    | b :: r => match hashSize b.toNat with
      | some n => f.planes.zipIdx.any (fun p =>
          slice r (n * p.2) n != planeHash b.toNat (if p.2 = 0 then f.depthY else f.depthC)
            (if p.2 = 0 then f.width else chromaW f.chroma f.width) p.1)
      | none => false)))

/-- The malformed SEI NAL units of an access unit (R276). -/
def seiBad (comps : Nat) (us : List (List Byte)) : Nat := ((seiUnits comps us).filter (fun u => u.2.isNone)).length

/-- The lines of a cropped picture in an output buffer: line number and samples (R298). -/
def outputLines (f : DecFrame) (crop : Nat × Nat × Nat × Nat) : List (List Nat) :=
  let planes := (f.planes.map List.toArray).toArray
  let px := fun (p w x y : Nat) => (planes.getD p #[]).getD (y * w + x) 0
  let luma := (List.range crop.2.2.2).map (fun y => (List.range crop.2.2.1).map (fun x =>
    px 0 f.width (crop.1 + x) (crop.2.1 + y)))
  let cw := chromaW f.chroma f.width
  let cx := crop.1 / 2
  let cy := if f.chroma = 1 then crop.2.1 / 2 else crop.2.1
  luma ++ (List.range (chromaH f.chroma crop.2.2.2)).map (fun y => (List.range (chromaW f.chroma crop.2.2.1)).flatMap (fun x =>
    [px 1 cw (cx + x) (cy + y), px 2 cw (cx + x) (cy + y)]))

/-- The bytes that a decode session's digest covers (R102). [assumption 34, DEDUCED] -/
def frameBytes (f : DecFrame) : List Byte := f.planes.flatMap (fun p => p.flatMap (leBytes 2))

/-! ## The output process of Annex C.5.2 of H.265 (R297, assumption 33) -/

/-- The waiting picture that comes first in output order. -/
def firstOut (l : List DecPic) : Option DecPic :=
  (l.filter (fun p => p.wait)).foldl (fun (m : Option DecPic) p => match m with
    | some q => if p.poc < q.poc then some p else some q
    | none => some p) none

/-- Whether another picture has to be output: too many wait, or one has waited too long. [assumption 33, PRESUMED] -/
def mustBump (l : List DecPic) (reorder latencyPlus1 : Nat) : Bool :=
  let w := l.filter (fun p => p.wait)
  decide (reorder < w.length) || (latencyPlus1 != 0 && w.any (fun p => decide (reorder + latencyPlus1 - 1 ≤ p.latency)))

end Sys2Proof.Machine
end

