-- ==== Sys2Proof/Machine/Hevc.lean ====
section
/-! DEFINITION. Chapter 07, the picture coding engine: sessions, parameter generations, the reference pool, encoding,
decoding, records and resets (R277 to R309). -/
namespace Sys2Proof.Machine

/-! ## Sessions -/

/-- Generation 0, with every banked register at its reset value. -/
def HevcGen.zero : HevcGen := ⟨0, []⟩

/-- A session after a reset. -/
def HevcSes.clear : HevcSes :=
  ⟨.zero, [], 0, 0, 0, 0, 0, 0, true, [], 0, none, false, none, [], true, false, [], none, [], 0, false⟩

/-- A session. -/
def State.ses (s : State) (k : Nat) : HevcSes := mapGet HevcSes.clear s.hevc.ses k

/-- A session changed. -/
def State.setSes (s : State) (k : Nat) (x : HevcSes) : State := { s with hevc := { s.hevc with ses := mapSet s.hevc.ses k x } }

/-- The timestamp of a token (R13). -/
def tokenStamp (t : Token) : Nat := tokenField t 191 128 * 1000000000 + tokenField t 223 192

/-- Whether a session has a picture, an input or a record in hand. -/
def HevcSes.busy (x : HevcSes) : Bool := x.pic.isSome || x.hold.isSome || !x.recs.isEmpty

/-- Whether the input that a session's strand delivers next belongs to a replaced configuration (R63). -/
def State.sesFrontOld (s : State) (k : Nat) : Bool :=
  match s.strandTo .hevc k with
  | some (id, _) => match s.strandStream id with
    | t :: _ => (tokenField t 7 0 = 1 || tokenField t 7 0 = 5) && s.frameOld id (tokenStamp t)
    | [] => false
  | none => false

/-- The shape that governs a session's work (R277): that of a replaced configuration while it has work of that
configuration (R63). -/
def State.sesShape (s : State) (k : Nat) : Option Shape :=
  match s.rig.before with
  | some im => if (s.isOld 11 k && (s.ses k).busy) || s.sesFrontOld k then shapeIn im.bodies 11 k else s.shape 11 k
  | none => s.shape 11 k

/-- Direction and feed of a shape (R277). -/
def Shape.decodes (h : Shape) : Bool := decide (h.format % 2 = 1)
@[inherit_doc Shape.decodes] def Shape.byStrand (h : Shape) : Bool := decide (h.format / 8 % 2 = 1)

/-- Whether a generation of a session runs (R284). -/
def genRuns (g : HevcGen) (k : Nat) : Bool := bankBit g.regs (F.HEVC_SES_MODE_run k)

/-- Regions of HEVC unit k, or HOST. -/
def hevcOwn (k o u : Nat) : Bool := (o = 11 && u = k) || o = 5

/-- The ring size of a session in entries (R299, R300). -/
def State.sesRing (s : State) (k : Nat) : Nat := 2 ^ s.fld (F.HEVC_SES_RING_SIZE_log_size k)

/-- A record event of a session (R300). -/
def State.hevcEvent (s : State) (k : Nat) : State := s.put ⟨R.HEVC_EVT (k / 32), k % 32, k % 32⟩ 1

/-! ## The reference pool (R285 to R288) -/

/-- The marks of a buffer: CURRENT, SHORT_REF, LONG_REF and OUTPUT_WAIT. -/
def markCurrent : Nat := 1
@[inherit_doc markCurrent] def markShort : Nat := 2
@[inherit_doc markCurrent] def markLong : Nat := 4
@[inherit_doc markCurrent] def markOut : Nat := 8

/-- The buffers that a session holds. -/
def State.heldBufs (s : State) (k : Nat) : List Nat :=
  (List.range 512).filter (fun n =>
    let m := s.rd (R.HEVC_POOL_MARK n)
    m % 16 != 0 && bitsOf m 13 8 = k)

/-- `free` shown again (R307). [assumption 34, DEDUCED] -/
def State.poolFree (s : State) : State :=
  let free := ((List.range (min 512 (s.fld F.HEVC_POOL_COUNT_count))).filter (fun n => s.rd (R.HEVC_POOL_MARK n) % 16 = 0)).length
  s.put F.HEVC_POOL_STATUS_free (if s.bit F.HEVC_POOL_CTRL_enable then free else 0)

/-- HELD and `free` shown again. -/
def State.poolCounts (s : State) (k : Nat) : State := (s.put (F.HEVC_SES_HELD_held k) (s.heldBufs k).length).poolFree

/-- The marks of a buffer that a session holds or takes changed: some set, some cleared. A buffer whose last mark clears is
free at once (R288). -/
def State.markBuf (s : State) (k n set clear : Nat) : State :=
  let old := s.rd (R.HEVC_POOL_MARK n)
  let m := (old % 16 ||| set) &&& (15 ^^^ clear)
  if n < 512 ∧ (old % 16 = 0 ∨ bitsOf old 13 8 = k) then (s.wr (R.HEVC_POOL_MARK n) (if m = 0 then 0 else m + 256 * k)).poolCounts k
  else s

/-- The buffer that a session takes: the lowest-numbered free one, within its quota (R288). -/
def State.takeBuf (s : State) (k : Nat) : Option Nat :=
  if s.fld (F.HEVC_SES_QUOTA_quota k) ≤ (s.heldBufs k).length then none
  else (List.range (min 512 (s.fld F.HEVC_POOL_COUNT_count))).find? (fun n => s.rd (R.HEVC_POOL_MARK n) % 16 = 0)

/-- Whether any session's active bank has `run` 1. -/
def State.anyRuns (s : State) : Bool := s.hevc.ses.any (fun e => genRuns e.2.active e.1)

/-- The bytes of a pool buffer. -/
def State.bufBytes (s : State) : Nat := s.fld F.HEVC_POOL_BUF_SIZE_buf_size * 4096

/-- The base of a pair of address fields. -/
def State.base2 (s : State) (lo hi : Fld) : Nat := s.fld lo * 2 ^ 12 + s.fld hi * 2 ^ 32

/-- The pool's base. -/
def State.poolBase (s : State) : Nat := s.base2 F.HEVC_POOL_BASE_LO_base_lo F.HEVC_POOL_BASE_HI_base_hi

/-- Whether the pool's settings meet R285. -/
def State.poolOk (s : State) : Bool :=
  let n := s.fld F.HEVC_POOL_COUNT_count
  decide (1 ≤ n) && decide (n ≤ 512) && s.bufBytes != 0
    && s.userRegion s.poolBase (n * s.bufBytes) (fun o u => o = 11 && u = 64)

/-- A write of one of the pool's settings (R286). -/
def State.hevcPoolWrite (s : State) (off v : Nat) : State :=
  if s.anyRuns then s.put F.HEVC_POOL_STATUS_bad_cfg 1
  else if off = R.HEVC_POOL_CTRL then
    if v % 2 = 1 then
      if s.poolOk then (s.put F.HEVC_POOL_CTRL_enable 1).poolCounts 0 else s.put F.HEVC_POOL_STATUS_bad_cfg 1
    else
      -- disabling clears every mark (R288)
      let s := s.put F.HEVC_POOL_CTRL_enable 0
      let s := (List.range 512).foldl (fun s n => if s.rd (R.HEVC_POOL_MARK n) = 0 then s else s.wr (R.HEVC_POOL_MARK n) 0) s
      -- a picture that still waits to be recorded has no buffer any more
      let s : State := { s with hevc := ⟨s.hevc.ses.map (fun e => (e.1, { e.2 with
        refs := [], dpb := [], recs := e.2.recs.map (fun r => { r with pic := r.pic.map (fun p => { p with buf := 512 }) }) }))⟩ }
      (List.range 64).foldl (fun s k => if s.fld (F.HEVC_SES_HELD_held k) = 0 then s else s.poolCounts k) (s.poolCounts 0)
  else (s.regWrite off v).poolFree

/-- A write of HEVC_SESs_QUOTA (R287). -/
def State.hevcQuota (s : State) (k v : Nat) : State :=
  let q := v % 1024
  let sum := ((List.range 64).map (fun j => if j = k then q else s.fld (F.HEVC_SES_QUOTA_quota j))).sum
  if 512 < q ∨ s.fld F.HEVC_POOL_COUNT_count < sum ∨ (genRuns (s.ses k).active k = true ∧ q < (s.heldBufs k).length) then
    s.put F.HEVC_POOL_STATUS_quota_busy 1
  else (s.put (F.HEVC_SES_QUOTA_quota k) q).put F.HEVC_POOL_STATUS_quota_sum sum

/-! ## Commits and bindings (R282 to R284) -/

/-- Codes of `commit_state` (R308). -/
def commitRefusal (l : List (Bool × Nat)) : Option Nat := firstFail l

/-- The checks of R282 on a bank, in order: the code of the first failure. -/
def State.hevcChecks (s : State) (k : Nat) (h : Shape) (b : SMap Word) : Option Nat :=
  let e := encBank b k
  let enc := !h.decodes
  let even := fun (x m : Nat) => x % 2 = 0 && decide (16 ≤ x) && decide (x ≤ m)
  let bs := bankFld b (F.HEVC_SES_BS_SIZE_bs_size k) * 4096
  let bsBase := bankAddr2 b (F.HEVC_SES_BS_LO_base_lo k) (F.HEVC_SES_BS_HI_base_hi k)
  let outBase := bankAddr2 b (F.HEVC_SES_OUT_LO_base_lo k) (F.HEVC_SES_OUT_HI_base_hi k)
  let bufs := bankFld b (F.HEVC_SES_OUT_BUF_out_bufs k)
  let pitch := bankFld b (F.HEVC_SES_OUT_PITCH_out_pitch k) * 64
  let stride := bankFld b (F.HEVC_SES_OUT_STRIDE_out_stride k) * 4096
  let ringsOk := s.userRegion (s.base2 (F.HEVC_SES_CQ_LO_base_lo k) (F.HEVC_SES_CQ_HI_base_hi k)) (32 * s.sesRing k) (hevcOwn k)
    && (h.byStrand || s.userRegion (s.base2 (F.HEVC_SES_SQ_LO_base_lo k) (F.HEVC_SES_SQ_HI_base_hi k)) (32 * s.sesRing k) (hevcOwn k))
  commitRefusal [
    (enc && !(even e.width h.dimA && even e.height h.dimB && (e.chroma = 0 || h.format.testBit 1)
      && decide (1 ≤ e.refs) && decide (e.refs ≤ 4)
      && decide (pictureNeed e.width e.height (1 + e.chroma) ≤ s.bufBytes)), 4),
    (enc && !(decide (4096 + e.rows * fillBound e.width ≤ e.cap) && decide (e.cap ≤ 67108864)
      && decide (e.cap + e.cap / 2 + 4096 ≤ bs)), 3),
    (!enc && !(decide (1 ≤ bufs) && decide (bufs ≤ 4) && decide (2 * h.dimA ≤ pitch) && decide (pitch * h.dimB * 2 ≤ stride)), 3),
    (!s.userRegion (if enc then bsBase else outBase) (if enc then bs else bufs * stride) (hevcOwn k), 5),
    (e.run && !ringsOk, 5),
    (enc && !(decide (-12 ≤ e.qpMin) && decide (e.qpMin ≤ e.qpBase) && decide (e.qpBase ≤ e.qpMax) && decide (e.qpMax ≤ 51)
      && decide (-12 ≤ e.qpIOff) && decide (e.qpIOff ≤ 12) && decide (e.level ≤ 186)), 6),
    (e.run && h.byStrand && (s.strandTo .hevc k).isNone, 7),
    (e.run && decide (s.fld (F.HEVC_SES_QUOTA_quota k) < (if enc then e.refs + 2 else 2)), 8)]
where
  /-- An address in a bank. -/
  bankAddr2 (b : SMap Word) (lo hi : Fld) : Nat := bankFld b lo * 2 ^ 12 + bankFld b hi * 2 ^ 32

/-- A commit of a session (R282). -/
def State.hevcCommit (s : State) (k : Nat) : State :=
  match s.shape 11 k with
  | none => s.shapeMiss
  | some h =>
    let b := s.snap (R.HEVC_SES_SIZE k) (R.HEVC_SES_OUT_STRIDE k + 4)
    match s.hevcChecks k h b with
    | some code => s.put (F.HEVC_SES_STATUS_commit_state k) code
    | none =>
      let g := (s.fld (F.HEVC_SES_GEN_PEND_value k) + 1) % 2 ^ 32
      let x := s.ses k
      let new : HevcGen := ⟨g, b⟩
      let pend := if s.follows 7 s.nowNs then (x.pend ++ [new]).drop ((x.pend.length + 1) - 4) else [new]
      ((s.setSes k { x with pend := pend }).put (F.HEVC_SES_GEN_PEND_value k) g).put (F.HEVC_SES_STATUS_commit_state k) 1

/-- The generation at a place of the pending ones becomes active. -/
def State.hevcBind (s : State) (k i : Nat) : State :=
  let x := s.ses k
  match x.pend[i]? with
  | none => s
  | some g =>
    let rest := x.pend.drop (i + 1)
    let a := encBank x.active.regs k
    let b := encBank g.regs k
    let idr := !a.run || b.idrReq || a.width != b.width || a.height != b.height || a.chroma != b.chroma || a.gop != b.gop
      || a.refs != b.refs
    let s := s.setSes k { x with
      active := g, pend := rest, needIdr := x.needIdr || idr, waitIrap := x.waitIrap || !a.run }
    let s := s.put (F.HEVC_SES_GEN_value k) g.num
    let s := if rest.isEmpty then s.put (F.HEVC_SES_STATUS_commit_state k) 2 else s
    s.flag (F.HEVC_SES_STATUS_running k) (genRuns g k)

/-- The binding of a session's picture is settled: its entry when the generation changed (R283). -/
def State.hevcNoted (s : State) (k how : Nat) : State :=
  let x := s.ses k
  let g := x.active.num
  let s := if how = 2 then s.overrideWrite 7 3 k x.pics g 0 0
    else if how = 0 ∧ g ≠ x.lastGen then s.jnlWrite 7 3 k x.pics g 0 0 false false else s
  (s.setSes k { s.ses k with lastGen := g }).unblock 7 3 k x.pics

/-- Whether R108 makes the decisions about an input this unit's own. -/
def State.ownInput (s : State) (inp : HevcIn) : Bool := s.ownCamera (if inp.strand then inp.stamp else s.nowNs)

/-- The instant of the decisions about an input, which wait under a key (R104). -/
def State.inputTime (s : State) (inp : HevcIn) (kind target k n : Nat) : Nat :=
  if inp.strand then inp.stamp else s.pointTime kind target k n

/-- The binding of the next picture: how it was decided, or `none` where the session blocks (R283, R105, R581).
[assumption 34, DEDUCED] -/
def State.hevcDecide (s : State) (k : Nat) (inp : HevcIn) (force : Bool) : State × Option Nat :=
  let x := s.ses k
  let newest := fun (s : State) => s.hevcBind k (x.pend.length - 1)
  match s.ruling 7 3 k x.pics (s.inputTime inp 7 3 k x.pics) (some (3, k)) (s.ownInput inp) with
  | .locally => ((newest s).hevcNoted k 0, some 0)
  | .nothing => (s.hevcNoted k 3, some 3)
  | .entry e =>
    match x.pend.findIdx? (fun p => p.num = e.a) with
    | some i => (((s.replay e).hevcBind k i).hevcNoted k 1, some 1)
    | none =>
      if e.a = x.active.num then ((s.replay e).hevcNoted k 1, some 1)
      else if laterThan 32 e.a (s.fld (F.HEVC_SES_GEN_PEND_value k)) ∧ force = false then (s.block 7 3 k x.pics s.nowNs, none)
      else ((newest s).hevcNoted k 2, some 2)
  | .wait => if force then ((newest s).hevcNoted k 2, some 2) else (s.block 7 3 k x.pics s.nowNs, none)

/-! ## Taking a picture or an access unit (R284, R290, R296, R297, R301) -/

/-- A record queued (R300). -/
def State.queueRec (s : State) (k : Nat) (r : HevcRec) : State :=
  let x := s.ses k
  s.setSes k { x with recs := x.recs ++ [r] }

/-- A record with no output. -/
def plainRec (inp : HevcIn) (id status rkind num pflags : Nat) (qp : Int) (gen : HevcGen) (poc : Int) : HevcRec :=
  ⟨id, status, rkind, num, pflags, qp, gen, inp.irq || inp.strand, poc, 0, none, none, ⟨false, false, false⟩⟩

/-- The record of a descriptor or an input that is refused, which has no picture count, QP, access unit or picture:
the spec states nothing for those fields, and they hold free values (R300). [assumption 34, DEDUCED] -/
def State.refusedRec (s : State) (inp : HevcIn) (id status : Nat) (gen : HevcGen) : HevcRec × State :=
  let v := fun (i : Nat) => Config.freeValue (s.freeCtr + i)
  ({ plainRec inp id status 3 (v 0 % 2 ^ 32) 0 (v 1 % 256) gen (v 2 % 2 ^ 32) with lost := v 3 % 2 ^ 32 },
    { s with freeCtr := s.freeCtr + 4 })

/-- The references of an encode session before an IDR picture are let go. -/
def State.dropRefs (s : State) (k : Nat) (l : List Nat) : State := l.foldl (fun s n => s.markBuf k n 0 markShort) s

/-- The picture that comes first in output order goes out: its record is queued with it (R297, R298). -/
def State.bump1 (s : State) (k : Nat) : State :=
  let x := s.ses k
  match firstOut x.dpb with
  | none => s
  | some p =>
    (s.setSes k { x with dpb := x.dpb.map (fun q => if q.buf = p.buf then { q with wait := false } else q) }).queueRec k
      ⟨p.id, 0, 2, p.num, p.pflags, p.nal, p.gen, p.irq, p.poc, p.lost, none, some p, ⟨false, false, false⟩⟩

/-- Pictures that no reference and no output needs leave the decoded picture buffer. -/
def State.pruneDpb (s : State) (k : Nat) : State :=
  let x := s.ses k
  s.setSes k { x with dpb := x.dpb.filter (fun q => q.wait || bitsOf (s.rd (R.HEVC_POOL_MARK q.buf)) 2 1 != 0) }

/-- Pictures go out while a test asks for it. -/
def State.bumpWhile (k : Nat) (test : List DecPic → Bool) : Nat → State → State
  | 0, s => s
  | n + 1, s => if test (s.ses k).dpb && (firstOut (s.ses k).dpb).isSome then State.bumpWhile k test n ((s.bump1 k).pruneDpb k) else s

/-- The output process and the reference marking of a decoded picture, done when it is taken, so that its first row can find a
buffer; and the substitutes for references that are missing (R297, R302). A substitute that stays is not made again.
[assumption 33, PRESUMED] -/
def State.decodePrepare (s : State) (k : Nat) (p : HevcPic) : State :=
  let x := s.ses k
  let us := usable x.ctx p.inp.au
  let i := decInfo x.ctx us
  let n := x.dpb.length
  if p.idr then
    let s := if craNal i.nal || i.noPrior then
        -- pictures that will not be output are recorded without a buffer (assumption 33)
        (x.dpb.filter (fun q => q.wait)).foldl (fun s q =>
          ((s.markBuf k q.buf 0 markOut).setSes k { s.ses k with dpb := (s.ses k).dpb.map (fun r =>
            if r.buf = q.buf then { r with wait := false } else r) }).queueRec k
            ⟨q.id, 0, 2, q.num, q.pflags, q.nal, q.gen, q.irq, q.poc, q.lost, none, none, ⟨false, false, false⟩⟩) s
      else State.bumpWhile k (fun _ => true) n s
    let s := (x.dpb.foldl (fun s q => s.markBuf k q.buf 0 (markShort + markLong)) s).pruneDpb k
    s.setSes k { s.ses k with subs := [], pic := some p }
  else
    let r := Config.decRefs x.ctx us
    let names := (r.1 ++ r.2).eraseDups
    let s := x.dpb.foldl (fun s q =>
      let set := (if r.1.contains q.poc then markShort else 0) + (if r.2.contains q.poc then markLong else 0)
      s.markBuf k q.buf set ((markShort + markLong) - set)) s
    let s := State.bumpWhile k (fun l => mustBump l i.reorder i.latencyPlus1 || decide (i.dpbMinus1 + 1 ≤ l.length)) (n + 1) (s.pruneDpb k)
    let kept := x.subs.filter (fun e => names.contains e.1)
    let new := names.filter (fun q => !(x.dpb.any (fun d => d.poc = q)) && !(kept.any (fun e => e.1 = q)))
    s.setSes k { s.ses k with
      subs := kept ++ new.map (fun q => (q, standIn (decFrame i []) x.last))
      pic := some { p with missing := !new.isEmpty } }

/-- `id` of an input's record (R300). -/
def HevcIn.recId (inp : HevcIn) (decode : Bool) : Nat :=
  if inp.strand then (if decode then inp.auNum % 65536 else inp.tag) else inp.id

/-- A picture count is taken, and its seal written (R283, R580). [assumption 34, DEDUCED] -/
def State.countPicture (s : State) (k : Nat) : State :=
  let x := s.ses k
  (s.setSes k { x with pics := (x.pics + 1) % 2 ^ 32 }).seal 3 k x.pics

/-- The lines of a picture in memory (R224, R290, R299). -/
def memoryLines (e : EncBank) (inp : HevcIn) (data : List Byte) : SMap (List Nat) :=
  let row := fun (l n : Nat) => (List.range n).map (fun i => leAt (data.drop (inp.pitch * l + 2 * i)) 0 2)
  (List.range e.height).map (fun l => (l, if e.chroma = 1 then row l (2 * e.width)
    else row l e.width ++ (if l % 2 = 1 then row (e.height + l / 2) e.width else [])))

/-- The bytes that a PICTURE descriptor names (R299). -/
def pictureBytes (e : EncBank) (pitch : Nat) : Nat := if e.chroma = 1 then pitch * e.height else pitch * e.height * 3 / 2

/-- A taken input goes to work once its binding is known (`how` as for `hevcDecide`). -/
def State.hevcStart (s : State) (k : Nat) (h : Shape) (inp : HevcIn) (how : Nat) : State :=
  let x := s.ses k
  let g := x.active
  let e := encBank g.regs k
  let s := s.setSes k { x with hold := none }
  let passed := fun (s : State) =>
    if inp.strand then s
    else s.put (F.HEVC_SES_SQ_HEAD_index k) ((s.fld (F.HEVC_SES_SQ_HEAD_index k) + 1) % 65536)
  let skip := fun (s : State) => if inp.strand && !h.decodes then s.setSes k { s.ses k with skip := true } else s
  let mk : Marks := ⟨inp.marks.excluded, inp.marks.replayed || how = 1, inp.marks.override || how = 2⟩
  let pic : HevcPic := ⟨inp, g, x.pics, false, [], false, none, 0, [], 0, 0, false, false, false, mk⟩
  let us := usable x.ctx inp.au
  if !genRuns g k then
    let s := (s.bump (F.HEVC_SES_DISCARDED_count k) 1).setSes k { s.ses k with needIdr := true, waitIrap := true }
    skip (passed (s.countPicture k))
  else if h.decodes then
    let i := decInfo x.ctx us
    let s := s.bump (F.HEVC_SES_SEI_BAD_count k) (seiBad i.comps us)
    let irap := irapNal i.nal
    let flags := (if irap then 4 else 0) + (if inp.cut then 32 else 0)
    let fresh := x.waitIrap || s.bit (F.HEVC_SES_STATUS_unsupported k)
    let noRasl := irap && (!(craNal i.nal || decide (22 ≤ i.nal)) || fresh || i.afterEos)
    let refuse := fun (s : State) (st : Nat) =>
      let y := s.ses k
      passed (((s.setSes k { y with ctx := Config.decNext y.ctx us [] }).queueRec k
        (plainRec inp (inp.recId true) st 2 x.pics flags i.nal g i.poc)).countPicture k)
    if !i.picture then refuse s 5
    else if !i.supported h g.regs k s.bufBytes (s.fld (F.HEVC_SES_QUOTA_quota k)) then
      refuse (s.put (F.HEVC_SES_STATUS_unsupported k) 1) 3
    else if fresh && !irap then refuse s 5
    else if raslNal i.nal && x.dropRasl then refuse s 5
    else
      let y := s.ses k
      let s := s.setSes k { y with
        waitIrap := false
        dropRasl := if irap then noRasl else y.dropRasl
        excluded := if irap then mk.excluded else y.excluded || mk.excluded }
      let s := s.decodePrepare k { pic with idr := noRasl, ended := true, marks := { mk with
        excluded := if irap then mk.excluded else y.excluded || mk.excluded } }
      passed ((s.put (F.HEVC_SES_STATUS_unsupported k) 0).countPicture k)
  else if inp.strand && (inp.fmt != (if e.chroma = 1 then 4 else 6) || inp.width != e.width || inp.height != e.height) then
    let r := s.refusedRec inp (inp.recId false) 4 g
    skip (r.2.queueRec k r.1)
  else
    let idr := x.needIdr || (e.idrPeriod != 0 && decide (e.idrPeriod ≤ x.sinceIdr))
    let d := if inp.strand then ([], false, s) else s.dramFetch inp.addr (pictureBytes e inp.pitch)
    let ex := if idr then mk.excluded || d.2.1 else x.excluded || mk.excluded || d.2.1
    let s := if idr then (d.2.2.dropRefs k x.refs).setSes k { d.2.2.ses k with refs := [] } else d.2.2
    let s := s.setSes k { s.ses k with
      needIdr := false, sinceIdr := if idr then 1 else x.sinceIdr + 1, excluded := ex
      pic := some { pic with
        idr := idr
        lines := if inp.strand then [] else memoryLines e inp d.1
        ended := !inp.strand
        qp := e.startQp idr
        used := headBytes e (bankWords g.regs k) x.model idr (if idr then 0 else x.sinceIdr)
        marks := { mk with excluded := ex } } }
    passed (s.countPicture k)

/-- An input whose kind 3 decision is settled is bound, or waits for its binding. [assumption 34, DEDUCED] -/
def State.hevcTake (s : State) (k : Nat) (h : Shape) (inp : HevcIn) (force : Bool) : State :=
  match s.hevcDecide k inp force with
  | (s, some how) => s.hevcStart k h inp how
  | (s, none) => s.setSes k { s.ses k with hold := some inp }

/-- The kind 3 decision of a memory-fed access unit (R296, R105). [assumption 34, DEDUCED] -/
def State.hevcAccept (s : State) (k : Nat) (h : Shape) (inp : HevcIn) (force : Bool) : State :=
  let n := inp.au.length
  let go := fun (s : State) (a how : Nat) =>
    let s := s.setSes k { s.ses k with aus := (inp.auNum + 1) % 2 ^ 32 }
    s.hevcTake k h { inp with
      au := inp.au.take a, open3 := false, cut := inp.cut || decide (a < n)
      marks := ⟨inp.marks.excluded, inp.marks.replayed || how = 1, inp.marks.override || how = 2⟩ } false
  match s.ruling 3 0 k inp.auNum (s.inputTime inp 3 0 k inp.auNum) none (s.ownInput inp) with
  | .entry e => go (s.replay e) e.a 1
  | .locally => go (s.jnlWrite 3 0 k inp.auNum n 0 0 false false) n 0
  | _ =>
    if force then go (s.overrideWrite 3 0 k inp.auNum n 0 0) n 2
    else (s.block 3 0 k inp.auNum s.nowNs).setSes k { s.ses k with hold := some inp }

/-- Steps 3 to 6 of R304. -/
def State.sesResetEnd (s : State) (k : Nat) : State :=
  let n := ringDist (s.fld (F.HEVC_SES_SQ_TAIL_index k)) (s.fld (F.HEVC_SES_SQ_HEAD_index k))
  let s := s.put (F.HEVC_SES_DROPPED_dropped k) n
  let s := (s.heldBufs k).foldl (fun s b => s.markBuf k b 0 15) s
  let s := [F.HEVC_SES_SQ_HEAD_index k, F.HEVC_SES_SQ_TAIL_index k, F.HEVC_SES_NEXT_SEQ_value k, F.HEVC_SES_GEN_value k,
    F.HEVC_SES_GEN_PEND_value k, F.HEVC_SES_STATUS_running k, F.HEVC_SES_STATUS_unsupported k,
    F.HEVC_SES_STATUS_resetting k].foldl (fun s f => s.put f 0) s
  s.setSes k { HevcSes.clear with skip := (s.ses k).skip }

/-- A reset ends when nothing of the session is in progress. [assumption 36, DEDUCED] -/
def State.sesResetCheck (s : State) (k : Nat) : State :=
  let x := s.ses k
  if s.bit (F.HEVC_SES_STATUS_resetting k) && x.pic.isNone && x.hold.isNone && x.recs.isEmpty then s.sesResetEnd k else s

/-- A held input is looked at again: an entry or a seal has come, a commit was made, or the hold has expired (R105, R106). -/
def State.hevcResume (s : State) (k : Nat) (force : Bool) : State :=
  match (s.ses k).hold, s.sesShape k with
  | some inp, some h => (if inp.open3 then s.hevcAccept k h inp force else s.hevcTake k h inp force).sesResetCheck k
  | _, _ => s

/-- Whether a session takes an input now (R279, R286, R304); one with work of a replaced configuration finishes it first
(R63). -/
def State.sesTakes (s : State) (k : Nat) : Bool :=
  let x := s.ses k
  s.runs .hevc && s.bit F.HEVC_POOL_CTRL_enable && x.pic.isNone && x.hold.isNone && !x.skip && (!s.isOld 11 k || x.recs.isEmpty)

/-- An input is taken: it belongs to the replaced configuration or to the one in force (R63). -/
def State.sesBegins (s : State) (k : Nat) : State := s.workBegins 11 k (s.sesFrontOld k)

/-- Tokens taken from an encode session's port: lines of the picture in progress, the rest of a frame that is consumed
without coding, and frames that come while the session is resetting, which are counted (R304). -/
def State.hevcPull (k strand : Nat) : Nat → State → State
  | 0, s => s
  | n + 1, s =>
    let x := s.ses k
    match s.strandStream strand with
    | [] => s
    | t :: rest =>
      let kind := tokenField t 7 0
      let len := 1 + (if kind = 2 then tokenField t 63 32 else 0)
      let idle := match x.pic with
        | some p => p.ended && s.bit (F.HEVC_SES_STATUS_resetting k)
        | none => true
      if rest.length + 1 < len || x.hold.isSome then s
      else if idle then
        if kind = 1 && !x.skip then
          if s.bit (F.HEVC_SES_STATUS_resetting k) then
            State.hevcPull k strand n (((s.strandUse strand 1).bump (F.HEVC_SES_DISCARDED_count k) 1).setSes k { x with skip := true })
          else s
        else State.hevcPull k strand n ((s.strandUse strand len).setSes k { x with skip := x.skip && kind != 3 })
      else match x.pic with
        | some p =>
          if p.ended then s
          else if kind = 3 then
            let mk := mapGet (⟨false, false, false⟩ : Marks) s.cam.marks
              (65536 * ((s.strandSource strand).map (fun e => e.2)).getD 0 + p.inp.tag)
            (s.strandUse strand 1).setSes k { x with
              excluded := x.excluded || mk.excluded
              pic := some { p with
                ended := true
                marks := ⟨p.marks.excluded || mk.excluded, p.marks.replayed || mk.replayed, p.marks.override || mk.override⟩ } }
          else State.hevcPull k strand n ((s.strandUse strand len).setSes k { x with pic := some { p with
            lines := if kind = 2 then mapSet p.lines (tokenField t 31 16) (tokenSamples (rest.take (len - 1))) else p.lines } })
        | none => s

/-- The strand that feeds a session of a direction. -/
def State.sesStrand (s : State) (k : Nat) (decode : Bool) : Option Nat :=
  match s.sesShape k with
  | some h => if h.byStrand && decide (h.decodes = decode) then (s.strandTo .hevc k).map (fun e => e.1) else none
  | none => none

/-- What an encode session can take from its port now. -/
def State.hevcIntake (s : State) (k : Nat) : State :=
  match s.sesStrand k false with
  | some id => if s.runs .hevc then State.hevcPull k id (s.strandStream id).length s else s
  | none => s

/-- A frame arrives at an encode session fed by strand (R283, R290, R304). -/
def State.encodeInput (s : State) (k : Nat) : State :=
  let s := s.hevcIntake k
  match s.sesStrand k false, s.sesShape k with
  | some id, some h =>
    match s.strandStream id with
    | t :: _ =>
      if s.sesTakes k && tokenField t 7 0 = 1 then
        let s := (s.sesBegins k).strandUse id 1
        let inp : HevcIn := ⟨true, tokenField t 15 8, tokenField t 79 64, tokenField t 95 80, tokenField t 31 16, 0, true, 0, 0, [],
          0, false, tokenStamp t, false, ⟨false, false, false⟩⟩
        (s.hevcTake k h inp false).hevcIntake k
      else s
    | [] => s
  | _, _ => s

/-- A session fed from memory has its next descriptor to take (R284, R299). -/
def State.sesDescriptor (s : State) (k : Nat) : Bool :=
  s.sesTakes k && !s.bit (F.HEVC_SES_STATUS_resetting k)
    && s.fld (F.HEVC_SES_SQ_HEAD_index k) != s.fld (F.HEVC_SES_SQ_TAIL_index k)

/-- The bank that an input would be bound to if it were bound now. [assumption 34, DEDUCED] -/
def HevcSes.nextBank (x : HevcSes) : HevcGen := x.pend.getLast?.getD x.active

/-- The checks of a descriptor (R299): the status of the first breach. [assumption 34, DEDUCED] -/
def State.descriptorChecks (s : State) (k : Nat) (h : Shape) (g : HevcGen) (l : List Byte) : Option Nat :=
  let e := encBank g.regs k
  let dec := h.decodes
  let len := leAt l 4 4
  let addr := leAt l 8 8
  let pitch := leAt l 16 4
  let min := if e.chroma = 1 then 4 * e.width else 2 * e.width
  firstFail [
    (leAt l 0 1 != (if dec then 2 else 1), 2),
    (decide (2 ≤ leAt l 1 1), 2),
    (dec && (len = 0 || decide (67108864 < len)), 1), (!dec && len != 0, 2),
    (!dec && addr % 64 != 0, 1),
    (!dec && (pitch % 64 != 0 || decide (pitch < min)), 1), (dec && pitch != 0, 2),
    ((slice l 22 10).any (fun b => b != 0), 2),
    (!s.inRegion addr (if dec then len else pictureBytes e pitch) (hevcOwn k), 1)]

/-- A memory-fed session takes its next descriptor: one whose `op` is AU for the row AU, any other for PICTURE; or a
strand-fed decode session takes its next access unit. -/
def State.hevcDescriptor (s : State) (k : Nat) (au : Bool) : State :=
  match s.sesShape k with
  | none => s
  | some h =>
    if !h.byStrand && s.sesDescriptor k then
      let a := s.base2 (F.HEVC_SES_SQ_LO_base_lo k) (F.HEVC_SES_SQ_HI_base_hi k)
        + 32 * (s.fld (F.HEVC_SES_SQ_HEAD_index k) % s.sesRing k)
      let d := s.dramFetch a 32
      let l := d.1
      let s := d.2.2
      if decide (leAt l 0 1 = 2) ≠ au then s
      else
        let s := s.workBegins 11 k false
        let x := s.ses k
        let g := x.nextBank
        let inp : HevcIn := ⟨false, 0, 0, 0, leAt l 20 2, leAt l 2 2, leAt l 1 1 % 2 = 1, leAt l 8 8, leAt l 16 4, [], x.aus, false,
          s.nowNs, h.decodes, ⟨false, false, false⟩⟩
        match (if genRuns g k then s.descriptorChecks k h g l else none) with
        | some st =>
          let r := (s.put (F.HEVC_SES_SQ_HEAD_index k) ((s.fld (F.HEVC_SES_SQ_HEAD_index k) + 1) % 65536)).refusedRec inp inp.id
            st x.active
          r.2.queueRec k r.1
        | none =>
          if h.decodes then
            let b := s.dramFetch inp.addr (leAt l 4 4)
            b.2.2.hevcAccept k h { inp with au := b.1, marks := ⟨b.2.1, false, false⟩ } false
          else s.hevcTake k h inp false
    else s

/-- The access unit at the front of a decode session's port: the tokens it takes, its AU_START and AU_END, its bytes. The
AU_END is the first token of type 6 that counts the bytes before it (assumption 35). [assumption 35, DEDUCED] -/
def frontUnit (l : List Token) : Option (Nat × Token × Token × List Byte) :=
  match l with
  | t :: rest =>
    if tokenField t 7 0 = 5 then
      (List.range rest.length).findSome? (fun n =>
        let e := rest.getD n 0
        let bytes := tokenField e 63 32
        if tokenField e 7 0 = 6 ∧ ceilDiv bytes 32 = n then
          some (n + 2, t, e, ((rest.take n).flatMap (fun d => leBytes 32 d.toNat)).take bytes)
        else none)
    else none
  | [] => none

/-- The tokens of the group at the front of a stream: a line with its samples, an access unit, or one token by itself; `none`
where the rest of the group has not come. -/
def groupLength (l : List Token) : Option Nat :=
  match l with
  | [] => none
  | t :: rest =>
    match tokenField t 7 0 with
    | 2 => if rest.length < tokenField t 63 32 then none else some (1 + tokenField t 63 32)
    | 5 => (frontUnit l).map (fun u => u.1)
    | _ => some 1

/-- The tokens of the whole groups at the front of a stream, and those of the group that its first `n` tokens cut, which
follow them. [assumption 35, DEDUCED] -/
def groupCut : (fuel : Nat) → List Token → (n : Nat) → Nat × Nat
  | 0, _, _ => (0, 0)
  | fuel + 1, l, n =>
    if n = 0 then (0, 0)
    else match groupLength l with
      | none => (0, l.length - n)
      | some k =>
        if n < k then (0, k - n)
        else
          let r := groupCut fuel (l.drop k) (n - k)
          (r.1 + k, r.2)

/-- A strand-fed decode session takes the access unit that has closed (R295, R297, R304). [assumption 35, DEDUCED] -/
def State.strandUnit (s : State) (k : Nat) : State :=
  match s.sesStrand k true, s.sesShape k with
  | some id, some h =>
    match frontUnit (s.strandStream id) with
    | some (n, t, e, au) =>
      if s.runs .hevc && s.bit (F.HEVC_SES_STATUS_resetting k) then
        (s.strandUse id n).bump (F.HEVC_SES_DISCARDED_count k) 1
      else if s.sesTakes k then
        let s := (s.sesBegins k).strandUse id n
        let cut := tokenField e 65 64 != 0
        s.hevcTake k h ⟨true, 0, 0, 0, 0, 0, true, 0, 0, au, tokenField t 63 32, cut, tokenStamp t, false,
            mapGet .none s.cam.marks (65536 * (192 + k) + tokenField t 63 32 % 65536)⟩ false
      else s
    | none => s
  | _, _ => s

/-! ## Rows (R279, R292 to R294, R297, R302) -/

/-- Whether the next row of a session's picture has its input (R279). -/
def State.rowInput (s : State) (k : Nat) (p : HevcPic) (decode : Bool) : Bool :=
  let e := encBank p.gen.regs k
  s.runs .hevc && (decode || p.ended || (List.range (min (64 * p.done + 64) e.height)).all (fun l => (mapFind p.lines l).isSome))

/-- Input lines `0` to `n - 1` of a picture. A line that never arrived holds values the spec does not state. -/
def State.inputLines (s : State) (p : HevcPic) (n : Nat) : List (List Nat) × State :=
  (List.range n).foldl (fun (acc : List (List Nat) × State) l =>
    match mapFind p.lines l with
    | some x => (acc.1 ++ [x], acc.2)
    | none =>
      let f := acc.2.free
      (acc.1 ++ [[f.1]], f.2)) ([], s)

/-- A picture takes its buffer before its first row (R279, R288). -/
def State.rowBuffer (s : State) (k : Nat) (p : HevcPic) : Option (HevcPic × State) :=
  match p.buf with
  | some _ => some (p, s)
  | none => (s.takeBuf k).map (fun n =>
      let s := s.markBuf k n markCurrent 0
      let p := { p with buf := some n }
      (p, s.setSes k { s.ses k with pic := some p }))

/-- One row of an encoded picture (R293), and after the last the access unit (R291, R294). -/
def State.encodeRow (s : State) (k : Nat) (p : HevcPic) : State :=
  let e := encBank p.gen.regs k
  let x := s.ses k
  let words := bankWords p.gen.regs k
  let r := p.done
  let poc := x.sinceIdr - 1
  let inl := s.inputLines p (min (64 * r + 64) e.height)
  let s := inl.2
  let lines := if r + 1 < e.rows then inl.1 else padPicture e inl.1
  let before := rowCodes p.rows.reverse
  let chosen := (List.range e.cols).map (fun i => CtuCode.decided (Config.encChoice words x.model p.idr lines before p.qp i))
  let trial := Config.encEntropy words x.model p.idr before p.qp chosen
  let fill := p.filling || becomesFill e p.used trial.length r
  let codes := if fill then List.replicate e.cols (if p.idr then .intraDc else .skipped) else chosen
  let bytes := if fill then (Config.encEntropy words x.model p.idr before 51 codes).take (fillBound e.width) else trial
  let used := p.used + bytes.length
  let qp := if fill then p.qp else nextQp e (headBytes e words x.model p.idr poc) used r p.qp
  let p := { p with
    done := r + 1
    rows := ⟨if fill then 51 else p.qp, fill, bytes, codes⟩ :: p.rows
    used := used, filling := fill, qp := qp, raised := p.raised || decide (p.qp < qp) }
  if r + 1 < e.rows then s.setSes k { x with pic := some p }
  else
    let rows := p.rows.reverse
    let au := accessUnit e words x.model p.idr poc rows
    let epb := au.length - p.used
    let last := ((rows.filter (fun q => !q.fill)).getLast?.map (fun q => q.qp)).getD 51
    let buf := p.buf.getD 0
    let refs := x.refs ++ [buf]
    let keep := refs.drop (refs.length - e.refs)
    let s := s.markBuf k buf markShort markCurrent
    let s := s.dropRefs k (refs.take (refs.length - e.refs))
    let s := s.setSes k { x with
      pic := none, refs := keep
      model := Config.encNext words x.model p.idr (rowCodes rows) }
    (s.put (F.HEVC_SES_EPB_value k) epb).queueRec k
      ⟨p.inp.recId false, 0, 1, p.num, (if p.filling then 1 else 0) + (if p.raised then 2 else 0) + (if p.idr then 4 else 0), last,
        p.gen, p.inp.irq || p.inp.strand, 0, 0, some (au, epb, p.inp.tag, p.inp.stamp), none, p.marks⟩

/-- The reference pictures of an access unit and their samples: those of the decoded picture buffer, and substitutes for
missing ones (R302). -/
def State.refSamples (s : State) (k : Nat) (us : List (List Byte)) : List (Int × List Nat) :=
  let x := s.ses k
  let r := Config.decRefs x.ctx us
  (r.1 ++ r.2).filterMap (fun q =>
    match x.dpb.find? (fun d => d.poc = q) with
    | some d => some (q, d.frame.planes.flatten)
    | none => (x.subs.find? (fun e => e.1 = q)).map (fun e => (q, e.2.planes.flatten)))

/-- The last row of a decoded picture completes it (R297, R298, R302). -/
def State.decodeDone (s : State) (k : Nat) (p : HevcPic) : State :=
  let x := s.ses k
  let us := usable x.ctx p.inp.au
  let i := decInfo x.ctx us
  let lost := lostUnits i x.ctx us
  let f := decodeFrame i x.ctx us (s.refSamples k us) x.last lost
  let flags := (if irapNal i.nal then 4 else 0) + (if p.missing then 8 else 0) + (if lost.isEmpty then 0 else 16)
    + (if p.inp.cut then 32 else 0) + (if hashBad f i.comps us then 64 else 0)
  let buf := p.buf.getD 0
  let d : DecPic := ⟨p.num, i.poc, i.nal, p.gen, buf, i.outputFlag, 0, f, (i.cropX, i.cropY, i.cropW, i.cropH), flags, lost.length,
    p.inp.recId true, p.inp.irq || p.inp.strand, p.inp.auNum⟩
  let older := if i.outputFlag then x.dpb.map (fun q =>
    if q.wait && decide (i.poc < q.poc) then { q with latency := q.latency + 1 } else q) else x.dpb
  let s := s.markBuf k buf (markShort + (if i.outputFlag then markOut else 0)) markCurrent
  let s := s.setSes k { x with
    pic := none, dpb := older ++ [d], last := some f, ctx := Config.decNext x.ctx us f.planes.flatten }
  let s := s.bump (F.HEVC_SES_CONCEALED_count k) lost.length
  let s := s.digestDone 3 k ⟨p.num, crc64 (frameBytes f), p.marks.excluded, p.marks.replayed, p.marks.override⟩
  let s := if i.outputFlag then s
    else s.queueRec k ⟨d.id, 0, 2, p.num, flags, i.nal, p.gen, d.irq, i.poc, lost.length, none, none, p.marks⟩
  State.bumpWhile k (fun l => mustBump l i.reorder i.latencyPlus1) (older.length + 1) s

/-- One row of a decoded picture. -/
def State.decodeRow1 (s : State) (k : Nat) (p : HevcPic) : State :=
  let i := decInfo (s.ses k).ctx (usable (s.ses k).ctx p.inp.au)
  let q := { p with done := p.done + 1 }
  if q.done < i.rows then s.setSes k { s.ses k with pic := some q } else s.decodeDone k q

/-- Whether a row of a session could run now (R279): its input is there, a buffer is its or free for it, and its pipe does not
block on tokens that a strand has not taken (R74). -/
def State.rowReady (s : State) (k : Nat) (decode : Bool) : Bool :=
  let s := s.hevcIntake k
  match (s.ses k).pic, s.sesShape k with
  | some p, some h =>
    h.decodes = decode && s.rowInput k p decode && (p.buf.isSome || (s.takeBuf k).isSome)
      && !s.senderBlocked .hevc (fun j => ((s.sesShape j).map (fun g => decide (g.decodes = decode))).getD false)
  | _, _ => false

/-- One row of a session's picture, if it is ready (R279). -/
def State.sesRow (s : State) (k : Nat) : State :=
  let s := s.hevcIntake k
  match (s.ses k).pic, s.sesShape k with
  | some p, some h =>
    if s.rowReady k h.decodes then
      match s.rowBuffer k p with
      | some (p, s) => if h.decodes then s.decodeRow1 k p else (s.encodeRow k p).hevcIntake k
      | none => s
    else s
  | _, _ => s

/-! ## Records (R291, R298, R300) -/

/-- Bytes written to a ring of `size` bytes from a position, wrapping to offset 0 as often as they need (R289, R291); at most
`n` turns. -/
def State.ringWrite (base size : Nat) : (n : Nat) → (pos : Nat) → List Byte → State → State
  | 0, _, _, s => s
  | n + 1, pos, d, s =>
    let s := s.dramWrite (base + pos) (d.take (size - pos))
    if d.length ≤ size - pos then s else State.ringWrite base size n 0 (d.drop (size - pos)) s

/-- Data tokens of an access unit: 32 bytes each (R298). [assumption 35, DEDUCED] -/
def unitTokens : Nat → List Byte → List Token
  | 0, _ => []
  | _, [] => []
  | n + 1, l => BitVec.ofNat 256 (leNat (l.take 32)) :: unitTokens n (l.drop 32)

/-- AU_START and AU_END (R298). -/
def auStart (num low stamp : Nat) : Token :=
  BitVec.ofNat 256 (5 + tokenAt 32 (num % 2 ^ 32) + tokenAt 64 (low % 2 ^ 32) + tokenAt 128 (stamp / 1000000000 % 2 ^ 64)
    + tokenAt 192 (stamp % 1000000000))
@[inherit_doc auStart] def auEnd (bytes flags : Nat) : Token := BitVec.ofNat 256 (6 + tokenAt 32 (bytes % 2 ^ 32) + tokenAt 64 (flags % 4))

/-- The PICTURE_DONE token (R298). -/
def pictureDone (au out buf depth chroma w h flags : Nat) : Token :=
  BitVec.ofNat 256 (8 + tokenAt 16 (au % 65536) + tokenAt 32 (out % 2 ^ 32) + tokenAt 64 (buf % 256) + tokenAt 72 ((depth - 8) % 16)
    + tokenAt 76 (chroma % 4) + tokenAt 80 (w % 65536) + tokenAt 96 (h % 65536) + tokenAt 112 (flags % 65536))

/-- The bytes of a record (R300). -/
def recordBytes (r : HevcRec) (seq buf offset length : Nat) : List Byte :=
  leBytes 4 seq ++ leBytes 2 r.id ++ leBytes 1 r.status ++ leBytes 1 r.rkind ++ leBytes 4 r.num ++ leBytes 2 r.pflags
    ++ leBytes 1 (wrapTo 8 r.qp) ++ leBytes 1 buf ++ leBytes 4 offset ++ leBytes 4 length ++ leBytes 4 r.gen.num
    ++ leBytes 4 (0xFFFFFFFF - seq)

/-- `buf` of a record without an output buffer (R300). [assumption 34, DEDUCED] -/
def State.noBuffer (s : State) (k : Nat) : Nat := if ((s.sesShape k).map Shape.decodes).getD false then 0xFF else 0

/-- A record is posted (R300). -/
def State.postRec (s : State) (k : Nat) (r : HevcRec) (buf offset length : Nat) : State :=
  let seq := s.fld (F.HEVC_SES_NEXT_SEQ_value k)
  let s := s.dramWrite (s.base2 (F.HEVC_SES_CQ_LO_base_lo k) (F.HEVC_SES_CQ_HI_base_hi k) + 32 * (seq % s.sesRing k))
    (recordBytes r seq buf offset length)
  let s := s.wr (R.HEVC_SES_NEXT_SEQ k) ((seq + 1) % 2 ^ 32)
  if r.irq then s.hevcEvent k else s

/-- An access unit goes to the bitstream ring that the active bank names (R289), and on the strand (R291). -/
def State.postUnit (s : State) (k : Nat) (r : HevcRec) (au : List Byte) (tag stamp : Nat) : State :=
  let x := s.ses k
  let b := x.active.regs
  let size := max 1 (bankFld b (F.HEVC_SES_BS_SIZE_bs_size k) * 4096)
  let base := bankFld b (F.HEVC_SES_BS_LO_base_lo k) * 2 ^ 12 + bankFld b (F.HEVC_SES_BS_HI_base_hi k) * 2 ^ 32
  let pos := x.bsPos % size
  let s := (State.ringWrite base size (au.length / size + 2) pos au s).setSes k { x with bsPos := (pos + au.length) % size }
  let s := s.digestDone 2 k ⟨r.num, crc64 au, r.marks.excluded, r.marks.replayed, r.marks.override⟩
  let s := s.postRec k r 0 pos au.length
  match s.workStrand .hevc k with
  | some (id, d) => s.strandSend id d (auStart r.num tag stamp :: unitTokens au.length au ++ [auEnd au.length 0])
  | none => s

/-- A decoded picture is output (R298), inside the output buffer that the active bank names (R289); its pool buffer loses
OUTPUT_WAIT (R288). -/
def State.postPicture (s : State) (k : Nat) (r : HevcRec) (p : DecPic) : State :=
  let x := s.ses k
  let b := x.active.regs
  let buf := x.outs % max 1 (bankFld b (F.HEVC_SES_OUT_BUF_out_bufs k))
  let pitch := bankFld b (F.HEVC_SES_OUT_PITCH_out_pitch k) * 64
  let stride := bankFld b (F.HEVC_SES_OUT_STRIDE_out_stride k) * 4096
  let base := bankFld b (F.HEVC_SES_OUT_LO_base_lo k) * 2 ^ 12 + bankFld b (F.HEVC_SES_OUT_HI_base_hi k) * 2 ^ 32 + buf * stride
  let s := (outputLines p.frame p.crop).zipIdx.foldl (fun s l =>
    s.dramWrite (base + pitch * l.2) ((l.1.flatMap (leBytes 2)).take (min pitch (stride - pitch * l.2)))) s
  let s := s.setSes k { x with outs := (x.outs + 1) % 2 ^ 32 }
  let s := (s.markBuf k p.buf 0 markOut).postRec k r buf (wrapTo 32 r.poc) p.lost
  let s : State := { s with cam := { s.cam with marks := mapSet s.cam.marks (65536 * (64 + k) + x.outs % 65536) r.marks } }
  match s.workStrand .hevc k with
  | some (id, d) => s.strandSend id d [pictureDone p.auNum x.outs buf p.frame.depthY p.frame.chroma p.crop.2.2.1 p.crop.2.2.2 p.pflags]
  | none => s

/-- The oldest record of a session is posted, after the access unit or the picture that it reports, unless the session still
blocks on the strand that took the one before (R69). -/
def State.sesRecord (s : State) (k : Nat) : State :=
  let x := s.ses k
  match x.recs with
  | [] => s
  | r :: rest =>
    if s.runs .hevc && !s.senderBlocked .hevc (fun p => p = k) then
      let none_ := s.noBuffer k
      let s := s.setSes k { x with recs := rest }
      let s := match r.au, r.pic with
        | some (au, _, tag, stamp), _ => s.postUnit k r au tag stamp
        | none, some p => s.postPicture k r p
        | none, none => s.postRec k r none_ (wrapTo 32 r.poc) r.lost
      s.sesResetCheck k
    else s

/-- A session reset (R304). -/
def State.sesReset (s : State) (k : Nat) : State := (s.put (F.HEVC_SES_STATUS_resetting k) 1).sesResetCheck k

/-- A write of HEVC_SESs_CTRL. [assumption 36, DEDUCED] -/
def State.hevcCtrl (s : State) (k v : Nat) : State :=
  if (s.shape 11 k).isNone then s.shapeMiss
  else
    let s := if v % 2 = 1 then (s.hevcCommit k).hevcResume k false else s
    if bitsOf v 1 1 = 1 then s.sesReset k else s

/-- A write of HEVC_SESs_SQ_TAIL (R299, R304, R306). [assumption 36, DEDUCED] -/
def State.hevcTail (s : State) (k v : Nat) : State :=
  if (s.shape 11 k).isNone then s.shapeMiss
  else if s.bit (F.HEVC_SES_STATUS_resetting k) then s
  else if s.sesRing k < ringDist (v % 65536) (s.fld (F.HEVC_SES_SQ_HEAD_index k)) then s.put (F.HEVC_SES_STATUS_bad_tail k) 1
  else s.put (F.HEVC_SES_SQ_TAIL_index k) v

/-- The discarding of a strand's tokens by an island reset reaches the picture that they belong to (R73, R110).
[assumption 36, DEDUCED] -/
def State.hevcCut (s : State) (strand : Nat) : State :=
  (List.range 64).foldl (fun s k =>
    if s.sesStrand k false = some strand then
      let x := s.ses k
      match x.pic with
      | some p => if p.ended then s else s.setSes k { x with
          excluded := true, pic := some { p with ended := true, marks := { p.marks with excluded := true } } }
      | none => s.setSes k { x with skip := false }
    else if s.sesStrand k true = some strand then s.setSes k { s.ses k with excluded := true }
    else s) s

/-! ## Commands -/

/-- HEVC_COMMIT: a write of HEVC_SESs_CTRL with `commit` 1. -/
def execHevcCommit (m : Master) (k : Nat) (v : Word) (s : State) : Host.Outcome State Fault Refusal :=
  done (s.guardedWrite m (R.HEVC_SES_CTRL (k % 64)) (fun s => s.hevcCtrl (k % 64) (putBits v.toNat 0 0 1)))

/-- HEVC_SESSION_RESET: a write of HEVC_SESs_CTRL with `reset` 1. -/
def execHevcSessionReset (m : Master) (k : Nat) (v : Word) (s : State) : Host.Outcome State Fault Refusal :=
  done (s.guardedWrite m (R.HEVC_SES_CTRL (k % 64)) (fun s => s.hevcCtrl (k % 64) (putBits v.toNat 1 1 1)))

/-- HEVC_POOL_ENABLE: a write of HEVC_POOL_CTRL. -/
def execHevcPoolEnable (m : Master) (v : Word) (s : State) : Host.Outcome State Fault Refusal :=
  done (s.guardedWrite m R.HEVC_POOL_CTRL (fun s => s.hevcPoolWrite R.HEVC_POOL_CTRL v.toNat))

/-- QUOTA_WRITE. -/
def execQuotaWrite (m : Master) (k : Nat) (v : Word) (s : State) : Host.Outcome State Fault Refusal :=
  done (s.guardedWrite m (R.HEVC_SES_QUOTA (k % 64)) (fun s =>
    if (s.shape 11 (k % 64)).isNone then s.shapeMiss else s.hevcQuota (k % 64) v.toNat))

/-- HEVC_SQ_TAIL. -/
def execHevcSqTail (m : Master) (k : Nat) (v : Word) (s : State) : Host.Outcome State Fault Refusal :=
  done (s.guardedWrite m (R.HEVC_SES_SQ_TAIL (k % 64)) (fun s => s.hevcTail (k % 64) v.toNat))

/-- PICTURE. -/
def execPicture (k : Nat) (s : State) : Host.Outcome State Fault Refusal := done (s.hevcDescriptor (k % 64) false)

/-- AU: from the submission ring, or from the strand of a strand-fed session. -/
def execAu (k : Nat) (s : State) : Host.Outcome State Fault Refusal :=
  done (if (s.sesStrand (k % 64) true).isSome then s.strandUnit (k % 64) else s.hevcDescriptor (k % 64) true)

/-- ENCODE_INPUT. -/
def execEncodeInput (k : Nat) (s : State) : Host.Outcome State Fault Refusal := done (s.encodeInput (k % 64))

/-- CTU_ROW. -/
def execCtuRow (k : Nat) (s : State) : Host.Outcome State Fault Refusal := done (s.sesRow (k % 64))

/-- HEVC_RECORD. -/
def execHevcRecord (k : Nat) (s : State) : Host.Outcome State Fault Refusal := done (s.sesRecord (k % 64))

end Sys2Proof.Machine
end

