-- ==== Sys2Proof/Machine/Media.lean ====
section
/-! DEFINITION. Chapter 09, media streams (R392 to R404): received IPv4/UDP frames, ST 2110-20 video, HEVC in RTP and
ST 2110-30 audio in both directions. -/
namespace Sys2Proof.Machine

/-! ## Access -/

/-- A receive stream with nothing open. -/
def NetRx.clear : NetRx := ⟨0, [], [], []⟩

/-- A receive stream. -/
def State.rx (s : State) (r : Nat) : NetRx := mapGet NetRx.clear s.media.rx r

/-- A receive stream changed. -/
def State.setRx (s : State) (r : Nat) (x : NetRx) : State := { s with media := { s.media with rx := mapSet s.media.rx r x } }

/-- A send stream. -/
def State.tx (s : State) (t : Nat) : NetTx := mapGet ⟨0, 0, 0⟩ s.media.tx t

/-- A send stream changed. -/
def State.setTx (s : State) (t : Nat) (x : NetTx) : State := { s with media := { s.media with tx := mapSet s.media.tx t x } }

/-- A packet of a receive stream is discarded (R394 to R398). [assumption 48, DEDUCED] -/
def State.rxDrop (s : State) (r : Nat) : State := s.bump (F.NET_RX_DROP_count r) 1

/-- An RTP timestamp joins those of the frames or access units that have closed, whose packets are discarded (R295, R396). One
that lies between a half and three quarters of the count behind it is let go, before a stream comes back to its value.
[assumption 48, DEDUCED] -/
def closedStamps (ts : Nat) (l : List Nat) : List Nat :=
  ts :: l.filter (fun c => let age := (ts + 2 ^ 32 - c % 2 ^ 32) % 2 ^ 32; decide (age < 2 ^ 31) || decide (3 * 2 ^ 30 ≤ age))

/-- A frame, access unit or block of a receive stream was closed short. [assumption 48, DEDUCED] -/
def State.rxCut (s : State) (r : Nat) : State := s.bump (F.NET_RX_CUT_count r) 1

/-! ## Enabling receive streams (R395, R404) -/

/-- The reassembly ring of a stream (R397): its base and size. -/
def State.rxRing (s : State) (r : Nat) : Nat × Nat :=
  (s.fld (F.NET_RX_BUF_LO_base_lo r) * 2 ^ 12 + s.fld (F.NET_RX_BUF_HI_base_hi r) * 2 ^ 32,
    s.fld (F.NET_RX_BUF_SIZE_buf_size r) * 4096)

/-- Whether two streams wait for the same packets. -/
def State.rxClash (s : State) (r q : Nat) : Bool :=
  r != q && s.bit (F.NET_RX_CFG_enable q) && s.fld (F.NET_RX_CFG_port r) = s.fld (F.NET_RX_CFG_port q)
    && s.rd (R.NET_RX_DST_IP r) = s.rd (R.NET_RX_DST_IP q) && s.fld (F.NET_RX_CFG_udp_port r) = s.fld (F.NET_RX_CFG_udp_port q)

/-- Whether a receive stream may be enabled (R395, R397). -/
def State.rxOk (s : State) (r : Nat) : Bool :=
  let k := s.fld (F.NET_RX_MEDIA_session r)
  let ring := s.rxRing r
  s.portExists (s.fld (F.NET_RX_CFG_port r)) && s.rd (R.NET_RX_DST_IP r) != 0 && s.fld (F.NET_RX_CFG_udp_port r) != 0
    && !(List.range 64).any (s.rxClash r)
    && (match s.fld (F.NET_RX_CFG_type r) with
      | 1 => !(s.surfsOf 3 r).isEmpty && (s.boundary 4 r).isSome
      | 2 => (match s.sesShape k with
          | some h => h.decodes && h.byStrand
          | none => false) && (s.strandFrom .net k).isSome && decide (65536 ≤ ring.2) && decide (ring.2 ≤ 268435456)
          && s.userRegion ring.1 ring.2 (fun o u => (o = 7 && u = r) || o = 5)
      | 3 => decide (56 ≤ r) && (s.boundary 4 r).isSome
          && !(s.bit (F.NET_RX_CFG_member r) && s.grpHeld (s.fld (F.NET_RX_MEDIA_group r)))
      | _ => false)

/-- A receive stream's write of `bad_cfg`. -/
def State.rxBad (s : State) (r : Nat) : State := s.put (F.NET_RX_STATUS_bad_cfg r) 1

/-- A write of NET_RXr_CFG (R395). -/
def State.rxCfgWrite (s : State) (r v : Nat) : State :=
  let o := R.NET_RX_CFG r
  let old := s.rd o
  let v := v &&& 0xFFFF3FFF
  if old % 2 = 1 then
    let s := if v / 2 ≠ old / 2 then s.rxBad r else s
    if v % 2 = 1 then s
    else if s.fld (F.NET_RX_CFG_type r) = 3 && s.bit (F.NET_RX_CFG_member r) && s.grpHeld (s.fld (F.NET_RX_MEDIA_group r)) then s.rxBad r
    else ((s.wr o (old - 1)).put (F.NET_RX_STATUS_active r) 0).setRx r NetRx.clear
  else
    let s := s.wr o (v / 2 * 2)
    if v % 2 = 1 then
      if s.rxOk r then ((s.wr o v).put (F.NET_RX_STATUS_active r) 1).setRx r NetRx.clear else s.rxBad r
    else s

/-- A write of one of the other configuration registers of a receive stream. -/
def State.rxConfigWrite (s : State) (r off v : Nat) : State :=
  if s.bit (F.NET_RX_CFG_enable r) then
    match regRow off with
    | some row => if v &&& row.rw ≠ s.rd off &&& row.rw then s.rxBad r else s
    | none => s
  else s.regWrite off v

/-- RX_STREAM_ENABLE. -/
def execRxStreamEnable (m : Master) (r : Nat) (v : Word) (s : State) : Host.Outcome State Fault Refusal :=
  done (s.guardedWrite m (R.NET_RX_CFG (r % 64)) (fun s => s.rxCfgWrite (r % 64) v.toNat))

/-! ## Type 1: ST 2110-20 video (R396) -/

/-- The pgroup of a format: pixels across, lines, bytes, and bits of a sample. -/
def pgroup : Nat → Nat × Nat × Nat × Nat
  | 0 => (4, 1, 15, 10)
  | 1 => (2, 1, 9, 12)
  | 2 => (1, 1, 6, 16)
  | 3 => (4, 1, 15, 10)
  | 4 => (2, 1, 5, 10)
  | 5 => (2, 1, 6, 12)
  | 6 => (2, 2, 15, 10)
  | _ => (2, 2, 6, 8)

/-- Numbers of `b` bits packed most significant bit first. -/
def unpackBits (b n : Nat) (l : List Byte) : List Nat :=
  let all := beNat l
  let total := 8 * l.length
  (List.range n).map (fun i => (all >>> (total - b * (i + 1))) % 2 ^ b)

/-- A piece of a line in a packet: its row, its first pixel, and its pgroups' bytes. -/
structure Srd where
  row : Nat
  px : Nat
  data : List Byte
deriving DecidableEq, Repr

/-- The sample row data headers of a packet: length, field bit and row, continuation bit and offset; at most `n`. -/
def srdHeaders : Nat → List Byte → Option (List (Nat × Nat × Nat) × List Byte)
  | 0, _ => none
  | n + 1, l =>
    if l.length < 6 ∨ bitsOf (beAt l 2 2) 15 15 = 1 then none
    else
      let h := (beAt l 0 2, bitsOf (beAt l 2 2) 14 0, bitsOf (beAt l 4 2) 14 0)
      if bitsOf (beAt l 4 2) 15 15 = 1 then (srdHeaders n (l.drop 6)).map (fun r => (h :: r.1, r.2)) else some ([h], l.drop 6)

/-- The pieces of lines in a payload after its headers. -/
def srdPieces : List (Nat × Nat × Nat) → List Byte → Option (List Srd)
  | [], _ => some []
  | (n, row, px) :: r, l =>
    if l.length < n then none else (srdPieces r (l.drop n)).map (fun p => ⟨row, px, l.take n⟩ :: p)

/-- An RFC 4175 payload as pieces of lines of a surface's format and size. -/
def videoPieces (fmt w h : Nat) (payload : List Byte) : Option (List Srd) :=
  let g := pgroup fmt
  match srdHeaders 3 (payload.drop 2) with
  | some (hs, data) =>
    match srdPieces hs data with
    | some ps =>
      if ps.all (fun p => p.data.length % g.2.2.1 = 0 && p.px % g.1 = 0 && p.row % g.2.1 = 0 && decide (p.row < h)
          && decide (p.px + p.data.length / g.2.2.1 * g.1 ≤ w)) then some ps else none
    | none => none
  | none => none

/-- A frame with the pgroups of a piece. -/
def VidFrame.add (f : VidFrame) (fmt : Nat) (p : Srd) : VidFrame :=
  let g := pgroup fmt
  { f with groups := (List.range (p.data.length / g.2.2.1)).foldl (fun m i =>
      mapSet m (65536 * p.row + p.px / g.1 + i) (unpackBits g.2.2.2 (8 * g.2.2.1 / g.2.2.2) (slice p.data (i * g.2.2.1) g.2.2.1))) f.groups }

/-- Lines complete from line 0 on. -/
def VidFrame.accepted (f : VidFrame) (fmt w h : Nat) : Nat :=
  let g := pgroup fmt
  let whole := fun row => (List.range (ceilDiv w g.1)).all (fun i => (mapFind f.groups (65536 * row + i)).isSome)
  let rows := ((List.range (ceilDiv h g.2.1)).takeWhile (fun i => whole (i * g.2.1))).length
  min (rows * g.2.1) h

/-- The samples of a line in the order of R220, from its pgroups; for 4:2:0 the luma of line `l`. -/
def VidFrame.lineSamples (f : VidFrame) (fmt w l : Nat) : List Nat :=
  let g := pgroup fmt
  let row := l / g.2.1 * g.2.1
  (List.range (ceilDiv w g.1)).flatMap (fun i =>
    let v := mapGet [] f.groups (65536 * row + i)
    let at' := fun k => v.getD k 0
    match fmt with
    | 3 => (List.range 4).flatMap (fun k => [at' (3 * k + 1), at' (3 * k), at' (3 * k + 2)])
    | 4 | 5 => [at' 1, at' 0, at' 3, at' 2]
    | 6 | 7 => [at' (2 * (l % 2)), at' (2 * (l % 2) + 1)]
    | _ => v)

/-- The chroma row of a line pair of a 4:2:0 frame. -/
def VidFrame.chromaRow (f : VidFrame) (w m : Nat) : List Nat :=
  (List.range (w / 2)).flatMap (fun i => let v := mapGet [] f.groups (65536 * (2 * m) + i); [v.getD 4 0, v.getD 5 0])

/-- The first a lines of a frame are written to its buffer of a surface (R224, R319, R396). [assumption 49, DEDUCED] -/
def State.writeFrame (s : State) (n : Nat) (f : VidFrame) (buf a : Nat) : State :=
  let fmt := s.fld (F.WALL_SURF_CFG_fmt n)
  let w := s.surfW n
  let base := s.surfBase n + buf * s.surfStride n
  let pitch := s.surfPitch n
  let s := (List.range a).foldl (fun (s : State) l => s.dramWrite (base + pitch * l) ((f.lineSamples fmt w l).flatMap (leBytes 2))) s
  if fmt = 6 ∨ fmt = 7 then
    (List.range (a / 2)).foldl (fun (s : State) m =>
      s.dramWrite (base + pitch * (s.surfH n + m)) ((f.chromaRow w m).flatMap (leBytes 2))) s
  else s

/-- The RX_DONE token (R319). -/
def rxDone (r frame buf lines : Nat) : Token :=
  BitVec.ofNat 256 (9 + tokenAt 8 r + tokenAt 32 (frame % 2 ^ 32) + tokenAt 64 (buf % 256) + tokenAt 80 (lines % 65536))

/-- The wall frame whose latch point comes first after now (R92). [assumption 48, DEDUCED] -/
def State.frameAfterNow (s : State) : Nat :=
  let c := s.fclk.roll
  c.mode.number (max c.next (c.mode.firstLatch (s.nowNs + 1)))

/-- An open frame of a stream leaves, and its timestamp counts as closed. -/
def State.vidGone (s : State) (r : Nat) (f : VidFrame) : State :=
  let x := s.rx r
  s.setRx r { x with vids := x.vids.filter (fun g => g.num != f.num), closed := closedStamps f.ts x.closed }

/-- Received entries of a video frame that this device has decided are no longer needed, whichever wall frame they name
(R106, R107). -/
def State.dropTwins (s : State) (r ts : Nat) : State :=
  { s with jnl := { s.jnl with held := s.jnl.held.filter (fun e => !(e.kind = 4 && e.unit = r && e.a = ts)) } }

/-- A frame closes with a lines for wall frame N: `entry` where the journal decides, `override` for an override (R396,
R105, R106). [assumption 48, DEDUCED] -/
def State.vidClose (s : State) (r : Nat) (f : VidFrame) (a frame : Nat) (entry : Option Entry) (override : Bool) : State :=
  match s.surfsOf 3 r with
  | n :: _ =>
    let a := min a (s.surfH n)
    let s := match entry with
      | some e => s.replay e
      | none => if override then s.overrideWrite 4 0 r frame f.ts a 0 else s.jnlWrite 4 0 r frame f.ts a 0 false false
    let s := ((s.unblock 4 0 r f.ts).dropTwins r f.ts).vidGone r f
    let buf := f.num % max 1 (s.fld (F.WALL_SURF_BUF_bufs n))
    let s := s.writeFrame n f buf a
    let s := if a < s.surfH n then s.rxCut r else s
    let s : State := { s with cam := { s.cam with
      marks := mapSet s.cam.marks (65536 * (128 + r) + frame % 65536) ⟨false, entry.isSome, override⟩ } }
    s.portSend .net 64 [rxDone r frame buf a]
  | [] => s

/-- Lines accepted so far. -/
def State.vidAccepted (s : State) (r : Nat) (f : VidFrame) : Nat :=
  match s.surfsOf 3 r with
  | n :: _ => f.accepted (s.fld (F.WALL_SURF_CFG_fmt n)) (s.surfW n) (s.surfH n)
  | [] => 0

/-- A frame changed. -/
def State.setVid (s : State) (r : Nat) (f : VidFrame) : State :=
  let x := s.rx r
  s.setRx r { x with vids := x.vids.map (fun g => if g.num = f.num then f else g) }

/-- An open frame is looked at: it closes where its marker and every line have come or a closing event has; while kind 4 is
followed it closes at its entry, which its RTP timestamp names. `force`: its hold has expired. -/
def State.vidCheck (s : State) (r num : Nat) (force : Bool) : State :=
  match (s.rx r).vids.find? (fun f => f.num = num) with
  | none => s
  | some f =>
    if f.dead || (s.surfsOf 3 r).isEmpty then (if f.marker || f.due then ((s.unblock 4 0 r f.ts).vidGone r f).rxCut r else s)
    else
      let a := s.vidAccepted r f
      let h := ((s.surfsOf 3 r).head?.map s.surfH).getD 0
      let event := f.due || (f.marker && a = h)
      if s.follows 4 (s.pointTime 4 0 r f.ts) && !s.ownWall s.frameAfterNow then
        match s.jnl.held.find? (fun e => e.kind = 4 && e.unit = r && e.a = f.ts) with
        | some e =>
          if e.b ≤ a then s.vidClose r f e.b e.frame (some e) false
          else if force then s.vidClose r f a s.frameAfterNow none true
          else if event then s.block 4 0 r f.ts s.nowNs else s
        | none =>
          if force then s.vidClose r f a s.frameAfterNow none true
          else if event then s.block 4 0 r f.ts s.nowNs else s
      else if event then s.vidClose r f a s.frameAfterNow none false
      else s

/-- Every open frame of a stream is looked at. [assumption 48, DEDUCED] -/
def State.vidResume (s : State) (r : Nat) : State := (s.rx r).vids.foldl (fun s f => s.vidCheck r f.num false) s

/-- A packet of a type 1 stream. [assumption 48, DEDUCED] -/
def State.videoPacket (s : State) (r t ts : Nat) (marker : Bool) (payload : List Byte) : State :=
  let x := s.rx r
  if x.closed.contains ts then s.rxDrop r
  else
    let n := (s.surfsOf 3 r).head?
    let pieces := match n with
      | some n => videoPieces (s.fld (F.WALL_SURF_CFG_fmt n)) (s.surfW n) (s.surfH n) payload
      | none => some []
    match pieces with
    | none => s.rxDrop r
    | some ps =>
      let s := if x.vids.any (fun f => f.ts = ts) then s
        else
          let s := match x.vids.filter (fun f => !f.due) with
            | f :: _ :: _ => (s.setVid r { f with due := true }).vidCheck r f.num false
            | _ => s
          let y := s.rx r
          s.setRx r { y with count := y.count + 1, vids := y.vids ++ [⟨y.count, ts, t, [], false, n.isNone, false⟩] }
      match (s.rx r).vids.find? (fun f => f.ts = ts) with
      | some f =>
        let fmt := (n.map (fun n => s.fld (F.WALL_SURF_CFG_fmt n))).getD 0
        let g := if f.dead then f else ps.foldl (fun f p => f.add fmt p) f
        (s.setVid r { g with marker := g.marker || marker }).vidCheck r f.num false
      | none => s

/-- RX_FRAME_DEADLINE: the oldest open frame of a stream reaches its deadline. -/
def State.vidDeadline (s : State) (r : Nat) : State :=
  match (s.rx r).vids.find? (fun f => !f.due) with
  | some f => ((s.reach (f.first + (s.boundary 4 r).getD 0)).setVid r { f with due := true }).vidCheck r f.num false
  | none => s

@[inherit_doc State.vidDeadline] def execRxFrameDeadline (r : Nat) (s : State) : Host.Outcome State Fault Refusal :=
  done (s.vidDeadline (r % 64))

/-! ## Type 2: HEVC in RTP (R295, R397) -/

/-- The NAL units of an aggregation packet as Annex B bytes. [assumption 49, DEDUCED] -/
def aggregate : Nat → List Byte → Option (List Byte)
  | 0, _ => none
  | _, [] => some []
  | n + 1, l =>
    let k := beAt l 0 2
    if l.length < 2 ∨ k < 2 ∨ l.length < 2 + k then none
    else (aggregate n (l.drop (2 + k))).map (fun r => [0, 0, 0, 1] ++ slice l 2 k ++ r)

/-- An RFC 7798 payload as a packet of an access unit. -/
def rtpPkt (seq : Nat) (marker : Bool) (p : List Byte) : Option RtpPkt :=
  let ty := bitsOf (beAt p 0 1) 6 1
  if p.length < 2 then none
  else if ty < 48 then some ⟨seq, marker, false, true, true, [0, 0, 0, 1] ++ p⟩
  else if ty = 48 ∧ 2 < p.length then (aggregate p.length (p.drop 2)).map (fun b => ⟨seq, marker, false, true, true, b⟩)
  else if ty = 49 ∧ 4 ≤ p.length then
    let h := beAt p 2 1
    let first := h.testBit 7
    let nal := beBytes 1 ((beAt p 0 1 &&& 0x81) + 2 * (h % 64)) ++ slice p 1 1
    some ⟨seq, marker, true, first, h.testBit 6, (if first then [0, 0, 0, 1] ++ nal else []) ++ p.drop 3⟩
  else none

/-- A packet put in its place in sequence order. [assumption 49, DEDUCED] -/
def insertPkt (p : RtpPkt) : List RtpPkt → List RtpPkt
  | [] => [p]
  | q :: r => if laterThan 16 q.seq p.seq then p :: q :: r else q :: insertPkt p r

/-- The run of consecutive packets after one, within `room` bytes: whether it ends at a marker, and its bytes. -/
def runFrom (room : Nat) (prev : RtpPkt) : List RtpPkt → Bool × List Byte
  | [] => (false, [])
  | q :: r =>
    let follows := q.seq = (prev.seq + 1) % 65536
    let joins := !q.fu || (if q.first then !(prev.fu && !prev.last) else prev.fu && !prev.last)
    if prev.marker || !follows || !joins || decide (room < q.bytes.length) then (prev.marker, [])
    else
      let x := runFrom (room - q.bytes.length) q r
      (x.1 || (r.isEmpty && q.marker), q.bytes ++ x.2)

/-- The accepted bytes of an access unit: whether its run ends at its marker, its bytes, and whether any packet begins a NAL
unit. [assumption 49, DEDUCED] -/
def RtpUnit.run (u : RtpUnit) (room : Nat) : Bool × List Byte × Bool :=
  match u.pkts.dropWhile (fun p => !p.first) with
  | [] => (false, [], false)
  | p :: r =>
    if room < p.bytes.length then (false, [], true)
    else
      let x := runFrom (room - p.bytes.length) p r
      (x.1 || p.marker, p.bytes ++ x.2, true)

/-- An access unit changed. -/
def State.setUnit (s : State) (r ts : Nat) (f : RtpUnit → RtpUnit) : State :=
  let x := s.rx r
  s.setRx r { x with units := x.units.map (fun u => if u.ts = ts then f u else u) }

/-- Closed access units at the front go to their session, in RTP sequence order. [assumption 49, DEDUCED] -/
def State.unitsOut (r : Nat) : Nat → State → State
  | 0, s => s
  | n + 1, s =>
    let x := s.rx r
    match x.units with
    | u :: rest =>
      match u.closed with
      | some (bytes, b) =>
        let k := s.fld (F.NET_RX_MEDIA_session r)
        let num := (s.ses k).aus
        let s := s.setRx r { x with units := rest, closed := closedStamps u.ts x.closed }
        let s := s.setSes k { s.ses k with aus := (num + 1) % 2 ^ 32 }
        let s : State := { s with cam := { s.cam with marks := mapSet s.cam.marks (65536 * (192 + k) + num % 65536) u.marks } }
        State.unitsOut r n (s.portSend .net k (auStart num u.ts u.first :: unitTokens bytes.length bytes ++ [auEnd bytes.length b]))
      | none => s
    | [] => s

/-- An access unit closes with a bytes of its run and `arg_b` of its entry. [assumption 49, DEDUCED] -/
def State.unitClose (s : State) (r : Nat) (u : RtpUnit) (bytes : List Byte) (b : Nat) (marks : Marks) : State :=
  let ring := s.rxRing r
  let s := s.dramWrite (ring.1 + u.slot * (ring.2 / 4)) bytes
  let s := s.setUnit r u.ts (fun u => { u with closed := some (bytes, b), marks := marks })
  let s := if b = 0 then s else s.rxCut r
  State.unitsOut r (s.rx r).units.length s

/-- The count of an access unit: the session's, plus the units before it that still stand. -/
def State.unitNum (s : State) (r ts : Nat) : Nat :=
  ((s.ses (s.fld (F.NET_RX_MEDIA_session r))).aus + ((s.rx r).units.takeWhile (fun u => u.ts != ts)).length) % 2 ^ 32

/-- An open access unit is looked at: it closes where its marker ends its run or a closing event has come; while kind 3 is
followed it closes at its entry's bytes once they have come (R295, R105, R106). -/
def State.unitCheck (s : State) (r ts : Nat) (force : Bool) : State :=
  match (s.rx r).units.find? (fun u => u.ts = ts && u.closed.isNone) with
  | none => s
  | some u =>
    let k := s.fld (F.NET_RX_MEDIA_session r)
    let n := s.unitNum r ts
    let run := u.run ((s.rxRing r).2 / 4)
    let event := u.due || run.1
    let bits := (if run.1 then 0 else 1) + (if run.2.2 then 0 else 2)
    match s.ruling 3 0 k n (s.pointTime 3 0 k n) none (s.ownCamera u.first) with
    | .locally =>
      if event then (s.jnlWrite 3 0 k n run.2.1.length bits 0 false false).unitClose r u run.2.1 bits .none else s
    | .entry e =>
      if e.a ≤ run.2.1.length then (s.replay e).unitClose r u (run.2.1.take e.a) (e.b % 4) ⟨false, true, false⟩
      else if force then
        (s.overrideWrite 3 0 k n run.2.1.length bits 0).unitClose r u run.2.1 bits ⟨false, false, true⟩
      else if event then s.block 3 0 k n s.nowNs else s
    | _ =>
      if force then (s.overrideWrite 3 0 k n run.2.1.length bits 0).unitClose r u run.2.1 bits ⟨false, false, true⟩
      else if event then s.block 3 0 k n s.nowNs else s

/-- The stream that feeds a session. -/
def State.sessionStream (s : State) (k : Nat) : Option Nat :=
  (List.range 64).find? (fun r => s.bit (F.NET_RX_CFG_enable r) && s.fld (F.NET_RX_CFG_type r) = 2 && s.fld (F.NET_RX_MEDIA_session r) = k)

/-- Every open access unit of a session's stream is looked at; `force`: the hold of the unit with this count has expired. -/
def State.unitResume (s : State) (k : Nat) (force : Option Nat) : State :=
  match s.sessionStream k with
  | some r => (s.rx r).units.foldl (fun (s : State) u => s.unitCheck r u.ts (force = some (s.unitNum r u.ts))) s
  | none => s

/-- A packet of a type 2 stream. [assumption 49, DEDUCED] -/
def State.unitPacket (s : State) (r t seq ts : Nat) (marker : Bool) (payload : List Byte) : State :=
  let x := s.rx r
  let k := s.fld (F.NET_RX_MEDIA_session r)
  let drop := fun (s : State) => (s.rxDrop r).bump (F.HEVC_SES_PKT_DROP_count k) 1
  if x.closed.contains ts || x.units.any (fun u => u.ts = ts && (u.closed.isSome || u.pkts.any (fun p => p.seq = seq))) then drop s
  else match rtpPkt seq marker payload with
    | none => drop s
    | some p =>
      let s := if x.units.any (fun u => u.ts = ts) then s
        else
          let openUnits := x.units.filter (fun u => u.closed.isNone && !u.due)
          let s := match openUnits with
            | u0 :: a :: b :: c :: l =>
              let u := (a :: b :: c :: l).foldl (fun (u v : RtpUnit) => if v.opened < u.opened then v else u) u0
              (s.setUnit r u.ts (fun u => { u with due := true })).unitCheck r u.ts false
            | _ => s
          let y := s.rx r
          let slot := ((List.range 4).find? (fun i => !y.units.any (fun u => u.slot = i && u.closed.isNone))).getD 0
          let fresh : RtpUnit := ⟨ts, t, slot, y.count, [], false, none, .none⟩
          let early := y.units.takeWhile (fun (u : RtpUnit) => u.closed.isSome || (match u.pkts with
            | q :: _ => !laterThan 16 q.seq seq
            | [] => true))
          s.setRx r { y with count := y.count + 1, units := early ++ fresh :: y.units.drop early.length }
      (s.setUnit r ts (fun u => { u with pkts := insertPkt p u.pkts })).unitCheck r ts false

/-- AU_DEADLINE: the oldest open access unit of a stream reaches its deadline. -/
def State.unitDeadline (s : State) (r : Nat) : State :=
  let us := (s.rx r).units.filter (fun u => u.closed.isNone && !u.due)
  match us with
  | [] => s
  | u0 :: rest =>
    let u := rest.foldl (fun (a : RtpUnit) b => if b.first < a.first then b else a) u0
    let d := (s.boundary 3 (s.fld (F.NET_RX_MEDIA_session r))).getD 0
    ((s.reach (u.first + d)).setUnit r u.ts (fun u => { u with due := true })).unitCheck r u.ts false

@[inherit_doc State.unitDeadline] def execAuDeadline (r : Nat) (s : State) : Host.Outcome State Fault Refusal :=
  done (s.unitDeadline (r % 64))

/-! ## Type 3: ST 2110-30 audio (R398) -/

/-- A packet of a type 3 stream: each sample frame is placed by its RTP timestamp. [assumption 49, DEDUCED] -/
def State.audioPacket (s : State) (r ts : Nat) (payload : List Byte) : State :=
  let c := s.fld (F.NET_RX_MEDIA_chans r) + 1
  let b := if s.bit (F.NET_RX_MEDIA_l24 r) then 3 else 2
  let n := payload.length / (c * b)
  if payload.length % (c * b) ≠ 0 ∨ 1440 < payload.length then s.rxDrop r
  else
    (List.range n).foldl (fun (s : State) i =>
      match s.rxGroup r with
      | none => s.rxDrop r
      | some x =>
        let y := s.audRx r
        let q := wrapTo 32 (((ts + i + s.fld (F.NET_RX_MEDIA_offset r) : Nat) : Int) - ((x.origin / 1000000000 * x.fs : Nat) : Int))
        let ahead := (q + 2 ^ 32 - 64 * x.next % 2 ^ 32) % 2 ^ 32
        let pos := 64 * x.next + ahead
        if 512 ≤ ahead ∨ pos < 64 * y.next ∨ (mapFind y.frames pos).isSome = true then s.rxDrop r
        else
          let words := (List.range c).map (fun k => beAt payload ((i * c + k) * b) b * 2 ^ (32 - 8 * b))
          s.setAudRx r { y with frames := mapSet y.frames pos words }) s

/-! ## Received frames (R394) -/

/-- The Internet checksum's sum over 16-bit words, folded. -/
def onesSum (l : List Byte) : Nat :=
  let n := ((List.range (ceilDiv l.length 2)).map (fun i => beNat (fitBytes 2 (slice l (2 * i) 2)))).sum
  let n := n % 65536 + n / 65536
  n % 65536 + n / 65536

/-- Whether PTP takes a frame of a port (R394, R413). -/
def State.ptpTakes (s : State) (port : Nat) (f : List Byte) : Bool :=
  s.bit F.ANCHOR_PTP_CFG_enable && (s.fld F.ANCHOR_PTP_PORTS_ports).testBit port && s.runs .anchor
    && (if s.bit F.ANCHOR_PTP_CFG_udp then
        beAt f 12 2 = 0x0800 && beAt f 14 1 = 0x45 && beAt f 23 1 = 17 && beAt f 30 4 = 0xE0000181
          && (beAt f 36 2 = 319 || beAt f 36 2 = 320)
      else beAt f 12 2 = 0x88F7)

/-- An RTP packet of a receive stream, at its arrival. [assumption 48, DEDUCED] -/
def State.rtpIn (s : State) (r t : Nat) (udp : List Byte) : State :=
  let cc := beAt udp 0 1 % 16
  let x := (beAt udp 0 1).testBit 4
  let ext := 12 + 4 * cc
  let start := if x then ext + 4 + 4 * beAt udp (ext + 2) 2 else ext
  let pad := if (beAt udp 0 1).testBit 5 then beAt udp (udp.length - 1) 1 else 0
  let s := s.bump (F.NET_RX_PKTS_count r) 1
  let s := if 12 ≤ udp.length then s.put (F.NET_RX_STATUS_last_seq r) (beAt udp 2 2) else s
  if udp.length < 12 ∨ beAt udp 0 1 / 64 ≠ 2 ∨ beAt udp 1 1 % 128 ≠ s.fld (F.NET_RX_CFG_pt r) ∨ udp.length < start + pad then
    s.rxDrop r
  else
    let payload := slice udp start (udp.length - start - pad)
    let marker := (beAt udp 1 1).testBit 7
    let ts := beAt udp 4 4
    match s.fld (F.NET_RX_CFG_type r) with
    | 1 => s.videoPacket r t ts marker payload
    | 2 => s.unitPacket r t (beAt udp 2 2) ts marker payload
    | _ => s.audioPacket r ts payload

/-- A received frame that neither Fenmas nor PTP takes. [assumption 48, DEDUCED] -/
def State.mediaIn (s : State) (port t : Nat) (f : List Byte) : State :=
  let ip := (f.take (f.length - 4)).drop 14
  let unmatched := s.bump F.NET_RX_UNMATCHED_count 1
  if beAt f 12 2 ≠ 0x0800 ∨ ip.length < 20 ∨ beAt ip 0 1 / 16 ≠ 4 then unmatched
  else if beAt ip 0 1 % 16 ≠ 5 ∨ beAt ip 6 2 % 0x4000 ≠ 0 then s.bump F.NET_RX_FRAG_count 1
  else
    let total := min (beAt ip 2 2) ip.length
    let seg := slice ip 20 (total - 20)
    let len := beAt seg 4 2
    if beAt ip 9 1 ≠ 17 ∨ seg.length < 8 ∨ len < 8 ∨ seg.length < len then unmatched
    else
      match (List.range 64).find? (fun r => s.bit (F.NET_RX_CFG_enable r) && s.fld (F.NET_RX_CFG_port r) = port
          && s.rd (R.NET_RX_DST_IP r) = beAt ip 16 4 && s.fld (F.NET_RX_CFG_udp_port r) = beAt seg 2 2
          && (s.rd (R.NET_RX_SRC_IP r) = 0 || s.rd (R.NET_RX_SRC_IP r) = beAt ip 12 4)) with
      | none => unmatched
      | some r =>
        let pseudo := slice ip 12 8 ++ [0, 17] ++ beBytes 2 len ++ seg.take len
        if beAt seg 6 2 ≠ 0 ∧ onesSum pseudo ≠ 65535 then (s.bump (F.NET_RX_PKTS_count r) 1).rxDrop r
        else s.rtpIn r t (slice seg 8 (len - 8))

/-- MEDIA_FRAME: an Ethernet frame, with its frame check sequence, arrives on a logical port. [assumption 48, DEDUCED] -/
def State.mediaFrame (s : State) (port t : Nat) (f : List Byte) : State :=
  let n := f.length
  if s.runs .net && s.portUp port && decide (18 ≤ n) && f.drop (n - 4) = frameCheck (f.take (n - 4)) then
    let s := s.reach t
    match s.fenSeen port f with
    | .ignored => if s.ptpTakes port f then s else s.mediaIn port t f
    | _ => s
  else s

@[inherit_doc State.mediaFrame] def execMediaFrame (port t : Nat) (frame : List Byte) (s : State) : Host.Outcome State Fault Refusal :=
  done (s.mediaFrame (port % 8) t frame)

/-! ## Send streams (R393, R399 to R402) -/

/-- Whether a DST_IP is a multicast address. -/
def multicast (ip : Nat) : Bool := ip / 2 ^ 28 = 14

/-- F of R401 at a rate. [assumption 50, DEDUCED] -/
def packetFrames (fs : Nat) (short : Bool) : Nat := if short then fs / 8000 else fs / 1000

/-- Whether a send stream may be enabled (R402). -/
def State.txOk (s : State) (t : Nat) : Bool :=
  let ip := s.rd (R.NET_TX_DST_IP t)
  let mac := s.rd (R.NET_TX_DST_MAC_LO t) + s.fld (F.NET_TX_DST_MAC_HI_mac_hi t) * 2 ^ 32
  s.portExists (s.fld (F.NET_TX_CFG_port t)) && ip != 0 && s.fld (F.NET_TX_CFG_dst_port t) != 0
    && (multicast ip || (mac != 0 && !mac.testBit 40))
    && (if t < 8 then (s.strandTo .net (8 + t)).isSome
      else if t < 72 then (s.strandTo .net (8 + t)).isSome && decide (512 ≤ s.fld (F.NET_TX_MEDIA_H_max_payload (t - 8)))
        && decide (s.fld (F.NET_TX_MEDIA_H_max_payload (t - 8)) ≤ 1428)
      else
        let j := t - 72
        decide (packetFrames (rateOf (s.fld (F.AUD_GRP_CFG_rate (s.fld (F.NET_TX_MEDIA_A_group j))))) (s.bit (F.NET_TX_MEDIA_A_short j))
          * (s.fld (F.NET_TX_MEDIA_A_count j) + 1) * (if s.bit (F.NET_TX_MEDIA_A_l24 j) then 3 else 2) ≤ 1440))

/-- The first packet that an audio send stream enabled now sends, the one whose first frame comes next in its group, and the
group's origin, 0 where it does not run: its packets then begin with block 0 (R401). [assumption 50, DEDUCED] -/
def State.txFirst (s : State) (j : Nat) : Nat × Nat :=
  match s.grp (s.fld (F.NET_TX_MEDIA_A_group j)) with
  | some x => (ceilDiv (64 * x.next) (packetFrames x.fs (s.bit (F.NET_TX_MEDIA_A_short j))), x.origin)
  | none => (0, 0)

/-- A write of NET_TXt_CFG (R402). The first RTP sequence number of a stream other than video is a free value.
[assumption 50, DEDUCED] -/
def State.txCfgWrite (s : State) (t v : Nat) : State :=
  let on := s.bit (F.NET_TX_CFG_enable t)
  let s := s.regWrite (R.NET_TX_CFG t) v
  if v % 2 = 1 then
    if on then s
    else if s.txOk t then
      let f := if t < 8 then (0, s) else s.free
      let first := f.2.txFirst (t - 72)
      let s := f.2.setTx t (if 72 ≤ t then ⟨f.1 % 65536, first.1, first.2⟩ else ⟨f.1 % 65536, 0, 0⟩)
      s.put (F.NET_TX_STATUS_active t) 1
    else (s.put (F.NET_TX_CFG_enable t) 0).put (F.NET_TX_STATUS_bad_cfg t) 1
  else s.put (F.NET_TX_STATUS_active t) 0

/-- TX_STREAM_ENABLE. -/
def execTxStreamEnable (m : Master) (t : Nat) (v : Word) (s : State) : Host.Outcome State Fault Refusal :=
  done (s.guardedWrite m (R.NET_TX_CFG (t % 80)) (fun s => s.txCfgWrite (t % 80) v.toNat))

/-- An IPv4 header with UDP (R393); the identification is a free value. [assumption 50, DEDUCED] -/
def ipHeader (src dst len ident dscp ttl : Nat) : List Byte :=
  let h := fun (c : Nat) => beBytes 1 0x45 ++ beBytes 1 (dscp * 4) ++ beBytes 2 len ++ beBytes 2 ident ++ beBytes 2 0x4000
    ++ beBytes 1 ttl ++ beBytes 1 17 ++ beBytes 2 c ++ beBytes 4 src ++ beBytes 4 dst
  h (65535 - onesSum (h 0))

/-- One RTP packet of a send stream leaves, or is counted where its port is down. [assumption 50, DEDUCED] -/
def State.rtpSend (s : State) (t ts : Nat) (marker : Bool) (payload : List Byte) : State :=
  let x := s.tx t
  let port := s.fld (F.NET_TX_CFG_port t)
  let s := s.setTx t { x with seq := x.seq + 1 }
  if s.portUp port then
    let id := s.free
    let s := id.2
    let rtp := beBytes 1 0x80 ++ beBytes 1 ((if marker then 128 else 0) + s.fld (F.NET_TX_CFG_pt t)) ++ beBytes 2 (x.seq % 65536)
      ++ beBytes 4 (ts % 2 ^ 32) ++ beBytes 4 (s.rd (R.NET_TX_SSRC t)) ++ payload
    let udp := beBytes 2 (s.fld (F.NET_TX_IPH_src_port t)) ++ beBytes 2 (s.fld (F.NET_TX_CFG_dst_port t)) ++ beBytes 2 (8 + rtp.length)
      ++ beBytes 2 0 ++ rtp
    let ip := s.rd (R.NET_TX_DST_IP t)
    let mac := if multicast ip then 0x01005E000000 + ip % 2 ^ 23
      else s.rd (R.NET_TX_DST_MAC_LO t) + s.fld (F.NET_TX_DST_MAC_HI_mac_hi t) * 2 ^ 32
    let head := ipHeader (s.rd (R.NET_IP port)) ip (20 + udp.length) (id.1 % 65536) (s.fld (F.NET_TX_IPH_dscp t)) (s.fld (F.NET_TX_IPH_ttl t))
    (s.bump (F.NET_TX_PKTS_count t) 1).emit (.ethernet port (etherFrame mac (s.srcMac port) [] 0x0800 (head ++ udp)))
  else s.bump (F.NET_TX_DROP_count t) 1

/-! ### ST 2110-20 (R399) -/

/-- A whole frame at the front of a stream's port: the tokens it takes, its FRAME_START, and its lines by number. -/
def frontFrame : Nat → List Token → Option (Nat × SMap (List Token))
  | 0, _ => none
  | _, [] => none
  | n + 1, t :: rest =>
    match tokenField t 7 0 with
    | 2 =>
      let k := tokenField t 63 32
      if rest.length < k then none
      else (frontFrame n (rest.drop k)).map (fun r => (r.1 + 1 + k, mapSet r.2 (tokenField t 31 16) (rest.take k)))
    | 3 => some (1, [])
    | _ => none

/-- The pgroups of a row of a frame, each as its samples in sending order; a sample outside the line is `none`. -/
def rowGroups (fmt w : Nat) (even odd : List Nat) (oddTokens : Nat) : List (List (Option Nat)) :=
  let g := pgroup fmt
  (List.range (ceilDiv w g.1)).map (fun i =>
    let px := fun (k c : Nat) => if i * g.1 + k < w then even[3 * (i * g.1 + k) + c]? else none
    match fmt with
    | 3 => (List.range 4).flatMap (fun k => [px k 1, px k 0, px k 2])
    | 4 | 5 => [even[4 * i + 1]?, even[4 * i]?, even[4 * i + 3]?, even[4 * i + 2]?]
    | 6 | 7 => [even[2 * i]?, even[2 * i + 1]?, odd[2 * i]?, odd[2 * i + 1]?, odd[16 * oddTokens + 2 * i]?, odd[16 * oddTokens + 2 * i + 1]?]
    | _ => (List.range g.1).flatMap (fun k => [px k 0, px k 1, px k 2]))

/-- Samples that a line does not have are free values. [assumption 50, DEDUCED] -/
def State.fillGroup (s : State) (l : List (Option Nat)) : List Nat × State :=
  let n := (l.filter Option.isNone).length
  (l.zipIdx.map (fun e => e.1.getD (Config.freeValue (s.freeCtr + (l.take e.2 |>.filter Option.isNone).length) % 65536)),
    { s with freeCtr := s.freeCtr + n })

/-- The bytes of one pgroup: its samples packed most significant bit first. The six samples of format 6 are shorter than the
15 bytes that R396 gives its pgroup; the bits after them are free values (R396, R399). [assumption 50, DEDUCED] -/
def State.packGroup (s : State) (fmt : Nat) (l : List (Option Nat)) : List Byte × State :=
  let g := pgroup fmt
  let f := s.fillGroup l
  let used := g.2.2.2 * f.1.length
  let room := 8 * g.2.2.1
  let v := f.1.foldl (fun a x => a * 2 ^ g.2.2.2 + x % 2 ^ g.2.2.2) 0
  if used < room then
    let pad := f.2.free
    (beBytes g.2.2.1 (v * 2 ^ (room - used) + pad.1 % 2 ^ (room - used)), pad.2)
  else (beBytes g.2.2.1 v, f.2)

/-- The packets of one line or line pair, from the bytes of its pgroups. -/
def State.sendRow (s : State) (t fmt row ts per : Nat) (groups : List (List Byte)) (last : Bool) : State :=
  let g := pgroup fmt
  let n := ceilDiv groups.length per
  (List.range n).foldl (fun (s : State) i =>
    let data := ((groups.drop (i * per)).take per).flatten
    let payload := beBytes 2 ((s.tx t).seq / 65536 % 65536) ++ beBytes 2 data.length ++ beBytes 2 row ++ beBytes 2 (i * per * g.1) ++ data
    s.rtpSend t ts (last && decide (i + 1 = n)) payload) s

/-- The RTP timestamp of an instant (R399). -/
def rtpTime (ns : Nat) : Nat := ns * 9 / 100000 % 2 ^ 32

/-- TX_VIDEO_FRAME: the frame at the front of NET input port 8 + v, once all of it has arrived. [assumption 50, DEDUCED] -/
def State.sendVideo (s : State) (v : Nat) : State :=
  match s.strandTo .net (8 + v) with
  | none => s
  | some (id, _) =>
    match s.strandStream id with
    | [] => s
    | t0 :: rest =>
      if !s.runs .net || !s.bit (F.NET_TX_CFG_enable v) || tokenField t0 7 0 != 1 then s
      else match frontFrame rest.length rest with
        | none => s
        | some (n, lines) =>
          let s := s.strandUse id (n + 1)
          let fmt := tokenField t0 15 8
          let w := tokenField t0 79 64
          let h := tokenField t0 95 80
          let g := pgroup fmt
          let px := s.fld (F.NET_TX_MEDIA_V_pkt_px v)
          let per := px / (g.1 * g.2.1)
          if 7 < fmt ∨ per = 0 ∨ px % (g.1 * g.2.1) ≠ 0 ∨ 1436 < per * g.2.2.1 + 8 then s.bump (F.NET_TX_DROP_count v) 1
          else
            let ts := rtpTime (tokenStamp t0)
            let rows := ceilDiv h g.2.1
            (List.range rows).foldl (fun (s : State) i =>
              let line := fun l => tokenSamples (mapGet [] lines l)
              let groups := rowGroups fmt w (line (i * g.2.1)) (line (i * g.2.1 + 1)) (ceilDiv w 16)
              let r := groups.foldl (fun (acc : List (List Byte) × State) k =>
                let f := acc.2.packGroup fmt k
                (acc.1 ++ [f.1], f.2)) (([] : List (List Byte)), s)
              r.2.sendRow v fmt (i * g.2.1) ts per r.1 (decide (i + 1 = rows))) s

@[inherit_doc State.sendVideo] def execTxVideoFrame (v : Nat) (s : State) : Host.Outcome State Fault Refusal := done (s.sendVideo (v % 8))

/-! ### HEVC in RTP (R400) -/

/-- The fragmentation units of a NAL unit: its payload after the header in pieces of `n` bytes. -/
def fragments (n : Nat) (nal : List Byte) : List (List Byte) :=
  let body := nal.drop 2
  let k := ceilDiv body.length n
  let b0 := beAt nal 0 1
  (List.range k).map (fun i =>
    beBytes 1 ((b0 &&& 0x81) + 98) ++ slice nal 1 1
      ++ beBytes 1 ((if i = 0 then 128 else 0) + (if i + 1 = k then 64 else 0) + bitsOf b0 6 1) ++ slice body (i * n) n)

/-- TX_ACCESS_UNIT: the access unit at the front of NET input port 16 + s. [assumption 50, DEDUCED] -/
def State.sendUnit (s : State) (k : Nat) : State :=
  let t := 8 + k
  match s.strandTo .net (16 + k) with
  | none => s
  | some (id, _) =>
    match frontUnit (s.strandStream id) with
    | none => s
    | some (n, t0, _, au) =>
      if !s.runs .net || !s.bit (F.NET_TX_CFG_enable t) then s
      else
        let s := s.strandUse id n
        let step := s.fld (F.NET_TX_MEDIA_H_ts_step k)
        let ts := if step = 0 then rtpTime (tokenStamp t0) else tokenField t0 63 32 * step % 2 ^ 32
        let most := s.fld (F.NET_TX_MEDIA_H_max_payload k)
        let pkts := ((nalUnits au).filter (fun l => !l.isEmpty)).flatMap (fun nal =>
          if nal.length ≤ most then [nal] else fragments (most - 3) nal)
        pkts.zipIdx.foldl (fun (s : State) p => s.rtpSend t ts (decide (p.2 + 1 = pkts.length)) p.1) s

@[inherit_doc State.sendUnit] def execTxAccessUnit (k : Nat) (s : State) : Host.Outcome State Fault Refusal := done (s.sendUnit (k % 64))

/-! ### ST 2110-30 (R401) -/

/-- One sample of a ring: its 32-bit word, or zero for a missing output block. -/
def State.ringSample (s : State) (g : Nat) (x : AudGroup) (n c : Nat) : Nat :=
  let all := x.counts.sum
  if x.missed.contains (n / 64) then 0 else leNat (s.dramRead (s.grpRecord g all (n / 64) + 32 + 4 * (all * (n % 64) + c)) 4)

/-- The DRAM range of one frame of an audio packet: the samples of channels `c0` to `c0 + n` that the group has. -/
def State.ringReads (s : State) (g : Nat) (x : AudGroup) (first c0 n i : Nat) : List (Nat × Nat) :=
  let all := x.counts.sum
  let f := first + i
  if x.missed.contains (f / 64) then []
  else [(s.grpRecord g all (f / 64) + 32 + 4 * (all * (f % 64) + c0), 4 * min (n + 1) (all - c0))]

/-- TX_AUDIO_PACKET: the next packet of an audio send stream, once the block of its last frame has been written or taken. A
stream whose `first` + `count` equals the group's C is sent, as R401 says; the channel that its last place then names is none
of the group's, and its samples are free values. [assumption 50, DESIGN CHOICE] -/
def State.sendAudio (s : State) (j : Nat) : State :=
  let t := 72 + j
  let g := s.fld (F.NET_TX_MEDIA_A_group j)
  match s.grp g with
  | none => s
  | some x =>
    let f := packetFrames x.fs (s.bit (F.NET_TX_MEDIA_A_short j))
    let y := s.tx t
    let y := if y.origin = x.origin then y else { y with origin := x.origin, next := 0 }
    let first := y.next * f
    if !s.runs .net || !s.bit (F.NET_TX_CFG_enable t) || decide (64 * x.next < first + f) then s
    else
      let s := s.setTx t { y with next := y.next + 1 }
      let c0 := s.fld (F.NET_TX_MEDIA_A_first j)
      let n := s.fld (F.NET_TX_MEDIA_A_count j)
      if x.counts.sum < c0 + n then
        s.bump (F.NET_TX_DROP_count t) (((List.range f).filter (fun i => (first + i) % 64 = 63)).length)
      else
        let b := if s.bit (F.NET_TX_MEDIA_A_l24 j) then 3 else 2
        let absent := c0 + n = x.counts.sum
        let k := s.freeCtr
        let s := if absent then { s with freeCtr := k + f } else s
        let s := (s.engineReads ((List.range f).flatMap (s.ringReads g x first c0 n))).2
        let payload := (List.range f).flatMap (fun i => (List.range (n + 1)).flatMap (fun c =>
          if absent ∧ c = n then beBytes b (Config.freeValue (k + i))
          else beBytes b (s.ringSample g x (first + i) (c0 + c) / 2 ^ (32 - 8 * b))))
        s.rtpSend t (x.origin / 1000000000 * x.fs + first) false payload

@[inherit_doc State.sendAudio] def execTxAudioPacket (j : Nat) (s : State) : Host.Outcome State Fault Refusal := done (s.sendAudio (j % 8))

/-! ## Registers (R403) -/

/-- A write of a NET media register. -/
def State.mediaRegWrite (s : State) (off v : Nat) : State :=
  if 0xE2000 ≤ off ∧ off < 0xE3000 then
    let r := (off - 0xE2000) / 0x40
    let o := (off - 0xE2000) % 0x40
    if o = 0 then s.rxCfgWrite r v
    else if o ≤ 0x18 then s.rxConfigWrite r off v
    else s.regWrite off v
  else if 0xE4000 ≤ off ∧ off < 0xE5400 ∧ (off - 0xE4000) % 0x40 = 0 then s.txCfgWrite ((off - 0xE4000) / 0x40) v
  else s.regWrite off v

end Sys2Proof.Machine
end

