-- ==== Sys2Proof/Machine/Anchor.lean ====
section
/-! DEFINITION. Chapter 10, Anchor time and its discipline (R405 to R412), PTP (R413 to R416), injection and two-step queues
(R417), and event timers (R419, R420). What R413 takes from IEEE 1588-2019 (message layouts, the best master clock
algorithm, the default of every field the spec does not set) is PRESUMED. -/
namespace Sys2Proof.Machine

/-! ## The servo (R408 to R411) -/

/-- Anchor time in 2^-16 ns. [assumption 7, DESIGN CHOICE] -/
def State.nowFine (s : State) : Nat := s.anchorT >>> 32

/-- The state of the clock: 0 FREERUN, 1 LOCKING, 2 LOCKED, 3 HOLDOVER (R409). -/
def State.clockState (s : State) : Nat := s.fld F.ANCHOR_STATUS_state

/-- ρ in 2^-8 ppb (R431). -/
def State.rate (s : State) : Int := signedOf 32 (s.rd R.ANCHOR_RATE)

/-- ρ takes a value. [assumption 51, DEDUCED] -/
def State.setRate (s : State) (r : Int) : State := s.wr R.ANCHOR_RATE (wrapTo 32 r)

/-- What `slew_max` allows, in 2^-8 ppb (R432). [assumption 51, DEDUCED] -/
def State.slewMax (s : State) : Int := ((clampN 1 1000 (s.fld F.ANCHOR_SERVO_slew_max) * 256000 : Nat) : Int)

/-- The servo sets ρ: the spec gives its filter no coefficients, so the value is free within `slew_max` (R409, R410).
[assumption 51, DEDUCED] -/
def State.servo (s : State) : State :=
  let f := s.free
  let b := s.slewMax
  f.2.setRate ((f.1 : Int) % (2 * b + 1) - b)

/-- The time spent LOCKED since ρ last changed is added to the record. -/
def State.lockSegment (s : State) : State :=
  let a := s.anchor
  { s with anchor := { a with
      segAt := s.nowNs
      segs := if s.clockState = 2 then (s.nowNs - a.segAt, s.rate) :: a.segs else a.segs } }

/-- Σ ρ × time over the newest `left` ns of the record. -/
def rateSum : Nat → List (Nat × Int) → Int × Nat
  | _, [] => (0, 0)
  | left, (d, r) :: rest =>
    let k := min d left
    let x := rateSum (left - k) rest
    ((k : Int) * r + x.1, k + x.2)

/-- ρ of HOLDOVER: its mean over the last 16 s spent LOCKED, rounded (R9), or its last value (R411). [assumption 51, DEDUCED] -/
def State.heldRate (s : State) : Int :=
  let x := rateSum 16000000000 s.anchor.segs
  if x.2 = 16000000000 then (2 * x.1 + 16000000000) / (2 * 16000000000)
  else s.rate

/-- The source is lost (R411). [assumption 51, DEDUCED] -/
def State.sourceLost (s : State) : State :=
  if s.clockState = 1 ∨ s.clockState = 2 then
    let s := s.lockSegment
    let s : State := { s with anchor := { s.anchor with holdAt := s.real, good := 0 } }
    ((s.setRate s.heldRate).put F.ANCHOR_STATUS_state 3).put F.ANCHOR_EVT_holdover 1
  else s

/-- Whether Anchor time may be stepped (R410). -/
def State.stepAllowed (s : State) : Bool :=
  !s.bit F.WALL_CTRL_enable && !(List.range 8).any s.grpHeld && !s.bit F.ANCHOR_SERVO_no_step && s.rig.change.isNone

/-! ## Event timers (R419, R420) -/

/-- The target of a `src` 0 timer in 2^-16 ns. -/
def State.tmrTarget (s : State) (t : Nat) : Nat :=
  ((s.rd (R.ANCHOR_TMR_T_SEC t 0) + s.rd (R.ANCHOR_TMR_T_SEC t 1) * 2 ^ 32) * 1000000000 + s.rd (R.ANCHOR_TMR_T_NS t) % 2 ^ 30) * 65536
    + (mapGet (0, 0) s.anchor.tmr t).1

/-- A `src` 0 timer's target set. -/
def State.setTarget (s : State) (t x : Nat) : State :=
  let ns := x / 65536
  let s := ((s.wr (R.ANCHOR_TMR_T_NS t) (ns % 1000000000)).wr (R.ANCHOR_TMR_T_SEC t 0) (ns / 1000000000 % 2 ^ 32)).wr
    (R.ANCHOR_TMR_T_SEC t 1) (ns / 1000000000 / 2 ^ 32 % 2 ^ 32)
  { s with anchor := { s.anchor with tmr := mapSet s.anchor.tmr t (x % 65536, (mapGet (0, 0) s.anchor.tmr t).2) } }

/-- The period of a timer in 2^-16 ns. -/
def State.tmrPeriod (s : State) (t : Nat) : Nat := s.rd (R.ANCHOR_TMR_PERIOD_NS t) * 65536 + s.fld (F.ANCHOR_TMR_PERIOD_FRAC_frac t)

/-- The present times of the frames that the clock has latched and of the next ones, of the timing mode in force. -/
def FrameClock.presents (c : FrameClock) : List Nat :=
  let r := c.roll
  ((c.frames.filter (fun f => f.wall = r.wall)).map (fun f => f.present)) ++ [r.mode.present r.next]

/-- The next firing of a `src` 1 timer, in ns: T_N plus the offset, after its latest one. [assumption 53, DEDUCED] -/
def State.frameTarget (s : State) (t : Nat) : Nat :=
  let off := signedOf 32 (s.rd (R.ANCHOR_TMR_T_NS t))
  let last := (mapGet (0, 0) s.anchor.tmr t).2
  let r := s.fclk.roll
  let at' := fun (p : Nat) => ((p : Int) + off).toNat
  match (s.fclk.presents.map at').filter (fun x => decide (last < x)) with
  | x :: l => l.foldl min x
  | [] => at' (r.mode.present (max r.next (r.mode.firstAt (((last : Int) + 1 - off).toNat))))

/-- A timer fires: its event bit, its owner, its output ball, which a late firing drives from now on (R419). A timer of the
frame clock fires for each wall frame; only a `src` 0 timer that is not periodic is one-shot (R419, R435).
[assumption 53, DEDUCED] -/
def State.fire (s : State) (t ns : Nat) (late : Bool) : State :=
  let s := s.put ⟨R.ANCHOR_TMR_EVT, t, t⟩ 1
  let s := if late then s.put (F.ANCHOR_TMR_STATUS_late t) 1 else s
  let s := match s.timerOwner t with
    | some (o, u) => s.emit (.timerFired t o u)
    | none => s
  let s := if s.bit (F.ANCHOR_TMR_CTRL_pulse t) then
      let from_ := if late then s.nowNs else ns
      let pulses := s.anchor.pulses.filter (fun (p : Nat × Nat) => p.1 != t) ++ [(t, from_ + s.fld (F.ANCHOR_TMR_CTRL_width t) * 16)]
      ({ s with anchor := { s.anchor with pulses := pulses } } : State).emit (.timerBall t true)
    else s
  if s.bit (F.ANCHOR_TMR_CTRL_periodic t) || s.bit (F.ANCHOR_TMR_CTRL_src t) then s
  else (s.put (F.ANCHOR_TMR_CTRL_enable t) 0).put (F.ANCHOR_TMR_STATUS_armed t) 0

/-- A timer whose target has come fires, and a periodic one moves on. [assumption 53, DEDUCED] -/
def State.fireDue (s : State) (t : Nat) (late : Bool) : State :=
  if s.bit (F.ANCHOR_TMR_CTRL_src t) then
    let x := s.frameTarget t
    ({ s with anchor := { s.anchor with tmr := mapSet s.anchor.tmr t (0, x) } }).fire t x late
  else
    let x := s.tmrTarget t
    let s := s.fire t (x / 65536) late
    if s.bit (F.ANCHOR_TMR_CTRL_periodic t) then s.setTarget t (x + s.tmrPeriod t) else s

/-- Whether a multi-function ball is claimed by the image for a function (R39, R560). [assumption 51, DEDUCED] -/
def State.ballClaimed (s : State) (fn : Nat) : Bool :=
  s.bodies.any (fun r => match r with | .ball _ _ f _ => f = fn | _ => false)

/-- Whether a timer may be enabled (R419). -/
def State.timerOk (s : State) (t : Nat) : Bool :=
  let off := signedOf 32 (s.rd (R.ANCHOR_TMR_T_NS t))
  (!s.bit (F.ANCHOR_TMR_CTRL_pulse t) || s.ballClaimed (0x300 + t))
    && (!s.bit (F.ANCHOR_TMR_CTRL_periodic t) || decide (1000 ≤ s.rd (R.ANCHOR_TMR_PERIOD_NS t)))
    && (!s.bit (F.ANCHOR_TMR_CTRL_src t) || (decide (-500000000 ≤ off) && decide (off ≤ 499999999)))
    && s.fld (F.ANCHOR_TMR_CTRL_width t) != 0

/-- Whether a timer's page takes writes: it is owned by HOST or MGT (R420). -/
def State.timerWritable (s : State) (t : Nat) : Bool :=
  match s.timerOwner t with
  | some (o, _) => o = 2 || o = 5
  | none => false

/-- A write of ANCHOR_TMRt_CTRL. [assumption 53, DEDUCED] -/
def State.timerCtrl (s : State) (t v : Nat) : State :=
  let o := R.ANCHOR_TMR_CTRL t
  let old := s.rd o
  let v := v &&& 0xFFFF000F
  if !s.timerWritable t then s
  else if old % 2 = 1 then
    let s := if v / 2 ≠ old / 2 then s.put (F.ANCHOR_TMR_STATUS_bad_cfg t) 1 else s
    if v % 2 = 1 then s else (s.wr o (old - 1)).put (F.ANCHOR_TMR_STATUS_armed t) 0
  else
    let s := s.wr o (v / 2 * 2)
    if v % 2 = 1 then
      if s.timerOk t then
        let s := (s.wr o v).put (F.ANCHOR_TMR_STATUS_armed t) 1
        let s : State := { s with anchor := { s.anchor with tmr := mapSet s.anchor.tmr t (0, s.nowNs) } }
        if !s.bit (F.ANCHOR_TMR_CTRL_src t) && decide (s.tmrTarget t < s.nowFine) then s.fireDue t true else s
      else s.put (F.ANCHOR_TMR_STATUS_bad_cfg t) 1
    else s

/-- A write to a timer's page. [assumption 53, DEDUCED] -/
def State.timerWrite (s : State) (off v : Nat) : State :=
  let t := (off - 0xF1000) / 0x20
  let r := (off - 0xF1000) % 0x20
  if !s.timerWritable t then s
  else if r = 0 then s.timerCtrl t v
  else if r = 0x18 then s.regWrite off v
  else if s.bit (F.ANCHOR_TMR_CTRL_enable t) then s.put (F.ANCHOR_TMR_STATUS_bad_cfg t) 1
  else s.regWrite off v

/-- TIMER_ENABLE. -/
def execTimerEnable (m : Master) (t : Nat) (v : Word) (s : State) : Host.Outcome State Fault Refusal :=
  done (s.guardedWrite m (R.ANCHOR_TMR_CTRL (t % 32)) (fun s => s.timerWrite (R.ANCHOR_TMR_CTRL (t % 32)) v.toNat))

/-- TIMER_FIRE: an armed timer reaches its target. -/
def execTimerFire (t : Nat) (s : State) : Host.Outcome State Fault Refusal :=
  let t := t % 32
  done (if s.runs .anchor && s.bit (F.ANCHOR_TMR_STATUS_armed t) then
    (s.reach (if s.bit (F.ANCHOR_TMR_CTRL_src t) then s.frameTarget t else s.tmrTarget t / 65536)).fireDue t false
  else s)

/-- PULSE_END: a timer's output falls. -/
def execPulseEnd (t : Nat) (s : State) : Host.Outcome State Fault Refusal :=
  let t := t % 32
  done (match s.anchor.pulses.find? (fun p => p.1 = t) with
    | some p =>
      let s := s.reach p.2
      let pulses := s.anchor.pulses.filter (fun (q : Nat × Nat) => q.1 != t)
      ({ s with anchor := { s.anchor with pulses := pulses } } : State).emit (.timerBall t false)
    | none => s)

/-- A timer after a forward step from `old` to `new` (2^-16 ns): passed over, it fires once, late (R420). -/
def State.timerStepped (s : State) (old new t : Nat) : State :=
  if !s.bit (F.ANCHOR_TMR_STATUS_armed t) then s
  else if s.bit (F.ANCHOR_TMR_CTRL_src t) then
    let x := s.frameTarget t * 65536
    let s := if old ≤ x ∧ x ≤ new then s.fireDue t true else s
    { s with anchor := { s.anchor with tmr := mapSet s.anchor.tmr t (0, new / 65536) } }
  else
    let x := s.tmrTarget t
    if old ≤ x ∧ x ≤ new then
      let s := s.fire t (new / 65536) true
      if s.bit (F.ANCHOR_TMR_CTRL_periodic t) then
        let p := max 1 (s.tmrPeriod t)
        let n := (new - x) / p
        (s.setTarget t (x + (n + 1) * p)).bump (F.ANCHOR_TMR_STATUS_missed t) n
      else s
    else s

/-! ## Steps (R410, R418, R420) -/

/-- Outstanding reference frames pass their deadline and present time with a step. Wall frames that a disabled wall still
completes keep theirs (R312, R418). -/
def State.settleFrames (s : State) : State :=
  let s := (s.fclk.frames.filter (fun f => !f.due && !f.wall)).foldl (fun (s : State) f => s.surfDeadline f) s
  let frames := s.fclk.frames.map (fun f => if f.wall then f else { f with due := true, lit := true, presented := true })
  let s : State := { s with fclk := { s.fclk with frames := frames } }
  s.sweepFrames

/-- The pulses that are high keep their width across a step of Anchor time (R419). -/
def State.movePulses (s : State) (old new : Nat) : State :=
  { s with anchor := { s.anchor with
    pulses := s.anchor.pulses.map (fun p => (p.1, ((p.2 : Int) + ((new / 65536 : Nat) : Int) - ((old / 65536 : Nat) : Int)).toNat)) } }

/-- Anchor time is stepped to a value in 2^-48 ns. The frame clock goes on with the first reference frame whose latch point is
at or after it, and after the present time of every wall frame still outstanding (R418). [assumption 51, DEDUCED] -/
def State.stepTime (s : State) (t : Nat) : State :=
  let old := s.nowFine
  let s := s.lockSegment
  let ahead := decide (s.anchorT < t)
  let frames := if ahead then (List.range 32).filter (fun k => s.bit (F.ANCHOR_TMR_STATUS_armed k)) else []
  let s := if ahead then frames.foldl (fun (s : State) k => s.timerStepped old (t >>> 32) k) s
    else ({ s with anchor := { s.anchor with tmr := s.anchor.tmr.map (fun e => (e.1, (e.2.1, min e.2.2 (t >>> 48)))) } })
  let s := (s.movePulses old (t >>> 32)).settleFrames
  let left := ((s.fclk.frames.filter (fun f => f.wall && !f.lit)).map (fun f => f.present + 1)).foldl max 0
  let s : State := { s with
    anchorT := t
    fclk := { s.fclk with next := s.fclk.mode.firstLatch (max left (ceilDiv t (2 ^ 48))) }
    anchor := { s.anchor with segAt := t >>> 48, diff := none, ptp := s.anchor.ptp.map (fun e => (e.1, { e.2 with sync := none, req := none })) } }
  (s.put F.ANCHOR_STATUS_stepped 1).put F.ANCHOR_EVT_step 1

/-- SET_TIME: a `go` of ANCHOR_SET_CTRL (R410). -/
def State.setTime (s : State) : State :=
  let ns := s.fld F.ANCHOR_SET_NS_ns
  if 1000000000 ≤ ns ∨ s.stepAllowed = false then s.put F.ANCHOR_SET_CTRL_refused 1
  else s.stepTime (((s.rd (R.ANCHOR_SET_SEC 0) + s.rd (R.ANCHOR_SET_SEC 1) * 2 ^ 32) * 1000000000 + ns) <<< 48)

/-- A write of ANCHOR_SET_CTRL. -/
def State.setCtrlWrite (s : State) (v : Nat) : State :=
  let s := s.regWrite R.ANCHOR_SET_CTRL v
  if v % 2 = 1 then s.setTime else s

@[inherit_doc State.setTime] def execSetTime (m : Master) (s : State) : Host.Outcome State Fault Refusal :=
  done (s.guardedWrite m R.ANCHOR_SET_CTRL (fun s => s.setCtrlWrite 1))

/-! ## Measurements (R409, R410) -/

/-- One offset measurement from the selected source, in 2^-16 ns: the local time less the source's.
[assumption 51, DEDUCED] -/
def State.measure (s : State) (off : Int) : State :=
  let s := s.wr R.ANCHOR_OFFSET (wrapTo 32 (clampI (-2147483648) 2147483647 (roundShift 16 off)))
  let mag := off.natAbs
  let small := decide (mag < 100 * 65536)
  let s := s.lockSegment
  let st := s.clockState
  let good := if small then (if st = 1 ∨ st = 2 then s.anchor.good + 1 else 1) else 0
  let s : State := { s with anchor := { s.anchor with good := min good 16 } }
  let s := match st with
    | 0 | 3 => s.put F.ANCHOR_STATUS_state 1
    | 1 => if 16 ≤ good then (s.put F.ANCHOR_STATUS_state 2).put F.ANCHOR_EVT_locked 1 else s
    | _ => if 1000 * 65536 ≤ mag then s.put F.ANCHOR_STATUS_state 1 else s
  let s := if decide (max 1 (s.fld F.ANCHOR_SERVO_step_thr) * 1000 * 65536 < mag) && s.stepAllowed then
      s.stepTime (((s.anchorT : Int) - off * (2 ^ 32 : Nat)).toNat)
    else s
  s.servo

/-- ANCHOR_SRC_WRITE: a write of ANCHOR_CTRL (R408, R409). [assumption 51, DEDUCED] -/
def State.srcWrite (s : State) (v : Nat) : State :=
  let src := v % 8
  let pps := src = 2 || src = 3
  let ref := src = 3 || src = 4
  if 4 < src || (pps && !s.ballClaimed 0x400) || (ref && !s.ballClaimed 0x401) then s.put F.ANCHOR_STATUS_bad_cfg 1
  else
    let s := (s.lockSegment.put F.ANCHOR_CTRL_src src).put F.ANCHOR_STATUS_state 0
    let s : State := { s with anchor := { s.anchor with good := 0 } }
    if src = 0 then s.setRate 0 else s

@[inherit_doc State.srcWrite] def execAnchorSrcWrite (m : Master) (v : Word) (s : State) : Host.Outcome State Fault Refusal :=
  done (s.guardedWrite m R.ANCHOR_CTRL (fun s => s.srcWrite v.toNat))

/-- A read of ANCHOR_NS: the seconds and the fraction of the same instant are captured (R407). -/
def State.nsRead (s : State) : Nat × State :=
  let n := s.nowNs
  let sec := n / 1000000000
  (n % 1000000000, (((s.wr (R.ANCHOR_SEC 0) (sec % 2 ^ 32)).wr (R.ANCHOR_SEC 1) (sec / 2 ^ 32 % 2 ^ 32)).wr R.ANCHOR_FRAC
    (s.nowFine % 65536)))

/-- ANCHOR_NS_READ. -/
def execAnchorNsRead (m : Master) (s : State) : Host.Outcome State Fault Refusal := done (s.guardedRead m R.ANCHOR_NS State.nsRead)

/-- PPS_EDGE at an Anchor ns with its fraction in 2^-16 ns (R412). -/
def State.ppsEdge (s : State) (t frac : Nat) : State :=
  if !s.runs .anchor then s
  else
    let s := s.reachAt t frac
    let src := s.fld F.ANCHOR_CTRL_src
    let fine := t * 65536 + frac % 65536
    let off := fine % (1000000000 * 65536)
    if src = 2 ∨ src = 3 then
      if s.clockState = 2 ∧ 1000000 * 65536 < off ∧ off < 999000000 * 65536 then s.bump F.ANCHOR_PPS_BAD_count 1
      else
        let sec := s.rd2 (R.ANCHOR_PPS_SEC 0) (R.ANCHOR_PPS_SEC 1)
        let next := (sec + 1) % 2 ^ 64
        let s := (s.wr (R.ANCHOR_PPS_SEC 0) (next % 2 ^ 32)).wr (R.ANCHOR_PPS_SEC 1) (next / 2 ^ 32)
        let s : State := { s with anchor := { s.anchor with ppsAt := some s.real } }
        s.measure ((fine : Int) - ((sec * 1000000000 * 65536 : Nat) : Int))
    else s

@[inherit_doc State.ppsEdge] def execPpsEdge (t frac : Nat) (s : State) : Host.Outcome State Fault Refusal := done (s.ppsEdge t frac)

/-- PPS_LOSS: two expected edges are missed. -/
def execPpsLoss (s : State) : Host.Outcome State Fault Refusal :=
  done (if s.fld F.ANCHOR_CTRL_src = 2 ∨ s.fld F.ANCHOR_CTRL_src = 3 then s.sourceLost else s)

/-- REF10_LOSS: no 10 MHz edge for 1 µs; the frequency comes from the PPS or PTP source (R411). -/
def execRef10Loss (s : State) : Host.Outcome State Fault Refusal := done { s with anchor := { s.anchor with ref10 := false } }

/-- REF10_RESTORE: the 10 MHz input has run for 1 s without a gap. -/
def execRef10Restore (s : State) : Host.Outcome State Fault Refusal := done { s with anchor := { s.anchor with ref10 := true } }

/-! ## PTP: settings (R413, R414, R433) -/

/-- A port's state (R431): 0 DISABLED, 1 LISTENING, 2 UNCALIBRATED, 3 SLAVE, 4 MASTER, 5 PASSIVE, 6 FAULTY. -/
def State.ptpState (s : State) (p : Nat) : Nat := bitsOf (s.rd R.ANCHOR_PTP_STATE) (4 * p + 3) (4 * p)

/-- A port's state set. -/
def State.setPtpState (s : State) (p st : Nat) : State :=
  s.wr R.ANCHOR_PTP_STATE (putBits (s.rd R.ANCHOR_PTP_STATE) (4 * p + 3) (4 * p) st)

/-- The ports that PTP uses. -/
def State.ptpPorts (s : State) : List Nat := portsOf (s.fld F.ANCHOR_PTP_PORTS_ports)

/-- Whether the settings keep R413 and R414. -/
def State.ptpOk (s : State) : Bool :=
  let n := s.ptpPorts.length
  let sync := signedOf 8 (s.fld F.ANCHOR_PTP_INTV_log_sync)
  let ann := signedOf 8 (s.fld F.ANCHOR_PTP_INTV_log_announce)
  let req := signedOf 8 (s.fld F.ANCHOR_PTP_INTV_log_delay_req)
  let tmo := s.fld F.ANCHOR_PTP_INTV_announce_timeout
  (if s.bit F.ANCHOR_PTP_CFG_bc then decide (2 ≤ n) else n = 1) && s.ptpPorts.all s.portExists
    && decide (-7 ≤ sync) && decide (sync ≤ 1) && decide (-3 ≤ ann) && decide (ann ≤ 3) && decide (-7 ≤ req) && decide (req ≤ 5)
    && decide (2 ≤ tmo) && decide (tmo ≤ 10)

/-- PTP starts afresh on every port, or stops on every port. -/
def State.ptpRestart (s : State) : State :=
  let s : State := { s with anchor := { s.anchor with foreign := [], parent := none, delay := 0, diff := none, ptp := [] } }
  let s := s.wr R.ANCHOR_PTP_STATE 0
  if s.bit F.ANCHOR_PTP_CFG_enable then
    if s.ptpOk then s.ptpPorts.foldl (fun (s : State) p => s.setPtpState p 1) s
    else (s.put F.ANCHOR_PTP_CFG_enable 0).put F.ANCHOR_STATUS_bad_cfg 1
  else s

/-- PTP_CFG_WRITE: a write of a PTP register. -/
def State.ptpCfgWrite (s : State) (off v : Nat) : State :=
  let was := s.ptpPorts.any (fun p => s.ptpState p != 0)
  let s := s.regWrite off v
  if was || s.bit F.ANCHOR_PTP_CFG_enable then s.ptpRestart else s

/-- The PTP registers (R433): ANCHOR_PTP_CFG to ANCHOR_PTP_IP. -/
def ptpOffset (n : Nat) : Nat := 0xF0040 + 4 * (n % 7)

@[inherit_doc State.ptpCfgWrite] def execPtpCfgWrite (m : Master) (reg : Nat) (v : Word) (s : State) : Host.Outcome State Fault Refusal :=
  done (s.guardedWrite m (ptpOffset reg) (fun s => s.ptpCfgWrite (ptpOffset reg) v.toNat))

/-! ## PTP: messages -/

/-- The clock identity and a port's identity. -/
def State.clockId (s : State) : Nat := s.rd (R.ANCHOR_PTP_ID 0) + s.rd (R.ANCHOR_PTP_ID 1) * 2 ^ 32
@[inherit_doc State.clockId] def State.portId (s : State) (p : Nat) : Nat := s.clockId * 65536 + p + 1

/-- A PTP port's own state. -/
def State.ptpPort (s : State) (p : Nat) : PtpPort := mapGet ⟨0, 0, 0, none, none⟩ s.anchor.ptp p

/-- A PTP port's own state changed. -/
def State.setPtpPort (s : State) (p : Nat) (x : PtpPort) : State := { s with anchor := { s.anchor with ptp := mapSet s.anchor.ptp p x } }

/-- A time in 2^-16 ns as the 10 bytes of a timestamp; the fraction is left out. -/
def ptpStamp (x : Nat) : List Byte := beBytes 6 (x / 65536 / 1000000000 % 2 ^ 48) ++ beBytes 4 (x / 65536 % 1000000000)

/-- A timestamp of a message, in 2^-16 ns. -/
def stampAt (b : List Byte) (a : Nat) : Int := (((beAt b a 6 * 1000000000 + beAt b (a + 6) 4) * 65536 : Nat) : Int)

/-- The correctionField of a message, in 2^-16 ns. -/
def correction (b : List Byte) : Int := signedOf 64 (beAt b 8 8)

/-- A PTP message is sent on a logical port. -/
def State.ptpSend (s : State) (p ty flags : Nat) (corr : Int) (seq control logIntv : Nat) (body : List Byte) : State :=
  if !s.portUp p then s
  else
    let msg := beBytes 1 ty ++ beBytes 1 0x12 ++ beBytes 2 (34 + body.length) ++ beBytes 1 (s.fld F.ANCHOR_PTP_CFG_domain) ++ beBytes 1 0
      ++ beBytes 2 flags ++ beBytes 8 (wrapTo 64 corr) ++ beBytes 4 0 ++ beBytes 10 (s.portId p) ++ beBytes 2 seq ++ beBytes 1 control
      ++ beBytes 1 logIntv ++ body
    if s.bit F.ANCHOR_PTP_CFG_udp then
      let id := s.free
      let port := if ty < 8 then 319 else 320
      let udp := beBytes 2 port ++ beBytes 2 port ++ beBytes 2 (8 + msg.length) ++ beBytes 2 0 ++ msg
      let head := ipHeader (s.rd R.ANCHOR_PTP_IP) 0xE0000181 (20 + udp.length) (id.1 % 65536) 0 1
      id.2.emit (.ethernet p (etherFrame 0x01005E000181 (s.srcMac p) [] 0x0800 (head ++ udp)))
    else s.emit (.ethernet p (etherFrame 0x011B19000000 (s.srcMac p) [] 0x88F7 msg))

/-- The PTP message of a received frame, where PTP takes it. [assumption 52, PRESUMED] -/
def State.ptpMessage (s : State) (p : Nat) (f : List Byte) : Option (List Byte) :=
  let n := f.length
  if s.runs .net && s.portUp p && decide (18 ≤ n) && f.drop (n - 4) = frameCheck (f.take (n - 4)) && s.ptpTakes p f
      && s.ptpState p != 0 then
    let b := (f.take (n - 4)).drop (if s.bit F.ANCHOR_PTP_CFG_udp then 42 else 14)
    if 34 ≤ b.length ∧ beAt b 1 1 % 16 = 2 ∧ beAt b 1 1 / 16 ≤ 1 ∧ beAt b 2 2 ≤ b.length then some (b.take (beAt b 2 2)) else none
  else none

/-! ## PTP: best master clock -/

/-- The clock's own data set. [assumption 52, PRESUMED] -/
def State.ownData (s : State) : Announce :=
  ⟨s.fld F.ANCHOR_PTP_CFG_priority1, s.fld F.ANCHOR_PTP_DS_clock_class, s.fld F.ANCHOR_PTP_DS_clock_accuracy, s.fld F.ANCHOR_PTP_DS_variance,
    s.fld F.ANCHOR_PTP_CFG_priority2, s.clockId, 0, 0, 0, 0xA0, s.clockId * 65536⟩

/-- An Announce message's data. [assumption 52, PRESUMED] -/
def announceOf (b : List Byte) : Announce :=
  ⟨beAt b 47 1, beAt b 48 1, beAt b 49 1, beAt b 50 2, beAt b 52 1, beAt b 53 8, beAt b 61 2, beAt b 44 2, beAt b 6 2, beAt b 63 1, beAt b 20 10⟩

/-- Whether a list of attributes comes before another in the order of the best master clock algorithm. -/
def lexLess : List Nat → List Nat → Bool
  | a :: r, b :: q => decide (a < b) || (a = b && lexLess r q)
  | _, _ => false

/-- What the data set comparison of IEEE 1588-2019 finds of a data set A beside another. -/
inductive DataOrder where
  | better | betterByTopology | worse
deriving DecidableEq, Repr

/-- The data set comparison: A received on port `pa` of clock `me`, B on port `pb`. With one grandmaster, steps removed that
differ by two or more decide; where they differ by one, the data set with fewer is better by topology where the other's
receiver has a higher identity than its sender; where they are equal, the sender's identity decides, then the receiver's port,
by topology. [assumption 52, PRESUMED] -/
def Announce.order (me : Nat) (a : Announce) (pa : Nat) (b : Announce) (pb : Nat) : DataOrder :=
  if a.gm = b.gm then
    if a.steps + 1 < b.steps then .better
    else if b.steps ≤ a.steps + 1 ∧ a.steps < b.steps then
      (if b.sender < me * 65536 + pb + 1 then .betterByTopology else .better)
    else if b.steps < a.steps then .worse
    else if a.sender < b.sender ∨ (a.sender = b.sender ∧ pa < pb) then .betterByTopology
    else .worse
  else if lexLess [a.prio1, a.cls, a.acc, a.var, a.prio2, a.gm] [b.prio1, b.cls, b.acc, b.var, b.prio2, b.gm] then .better
  else .worse

/-- Whether a data set is better than another, or better by topology. -/
def Announce.better (me : Nat) (a : Announce) (pa : Nat) (b : Announce) (pb : Nat) : Bool := a.order me pa b pb != .worse

/-- Foreign masters that have announced themselves twice within four announce intervals. -/
def State.qualified (s : State) : List Foreign :=
  let ann := signedOf 8 (s.fld F.ANCHOR_PTP_INTV_log_announce)
  let window := if ann < 0 then 4000000000 / 2 ^ ann.natAbs else 4000000000 * 2 ^ ann.natAbs
  s.anchor.foreign.filter (fun f => decide (2 ≤ (f.times.filter (fun t => decide (s.nowNs ≤ t + window))).length)
    && decide (f.data.steps < 255))

/-- The best of a list of foreign masters. -/
def bestForeign (me : Nat) : List Foreign → Option Foreign
  | [] => none
  | f :: r => match bestForeign me r with
    | some g => if g.data.better me g.port f.data f.port then some g else some f
    | none => some f

/-- The state decision of IEEE 1588-2019 for a port. [assumption 52, PRESUMED] -/
def State.ptpDecide (s : State) (best : Option Foreign) (p : Nat) : State :=
  let me := s.clockId
  let d0 := s.ownData
  let slaveOnly := s.bit F.ANCHOR_PTP_CFG_slave_only && !s.bit F.ANCHOR_PTP_CFG_bc
  let erbest := bestForeign me (s.qualified.filter (fun f => f.port = p))
  let st := s.ptpState p
  let beats := fun (e : Option Foreign) => match e with
    | some e => d0.better me 0 e.data e.port
    | none => true
  let slave := fun (s : State) (e : Foreign) =>
    let new := match s.anchor.parent with
      | some (q, a) => q != p || a.sender != e.data.sender
      | none => true
    let s : State := { s with anchor := { s.anchor with
      parent := some (p, e.data), diff := if new then none else s.anchor.diff, delay := if new then 0 else s.anchor.delay } }
    if new || st < 2 || 3 < st then s.setPtpState p 2 else s
  if st = 0 ∨ st = 6 then s
  else if erbest.isNone ∧ st = 1 then s
  else if slaveOnly then
    match best with
    | some e => if e.port = p then slave s e else s.setPtpState p 1
    | none => s.setPtpState p 1
  else if 1 ≤ d0.cls ∧ d0.cls ≤ 127 then s.setPtpState p (if beats erbest then 4 else 5)
  else if beats best then s.setPtpState p 4
  else match best with
    | some e =>
      if e.port = p then slave s e
      else match erbest with
        | some r => s.setPtpState p (if e.data.order me e.port r.data r.port = .betterByTopology then 5 else 4)
        | none => s.setPtpState p 4
    | none => s.setPtpState p 4

/-- The state decision on every port. A selected master that no port follows any more is let go. -/
def State.ptpDecideAll (s : State) : State :=
  let best := bestForeign s.clockId s.qualified
  let s := s.ptpPorts.foldl (fun (s : State) p => s.ptpDecide best p) s
  match s.anchor.parent with
  | some (p, _) => if s.ptpState p = 2 ∨ s.ptpState p = 3 then s
    else { s with anchor := { s.anchor with parent := none, diff := none, delay := 0 } }
  | none => s

/-- An Announce message on a port. [assumption 52, PRESUMED] -/
def State.announceIn (s : State) (p : Nat) (b : List Byte) : State :=
  let a := announceOf b
  if b.length < 64 ∨ a.sender / 65536 = s.clockId then s
  else
    let old := (s.anchor.foreign.find? (fun f => f.port = p && f.data.sender = a.sender)).map (fun f => f.times)
    let rest := s.anchor.foreign.filter (fun f => !(f.port = p && f.data.sender = a.sender))
    ({ s with anchor := { s.anchor with foreign := rest ++ [(⟨p, a, s.nowNs :: (old.getD []).take 1⟩ : Foreign)] } }).ptpDecideAll

/-! ## PTP: measurements -/

/-- A completed Sync: t2 - t1 is known, and, where PTP disciplines the clock, an offset is measured (R409).
[assumption 52, PRESUMED] -/
def State.syncDone (s : State) (t2 : Nat) (t1 : Int) : State :=
  let diff := (t2 : Int) - t1
  let s : State := { s with anchor := { s.anchor with diff := some diff } }
  let src := s.fld F.ANCHOR_CTRL_src
  if src = 1 ∨ src = 4 then s.measure (diff - s.anchor.delay) else s

/-- Whether a port listens to the master that a message comes from. -/
def State.fromParent (s : State) (p : Nat) (b : List Byte) : Bool :=
  match s.anchor.parent with
  | some (q, a) => q = p && a.sender = beAt b 20 10 && (s.ptpState p = 2 || s.ptpState p = 3)
  | none => false

/-- A received PTP message at its time-stamp point, t ns and a fraction in 2^-16 ns. [assumption 52, PRESUMED] -/
def State.ptpIn (s : State) (p t frac : Nat) (b : List Byte) : State :=
  let fine := t * 65536 + frac % 65536
  let ty := beAt b 0 1 % 16
  let seq := beAt b 30 2
  -- a domain is told by its number and by majorSdoId, which is 0 in both profiles
  if beAt b 4 1 ≠ s.fld F.ANCHOR_PTP_CFG_domain ∨ beAt b 0 1 / 16 ≠ 0 then s.bump F.ANCHOR_PTP_RX_IGN_count 1
  else match ty with
    | 0 =>
      if s.fromParent p b && decide (44 ≤ b.length) then
        if (beAt b 6 1).testBit 1 then s.setPtpPort p { s.ptpPort p with sync := some (seq, fine, correction b) }
        else s.syncDone fine (stampAt b 34 + correction b)
      else s
    | 8 =>
      match (s.ptpPort p).sync with
      | some (n, t2, c) =>
        if s.fromParent p b && n = seq && decide (44 ≤ b.length) then
          (s.setPtpPort p { s.ptpPort p with sync := none }).syncDone t2 (stampAt b 34 + c + correction b)
        else s
      | none => s
    | 1 =>
      if s.ptpState p = 4 ∧ 44 ≤ b.length then
        s.ptpSend p 9 0 (correction b - (frac % 65536 : Nat)) seq 3 (s.fld F.ANCHOR_PTP_INTV_log_delay_req) (ptpStamp fine ++ slice b 20 10)
      else s
    | 9 =>
      match (s.ptpPort p).req, s.anchor.diff with
      | some (n, t3), some d =>
        if s.fromParent p b && n = seq && decide (54 ≤ b.length) && beAt b 44 10 = s.portId p then
          let s := s.setPtpPort p { s.ptpPort p with req := none }
          let s : State := { s with anchor := { s.anchor with delay := (d + (stampAt b 34 - correction b - (t3 : Int))) / 2 } }
          if s.ptpState p = 2 then s.setPtpState p 3 else s
        else s
      | _, _ => s
    | 11 => s.announceIn p b
    | _ => s.bump F.ANCHOR_PTP_RX_IGN_count 1

/-- A frame with a PTP message arrives on a logical port. -/
def State.ptpFrame (s : State) (p t frac : Nat) (f : List Byte) : State :=
  if s.runs .anchor && s.runs .net then
    let s := s.reachAt t frac
    match s.ptpMessage p f with
    | some b => s.ptpIn p t frac b
    | none => s
  else s

/-- PTP_SYNC. -/
def execPtpSync (port t frac : Nat) (frame : List Byte) (s : State) : Host.Outcome State Fault Refusal :=
  done (s.ptpFrame (port % 8) t frac frame)

/-- PTP_FOLLOW_UP. -/
def execPtpFollowUp (port t frac : Nat) (frame : List Byte) (s : State) : Host.Outcome State Fault Refusal :=
  done (s.ptpFrame (port % 8) t frac frame)

/-- PTP_DELAY_REQ: a master port answers with Delay_Resp. -/
def execPtpDelayReq (port t frac : Nat) (frame : List Byte) (s : State) : Host.Outcome State Fault Refusal :=
  done (s.ptpFrame (port % 8) t frac frame)

/-- PTP_DELAY_RESP: the mean path delay is updated. -/
def execPtpDelayResp (port t frac : Nat) (frame : List Byte) (s : State) : Host.Outcome State Fault Refusal :=
  done (s.ptpFrame (port % 8) t frac frame)

/-- PTP_ANNOUNCE. -/
def execPtpAnnounce (port t frac : Nat) (frame : List Byte) (s : State) : Host.Outcome State Fault Refusal :=
  done (s.ptpFrame (port % 8) t frac frame)

/-- PTP_IGNORED_MESSAGE: counted in ANCHOR_PTP_RX_IGN (R413). -/
def execPtpIgnoredMessage (port t frac : Nat) (frame : List Byte) (s : State) : Host.Outcome State Fault Refusal :=
  done (s.ptpFrame (port % 8) t frac frame)

/-! ## PTP: sending (R413, R416) -/

/-- PTP_SYNC_INTERVAL: a master port sends a Sync that departs at a time-stamp point, and its Follow_Up in two-step. -/
def State.syncOut (s : State) (p t frac : Nat) : State :=
  if s.runs .anchor && s.runs .net && s.ptpState p = 4 then
    let s := s.reachAt t frac
    let x := s.ptpPort p
    let fine := t * 65536 + frac % 65536
    let log := s.fld F.ANCHOR_PTP_INTV_log_sync
    let c : Int := ((frac % 65536 : Nat) : Int)
    let s := s.setPtpPort p { x with syncSeq := (x.syncSeq + 1) % 65536 }
    if s.bit F.ANCHOR_PTP_CFG_two_step then
      (s.ptpSend p 0 0x0200 0 x.syncSeq 0 log (zeroBytes 10)).ptpSend p 8 0 c x.syncSeq 2 log (ptpStamp fine)
    else s.ptpSend p 0 0 c x.syncSeq 0 log (ptpStamp fine)
  else s

@[inherit_doc State.syncOut] def execPtpSyncInterval (port t frac : Nat) (s : State) : Host.Outcome State Fault Refusal :=
  done (s.syncOut (port % 8) t frac)

/-- PTP_ANNOUNCE_INTERVAL: a master port announces the grandmaster. [assumption 52, PRESUMED] -/
def State.announceOut (s : State) (p t : Nat) : State :=
  if s.runs .anchor && s.runs .net && s.ptpState p = 4 then
    let s := s.reach t
    let x := s.ptpPort p
    let d := match s.anchor.parent with
      | some (_, a) => { a with steps := a.steps + 1 }
      | none => s.ownData
    let body := zeroBytes 10 ++ beBytes 2 d.utc ++ beBytes 1 0 ++ beBytes 1 d.prio1 ++ beBytes 1 d.cls ++ beBytes 1 d.acc ++ beBytes 2 d.var
      ++ beBytes 1 d.prio2 ++ beBytes 8 d.gm ++ beBytes 2 d.steps ++ beBytes 1 d.source
    (s.setPtpPort p { x with annSeq := (x.annSeq + 1) % 65536 }).ptpSend p 11 (d.flags % 256) 0 x.annSeq 5
      (s.fld F.ANCHOR_PTP_INTV_log_announce) body
  else s

@[inherit_doc State.announceOut] def execPtpAnnounceInterval (port t : Nat) (s : State) : Host.Outcome State Fault Refusal :=
  done (s.announceOut (port % 8) t)

/-- PTP_DELAY_REQ_INTERVAL: a slave port sends a Delay_Req that departs at a time-stamp point. -/
def State.delayReqOut (s : State) (p t frac : Nat) : State :=
  if s.runs .anchor && s.runs .net && (s.ptpState p = 2 || s.ptpState p = 3) then
    let s := s.reachAt t frac
    let x := s.ptpPort p
    (s.setPtpPort p { x with reqSeq := (x.reqSeq + 1) % 65536, req := some (x.reqSeq, t * 65536 + frac % 65536) }).ptpSend p 1 0 0 x.reqSeq 1
      0x7F (zeroBytes 10)
  else s

@[inherit_doc State.delayReqOut] def execPtpDelayReqInterval (port t frac : Nat) (s : State) : Host.Outcome State Fault Refusal :=
  done (s.delayReqOut (port % 8) t frac)

/-- PTP_SYNC_LOSS: no Sync from the selected master for four Sync intervals (R411). -/
def execPtpSyncLoss (s : State) : Host.Outcome State Fault Refusal :=
  done (if s.fld F.ANCHOR_CTRL_src = 1 ∨ s.fld F.ANCHOR_CTRL_src = 4 then s.sourceLost else s)

/-- ANNOUNCE_RECEIPT_TIMEOUT of a port: what it heard is forgotten, and the source is lost where the port followed the selected
master (R411). -/
def State.announceTimeout (s : State) (p : Nat) : State :=
  let st := s.ptpState p
  if st = 0 ∨ st = 4 ∨ st = 6 then s
  else
    let was := match s.anchor.parent with
      | some (q, _) => q = p
      | none => false
    let s : State := { s with anchor := { s.anchor with foreign := s.anchor.foreign.filter (fun f => f.port != p) } }
    let s := s.setPtpState p (if s.bit F.ANCHOR_PTP_CFG_slave_only && !s.bit F.ANCHOR_PTP_CFG_bc then 1 else 4)
    let s := s.ptpDecideAll
    if was && (s.fld F.ANCHOR_CTRL_src = 1 || s.fld F.ANCHOR_CTRL_src = 4) then s.sourceLost else s

@[inherit_doc State.announceTimeout] def execAnnounceReceiptTimeout (port : Nat) (s : State) : Host.Outcome State Fault Refusal :=
  done (s.announceTimeout (port % 8))

/-! ## Injection and two-step queues (R417, R434) -/

/-- An injection ends with a state. -/
def State.txiEnd (s : State) (st : Nat) : State := (s.put F.ANCHOR_TXI_CTRL_state st).put F.ANCHOR_EVT_txi 1

/-- A write of ANCHOR_TXI_CTRL. [assumption 53, DEDUCED] -/
def State.txiWrite (s : State) (v : Nat) : State :=
  let s := s.regWrite R.ANCHOR_TXI_CTRL v
  if !v.testBit 15 then s
  else
    let len := s.fld F.ANCHOR_TXI_CTRL_len
    let port := s.fld F.ANCHOR_TXI_CTRL_port
    if len < 60 ∨ 2044 < len then s.txiEnd 3
    else if s.anchor.txi.isSome then s.txiEnd 4
    else if s.portUp port = false then s.txiEnd 5
    else
      let bytes := ((List.range (ceilDiv len 4)).flatMap (fun i => leBytes 4 (s.rd (R.ANCHOR_TXI_BUF i)))).take len
      ({ s with anchor := { s.anchor with
        txi := some ⟨port, s.bit F.ANCHOR_TXI_CTRL_ts, s.fld F.ANCHOR_TXI_ID_id, bytes⟩ } }).put F.ANCHOR_TXI_CTRL_state 1

/-- TXI_GO. [assumption 53, DEDUCED] -/
def execTxiGo (m : Master) (v : Word) (s : State) : Host.Outcome State Fault Refusal :=
  done (s.guardedWrite m R.ANCHOR_TXI_CTRL (fun s => s.txiWrite (putBits v.toNat 15 15 1)))

/-- TXI_SENT: the waiting frame departs at a time-stamp point, and its entry is queued. [assumption 53, DEDUCED] -/
def State.txiSent (s : State) (t frac : Nat) : State :=
  match s.anchor.txi with
  | none => s
  | some k =>
    let s := s.reachAt t frac
    let s : State := { s with anchor := { s.anchor with txi := none } }
    if s.portUp k.port then
      let s := (s.emit (.ethernet k.port (k.bytes ++ frameCheck k.bytes))).txiEnd 2
      if k.ts then
        let q := mapGet [] s.anchor.tsq k.port
        if 64 ≤ q.length then s.bump (F.ANCHOR_TSQ_OVF_count k.port) 1
        else
          let e : TsEntry := ⟨k.id, t * 65536 + frac % 65536⟩
          ({ s with anchor := { s.anchor with tsq := mapSet s.anchor.tsq k.port (q ++ [e]) } }).put ⟨R.ANCHOR_EVT, 3 + k.port, 3 + k.port⟩ 1
      else s
    else s.txiEnd 5

@[inherit_doc State.txiSent] def execTxiSent (t frac : Nat) (s : State) : Host.Outcome State Fault Refusal := done (s.txiSent t frac)

/-- A read of ANCHOR_TSQp_ID: the oldest entry is popped and captured. -/
def State.tsqRead (s : State) (p : Nat) : Nat × State :=
  match mapGet [] s.anchor.tsq p with
  | [] => (0, s)
  | e :: r =>
    let ns := e.time / 65536
    let s : State := { s with anchor := { s.anchor with tsq := mapSet s.anchor.tsq p r } }
    let s := ((s.wr (R.ANCHOR_TSQ_NS p) (ns % 1000000000)).wr (R.ANCHOR_TSQ_SEC p 0) (ns / 1000000000 % 2 ^ 32)).wr (R.ANCHOR_TSQ_SEC p 1)
      (ns / 1000000000 / 2 ^ 32 % 2 ^ 32)
    (e.id % 65536 + 65536, s.wr (R.ANCHOR_TSQ_FRAC p) (e.time % 65536))

/-- TSQ_POP. -/
def execTsqPop (m : Master) (q : Nat) (s : State) : Host.Outcome State Fault Refusal :=
  done (s.guardedRead m (R.ANCHOR_TSQ_ID (q % 8)) (fun s => s.tsqRead (q % 8)))

/-! ## Registers (R431) -/

/-- A write of an ANCHOR register. -/
def State.anchorRegWrite (s : State) (off v : Nat) : State :=
  if off = R.ANCHOR_CTRL then s.srcWrite v
  else if off = R.ANCHOR_SET_CTRL then s.setCtrlWrite v
  else if 0xF0040 ≤ off ∧ off ≤ 0xF0058 then s.ptpCfgWrite off v
  else if off = R.ANCHOR_TXI_CTRL then s.txiWrite v
  else if timerPage off then s.timerWrite off v
  else s.regWrite off v

/-- One ANCHOR cycle, nominally 4 ns: Anchor time grows by 4 ns × (1 + ρ), rounded to 48 fraction bits (R9, R405).
[assumption 3, DESIGN CHOICE] -/
def State.anchorCycle (s : State) : State :=
  if s.runs .anchor then
    let inc : Int := (4 * 2 ^ 48 : Nat) + (2 * (4 * 2 ^ 48 : Nat) * s.rate + 256000000000) / (2 * 256000000000)
    { s with anchorT := s.anchorT + inc.toNat, real := s.real + 4 }
  else { s with real := s.real + 4 }

end Sys2Proof.Machine
end

