-- ==== Sys2Proof/Machine/Clip.lean ====
section
/-! DEFINITION. The clip store: its members, its queues, staging, ordering, errors and power states (chapter 11). -/
namespace Sys2Proof.Machine

/-! ## Layout and keys (R439 to R442, R547) -/

/-- The bytes of a logical block. -/
def blockBytes : Nat := 4096

/-- The ASCII bytes of "LY9600 CS". -/
def wrapInfo : List Byte := [0x4C, 0x59, 0x39, 0x36, 0x30, 0x30, 0x20, 0x43, 0x53]

/-- The key that wraps the store key at the present key epoch (R547). -/
def State.wrapKey (s : State) : List Byte := (hkdf384 Config.rootKey (leBytes 8 s.sys.fuses.epoch) wrapInfo).take 32

/-- Where firmware keeps the wrapped store key in boot flash (R547). [assumption 41, DESIGN CHOICE] -/
def wrappedAt : Nat := 0x2000

/-- The ciphertext of a block under a store key (R441). -/
def sealBlock (key : List Byte) (lba : Nat) (d : List Byte) : List Byte := xtsEncrypt (key.take 32) (key.drop 32) lba d

/-- A stored block read: one of zero bytes reads as zero bytes (R442). -/
def openBlock (key : List Byte) (lba : Nat) (d : List Byte) : List Byte :=
  if d.all (· = 0) then d else xtsDecrypt (key.take 32) (key.drop 32) lba d

/-- `key_check` of a store key (R440). -/
def keyCheck (key : List Byte) : Nat := leAt (sealBlock key 0xFFFFFFFFFFFFFFFF (zeroBytes blockBytes)) 0 8

/-- The store key in use. -/
def State.storeKey (s : State) : List Byte := s.sys.storeKey.getD []

/-- The slot of the member that holds a logical block, and the block's member block (R439). -/
def State.homeOf (s : State) (lba : Nat) : Nat × Nat :=
  let n := max 1 s.clip.order.length
  (s.clip.order.getD (lba / 256 % n) 0, 262144 + 256 * (lba / 256 / n) + lba % 256)

/-- The header index of a slot's member, 0xFF when it is none. -/
def State.memberIndex (s : State) (slot : Nat) : Nat := (s.clip.order.findIdx? (· = slot)).getD 0xFF

/-- The capacity in logical blocks of members with so many member blocks each (R439). -/
def storeCapacity (blocks : List Nat) : Nat :=
  let per := blocks.map (fun b => (b - 262144) / 256)
  min (2 ^ 34) (per.foldl min (per.headD 0) * 256 * blocks.length)

/-- A store header (R440). -/
def storeHeader (index n storeId capacity check : Nat) : List Byte :=
  let b := [0x43, 0x4C, 0x50, 0x53] ++ leBytes 1 1 ++ leBytes 1 index ++ leBytes 1 n ++ leBytes 1 0 ++ leBytes 16 storeId
    ++ leBytes 8 capacity ++ leBytes 8 check ++ zeroBytes 4052
  b ++ leBytes 4 (crc32c b)

/-- What a slot's SSD holds. [assumption 40, DESIGN CHOICE] -/
def State.memberCells (s : State) (slot : Nat) : Memory := mapGet [] s.clip.cells slot

/-- A slot's SSD written. [assumption 40, DESIGN CHOICE] -/
def State.setMember (s : State) (slot : Nat) (m : Memory) : State :=
  { s with clip := { s.clip with cells := mapSet s.clip.cells slot m } }

/-- The SSD of a slot. -/
def State.ssdOf (s : State) (slot : Nat) : Option Ssd := s.clip.ssds.find? (fun x => x.slot = slot)

/-- The capacity that CLIP_CAPACITY reports. -/
def State.clipCapacity (s : State) : Nat := s.rd2 (R.CLIP_CAPACITY 0) (R.CLIP_CAPACITY 1)

/-- The store's `state` (R444). -/
def State.storeState (s : State) : Nat := s.fld F.CLIP_STORE_STATUS_state

/-- Whether a slot's member is lost. -/
def State.slotLost (s : State) (slot : Nat) : Bool := s.bit (F.CLIP_MEMBER_STATUS_lost slot)

/-- Whether a block range needs a lost member. -/
def State.needsLost (s : State) (lba n : Nat) : Bool :=
  s.clip.order.any (fun slot => s.slotLost slot) && (List.range n).any (fun i => s.slotLost (s.homeOf (lba + i)).1)

/-- Whether a slot's member is lost or has left with its loss still to be handled (R459). -/
def State.slotGone (s : State) (slot : Nat) : Bool := s.slotLost slot || s.clip.heldErrs.contains (.lost slot)

/-- Whether a staged block cannot reach its member: the member is gone, or an error of the block waits (R459). -/
def State.stuck (s : State) (e : Staged) : Bool :=
  s.slotGone (s.homeOf e.lba).1 || s.clip.heldErrs.any (fun h => match h with
    | .failed l _ => l.contains (e.id, e.lba)
    | .lost _ => false)

/-- The registers that show the store's tables: staging in use, failed ranges and the queues' `busy` bits. -/
def State.clipMirror (s : State) : State :=
  let used := ceilDiv ((s.clip.staged.filter (fun e => e.data.isSome)).length * blockBytes) (2 ^ 20)
  let s := (s.wr R.CLIP_STAGE_USED used).wr R.CLIP_FAILED_RANGES s.clip.failed.length
  (List.range 64).foldl (fun (s : State) q =>
    let b := s.clip.cmds.any (fun c => c.q = q)
    if s.bit (F.CLIP_Q_STATUS_busy q) = b then s else s.flag (F.CLIP_Q_STATUS_busy q) b) s

/-! ## The error log and failed ranges (R455, R456) -/

/-- An entry joins the error log; the answer is its number. [assumption 42, DEDUCED] -/
def State.clipLog (s : State) (kind member status lba count q cid : Nat) : Nat × State :=
  let n := s.rd R.CLIP_LOG_SEQ
  let e : ClipErr := ⟨n, kind, member, status, lba, count, q, cid⟩
  let s : State := { s with clip := { s.clip with log := (e :: s.clip.log).take 256 } }
  (n, s.wr R.CLIP_LOG_SEQ ((n + 1) % 2 ^ 32))

/-- An entry as GET_LOG writes it (R456). -/
def ClipErr.bytes (e : ClipErr) : List Byte :=
  leBytes 4 e.seq ++ leBytes 1 e.kind ++ leBytes 1 e.member ++ leBytes 2 e.status ++ leBytes 8 e.lba ++ leBytes 4 e.count
    ++ leBytes 1 e.q ++ leBytes 1 0 ++ leBytes 2 e.cid ++ leBytes 4 0 ++ leBytes 4 (e.seq ^^^ 0xFFFFFFFF)

/-- Staged blocks as runs of adjacent blocks of one command. -/
def stagedRuns : List Staged → List (Staged × Nat)
  | [] => []
  | e :: r =>
    match stagedRuns r with
    | (f, n) :: t => if f.id = e.id ∧ f.lba = e.lba + 1 then (e, n + 1) :: t else (e, 1) :: (f, n) :: t
    | [] => [(e, 1)]

/-- One run of acknowledged blocks that cannot reach its member: a deferred error (R455). [assumption 42, DEDUCED] -/
def State.deferRun (s : State) (e : Staged) (count status : Nat) : State :=
  let r := s.clipLog 1 (s.memberIndex (s.homeOf e.lba).1) status e.lba count e.q e.cid
  let s := r.2
  let known := s.clip.failed.any (fun f => decide (f.lba ≤ e.lba) && decide (e.lba + count ≤ f.lba + f.count))
  let room := decide (s.clip.failed.length < 1024)
  let failed := if known || !room then s.clip.failed else s.clip.failed ++ [⟨e.lba, count, r.1⟩]
  let full := decide (s.clip.failed.length < 1024) && decide (failed.length = 1024)
  let s : State := { s with clip := { s.clip with failed := failed, errs := s.clip.errs ++ [⟨e.id, e.q, e.lba, r.1⟩] } }
  let s := s.put F.CLIP_EVT_deferred 1
  if full then s.put F.CLIP_EVT_range_full 1 else s

/-- The atomic log once some home writes are finished or will not be done. -/
def State.keepAtoms (s : State) (p : AtomRec → Nat → Bool) : State :=
  { s with clip := { s.clip with atoms :=
      (s.clip.atoms.map (fun a => { a with blocks := a.blocks.filter (fun b => p a b.1) })).filter (fun a => a.blocks != []) } }

/-- Staged blocks that a test picks leave staging as deferred errors. [assumption 42, DEDUCED] -/
def State.deferStaged (s : State) (p : Staged → Bool) (status : Nat) : State :=
  let hit := s.clip.staged.filter p
  let s : State := { s with clip := { s.clip with staged := s.clip.staged.filter (fun e => !p e) } }
  let s := s.keepAtoms (fun a lba => !hit.any (fun e => e.id = a.id && e.lba = lba))
  (stagedRuns hit).foldl (fun (s : State) r => s.deferRun r.1 r.2 status) s

/-! ## Draining staging (R451, R453, R454) -/

/-- Whether every block of a command is in staging. -/
def State.wholeStaged (s : State) (id : Nat) : Bool :=
  !s.clip.cmds.any (fun c => c.id = id && decide (c.staged < c.nlb))

/-- The blocks of a command in staging, as the atomic log holds them. -/
def State.unitBlocks (s : State) (id : Nat) : List (Nat × List Byte) :=
  (s.clip.staged.filter (fun f => f.id = id)).map (fun f => (f.lba, f.data.getD []))

/-- The record of a command's unit in the atomic log. -/
def State.atomOf (s : State) (id : Nat) : Option AtomRec := s.clip.atoms.find? (fun a => a.id = id)

/-- One more block of a unit enters the atomic log; the last one completes the record (R454). [assumption 41, DESIGN CHOICE] -/
def State.logBlock (s : State) (e : Staged) : State :=
  let unit := s.unitBlocks e.id
  let a : AtomRec := (s.atomOf e.id).getD ⟨e.id, e.q, e.cid, (unit.map (fun b => b.1)).foldl min e.lba, unit.length, false, []⟩
  let blocks := unit.take (a.blocks.length + 1)
  let a := { a with blocks := blocks, whole := blocks.length = unit.length }
  { s with clip := { s.clip with atoms := s.clip.atoms.filter (fun x => x.id != e.id) ++ [a] } }

/-- One block's home location written: no older home write of it is left to do. -/
def State.writeHome (s : State) (lba : Nat) (data : Option (List Byte)) : State :=
  let h := s.homeOf lba
  let s := s.keepAtoms (fun a b => !(a.whole && b = lba))
  match data with
  | some d => (s.setMember h.1 (memWrite (s.memberCells h.1) (h.2 * blockBytes) d)).emit (.nvme h.1 (.write h.2))
  | none => (s.setMember h.1 (memZero (s.memberCells h.1) (h.2 * blockBytes) blockBytes)).emit (.nvme h.1 (.deallocate h.2 1))

/-- Whether a staged block may go to its member now. A unit waits until it is all in staging (R454). -/
def State.canDrain (s : State) (e : Staged) : Bool :=
  !e.written && !s.stuck e && !(e.atomic && !s.wholeStaged e.id)

/-- A staged block goes home. Written through (FUA and atomic units), or to a member without a volatile write cache, it is
durable: it leaves staging, and so do older copies of the block. [assumption 43, DEDUCED] -/
def State.sendHome (s : State) (e : Staged) : State :=
  let s := s.writeHome e.lba e.data
  let cache := !e.fua && !e.atomic && ((s.ssdOf (s.homeOf e.lba).1).map (fun x => x.cache)).getD false
  let staged :=
    if cache then s.clip.staged.map (fun f => if f.id = e.id && f.lba = e.lba then { f with written := true } else f)
    else s.clip.staged.filter (fun f => !(f.lba = e.lba && (f.written || f.id = e.id)))
  { s with clip := { s.clip with staged := staged } }

/-- The oldest staged block that may go to its member takes its next step: an atomic unit's blocks go to the log before the
first of them goes home (R451, R454). -/
def State.drainStep (s : State) : State :=
  match s.clip.staged.find? s.canDrain with
  | some e =>
    if e.atomic && !((s.atomOf e.id).map (fun a => a.whole)).getD false then s.logBlock e else s.sendHome e
  | none => s

/-- A Flush to members with a volatile write cache makes what they were sent durable (R453). [assumption 43, DEDUCED] -/
def State.flushMembers (s : State) (slots : List Nat) : State :=
  let held := fun (e : Staged) => e.written && slots.contains (s.homeOf e.lba).1 && !s.stuck e
  let due := slots.filter (fun slot => s.clip.staged.any (fun e => held e && (s.homeOf e.lba).1 = slot))
  ({ s with clip := { s.clip with staged := s.clip.staged.filter (fun e => !held e) } } : State).emitAll
    (due.map (fun slot => .nvme slot .flush))

/-- So many drain steps; with no block left that may be written, the caches are flushed. [assumption 43, DEDUCED] -/
def State.drain (s : State) (count : Nat) : State :=
  if s.clip.order = [] then s
  else
    let s := (List.range count).foldl (fun (s : State) _ => s.drainStep) s
    if s.clip.staged.any s.canDrain then s else s.flushMembers s.clip.order

/-- Staging drained whole. [assumption 43, DEDUCED] -/
def State.drainAll (s : State) : State := s.drain (2 * s.clip.staged.length)

/-! ## Posting completions (R449, R457) -/

/-- The ring of a queue has so many entries. -/
def State.ringEntries (s : State) (q : Nat) : Nat := 2 ^ s.fld (F.CLIP_Q_SIZE_log_size q)

/-- A DRAM address that a pair of ring registers holds. -/
def State.ringBase (s : State) (lo hi : Nat) : Nat := s.rd lo / 4096 * 4096 + s.rd hi % 64 * 2 ^ 32

/-- Completion entries that are not free. [assumption 42, DEDUCED] -/
def State.cqUsed (s : State) (q : Nat) : Nat :=
  (s.rd (R.CLIP_Q_CQ_TAIL q) + 65536 - s.rd (R.CLIP_Q_CQ_HEAD q) % 65536) % 65536

/-- Commands of a queue that have been submitted and not taken. -/
def State.sqPending (s : State) (q : Nat) : Nat :=
  (s.rd (R.CLIP_Q_SQ_TAIL q) + 65536 - s.rd (R.CLIP_Q_SQ_HEAD q) % 65536) % 65536

/-- The end of a queue's reset, once no command of it is left (step 5 of R457). -/
def State.clipResetEnd (s : State) (q : Nat) : State :=
  if s.bit (F.CLIP_Q_STATUS_resetting q) && !s.clip.cmds.any (fun c => c.q = q) then
    let s := (((s.wr (R.CLIP_Q_SQ_HEAD q) 0).wr (R.CLIP_Q_SQ_TAIL q) 0).wr (R.CLIP_Q_CQ_HEAD q) 0).wr (R.CLIP_Q_CQ_TAIL q) 0
    ((s.wr (R.CLIP_Q_NEXT_SEQ q) 0).put (F.CLIP_Q_CTRL_enable q) 0).put (F.CLIP_Q_STATUS_resetting q) 0
  else s

/-- The completion entry of a command is written, unless no entry is free (R449, R457). -/
def State.clipPost (s : State) (c : ClipCmd) (status blocks errLba logSeq : Nat) : State :=
  let s := if status = 3 then s.bump (F.CLIP_Q_ABORTED_aborted c.q) 1 else s
  if s.ringEntries c.q ≤ s.cqUsed c.q then (if status = 3 then s.bump (F.CLIP_Q_ABORTED_unposted c.q) 1 else s)
  else
    let seq := s.rd (R.CLIP_Q_NEXT_SEQ c.q)
    let tail := s.rd (R.CLIP_Q_CQ_TAIL c.q)
    let b := leBytes 4 seq ++ leBytes 2 c.cid ++ leBytes 1 status ++ leBytes 1 c.op ++ leBytes 2 (s.rd (R.CLIP_Q_SQ_HEAD c.q))
      ++ leBytes 2 0 ++ leBytes 4 blocks ++ leBytes 8 errLba ++ leBytes 4 logSeq ++ leBytes 4 (seq ^^^ 0xFFFFFFFF)
    let s := s.dramWrite (s.ringBase (R.CLIP_Q_CQ_LO c.q) (R.CLIP_Q_CQ_HI c.q) + 32 * (tail % s.ringEntries c.q)) b
    let s := (s.wr (R.CLIP_Q_NEXT_SEQ c.q) ((seq + 1) % 2 ^ 32)).wr (R.CLIP_Q_CQ_TAIL c.q) ((tail + 1) % 65536)
    if c.flags.testBit 4 then s.put ⟨R.CLIP_EVT_CQ (c.q / 32), c.q % 32, c.q % 32⟩ 1 else s

/-! ## Starting commands (R451, R452, R455) -/

/-- Whether a command changes blocks. -/
def ClipCmd.writes (c : ClipCmd) : Bool := c.op = 1 || c.op = 4

/-- Whether a command names blocks. -/
def ClipCmd.ranged (c : ClipCmd) : Bool := c.op = 1 || c.op = 2 || c.op = 4

/-- Rule 1 of R452 between two commands. -/
def ClipCmd.overlaps (a b : ClipCmd) : Bool :=
  a.ranged && b.ranged && (a.writes || b.writes) && decide (a.slba < b.slba + b.nlb) && decide (b.slba < a.slba + a.nlb)

/-- Whether a command may start while the given earlier commands have not completed (R452). -/
def ClipCmd.mayStart (c : ClipCmd) (earlier : List ClipCmd) : Bool :=
  earlier.all (fun e => !e.overlaps c && !(e.q = c.q && (e.flags.testBit 0 || c.flags.testBit 0)))

/-- A command in progress changed. -/
def State.setCmd (s : State) (c : ClipCmd) : State :=
  { s with clip := { s.clip with cmds := s.clip.cmds.map (fun x => if x.id = c.id then c else x) } }

/-- The blocks of staging that are free. [assumption 41, DESIGN CHOICE] -/
def State.stageRoom (s : State) : Nat :=
  s.clip.stageAt.2 * 2 ^ 18 - (s.clip.staged.filter (fun e => e.data.isSome)).length

/-- One block of a WRITE is encrypted into staging (R441, R451). [assumption 41, DESIGN CHOICE] -/
def State.stageBlock (s : State) (c : ClipCmd) (i : Nat) : State :=
  let r := s.dramFetch (c.addr + blockBytes * i) blockBytes
  let s := r.2.2
  let e : Staged := ⟨c.id, c.q, c.cid, c.slba + i, some (sealBlock s.storeKey (c.slba + i) r.1), c.flags.testBit 2, c.flags.testBit 1, false, false⟩
  { s with clip := { s.clip with staged := s.clip.staged ++ [e] } }

/-- A command starts, or a WRITE that waits for space goes on. [assumption 42, DEDUCED] -/
def State.startCmd (s : State) (c : ClipCmd) : State :=
  if c.writes && decide (1024 ≤ s.clip.failed.length) && !c.started then s.setCmd { c with started := true, fail := 7 }
  else if c.writes && s.needsLost c.slba c.nlb then s.setCmd { c with started := true, fail := 6 }
  else if c.op = 1 then
    let k := min (c.nlb - c.staged) s.stageRoom
    let s := (List.range k).foldl (fun (s : State) i => s.stageBlock c (c.staged + i)) s
    s.setCmd { c with started := c.started || decide (0 < k), staged := c.staged + k }
  else if c.op = 4 then
    let es := (List.range c.nlb).map (fun i => (⟨c.id, c.q, c.cid, c.slba + i, none, false, false, false, false⟩ : Staged))
    ({ s with clip := { s.clip with staged := s.clip.staged ++ es } } : State).setCmd { c with started := true, staged := c.nlb }
  else s.setCmd { c with started := true }

/-- The command at a place of the list starts or goes on where R452 allows it. -/
def State.startAt (s : State) (i : Nat) : State :=
  match s.clip.cmds[i]? with
  | some c =>
    if (c.started && (c.op != 1 || decide (c.nlb ≤ c.staged))) || c.fail != 0 || !c.mayStart (s.clip.cmds.take i) then s
    else s.startCmd c
  | none => s

/-- Every command that can start does. -/
def State.clipStart (s : State) : State := (List.range s.clip.cmds.length).foldl (fun (s : State) i => s.startAt i) s

/-! ## Completing commands (R449 to R456) -/

/-- The newest copy of a block in staging. -/
def State.stagedCopy (s : State) (lba : Nat) : Option Staged := s.clip.staged.reverse.find? (fun e => e.lba = lba)

/-- What a READ has found so far: failed blocks of failed ranges and of members, each with its number or status. -/
structure ReadSum where
  defer : List (Nat × Nat)
  media : List (Nat × Nat)

/-- One block of a READ reaches its buffer: from staging, or from its member (R451, R455). -/
def State.readBlock (s : State) (c : ClipCmd) (errs : List (Nat × Nat)) (i : Nat) (r : ReadSum) : ReadSum × State :=
  let lba := c.slba + i
  let put := fun (d : List Byte) => s.dramWrite (c.addr + blockBytes * i) d
  match s.clip.failed.find? (fun f => decide (f.lba ≤ lba) && decide (lba < f.lba + f.count)) with
  | some f => ({ r with defer := r.defer ++ [(lba, f.seq)] }, put (zeroBytes blockBytes))
  | none =>
    match s.stagedCopy lba with
    | some e => (r, put (match e.data with
      | some d => openBlock s.storeKey lba d
      | none => zeroBytes blockBytes))
    | none =>
      match errs.find? (fun e => e.1 = lba) with
      | some e => ({ r with media := r.media ++ [e] }, put (zeroBytes blockBytes))
      | none =>
        let h := s.homeOf lba
        (r, (put (openBlock s.storeKey lba (memRead (s.memberCells h.1) (h.2 * blockBytes) blockBytes))).emit (.nvme h.1 (.read h.2)))

/-- A READ runs and completes. [assumption 42, DEDUCED] -/
def State.finishRead (s : State) (c : ClipCmd) (errs : List (Nat × Nat)) : State :=
  let r := (List.range c.nlb).foldl (fun (a : ReadSum × State) i => a.2.readBlock c errs i a.1) ((⟨[], []⟩ : ReadSum), s)
  let s := r.2
  let good := c.nlb - r.1.defer.length - r.1.media.length
  match r.1.media with
  | (lba, st) :: _ =>
    let l := s.clipLog 2 (s.memberIndex (s.homeOf lba).1) st lba r.1.media.length c.q c.cid
    match r.1.defer with
    | (d, seq) :: _ => l.2.clipPost c 5 good d seq
    | [] => l.2.clipPost c 4 good lba l.1
  | [] =>
    match r.1.defer with
    | (d, seq) :: _ => s.clipPost c 5 good d seq
    | [] => s.clipPost c 0 good 0 0

/-- A WRITE or DEALLOCATE that completes well: its blocks are acknowledged, and failed ranges it covers whole leave the
table (R455). -/
def State.finishWrite (s : State) (c : ClipCmd) : State :=
  let staged := s.clip.staged.map (fun e => if e.id = c.id then { e with acked := true } else e)
  let failed := s.clip.failed.filter (fun f => !(decide (c.slba ≤ f.lba) && decide (f.lba + f.count ≤ c.slba + c.nlb)))
  ({ s with clip := { s.clip with staged := staged, failed := failed } } : State).clipPost c 0 c.nlb 0 0

/-- A FLUSH whose blocks are all on their members completes (R453, R455). [assumption 42, DEDUCED] -/
def State.finishFlush (s : State) (c : ClipCmd) : State :=
  let slots := ((s.clip.staged.filter (fun e => c.covered.contains e.id)).map (fun e => (s.homeOf e.lba).1)).eraseDups
  let s := s.flushMembers slots
  match s.clip.errs.find? (fun e => c.covered.contains e.id) with
  | some e =>
    ({ s with clip := { s.clip with errs := s.clip.errs.filter (fun x => x.seq != e.seq || x.id != e.id) } } : State).clipPost c 5 0 e.lba e.seq
  | none => s.clipPost c 0 0 0 0

/-- IDENTIFY's 4,096 bytes (R462). -/
def State.identifyBytes (s : State) : List Byte :=
  fitBytes blockBytes (leBytes 2 1 ++ leBytes 2 64 ++ leBytes 2 4096 ++ leBytes 1 (s.fld F.CLIP_STORE_STATUS_members) ++ leBytes 1 0
    ++ leBytes 8 s.clipCapacity ++ leBytes 4 65536 ++ leBytes 4 1024 ++ leBytes 4 s.clip.cs1Exit
    ++ leBytes 2 (s.fld F.CLIP_PWR_STATUS_cs2_exit_ms) ++ leBytes 2 0 ++ leBytes 16 s.clip.storeId
    ++ leBytes 8 (s.fld F.CLIP_STAGE_SIZE_gib * 2 ^ 30) ++ leBytes 2 256 ++ leBytes 2 1024)

/-- Whether a started command can finish now, its READ finding the given member errors. Member errors, IDENTIFY and GET_LOG
wait for the new firmware of an activation (R459). -/
def State.canFinish (s : State) (c : ClipCmd) (errs : List (Nat × Nat)) : Bool :=
  if c.fail ≠ 0 then true
  else if !c.started then false
  else match c.op with
    | 1 => decide (c.nlb ≤ c.staged) && (!c.flags.testBit 1 || !s.clip.staged.any (fun e => e.id = c.id))
    | 2 => s.mbox.fwact.isNone || (errs.isEmpty && !(List.range c.nlb).any (fun i =>
        s.clip.heldErrs.contains (.lost (s.homeOf (c.slba + i)).1)))
    | 3 => !s.clip.staged.any (fun e => c.covered.contains e.id && (!e.written || s.stuck e))
    | 5 | 6 => s.mbox.fwact.isNone
    | _ => true

/-- The blocks of a WRITE or DEALLOCATE, ended because a member is lost, that were done in full for other members. -/
def State.blocksDone (s : State) (c : ClipCmd) : List Nat :=
  if c.flags.testBit 2 then []
  else ((List.range c.staged).map (fun i => c.slba + i)).filter (fun lba => !s.slotLost (s.homeOf lba).1
    && !(c.flags.testBit 1 && s.clip.staged.any (fun e => e.id = c.id && e.lba = lba)))

/-- A command ends with the status that is already known: what a WRITE or DEALLOCATE did in full stays done (R449). -/
def State.finishFailed (s : State) (c : ClipCmd) : State :=
  let did := if c.fail = 6 ∧ c.writes then s.blocksDone c else []
  let staged := s.clip.staged.map (fun e => if e.id = c.id && did.contains e.lba then { e with acked := true } else e)
  ({ s with clip := { s.clip with staged := staged.filter (fun e => e.id != c.id || e.acked) } } : State).clipPost c c.fail did.length 0 0

/-- A command has its last effect and its completion is posted. [assumption 42, DEDUCED] -/
def State.finishCmd (s : State) (c : ClipCmd) (errs : List (Nat × Nat)) : State :=
  if c.fail ≠ 0 then s.finishFailed c
  else match c.op with
    | 1 | 4 => s.finishWrite c
    | 2 => if s.needsLost c.slba c.nlb then s.clipPost c 6 0 0 0 else s.finishRead c errs
    | 3 => s.finishFlush c
    | 5 => (s.dramWrite c.addr s.identifyBytes).clipPost c 0 0 0 0
    | _ =>
      let es := s.clip.log.take c.nlb
      (s.dramWrite c.addr (es.flatMap ClipErr.bytes)).clipPost c 0 es.length 0 0

/-- A command leaves the list of those in progress. -/
def State.dropCmd (s : State) (id : Nat) : State :=
  { s with clip := { s.clip with cmds := s.clip.cmds.filter (fun c => c.id != id) } }

/-- A command finishes if it can. -/
def State.tryFinish (s : State) (c : ClipCmd) (errs : List (Nat × Nat)) : State :=
  if s.canFinish c errs then (((s.finishCmd c errs).dropCmd c.id).clipResetEnd c.q).clipStart else s

/-- COMMAND_COMPLETE. -/
def execCommandComplete (k : Nat) (errs : List (Nat × Nat)) (s : State) : Host.Outcome State Fault Refusal :=
  done (match s.clip.cmds[k]? with
    | some c => (s.tryFinish c errs).clipMirror
    | none => s)

/-- STAGING_DRAIN: blocks become durable, and a WRITE that waits for space goes on. -/
def execStagingDrain (count : Nat) (s : State) : Host.Outcome State Fault Refusal :=
  done (if (s.storeState = 2 ∨ s.storeState = 3) ∧ s.clip.order ≠ [] then ((s.drain count).clipStart).clipMirror else s)

/-- Acknowledged blocks, by command and logical block, that failed at their member are handled. -/
def State.failBlocks (s : State) (l : List (Nat × Nat)) (status : Nat) : State :=
  (s.deferStaged (fun e => e.acked && l.contains (e.id, e.lba)) status).clipMirror

/-- DEFERRED_ERROR: acknowledged blocks of a range fail at their member; during an activation the handling waits (R459). -/
def execDeferredError (lba count status : Nat) (s : State) : Host.Outcome State Fault Refusal :=
  let hit := (s.clip.staged.filter (fun e => e.acked && decide (lba ≤ e.lba) && decide (e.lba < lba + count))).map (fun e => (e.id, e.lba))
  done (if s.mbox.fwact.isSome then
      { s with clip := { s.clip with heldErrs := s.clip.heldErrs ++ [.failed hit (status % 65536)] } }
    else s.failBlocks hit (status % 65536))

/-! ## Power states (R460, R461) -/

/-- The non-operational power state that CS1 puts an SSD in, with its EXLAT in µs (R460). -/
def cs1Power (x : Ssd) : Option (Nat × Nat) := (x.ctl.power.filter (fun p => decide (p.2 ≤ 1500))).getLast?

/-- The members that CS1 takes out of power state 0, each with the state chosen for it. -/
def State.cs1Members (s : State) : List (Nat × Nat) :=
  s.clip.order.filterMap (fun slot => ((s.ssdOf slot).bind cs1Power).map (fun p => (slot, p.1)))

/-- How a controller is initialised: it is identified, gets 8 I/O queue pairs of 1,024 entries, has autonomous power state
transitions set off, and its write cache and health are read (R443). [assumption 41, DESIGN CHOICE] -/
def initOps : List NvmeOp :=
  [.identify 1, .identify 2, .identify 0, .setFeature 7 0x00070007, .createQueues 8 1024, .setFeature 12 0, .getFeature 6, .getLog 2]

/-- The controllers of slots are initialised (R443). -/
def State.initSlots (s : State) (slots : List Nat) : State :=
  s.emitAll (slots.flatMap (fun k => initOps.map (fun o => .nvme k o)))

/-- The members get a normal shutdown and lose their power (R460). -/
def State.ssdsOff (s : State) : State := (s.emitAll (s.clip.order.map (fun k => .nvme k .shutdown))).emit (.ssdPower false)

/-- The members get their power back and are initialised (R460). -/
def State.ssdsOn (s : State) : State := (s.emit (.ssdPower true)).initSlots s.clip.order

/-- Members are restored to CS0 (R460). -/
def State.csWake (s : State) : State :=
  let cs := s.fld F.CLIP_PWR_STATUS_cs
  if cs = 0 then s
  else if cs = 2 then (s.put F.CLIP_PWR_STATUS_cs 0).ssdsOn
  else (s.put F.CLIP_PWR_STATUS_cs 0).emitAll (s.cs1Members.map (fun p => .nvme p.1 (.power 0)))

/-- CS1_ENTRY: nothing has been taken for `idle1` ms (R460). [assumption 43, DEDUCED] -/
def execCs1Entry (t : Nat) (s : State) : Host.Outcome State Fault Refusal :=
  let s := s.reach t
  let idle := s.fld F.CLIP_PWR_idle1
  done (if s.storeState = 2 ∧ s.fld F.CLIP_PWR_STATUS_cs = 0 ∧ idle ≠ 0 ∧ s.clip.cmds = [] ∧ s.clip.lastTake + idle * 1000000 ≤ s.real then
      let s := s.drainAll
      let s : State := { s with clip := { s.clip with cs1Since := s.real } }
      ((s.put F.CLIP_PWR_STATUS_cs 1).emitAll (s.cs1Members.map (fun p => .nvme p.1 (.power p.2)))).clipMirror
    else s)

/-- CS2_ENTRY: the members are shut down and the SSD power ball is deasserted (R460). [assumption 43, DEDUCED] -/
def execCs2Entry (t : Nat) (s : State) : Host.Outcome State Fault Refusal :=
  let s := s.reach t
  let idle := s.fld F.CLIP_PWR_idle2
  done (if s.storeState = 2 ∧ s.fld F.CLIP_PWR_STATUS_cs = 1 ∧ idle ≠ 0 ∧ s.ballClaimed 0x402 = true
      ∧ s.bit F.CLIP_PWR_STATUS_bivouac_ok = true ∧ s.clip.cs1Since + idle * 1000000000 ≤ s.real then
      (s.put F.CLIP_PWR_STATUS_cs 2).ssdsOff
    else s)

/-! ## Taking commands (R445 to R448) -/

/-- The flags that R447 allows a command. -/
def flagsAllowed : Nat → Nat
  | 1 => 0x17
  | 3 => 0x19
  | 2 | 4 => 0x11
  | _ => 0x10

/-- Check 1 of R448: `opcode`, the flags and the zero fields. [assumption 42, DEDUCED] -/
def entryValid (b : List Byte) : Bool :=
  let op := leAt b 0 1
  let z := fun (a n : Nat) => decide (leAt b a n = 0)
  decide (1 ≤ op) && decide (op ≤ 6) && decide (leAt b 1 1 &&& (0xFF ^^^ flagsAllowed op) = 0) && z 4 4 && z 20 4 && z 36 28
    && (match op with
      | 3 => z 8 8 && z 16 4 && z 24 8 && z 32 4
      | 4 => z 24 8 && z 32 4
      | 5 => z 8 8 && z 16 4
      | 6 => z 8 8
      | _ => true)

/-- The bytes a command moves to or from its buffer. -/
def entryBytes (op nlb : Nat) : Nat :=
  match op with
  | 1 | 2 => 4096 * nlb
  | 5 => 4096
  | 6 => 32 * nlb
  | _ => 0

/-- Check 2 of R448: the ranges. -/
def State.entryRanges (s : State) (b : List Byte) : Bool :=
  let op := leAt b 0 1
  let nlb := leAt b 16 4
  let top := if op = 6 then 256 else if op = 1 ∧ (leAt b 1 1).testBit 2 then 1024 else 65536
  (op = 3 || op = 5 || (decide (1 ≤ nlb) && decide (nlb ≤ top)))
    && (op = 3 || op = 5 || op = 6 || decide (leAt b 8 8 + nlb ≤ s.clipCapacity))
    && decide (entryBytes op nlb ≤ leAt b 32 4)

/-- Check 3 of R448: the buffer's alignment and region. -/
def State.entryBuffer (s : State) (q : Nat) (b : List Byte) : Bool :=
  let op := leAt b 0 1
  op = 3 || op = 4 || (decide (leAt b 24 8 % 64 = 0) && s.inRegion (leAt b 24 8) (leAt b 32 4)
    (fun o u => op = 1 || (o = 6 && u = q) || o = 5))

/-- The status that a taken command is refused with, 0 for none (R448). -/
def State.entryStatus (s : State) (q : Nat) (b : List Byte) : Nat :=
  let op := leAt b 0 1
  if !entryValid b then 2
  else if !s.entryRanges b then 1
  else if !s.entryBuffer q b then 1
  else if s.storeState ≠ 2 ∧ ¬(s.storeState = 3 ∧ (op = 2 ∨ op = 5)) then 6
  else 0

/-- The commands that a FLUSH taken now covers (R453). -/
def State.coverage (s : State) (q flags : Nat) : List Nat :=
  let mine := fun (k : Nat) => flags.testBit 3 || k = q
  ((s.clip.staged.filter (fun e => e.acked && mine e.q)).map (fun e => e.id)
    ++ (s.clip.errs.filter (fun e => mine e.q)).map (fun e => e.id)).eraseDups

/-- The command at the head of a queue's ring is taken, without regard to the row. It wakes the members, but for a FLUSH whose
blocks are all durable (R453, R460). -/
def State.takeFrom (s : State) (q : Nat) (b : List Byte) : State :=
  let head := s.rd (R.CLIP_Q_SQ_HEAD q)
  let s := s.wr (R.CLIP_Q_SQ_HEAD q) ((head + 1) % 65536)
  let c : ClipCmd := ⟨s.clip.nextId, q, leAt b 0 1, leAt b 1 1, leAt b 2 2, leAt b 8 8, leAt b 16 4, leAt b 24 8, false, 0, 0,
    s.coverage q (leAt b 1 1)⟩
  let st := s.entryStatus q b
  let s : State := { s with clip := { s.clip with nextId := s.clip.nextId + 1, round := (q + 1) % 64, lastTake := s.real } }
  let durable := c.op = 3 && st = 0 && !s.clip.staged.any (fun e => c.covered.contains e.id)
  let s := if durable then s else s.csWake
  if st ≠ 0 then s.clipPost c st 0 0 0
  else ({ s with clip := { s.clip with cmds := s.clip.cmds ++ [c] } } : State).clipStart

/-- The entry at the head of a queue's submission ring. -/
def State.headEntry (s : State) (q : Nat) : List Byte × State :=
  let r := s.dramFetch (s.ringBase (R.CLIP_Q_SQ_LO q) (R.CLIP_Q_SQ_HI q) + 64 * (s.rd (R.CLIP_Q_SQ_HEAD q) % s.ringEntries q)) 64
  (r.1, r.2.2)

/-- Whether the store takes commands at all: not while it is OFF or STARTING, nor while an activation holds it
(R444, R459, R465). [assumption 42, DEDUCED] -/
def State.storeTakes (s : State) : Bool :=
  s.runs .vault && s.storeState != 0 && s.storeState != 1
    && !((s.mbox.fwact.map (fun f => f.takingHeld)).getD false)

/-- The queue whose turn it is: the next one in the round that is enabled, has a command pending and a completion entry
free for it (R445). -/
def State.nextQueue (s : State) : Option Nat :=
  ((List.range 64).map (fun i => (s.clip.round + i) % 64)).find? (fun q =>
    s.bit (F.CLIP_Q_CTRL_enable q) && !s.bit (F.CLIP_Q_STATUS_resetting q) && s.sqPending q != 0
      && decide (s.cqUsed q + (s.clip.cmds.filter (fun c => c.q = q)).length < s.ringEntries q))

/-- The store takes its next command, if it is of the kind given. A command with an `opcode` outside R447 is taken under
any kind. [assumption 42, DEDUCED] -/
def State.clipTake (s : State) (op : Nat) : State :=
  if s.storeTakes then
    match s.nextQueue with
    | some q =>
      let e := s.headEntry q
      let k := leAt e.1 0 1
      if k = op ∨ k = 0 ∨ 6 < k then (e.2.takeFrom q e.1).clipMirror else s
    | none => s
  else s

/-- WRITE. -/
def execWrite (s : State) : Host.Outcome State Fault Refusal := done (s.clipTake 1)

/-- READ. -/
def execRead (s : State) : Host.Outcome State Fault Refusal := done (s.clipTake 2)

/-- FLUSH. -/
def execFlush (s : State) : Host.Outcome State Fault Refusal := done (s.clipTake 3)

/-- DEALLOCATE. -/
def execDeallocate (s : State) : Host.Outcome State Fault Refusal := done (s.clipTake 4)

/-- IDENTIFY. -/
def execIdentify (s : State) : Host.Outcome State Fault Refusal := done (s.clipTake 5)

/-- GET_LOG. -/
def execGetLog (s : State) : Host.Outcome State Fault Refusal := done (s.clipTake 6)

/-! ## Queue registers (R445, R457, R464) -/

/-- A doorbell write of the submission tail (R445). -/
def State.sqTailWrite (s : State) (q v : Nat) : State :=
  if s.bit (F.CLIP_Q_STATUS_resetting q) then s
  else if s.ringEntries q < (v % 65536 + 65536 - s.rd (R.CLIP_Q_SQ_HEAD q) % 65536) % 65536 then s.put (F.CLIP_Q_STATUS_bad_tail q) 1
  else s.wr (R.CLIP_Q_SQ_TAIL q) (v % 65536)

/-- CLIP_SQ_TAIL. -/
def execClipSqTail (m : Master) (q : Nat) (v : Word) (s : State) : Host.Outcome State Fault Refusal :=
  done (s.guardedWrite m (R.CLIP_Q_SQ_TAIL (q % 64)) (fun s => s.sqTailWrite (q % 64) v.toNat))

/-- A doorbell write of the completion head (R445). -/
def State.cqHeadWrite (s : State) (q v : Nat) : State :=
  if s.bit (F.CLIP_Q_STATUS_resetting q) then s else s.wr (R.CLIP_Q_CQ_HEAD q) (v % 65536)

/-- CLIP_CQ_HEAD. -/
def execClipCqHead (m : Master) (q : Nat) (v : Word) (s : State) : Host.Outcome State Fault Refusal :=
  done (s.guardedWrite m (R.CLIP_Q_CQ_HEAD (q % 64)) (fun s => s.cqHeadWrite (q % 64) v.toNat))

/-- Whether two ranges lie wholly inside one DRAM_REGION of a record set that a queue may use (R445). -/
def ringsIn (l : List RecBody) (q a b n m : Nat) : Bool :=
  (dramRegions l).any (fun r => decide (r.base ≤ a) && decide (a + n ≤ r.base + r.size) && decide (r.base ≤ b)
    && decide (b + m ≤ r.base + r.size) && ((r.owner = 6 && r.unit = q) || r.owner = 5))

/-- The rings of a queue under a record set (R445). -/
def State.ringsOk (s : State) (q : Nat) (l : List RecBody) : Bool :=
  ringsIn l q (s.ringBase (R.CLIP_Q_SQ_LO q) (R.CLIP_Q_SQ_HI q)) (s.ringBase (R.CLIP_Q_CQ_LO q) (R.CLIP_Q_CQ_HI q))
    (64 * s.ringEntries q) (32 * s.ringEntries q)

/-- Whether a queue may be enabled (R464), now and under a pending change (R67). -/
def State.clipQueueOk (s : State) (q : Nat) : Bool :=
  let k := s.fld (F.CLIP_Q_SIZE_log_size q)
  decide (4 ≤ k) && decide (k ≤ 12) && s.fld (F.CLIP_Q_OWNER_owner q) != 3 && s.ringsOk q s.bodies
    && (match s.changeBodies with
      | some l => s.ringsOk q l
      | none => true)

/-- Step 2 of R457 for one command: whether it is aborted. A WRITE that has staged nothing has moved no data, nor has a
FLUSH, or an IDENTIFY or GET_LOG that an activation holds; an ATOMIC write not all in staging rolls back.
[assumption 43, DEDUCED] -/
def ClipCmd.aborts (c : ClipCmd) (held : Bool) : Bool :=
  !c.started || c.op = 3 || (held && (c.op = 5 || c.op = 6)) || (c.op = 1 && c.flags.testBit 2 && decide (c.staged < c.nlb)) || (c.op = 1 && c.staged = 0)

/-- A queue's reset begins (R457): pending commands are taken and aborted with those that have moved no data; started
ones run to their end. [assumption 43, DEDUCED] -/
def State.queueReset (s : State) (q : Nat) : State :=
  if s.bit (F.CLIP_Q_STATUS_resetting q) then s
  else
    let s := s.put (F.CLIP_Q_STATUS_resetting q) 1
    let held := s.mbox.fwact.isSome
    let gone := s.clip.cmds.filter (fun c => c.q = q && c.aborts held)
    let ids := gone.map (fun c => c.id)
    let s : State := { s with clip := { s.clip with
      cmds := s.clip.cmds.filter (fun c => !(c.q = q && c.aborts held))
      staged := s.clip.staged.filter (fun e => !ids.contains e.id) } }
    let s := gone.foldl (fun (s : State) c => s.clipPost c 3 0 0 0) s
    let s := (List.range (s.sqPending q)).foldl (fun (s : State) _ =>
      let e := s.headEntry q
      let b := e.1
      let s := e.2.wr (R.CLIP_Q_SQ_HEAD q) ((e.2.rd (R.CLIP_Q_SQ_HEAD q) + 1) % 65536)
      s.clipPost ⟨0, q, leAt b 0 1, leAt b 1 1, leAt b 2 2, 0, 0, 0, false, 0, 0, []⟩ 3 0 0 0) s
    ((s.clipResetEnd q).clipStart).clipMirror

/-- A write of CLIP_Qq_CTRL (R464). [assumption 43, DEDUCED] -/
def State.clipQueueWrite (s : State) (q v : Nat) : State :=
  if v.testBit 1 then s.queueReset q
  else if v.testBit 0 then
    if s.bit (F.CLIP_Q_CTRL_enable q) then s
    else if s.bit (F.CLIP_Q_STATUS_resetting q) = false ∧ s.clipQueueOk q = true then s.put (F.CLIP_Q_CTRL_enable q) 1
    else s.put (F.CLIP_Q_STATUS_bad_cfg q) 1
  else if s.bit (F.CLIP_Q_STATUS_resetting q) then s
  else s.put (F.CLIP_Q_CTRL_enable q) 0

/-- CLIP_QUEUE_ENABLE. -/
def execClipQueueEnable (m : Master) (q : Nat) (v : Word) (s : State) : Host.Outcome State Fault Refusal :=
  done (s.guardedWrite m (R.CLIP_Q_CTRL (q % 64)) (fun s => s.clipQueueWrite (q % 64) (putBits v.toNat 1 0 1)))

/-- CLIP_QUEUE_RESET. -/
def execClipQueueReset (m : Master) (q : Nat) (v : Word) (s : State) : Host.Outcome State Fault Refusal :=
  done (s.guardedWrite m (R.CLIP_Q_CTRL (q % 64)) (fun s => s.clipQueueWrite (q % 64) (putBits v.toNat 1 1 1)))

/-! ## Enabling the store (R438, R444) -/

/-- The store becomes FAULTED for a reason. -/
def State.storeFault (s : State) (reason : Nat) : State :=
  ((s.put F.CLIP_STORE_STATUS_state 3).put F.CLIP_STORE_STATUS_reason reason).put F.CLIP_EVT_fault 1

/-- The member slots that `bif` gives (R438). -/
def bifSlots : Nat → List Nat
  | 0 => [0]
  | 1 => [0, 1]
  | 2 => [0, 1, 2, 3]
  | _ => []

/-- The range of the staging registers: its base and its size in GiB (R451). -/
def State.stageRange (s : State) : Nat × Nat :=
  (s.rd R.CLIP_STAGE_LO / 2 ^ 30 * 2 ^ 30 + s.rd R.CLIP_STAGE_HI % 64 * 2 ^ 32, s.fld F.CLIP_STAGE_SIZE_gib)

/-- Step 2 of R444. [assumption 41, DESIGN CHOICE] -/
def State.stageOk (s : State) : Bool :=
  let r := s.stageRange
  decide (1 ≤ r.2) && decide (r.2 ≤ 64) && s.userRegion r.1 (r.2 * 2 ^ 30) (fun o u => o = 6 && u = 64)

/-- A member is lost (R444, R455): acknowledged blocks for it become deferred errors, and commands that need it end
STORE_FAULT. A unit whose record is whole keeps it. -/
def State.loseMember (s : State) (slot : Nat) : State :=
  let idx := s.memberIndex slot
  let s := (s.put (F.CLIP_MEMBER_STATUS_lost slot) 1).storeFault 7
  let s := (s.clipLog 3 idx 0 0 0 0 0).2
  let hit := s.clip.cmds.filter (fun c => c.writes && c.fail = 0 && s.needsLost c.slba c.nlb)
  let ids := hit.map (fun c => c.id)
  let s := hit.foldl (fun (s : State) c => s.setCmd { c with fail := 6, started := true }) s
  let s := s.deferStaged (fun e => e.acked && (s.homeOf e.lba).1 = slot) 0
  let staged := s.clip.staged.filter (fun e => !(ids.contains e.id && (e.atomic || (s.homeOf e.lba).1 = slot)))
  let s : State := { s with clip := { s.clip with staged := staged, atoms := s.clip.atoms.filter (fun a => a.whole || !ids.contains a.id) } }
  s.clipStart.clipMirror

/-- The SSDs that slots hold are looked at: one that was changed brings its own contents, and the atomic log goes with the
one that was there. `lost` says which members the enable loses. [assumption 40, DESIGN CHOICE] -/
def State.attach (s : State) (ssds : List Ssd) (lost : List (Nat × Nat)) : State :=
  let slots := bifSlots (s.fld F.CLIP_STORE_CTRL_bif)
  let here := slots.filterMap (fun k => ssds.find? (fun x => x.slot = k && x.gen != 0))
  let s := here.foldl (fun (s : State) x =>
    match x.swap with
    | some d => s.setMember x.slot (d.foldl (fun (m : Memory) e => memWrite m e.1 e.2) [])
    | none => s) s
  let s : State := { s with clip := { s.clip with
    ssds := here.map (fun x => { x with swap := none })
    losing := lost
    atoms := if here.any (fun x => x.swap.isSome) then [] else s.clip.atoms } }
  (List.range 4).foldl (fun (s : State) k => s.wr (R.CLIP_MEMBER_STATUS k) (match s.ssdOf k with
    | some x => 1 + x.gen % 4 * 2 + x.width % 16 * 8
    | none => 0)) s

/-- Whether an SSD has every item of the NVMe subset (R443). The shutdown notification needs no support of its own. -/
def nvmeSubset (c : NvmeCtl) : Bool :=
  decide (0x10400 ≤ c.version) && c.namespaces.contains 1 && c.lbaBytes = 4096 && c.metaBytes = 0 && c.dlfeat % 8 = 1
    && decide (1023 ≤ c.mqes) && decide (8 ≤ c.ioQueues) && c.msix
    && [0, 1, 2].all (fun n => c.cns.contains n) && [0, 1, 2, 4, 5, 6, 9, 10].all (fun n => c.admin.contains n)
    && [1, 2].all (fun n => c.logs.contains n) && [2, 6, 7, 12].all (fun n => c.features.contains n)
    && [0, 1, 2, 9].all (fun n => c.io.contains n)

/-- Step 3 of R444: what the links and controllers fail with, 0 for nothing. -/
def State.linkReason (s : State) : Nat :=
  if s.clip.ssds = [] then 3 else if s.clip.ssds.all (fun x => nvmeSubset x.ctl) then 0 else 4

/-- The header block of a slot's SSD. [assumption 41, DESIGN CHOICE] -/
def State.headerOf (s : State) (slot : Nat) : List Byte := memRead (s.memberCells slot) 0 blockBytes

/-- Step 4 of R444: the slots by header index, when every header passes. -/
def State.headerOrder (s : State) : Option (List Nat) :=
  let slots := s.clip.ssds.map (fun x => x.slot)
  let hs := slots.map (fun k => (k, s.headerOf k))
  let n := slots.length
  let id := (hs.map (fun h => leAt h.2 8 16)).headD 0
  let order := (List.range n).filterMap (fun i => (hs.find? (fun h => leAt h.2 5 1 = i)).map (fun h => h.1))
  if hs.all (fun h => leAt h.2 0 4 = 0x53504C43 && leAt h.2 4 1 = 1 && leAt h.2 6 1 = n && leAt h.2 8 16 = id
      && leAt h.2 4092 4 = crc32c (h.2.take 4092)) && order.length = n then some order else none

/-- Step 5 of R444: the store key, when it unwraps and every header agrees with it (R547). -/
def State.unwrapStoreKey (s : State) : Option (List Byte) :=
  match aesUnwrap s.wrapKey (flashRead s.flash wrappedAt 72) with
  | some key => if s.clip.order.all (fun k => leAt (s.headerOf k) 32 8 = keyCheck key) then some key else none
  | none => none

/-- Step 6 of R444: staged writes that were acknowledged go home. [assumption 41, DESIGN CHOICE] -/
def State.settleStaged (s : State) : State :=
  let kept := if s.clip.stageAt = s.stageRange then s.clip.staged.filter (fun e => e.acked) else []
  ({ s with clip := { s.clip with stageAt := s.stageRange, staged := kept } } : State).drainAll

/-- Step 7 of R444: records that are whole roll forward, and others roll back with a log entry (R454).
[assumption 41, DESIGN CHOICE] -/
def State.settleAtoms (s : State) : State :=
  let s := s.clip.atoms.foldl (fun (s : State) a =>
    if a.whole then a.blocks.foldl (fun (s : State) b => s.writeHome b.1 (some b.2)) s
    else (s.clipLog 4 0xFF 0 a.lba a.nlb a.q a.cid).2) s
  { s with clip := { s.clip with atoms := [] } }

/-- The slots whose members are lost at a step of the enable. -/
def State.losesAt (s : State) (step : Nat) : List Nat :=
  s.clip.order.filter (fun k => s.clip.losing.contains (k, step))

/-- The advertised CS1 exit latency in µs (R460). -/
def State.cs1Latency (s : State) : Nat :=
  500 + (s.clip.ssds.map (fun x => ((cs1Power x).map (fun p => p.2)).getD 0)).foldl max 0

/-- Step 8 of R444: with a claimed power ball the members go once through bivouac and back, and the slowest gives the exit
latency (R461). -/
def State.measureBivouac (s : State) : State :=
  let claimed := s.ballClaimed 0x402
  let ms := ceilDiv (5 * (s.clip.ssds.map (fun x => x.wake)).foldl max 0) 4000000
  let s := if claimed then s.ssdsOff.ssdsOn else s
  if claimed && decide (ms ≤ 400) then (s.put F.CLIP_PWR_STATUS_bivouac_ok 1).put F.CLIP_PWR_STATUS_cs2_exit_ms ms
  else (s.put F.CLIP_PWR_STATUS_bivouac_ok 0).put F.CLIP_PWR_STATUS_cs2_exit_ms 0xFFFF

/-- Steps 6 to 9 of R444. A member lost at step 6 or 7 ends them. -/
def State.storeSettle (s : State) : State :=
  match s.losesAt 6 with
  | k :: r => (k :: r).foldl (fun (s : State) k => s.loseMember k) s
  | [] =>
    let s := s.settleStaged
    match s.losesAt 7 with
    | k :: r => (k :: r).foldl (fun (s : State) k => s.loseMember k) s
    | [] =>
      let s := s.settleAtoms.measureBivouac
      let s : State := { s with clip := { s.clip with cs1Exit := s.cs1Latency } }
      (((s.put F.CLIP_STORE_STATUS_state 2).put F.CLIP_STORE_STATUS_reason 0).put F.CLIP_EVT_ready 1).clipMirror

/-- Steps 4 to 9 of R444. -/
def State.storeOpen (s : State) : State :=
  match s.headerOrder with
  | none => s.storeFault 5
  | some order =>
    let s : State := { s with clip := { s.clip with order := order } }
    match s.unwrapStoreKey with
    | none => ({ s with clip := { s.clip with order := [] } } : State).storeFault 6
    | some key =>
      let cap := storeCapacity (order.filterMap (fun k => (s.ssdOf k).map (fun x => x.blocks)))
      let s : State := { s with
        sys := { s.sys with storeKey := some key }
        clip := { s.clip with log := [], errs := [], storeId := leAt (s.headerOf (order.headD 0)) 8 16, lastTake := s.real } }
      let s := ((s.wr R.CLIP_LOG_SEQ 0).wr (R.CLIP_CAPACITY 0) (cap % 2 ^ 32)).wr (R.CLIP_CAPACITY 1) (cap / 2 ^ 32)
      let s := order.foldl (fun (s : State) k => s.put (F.CLIP_MEMBER_STATUS_index k) (s.memberIndex k)) s
      (s.put F.CLIP_STORE_STATUS_members order.length).storeSettle

/-- The registers and tables of a store that is not in use. -/
def State.storeClose (s : State) : State :=
  let s : State := { s with sys := { s.sys with storeKey := none }, clip := { s.clip with order := [], format := false, heldErrs := [] } }
  let s := ((s.put F.CLIP_STORE_STATUS_members 0).wr (R.CLIP_CAPACITY 0) 0).wr (R.CLIP_CAPACITY 1) 0
  let s := (List.range 4).foldl (fun (s : State) k => s.wr (R.CLIP_MEMBER_STATUS k) 0) s
  (s.wr R.CLIP_PWR_STATUS 0xFFFF0000).clipMirror

/-- Commands taken run to their ends and staging drains. [assumption 43, DEDUCED] -/
def State.storeQuiesce (s : State) : State :=
  (s.clip.cmds.foldl (fun (s : State) c =>
    let s := s.drainAll.clipStart
    match s.clip.cmds.find? (fun x => x.id = c.id) with
    | some x => s.drainAll.tryFinish x []
    | none => s) s).drainAll

/-- The steps of R444 on the SSDs now in the slots, from OFF or from FAULTED, where commands in progress end first.
[assumption 41, DESIGN CHOICE] -/
def State.storeEnable (s : State) (ssds : List Ssd) (lost : List (Nat × Nat)) : State :=
  let s := if s.storeState = 3 then s.storeQuiesce.storeClose else s
  let s := s.put F.CLIP_STORE_CTRL_enable 1
  if s.sys.fuses.lcState = 3 then (s.put F.CLIP_STORE_STATUS_state 4).put F.CLIP_STORE_STATUS_reason 1
  else if !s.stageOk then s.storeFault 2
  else
    let s := s.attach ssds lost
    let s := s.initSlots ((s.clip.ssds.filter (fun x => nvmeSubset x.ctl)).map (fun x => x.slot))
    match s.linkReason with
    | 0 => (s.emitAll (s.clip.ssds.map (fun x => .nvme x.slot (.read 0)))).storeOpen
    | r => s.storeFault r

/-- The SSDs that a format makes members: those that pass step 3 of R444. -/
def State.formatSsds (s : State) : List Ssd := s.clip.ssds.filter (fun x => nvmeSubset x.ctl)

/-- A format begins: SYS advances the key epoch, which takes one fuse pulse (R444, R547). Refused when no fuse is left.
[assumption 41, DESIGN CHOICE] -/
def State.storeFormat (s : State) (ssds : List Ssd) (lost : List (Nat × Nat)) : State :=
  if s.sys.fuses.lcState = 3 then s.storeEnable ssds lost
  else
    if (s.attach ssds lost).formatSsds = [] then s.put F.CLIP_STORE_STATUS_bad_cfg 1
    else if 128 ≤ s.sys.fuses.epoch then s.put F.SYS_CSK_CTRL_state 6
    else
      let s := (if s.storeState = 3 then s.storeQuiesce.storeClose else s).attach ssds lost
      let s : State := { s with
        sys := { s.sys with fuseSeqs := s.sys.fuseSeqs ++ [([FusePulse.epoch], FuseEnd.format)], storeKey := none }
        clip := { s.clip with format := true, order := [] } }
      ((s.put F.SYS_STATUS_fuse_busy 1).put F.CLIP_STORE_CTRL_enable 1).put F.CLIP_STORE_STATUS_state 1

/-- The epoch fuse of a format is blown: a new key is drawn and wrapped, the members are emptied and given headers, and
the store is enabled (R444, R547). [assumption 41, DESIGN CHOICE] -/
def State.formatGo (s : State) : State :=
  if s.clip.format = false then s
  else
    let k := s.free
    let i := k.2.free
    let key := leBytes 64 k.1
    let s := i.2
    let n := s.formatSsds.length
    let cap := storeCapacity (s.formatSsds.map (fun x => x.blocks))
    let s : State := { s with
      flash := flashWrite s.flash wrappedAt (aesWrap s.wrapKey key)
      clip := { s.clip with format := false, staged := [], atoms := [], failed := [] } }
    let s := ((List.range n).zip s.formatSsds).foldl (fun (s : State) e =>
      (s.setMember e.2.slot (memWrite [] 0 (storeHeader e.1 n (i.1 % 2 ^ 128) cap (keyCheck key)))).emitAll
        [.nvme e.2.slot (.deallocate 0 e.2.blocks), .nvme e.2.slot (.write 0)]) s
    s.storeEnable s.clip.ssds s.clip.losing

/-- The store is turned off: commands taken run to their ends, staging drains and the members are shut down (R465).
[assumption 43, DEDUCED] -/
def State.storeDisable (s : State) : State :=
  let s := s.storeQuiesce
  let s := (s.emitAll (s.clip.order.map (fun slot => .nvme slot .shutdown))).storeClose
  ((s.put F.CLIP_STORE_CTRL_enable 0).put F.CLIP_STORE_STATUS_state 0).put F.CLIP_STORE_STATUS_reason 0

/-- A write of CLIP_STORE_CTRL (R444, R465). [assumption 40, DESIGN CHOICE] -/
def State.storeCtrlWrite (s : State) (v : Nat) (ssds : List Ssd) (lost : List (Nat × Nat)) : State :=
  let st := s.storeState
  let s := if bitsOf v 3 2 = s.fld F.CLIP_STORE_CTRL_bif then s
    else if st = 0 then s.put F.CLIP_STORE_CTRL_bif (bitsOf v 3 2)
    else s.put F.CLIP_STORE_STATUS_bad_cfg 1
  if v.testBit 1 then (if st = 0 ∨ st = 3 then s.storeFormat ssds lost else s.put F.CLIP_STORE_STATUS_bad_cfg 1)
  else if v.testBit 0 then (if st = 0 ∨ st = 3 then s.storeEnable ssds lost else s)
  else if st = 0 then s
  else s.storeDisable

/-- STORE_ENABLE. [assumption 40, DESIGN CHOICE] -/
def execStoreEnable (m : Master) (v : Word) (ssds : List Ssd) (lost : List (Nat × Nat)) (s : State) :
    Host.Outcome State Fault Refusal :=
  done (s.guardedWrite m R.CLIP_STORE_CTRL (fun s => s.storeCtrlWrite (putBits v.toNat 1 0 1) ssds lost))

/-- STORE_FORMAT. [assumption 40, DESIGN CHOICE] -/
def execStoreFormat (m : Master) (v : Word) (ssds : List Ssd) (lost : List (Nat × Nat)) (s : State) :
    Host.Outcome State Fault Refusal :=
  done (s.guardedWrite m R.CLIP_STORE_CTRL (fun s => s.storeCtrlWrite (putBits v.toNat 1 1 1) ssds lost))

/-- STORE_DISABLE. -/
def execStoreDisable (m : Master) (v : Word) (s : State) : Host.Outcome State Fault Refusal :=
  done (s.guardedWrite m R.CLIP_STORE_CTRL (fun s => s.storeCtrlWrite (putBits v.toNat 1 0 0) s.clip.ssds []))

/-- Whether a member that is in use leaves when the SSD of a slot does. -/
def State.memberLeaves (s : State) (slot : Nat) : Bool :=
  s.runs .vault && (s.storeState = 2 || s.storeState = 3) && s.clip.order.contains slot && !s.slotGone slot

/-- MEMBER_LOST; during an activation the handling waits (R459). -/
def execMemberLost (slot : Nat) (s : State) : Host.Outcome State Fault Refusal :=
  done (if s.memberLeaves slot then
      if s.mbox.fwact.isSome then { s with clip := { s.clip with heldErrs := s.clip.heldErrs ++ [.lost slot] } }
      else s.loseMember slot
    else s)

/-! ## The end of a firmware activation (R459, R516) -/

/-- Member errors that waited for an activation are handled once it has ended (R459). -/
def State.clipErrors (s : State) : State :=
  if s.mbox.fwact.isSome then s
  else s.clip.heldErrs.foldl (fun (s : State) h => match h with
    | .lost slot => s.loseMember slot
    | .failed l status => s.failBlocks l status) { s with clip := { s.clip with heldErrs := [] } }

/-- FW_READY. -/
def execFwReady (ms : Nat) (s : State) : Host.Outcome State Fault Refusal := done (s.fwReadyOp ms).clipErrors

/-- FWACT_FALLBACK. -/
def execFwactFallback (s : State) : Host.Outcome State Fault Refusal := done s.fwFallback.clipErrors

/-! ## Register writes and resets -/

/-- A write of a CLIP register (R463 to R466). -/
def State.clipRegWrite (s : State) (off v : Nat) : State :=
  if off < 0x200200 then
    if off % 8 = 0 then s.sqTailWrite ((off - 0x200000) / 8) v else s.cqHeadWrite ((off - 0x200000) / 8) v
  else if off = R.CLIP_STORE_CTRL then s.storeCtrlWrite v s.clip.ssds []
  else if 0x201000 ≤ off ∧ off < 0x202000 then
    let q := (off - 0x201000) / 0x40
    let r := (off - 0x201000) % 0x40
    if r = 0 then s.clipQueueWrite q v
    else if (r = 8 ∨ r = 0xC ∨ r = 0x10 ∨ r = 0x14 ∨ r = 0x18 ∨ r = 0x2C) ∧ s.bit (F.CLIP_Q_CTRL_enable q) = true then
      s.put (F.CLIP_Q_STATUS_bad_cfg q) 1
    else s.regWrite off v
  else if (off = R.CLIP_STAGE_LO ∨ off = R.CLIP_STAGE_HI ∨ off = R.CLIP_STAGE_SIZE) ∧ s.storeState ≠ 0 then
    s.put F.CLIP_STORE_STATUS_bad_cfg 1
  else s.regWrite off v

/-- Whether CLIP running users still lie in their regions under a record set (R67). -/
def State.clipUsersOk (s : State) (l : List RecBody) : Bool :=
  ((List.range 64).filter (fun q => s.bit (F.CLIP_Q_CTRL_enable q))).all (fun q => s.ringsOk q l)
    && (s.storeState = 0 || s.storeState = 4 || (s.storeState = 3 && s.clip.order.isEmpty)
      || rangeIn l s.stageRange.1 (s.stageRange.2 * 2 ^ 30) (fun o u => o = 6 && u = 64))

/-- VAULT enters reset (R458): commands are abandoned; staging and the members keep what they hold.
[assumption 43, DEDUCED] -/
def State.clipReset (s : State) : State :=
  let s := s.dropRegs 0x200000 0x300000
  { s with
    sys := { s.sys with storeKey := none }
    clip := { s.clip with order := [], cmds := [], log := [], failed := [], errs := [], round := 0, format := false, cs1Exit := 0, heldErrs := [] } }

/-- DRAM is lost, and staging with it (R458). -/
def State.clipLoseStaging (s : State) : State := { s with clip := { s.clip with staged := [], stageAt := (0, 0) } }

end Sys2Proof.Machine
end

