-- ==== Sys2Proof/Machine/Journal.lean ====
section
/-! DEFINITION. The boundary journal's control: its ring, the entries a follower receives, the end of a hold, the reading
of digests, and the Fenmas packets that a unit receives (chapters 02 and 09). -/
namespace Sys2Proof.Machine

/-! ## Control and the ring (R99, R104, R113, R115) -/

/-- Where the journal ring lies: its base and its bytes. -/
def State.jnlRing (s : State) : Nat × Nat :=
  (s.fld F.RIG_JNL_BASE_LO_base_lo * 2 ^ 12 + s.fld F.RIG_JNL_BASE_HI_base_hi * 2 ^ 32, 32 * 2 ^ s.fld F.RIG_JNL_SIZE_log_size)

/-- The owners of a region that may hold the journal ring (R99). -/
def jnlOwner (o _u : Nat) : Bool := o = 5 || o = 2

/-- Whether the ring may be enabled (R99). -/
def State.jnlRingOk (s : State) : Bool :=
  let k := s.fld F.RIG_JNL_SIZE_log_size
  let r := s.jnlRing
  decide (10 ≤ k) && decide (k ≤ 21) && s.userRegion r.1 r.2 jnlOwner

/-- A write of RIG_JNL_CTRL. `mode` and `follow_mask` take effect at the next latch point (R104).
[assumption 26, DEDUCED] -/
def State.jnlCtrlWrite (s : State) (v : Nat) : State :=
  let s := if bitsOf v 3 2 = 3 then s.put F.RIG_JNL_STATUS_bad_cfg 1 else s.put F.RIG_JNL_CTRL_mode (bitsOf v 3 2)
  let s := (s.put F.RIG_JNL_CTRL_follow_mask (putBits (bitsOf v 23 16) 5 5 0)).put F.RIG_JNL_CTRL_forward (bitsOf v 1 1)
  if v % 2 = 0 then (s.put F.RIG_JNL_CTRL_enable 0).put F.RIG_JNL_STATUS_ring_ok 0
  else if s.bit F.RIG_JNL_CTRL_enable then s
  else if s.jnlRingOk then (s.put F.RIG_JNL_CTRL_enable 1).put F.RIG_JNL_STATUS_ring_ok 1
  else s.put F.RIG_JNL_STATUS_bad_cfg 1

/-- JNL_ENABLE. -/
def execJnlEnable (m : Master) (v : Word) (s : State) : Host.Outcome State Fault Refusal :=
  done (s.guardedWrite m R.RIG_JNL_CTRL (fun s => s.jnlCtrlWrite (putBits v.toNat 0 0 1)))

/-- A new receipt begins, from another source or in another follow mode: nothing is known of its sequence, and the seals of
the source before are not its own (R581). -/
def State.newReceipt (s : State) : State :=
  { s with
    fen := { s.fen with lastSeq := none }
    jnl := { s.jnl with wholeFrom := none, seqs := [], held := s.jnl.held.filter (fun e => e.kind != 9) } }

/-- What changes at a latch point of the instant `t`: the follow mode and mask of RIG_JNL_CTRL take effect (R104), and a
change of mode starts a new receipt (R581). -/
def State.jnlLatch (s : State) (t : Nat) : State :=
  let mode := s.fld F.RIG_JNL_CTRL_mode
  let mask := s.fld F.RIG_JNL_CTRL_follow_mask
  if mode = s.jnl.mode ∧ mask = s.jnl.mask then s
  else
    let s : State := { s with jnl := { s.jnl with was := (s.jnl.mode, s.jnl.mask), since := t, mask := mask } }
    if mode = s.jnl.mode then s
    else
      ({ s with
        jnl := { s.jnl with mode := mode }
        fen := { s.fen with source := none } } : State).newReceipt.flag F.RIG_JNL_STATUS_following (mode != 0)

/-! ## Decisions that waited (R105, R106) -/

/-- The hold of a NET surface's binding has expired while a followed entry names the frame: the device decides the video
frame of that entry itself, with what it has of it (R106). [assumption 38, DEDUCED] -/
def State.netOverride (s : State) (n frame : Nat) : State :=
  let r := s.src n
  let s := match s.heldEntry 4 0 r frame with
    | some e => match (s.rx r).vids.find? (fun (f : VidFrame) => f.ts = e.a) with
      | some f => s.vidCheck r f.num true
      | none =>
        let s := s.setRx r { s.rx r with closed := closedStamps e.a (s.rx r).closed }
        s.overrideWrite 4 0 r frame e.a 0 0
    | none => s
  (s.unblock 4 1 n frame).wallResume none

/-- A blocked decision point is looked at again; `force`: its hold has expired, and the device decides (R106).
[assumption 26, DEDUCED] -/
def State.resumeWait (s : State) (w : Wait) (force : Bool) : State :=
  let wall := fun (k : Nat) => s.wallResume (if force then some (k, w.unit, w.frame) else none)
  match w.kind, w.target with
  | 1, _ => s.closeResume w.unit w.frame force
  | 2, _ => s.groupResume w.unit force
  | 3, _ => if (s.ses w.unit).hold.isSome then s.hevcResume w.unit force else s.unitResume w.unit (if force then some w.frame else none)
  | 4, 1 => if force then s.netOverride w.unit w.frame else wall 5
  | 4, _ =>
    if s.fld (F.NET_RX_CFG_type w.unit) = 3 then s.audResume w.unit force
    else if force then
      match (s.rx w.unit).vids.find? (fun f => f.ts = w.frame) with
      | some f => s.vidCheck w.unit f.num true
      | none => s.unblock 4 0 w.unit w.frame
    else s.vidResume w.unit
  | 5, _ => wall 5
  | 7, 1 => s.bindResume w.unit w.frame force
  | 7, 2 => wall 7
  | 7, 3 => s.hevcResume w.unit force
  | 7, 4 => s.exposureResume w.unit w.frame force
  | 7, _ => if force then s.modeForce w.frame else s.modeResume false
  | 8, _ => if force then s.fillOverride w.unit w.frame else s.pushPass w.unit
  | _, _ => s

/-- Every decision point that is still blocked is looked at again. -/
def State.resumeAll (s : State) : State :=
  s.jnl.waits.foldl (fun (s : State) w => if s.blocked w.kind w.target w.unit w.frame then s.resumeWait w false else s) s

/-- The hold limit in ns (R115). [assumption 26, DEDUCED] -/
def State.holdNs (s : State) : Nat := clampN 100 100000 (s.fld F.RIG_JNL_HOLD_US_hold) * 1000

/-- JNL_HOLD_EXPIRE: the hold of a blocked decision point runs out. [assumption 26, DEDUCED] -/
def execJnlHoldExpire (k : Nat) (s : State) : Host.Outcome State Fault Refusal :=
  done (match s.jnl.waits[k]? with
    | some w => (s.reach (w.since + s.holdNs)).resumeWait w true
    | none => s)

/-! ## Received entries (R107, R108) -/

/-- Whether an entry decides a video frame that this device has decided for another wall frame: its RTP timestamp names
it (R92, R96). -/
def State.videoTwin (s : State) (e : Entry) (f : Entry) : Bool :=
  e.kind = 4 && f.kind = 4 && e.unit = f.unit && e.a = f.a && e.frame != f.frame && s.fld (F.NET_RX_CFG_type e.unit) != 3

/-- What becomes of an entry that passed its check (R106, R107). -/
inductive Intake where
  /-- It is already applied or held, or this device has passed its point. -/
  | known
  /-- It contradicts an entry applied or written as an override. -/
  | conflict
  /-- It is to be held. -/
  | keep
deriving DecidableEq, Repr

/-- What becomes of an entry: one already applied or held is ignored; one that contradicts an applied entry, or an override
of the same decision, conflicts; one whose point this device has passed is not needed; any other is held (R106, R107).
[assumption 26, DEDUCED] -/
def State.jnlSort (s : State) (e : Entry) : Intake :=
  if s.jnl.held.any (fun f => f.same e) then .known
  else if s.jnl.applied.any (fun f => f.same e) then .known
  else if s.jnl.applied.any (fun f => f.key = e.key || (f.override && s.videoTwin e f)) then .conflict
  else if s.jnl.applied.any (s.videoTwin e) || s.jnl.seals.any (fun x => e.passed 9 0 x.2.1 x.2.2 x.1) then .known
  else .keep

/-- The 32 bytes of an entry are received in a follow mode: whether they were accepted (R107). [assumption 26, DEDUCED] -/
def State.jnlReceive (s : State) (b : List Byte) : Bool × State :=
  let e := Entry.ofBytes b
  if leAt b 28 4 ≠ crc32c (b.take 28) then
    (false, (s.bump F.RIG_JNL_CRC_BAD_count 1).put F.RIG_JNL_STATUS_crc_bad 1)
  else if s.jnlSort e = .keep ∧ 4096 ≤ s.jnl.held.length then (false, s.put F.RIG_JNL_STATUS_gap 1)
  else
    let sort := s.jnlSort e
    let s := match s.fen.lastSeq with
      | some q => if e.seq = (q + 1) % 2 ^ 32 then s else s.put F.RIG_JNL_STATUS_gap 1
      | none => s
    let s : State := { s with
      fen := { s.fen with lastSeq := some e.seq }
      jnl := { s.jnl with
        wholeFrom := some (s.jnl.wholeFrom.getD e.seq)
        seqs := if s.jnl.seqs.contains e.seq then s.jnl.seqs else e.seq :: s.jnl.seqs
        held := if sort = .keep then s.jnl.held ++ [e] else s.jnl.held } }
    let s := s.wr R.RIG_JNL_SRC_SEQ e.seq
    (true, if sort = .conflict then s.put F.RIG_JNL_STATUS_conflict 1 else s)

/-- The entry that the RIG_JNL_INJ registers hold. [assumption 26, DEDUCED] -/
def State.injected (s : State) : List Byte := (List.range 8).flatMap (fun k => leBytes 4 (s.rd (R.RIG_JNL_INJ k)))

/-- A write of RIG_JNL_INJ7 submits the entry (R107). -/
def State.jnlInject (s : State) (v : Nat) : State :=
  let s := s.wr (R.RIG_JNL_INJ 7) v
  if s.jnl.mode = 2 then (s.jnlReceive s.injected).2.resumeAll else s

/-- JNL_INJECT. -/
def execJnlInject (m : Master) (v : Word) (s : State) : Host.Outcome State Fault Refusal :=
  done (s.guardedWrite m (R.RIG_JNL_INJ 7) (fun s => s.jnlInject v.toNat))

/-! ## Digests (R112) -/

/-- A read of RIG_DIG_FRAME: the number of the selected digest, whose value and flags are captured. -/
def State.digFrame (s : State) : Nat × State :=
  let k := 256 * s.fld F.RIG_DIG_SEL_scope + s.fld F.RIG_DIG_SEL_index
  match mapFind s.jnl.digests k with
  | some d => (d.num, { s with jnl := { s.jnl with captured := d } })
  | none => (0, { s with jnl := { s.jnl with captured := ⟨0, 0, false, false, false⟩ } })

/-- DIG_FRAME_READ. -/
def execDigFrameRead (m : Master) (s : State) : Host.Outcome State Fault Refusal :=
  done (s.guardedRead m R.RIG_DIG_FRAME State.digFrame)

/-- A write of a journal or digest register. -/
def State.jnlRegWrite (s : State) (off v : Nat) : State :=
  if off = R.RIG_JNL_CTRL then s.jnlCtrlWrite v
  else if (off = R.RIG_JNL_BASE_LO ∨ off = R.RIG_JNL_BASE_HI ∨ off = R.RIG_JNL_SIZE) ∧ s.bit F.RIG_JNL_CTRL_enable = true then
    s.put F.RIG_JNL_STATUS_bad_cfg 1
  else if off = R.RIG_JNL_INJ 7 then s.jnlInject v
  else if R.RIG_JNL_INJ 0 ≤ off ∧ off < R.RIG_JNL_INJ 7 then s.wr off v
  else s.regWrite off v

/-! ## Fenmas packets received (R353, R372, R383, R385) -/

/-- The source of a follower in FOLLOW_FENMAS (R383): its pair and unit. -/
def State.followSource (s : State) : Option (Nat × Nat) :=
  let pair := s.fld F.FEN_FOLLOW_src_pair
  let unit := s.fld F.FEN_FOLLOW_src_unit
  if unit = 0xFF then (mapFind s.fen.claims pair).map (fun c => (pair, c.2)) else some (pair, unit)

/-- The source of a follower in FOLLOW_FENMAS is looked at: another one begins a new receipt (R383, R581). -/
def State.sourceCheck (s : State) : State :=
  if s.jnl.mode = 1 ∧ s.fen.source ≠ s.followSource then
    ({ s with fen := { s.fen with source := s.followSource } } : State).newReceipt
  else s

/-- A write of a NET_PHYp_CFG or FENMAS register, after which the source of a follower may be another (R383). -/
def State.netRegWrite (s : State) (off v : Nat) : State := (s.fenRegWrite off v).sourceCheck

/-- One entry of a JOURNAL packet: not later than the last accepted one, it is a duplicate (R383). -/
def State.journalEntry (s : State) (b : List Byte) : State :=
  match s.fen.lastSeq with
  | some q => if laterThan 32 (leAt b 4 4) q then (s.jnlReceive b).2 else s.bump F.FEN_JNL_DUP_count 1
  | none => (s.jnlReceive b).2

/-- A JOURNAL packet received (R383). -/
def State.journalOp (s : State) (p : FenRx) : State :=
  let s := s.sourceCheck
  if s.jnl.mode ≠ 1 ∨ s.fen.source ≠ some (p.pair, p.unit)
      ∨ (s.fld F.FEN_FOLLOW_src_pair = s.fld F.FEN_ADDR_pair ∧ laterThan 32 s.fenEpoch p.epoch = true) then s
  else
    let s := s.bump F.FEN_JNL_RX_count 1
    let n := beAt p.bytes 16 1
    ((List.range n).foldl (fun (s : State) i => s.journalEntry (slice p.bytes (24 + 32 * i) 32)) s).resumeAll

/-- A frame arrives that a command says is a Fenmas packet of a type: what it does, if it is one; an invalid packet is
counted (R353). -/
def State.fenArrive (s : State) (port t ftype : Nat) (f : List Byte) (op : State → FenRx → State) : State :=
  let s := s.reach t
  match s.fenSeen (port % 8) f with
  | .packet p => if p.ftype = ftype then op (s.hearEpoch p) p else s
  | .invalid => s.bump F.FEN_RX_BAD_count 1
  | .ignored => s

/-- BEACON. -/
def execBeacon (port t : Nat) (frame : List Byte) (s : State) : Host.Outcome State Fault Refusal :=
  done (s.fenArrive port t 5 frame (fun s p => (s.beaconOp p).sourceCheck))

/-- DIGEST. -/
def execDigest (port t : Nat) (frame : List Byte) (s : State) : Host.Outcome State Fault Refusal :=
  done (s.fenArrive port t 6 frame State.digestOp)

/-- JOURNAL. -/
def execJournal (port t : Nat) (frame : List Byte) (s : State) : Host.Outcome State Fault Refusal :=
  done (s.fenArrive port t 7 frame State.journalOp)

/-- INVALID_FENMAS_PACKET: counted (R353). -/
def execInvalidFenmasPacket (port t : Nat) (frame : List Byte) (s : State) : Host.Outcome State Fault Refusal :=
  let s := s.reach t
  done (match s.fenSeen (port % 8) frame with
    | .invalid => s.bump F.FEN_RX_BAD_count 1
    | _ => s)

end Sys2Proof.Machine
end

