-- ==== Sys2Proof/Machine/Rigging.lean ====
section
/-! DEFINITION. Rigging (chapter 01): loads, requests for a change of structure, the running users that a change must
respect, run-time claims, strands and calendars. The applying of a change stands in Latch.lean. -/
namespace Sys2Proof.Machine

/-! ## Slots and status (R81, R82) -/

/-- The code of a slot's state (R82). -/
def SlotSt.code : SlotSt → Nat
  | .empty => 0 | .loading => 1 | .validFull => 2 | .validFragment => 3 | .active => 4

/-- A slot: 0 slot A, 1 slot B. -/
def State.slot (s : State) (k : Nat) : Slot := if k = 0 then s.rig.slotA else s.rig.slotB

/-- A slot changed, with RIG_SLOT_STATE and RIG_STATUS.`active`. -/
def State.setSlot (s : State) (k : Nat) (x : Slot) : State :=
  let s : State := { s with rig := if k = 0 then { s.rig with slotA := x } else { s.rig with slotB := x } }
  let s := (s.put F.RIG_SLOT_STATE_slot_a s.rig.slotA.st.code).put F.RIG_SLOT_STATE_slot_b s.rig.slotB.st.code
  s.put F.RIG_STATUS_active (if s.rig.slotA.st = .active then 1 else if s.rig.slotB.st = .active then 2 else 0)

/-- The ACTIVE slot. -/
def State.activeSlot (s : State) : Option Nat :=
  if s.rig.slotA.st = .active then some 0 else if s.rig.slotB.st = .active then some 1 else none

/-- Where a slot's bytes lie in the pool (R21). -/
def slotBase (k : Nat) : Nat := (992 + 16 * k) * bankBytes

/-- A slot made EMPTY, its 16 banks zeroed (R57). -/
def State.emptySlot (s : State) (k : Nat) : State :=
  ((List.range 16).foldl (fun (s : State) i => s.zeroBank (992 + 16 * k + i)) s).setSlot k ⟨.empty, none⟩

/-! ## Running users (R67) -/

/-- The tables that WALL reads and writes for its users (R67, R336): the change hashes while WALL is enabled, the LUT set and
the seam grid that an active or pending generation of an enabled context names, and the decode curve of an enabled surface.
[assumption 28, DEDUCED] -/
def State.wallTables (s : State) : List (Nat × Nat) :=
  (if s.bit F.WALL_CTRL_enable then [(s.wallBase F.WALL_HASH_LO_addr_lo F.WALL_HASH_HI_addr_hi, 2 ^ 23)] else [])
  ++ s.wall.tiles.flatMap (fun (e : Nat × Tile) => (e.2.active :: e.2.pend.map (fun p => p.1)).flatMap (fun g =>
    let c := tileCtx e.1 g.regs
    if c.enable then
      (s.wallBase F.WALL_LUT_LO_addr_lo F.WALL_LUT_HI_addr_hi + 24768 * c.lutSet, 24768)
        :: (if c.seam then [(s.wallBase F.WALL_SEAM_LO_addr_lo F.WALL_SEAM_HI_addr_hi + 640 * e.1, 640)] else [])
    else []))
  ++ ((List.range 256).filter (fun n => s.bit (F.WALL_SURF_CFG_enable n) && decide (s.fld (F.WALL_SURF_CFG_decode n) < 16)
      && !(s.fld (F.WALL_SURF_CFG_fmt n) == 8 && s.feed n != 2))).map (fun n => (s.decodeBase n, 16448))

/-- Whether every running user's range would still meet its ownership rule under a record set (R67). A bank of a session with
`run` 0, which no commit has checked, names a user where its ranges meet the rule now. [assumption 28, DEDUCED] -/
def State.usersOk (s : State) (l : List RecBody) : Bool :=
  let rawcOk := (List.range 32).all (fun q =>
    !s.bit (F.RAWC_Q_CTRL_enable q) ||
      (let cq := s.rawBase (F.RAWC_Q_CQ_LO_base_lo q) (F.RAWC_Q_CQ_HI_base_hi q)
       let n := s.rawRing q
       match s.rawShape q with
       | some h =>
         if h.tap then
           rangeIn l (s.rawBase (F.RAWC_Q_SLOT_LO_base_lo q) (F.RAWC_Q_SLOT_HI_base_hi q))
             (s.fld (F.RAWC_Q_SLOT_COUNT_slot_count q) * s.slotBytes q) (rawOwn q) && rangeIn l cq (32 * n) (rawOwn q)
         else rangeIn l (s.rawBase (F.RAWC_Q_SQ_LO_base_lo q) (F.RAWC_Q_SQ_HI_base_hi q)) (64 * n) (rawOrHost q)
           && rangeIn l cq (32 * n) (rawOrHost q)
       | none => true))
  let poolOk := !s.bit F.HEVC_POOL_CTRL_enable
    || rangeIn l s.poolBase (s.fld F.HEVC_POOL_COUNT_count * s.bufBytes) (fun o u => o = 11 && u = 64)
  let hevcOk := s.hevc.ses.all (fun e =>
    let k := e.1
    match s.sesShape k with
    | none => true
    | some h => (e.2.active :: e.2.pend).all (fun g =>
        let rangeIn := fun (l : List RecBody) (a n : Nat) (own : Nat → Nat → Bool) =>
          rangeIn l a n own || (!(encBank g.regs k).run && (n = 0 || !s.inRegion a n own))
        (let addr := fun (lo hi : Fld) => bankFld g.regs lo * 2 ^ 12 + bankFld g.regs hi * 2 ^ 32
         (if h.decodes then rangeIn l (addr (F.HEVC_SES_OUT_LO_base_lo k) (F.HEVC_SES_OUT_HI_base_hi k))
             (bankFld g.regs (F.HEVC_SES_OUT_BUF_out_bufs k) * (bankFld g.regs (F.HEVC_SES_OUT_STRIDE_out_stride k) * 4096)) (hevcOwn k)
           else rangeIn l (addr (F.HEVC_SES_BS_LO_base_lo k) (F.HEVC_SES_BS_HI_base_hi k))
             (bankFld g.regs (F.HEVC_SES_BS_SIZE_bs_size k) * 4096) (hevcOwn k))
         && rangeIn l (s.base2 (F.HEVC_SES_CQ_LO_base_lo k) (F.HEVC_SES_CQ_HI_base_hi k)) (32 * s.sesRing k) (hevcOwn k)
         && (h.byStrand || rangeIn l (s.base2 (F.HEVC_SES_SQ_LO_base_lo k) (F.HEVC_SES_SQ_HI_base_hi k)) (32 * s.sesRing k) (hevcOwn k)))))
  let devOk := s.cam.ctxs.all (fun e =>
    let c := e.1
    (e.2.active :: e.2.pend.map (fun p => p.1)).all (fun (g : DevGen) =>
      let os : SMap (SMap Word) := g.streams.filter (fun (o : Nat × SMap Word) => bankBit o.2 (F.DEV_OS_CTRL_enable o.1))
      (devTables g.regs c ++ colourTables g.regs c ++ os.flatMap (fun (o : Nat × SMap Word) =>
        (if bankFld o.2 (F.DEV_OS_CTRL_filter o.1) = 2 then [(bankAddr o.2 (R.DEV_OS_FILT_LO o.1) (R.DEV_OS_FILT_HI o.1), 2048)] else [])
          ++ (if bankBit o.2 (F.DEV_OS_CTRL_to_dram o.1) then [(osBase o.2 o.1, osBufs o.2 o.1 * osStride o.2 o.1)] else []))).all
        (fun r => rangeIn l r.1 r.2 (fun o u => o = 9 && u = c))))
  let wallOk := (List.range 256).all (fun n => !s.bit (F.WALL_SURF_CFG_enable n) || (s.surfRanges n).all (fun r => rangeIn l r.1 r.2 surfOwner))
    && s.wallTables.all (fun r => rangeIn l r.1 r.2 (fun o u => o = 12 && u = 0))
  let audOk := (List.range 8).all (fun g => !s.grpHeld g ||
    rangeIn l (s.grpBase g) (2 ^ s.fld (F.AUD_GRP_SIZE_log_size g) * recBytes (s.memberCounts g).sum) (fun o u => (o = 13 && u = g) || o = 5))
  let netOk := (List.range 64).all (fun r => !(s.bit (F.NET_RX_CFG_enable r) && s.fld (F.NET_RX_CFG_type r) = 2) ||
    rangeIn l (s.rxRing r).1 (s.rxRing r).2 (fun o u => (o = 7 && u = r) || o = 5))
  let jnlOk := !s.bit F.RIG_JNL_CTRL_enable || rangeIn l s.jnlRing.1 s.jnlRing.2 jnlOwner
  let calOk := s.fen.cals.all (fun k => rangeIn l k.addr k.len (fun o _ => o = 7 || o = 5))
  rawcOk && poolOk && hevcOk && devOk && wallOk && audOk && netOk && jnlOk && calOk && s.clipUsersOk l

/-! ## Loads (R56 to R59, R83) -/

/-- Whether a record names a resource that a run-time claim holds (R78). [assumption 28, DEDUCED] -/
def RtClaim.blocks (c : RtClaim) (r : RecBody) : Bool :=
  match r with
  | .ball row col _ _ => c.res = 1 && c.index = 256 * row + col
  | .timer t _ _ => c.res = 2 && c.index = t
  | .pool first count _ _ _ => c.res = 3 && decide (first ≤ c.index) && decide (c.index < first + count)
  | _ => false

/-- Steps 4 to 12 of R57 on an image's bytes: the code, the offset of the first bad record, and the image when it passes.
`boot` holds for the loads of R59, which have no running users to respect. [assumption 27, DEDUCED] -/
def State.verdict (s : State) (l : List Byte) (boot : Bool) : LoadCode × Nat × Option Image :=
  let no := 0xFFFFFFFF
  match checkImage s l boot s.verifyKey with
  | .fail c o => (c, o, none)
  | .image im =>
    let declared := match s.rig.active with
      | some act => act.bodies.any (fun r => match r with | .region id rr _ => id = im.regionId && rr | _ => false)
      | none => false
    if !im.full && !declared then (.region, no, none)
    else
      let whole : Image := if im.full then im else match s.rig.active with
        | some act => mergeFragment act im
        | none => im
      let locked := if s.bit F.MEMC_CFG_lock && !boot then some (s.rd R.MEMC_CFG) else none
      if !admitted im.bodies whole.recs (!im.full) locked then (.admission, no, none)
      else if im.bodies.any (fun r => s.rig.claims.any (fun c => c.blocks r)) || (!boot && !s.usersOk whole.bodies)
          || (!im.full && doubleClaims whole.bodies) then (.busy, no, none)
      else (.ok, no, some im)

/-- A write of RIG_LOAD_CTRL with `go` (R56, R57, R83). -/
def State.rigLoad (s : State) (v : Nat) : State :=
  let s := s.put F.RIG_LOAD_CTRL_slot (bitsOf v 1 1)
  if !v.testBit 0 then s
  else if s.rig.load.isSome then s.put F.RIG_STATUS_load_busy 1
  else
    let src := s.rd R.RIG_LOAD_SRC
    let len := s.rd R.RIG_LOAD_LEN
    let k := bitsOf v 1 1
    let fail := fun (s : State) (c : LoadCode) => (s.put F.RIG_LOAD_STATUS_code c.num).put F.HOST_EVT_rig_load 1
    if len % 8 ≠ 0 ∨ len < 176 ∨ 2097152 < len ∨ src % 8 ≠ 0 ∨ 992 * bankBytes < src + len then fail s .lengthRange
    else
      let s := s.wr R.RIG_LOAD_ERR_OFS 0xFFFFFFFF
      if s.sys.fuses.lcState = 3 then fail s .lifecycle
      else if (s.slot k).st = .active ∨ (s.rig.change.map (fun c => c.slot)) = some k then fail s .busy
      else
        let s := (s.setSlot k ⟨.loading, none⟩).put F.RIG_LOAD_STATUS_code LoadCode.running.num
        { s with rig := { s.rig with load := some ⟨k, src, len⟩ } }

/-- RIG_LOAD. -/
def execRigLoad (m : Master) (v : Word) (s : State) : Host.Outcome State Fault Refusal :=
  done (s.guardedWrite m R.RIG_LOAD_CTRL (fun s => s.rigLoad (putBits v.toNat 0 0 1)))

/-- The copy is complete: steps 4 to 13 (R57). [assumption 27, DEDUCED] -/
def State.loadCopied (s : State) : State :=
  match s.rig.load with
  | none => s
  | some ld =>
    let b := s.poolRead ld.src ld.len
    let s := s.poolWrite (slotBase ld.slot) b
    let s : State := { s with rig := { s.rig with load := none } }
    let r := s.verdict b false
    let s := (s.put F.RIG_LOAD_STATUS_code r.1.num).put F.HOST_EVT_rig_load 1
    match r.2.2 with
    | some im => s.setSlot ld.slot ⟨if im.full then .validFull else .validFragment, some im⟩
    | none => (s.wr R.RIG_LOAD_ERR_OFS r.2.1).emptySlot ld.slot

/-- LOAD_COPY_COMPLETE. -/
def execLoadCopyComplete (s : State) : Host.Outcome State Fault Refusal := done s.loadCopied

/-! ## Requests for a change (R60 to R62, R85) -/

/-- The latch point of wall frame N in the numbering in force, in ns (R63, R418). [assumption 27, DEDUCED] -/
def State.latchOfFrame (s : State) (n : Nat) : Nat :=
  let c := s.fclk.roll
  c.mode.latch (c.next + (n + 2 ^ 32 - s.nextFrame) % 2 ^ 32)

/-- The target slot of a request (R61). -/
def State.changeSlot (s : State) (v : Nat) : Nat :=
  match s.activeSlot with
  | some k => 1 - k
  | none => bitsOf v 4 4

/-- Whether a request meets every condition of R61 but the one of time. [assumption 27, DEDUCED] -/
def State.changeValid (s : State) (v : Nat) : Bool :=
  let n := s.rd R.RIG_CHANGE_FRAME
  let x := s.slot (s.changeSlot v)
  laterThan 32 n (s.rd R.ANCHOR_FC_FRAME) && (match bitsOf v 3 2 with
    | 1 => x.st = .validFull
    | 2 => s.activeSlot.isSome && x.st = .validFragment && (x.img.map (fun im => im.regionId)) = some (bitsOf v 23 16)
    | _ => false)

/-- The end of a change with a status; a BUSY ending that waited for it is then shown (R85). [assumption 27, DEDUCED] -/
def State.changeEnd (s : State) (code : Nat) : State :=
  let c := if s.rig.busyLater then 5 else code
  let s : State := { s with rig := { s.rig with change := none, busyLater := false } }
  ((s.put F.RIG_CHANGE_STATUS_state c).put F.RIG_STATUS_change_pending 0).put F.HOST_EVT_rig_change 1

/-- A `cancel` (R62). -/
def State.changeCancel (s : State) : State :=
  match s.rig.change with
  | some c => if c.applying then s else s.changeEnd 7
  | none => s

/-- A `go` (R60, R61, R67). [assumption 27, DEDUCED] -/
def State.changeGo (s : State) (v : Nat) : State :=
  let k := s.changeSlot v
  let fail := fun (c : Nat) => (s.put F.RIG_CHANGE_STATUS_state c).put F.HOST_EVT_rig_change 1
  if s.rig.change.isSome then { s with rig := { s.rig with busyLater := true } }
  else if !s.changeValid v then fail 6
  else if s.latchOfFrame (s.rd R.RIG_CHANGE_FRAME) < s.nowNs + 20000000 then fail 4
  else if ((s.resultOf (bitsOf v 3 2 = 2) k).map (fun im => s.usersOk im.bodies)) = some false then fail 5
  else
    let c : Change := ⟨bitsOf v 3 2 = 2, bitsOf v 23 16, s.rd R.RIG_CHANGE_FRAME, k, false, 0⟩
    (({ s with rig := { s.rig with change := some c } } : State).put F.RIG_CHANGE_STATUS_state 1).put F.RIG_STATUS_change_pending 1

/-- A write of RIG_CHANGE_CTRL. -/
def State.changeWrite (s : State) (v : Nat) : State :=
  let s := s.regWrite R.RIG_CHANGE_CTRL v
  let s := if v.testBit 1 then s.changeCancel else s
  if v.testBit 0 then s.changeGo v else s

/-- SWITCH. -/
def execSwitch (m : Master) (v : Word) (s : State) : Host.Outcome State Fault Refusal :=
  done (s.guardedWrite m R.RIG_CHANGE_CTRL (fun s => s.changeWrite (putBits (putBits v.toNat 3 2 1) 0 0 1)))

/-- RE_RIG. -/
def execReRig (m : Master) (v : Word) (s : State) : Host.Outcome State Fault Refusal :=
  done (s.guardedWrite m R.RIG_CHANGE_CTRL (fun s => s.changeWrite (putBits (putBits v.toNat 3 2 2) 0 0 1)))

/-- CANCEL. -/
def execCancel (m : Master) (v : Word) (s : State) : Host.Outcome State Fault Refusal :=
  done (s.guardedWrite m R.RIG_CHANGE_CTRL (fun s => s.changeWrite (putBits v.toNat 1 1 1)))

/-! ## The end of a change (R63, R64, R66) -/

/-- Whether an engine holds work of the configuration that a change at an instant has replaced: DEV head frames that began
before it, WALL frames latched before it, RAWC and HEVC jobs and pictures that belong to it (R63). -/
def State.oldOn (s : State) (at_ : Nat) (engine : Nat) : Bool :=
  match engine with
  | 9 => s.cam.ctxs.any (fun e => e.2.frames.any (fun f => decide (f.sof < at_)))
  | 10 => s.raw.any (fun e => e.2.job.isSome && s.isOld 10 e.1)
  | 11 => s.hevc.ses.any (fun e => (e.2.pic.isSome || e.2.hold.isSome || !e.2.recs.isEmpty) && s.isOld 11 e.1)
  | 12 => s.fclk.frames.any (fun f => decide (f.latch < at_) && !f.complete)
  | _ => false

/-- Whether a replaced strand still holds tokens of the old configuration (R65). -/
def State.oldTokens (s : State) : Bool :=
  s.rig.retiring.any (fun r => match r with
    | .strand id _ _ _ _ _ _ => !(s.strandStream id).isEmpty
    | _ => false)

/-- Whether work of the old configuration is still to be completed (R63). -/
def State.oldWork (s : State) (at_ : Nat) : Bool := [9, 10, 11, 12].any (s.oldOn at_) || s.oldTokens

/-- Zeroing begins on waiting banks, at most 64 at a time (R66). -/
def State.zeroStart (s : State) : State :=
  let k := 64 - s.rig.zeroing.length
  let now := s.rig.zeroWait.take k
  let s : State := { s with rig := { s.rig with zeroing := s.rig.zeroing ++ now, zeroWait := s.rig.zeroWait.drop k } }
  now.foldl (fun (s : State) b => s.put (F.POOL_BANK_zeroing b) 1) s

/-- The clock target, `div_max` and `skip_min` of an island's record (R35). -/
def islandRec (l : List RecBody) (i : Island) : Option (Nat × Nat × Nat) :=
  l.findSome? (fun r => match r with
    | .island c _ clk d k _ => if c = i.code then some (clk, d, k) else none
    | _ => none)

/-- The clock of an island before any image is active (R533). -/
def bootMhz : Island → Nat
  | .anchor => 250 | .mgt => 800 | .memc => 1600 | .pool => 1200 | .host => 1000 | _ => 0

/-- An island's clock target (R533). -/
def State.targetMhz (s : State) (i : Island) : Nat :=
  match islandRec s.bodies i with
  | some r => r.1
  | none => bootMhz i

/-- An island is held in reset with its clock stopped; its clock target stands (R88). -/
def State.holdIsland (s : State) (i : Island) : State := s.setIsland i { IslState.held with clkMhz := s.targetMhz i }

/-- BANK_ZERO_COMPLETE: a bank has been zeroed once its old owner's work is done, the next waiting bank begins, and
accesses that stalled at it proceed (R66). [assumption 27, DEDUCED] -/
def execBankZeroComplete (bank : Nat) (s : State) : Host.Outcome State Fault Refusal :=
  done (if s.rig.zeroing.contains bank && !((s.rig.change.map (fun c => s.oldWork c.since)).getD false) then
      let s := (s.settleBank bank).zeroStart
      let mine := s.rig.stalled.filter (fun r => r.addr / bankBytes = bank)
      let s : State := { s with rig := { s.rig with stalled := s.rig.stalled.filter (fun r => r.addr / bankBytes != bank) } }
      mine.foldl (fun (s : State) r => s.poolServe r) s
    else s)

/-! ## Run-time claims (R78, R86) -/

/-- Whether the image in force holds a resource. [assumption 28, DEDUCED] -/
def State.imageHolds (s : State) (res index : Nat) : Bool := s.bodies.any (fun r => (⟨res, index, false⟩ : RtClaim).blocks r)

/-- Whether a claim names a resource that may be claimed. [assumption 28, DEDUCED] -/
def claimNames (res index : Nat) : Bool :=
  match res with
  | 1 => (mfBallAt (index / 256) (index % 256)).isSome
  | 2 => decide (index ≤ 31)
  | 3 => decide (index ≤ 991)
  | _ => false

/-- A write of RIG_CLAIM_CTRL performs its operation (R78, R86). [assumption 28, DEDUCED] -/
def State.claimWrite (s : State) (m : Master) (v : Nat) : State :=
  let s := s.regWrite R.RIG_CLAIM_CTRL v
  let index := bitsOf v 15 0
  let res := bitsOf v 19 16
  let mgt := decide (m = .mgt)
  let held := s.rig.claims.find? (fun c => c.res = res && c.index = index)
  let answer := fun (s : State) (c : Nat) => s.put F.RIG_CLAIM_STATUS_code c
  if !claimNames res index then answer s 2
  else if v.testBit 20 then
    if held = some ⟨res, index, mgt⟩ then
      let s : State := { s with rig := { s.rig with claims := s.rig.claims.filter (fun c => !(c.res = res && c.index = index)) } }
      answer (if res = 3 then s.setBankOwner index 0xFF 0 false else s) 0
    else answer s 2
  else if held.isSome || s.imageHolds res index then answer s 1
  else
    let s : State := { s with rig := { s.rig with claims := s.rig.claims ++ [⟨res, index, mgt⟩] } }
    answer (if res = 3 then ((s.marchDropBank index).zeroBank index).setBankOwner index (if mgt then 2 else 5) 0 false else s) 0

/-- CLAIM. -/
def execClaim (m : Master) (v : Word) (s : State) : Host.Outcome State Fault Refusal :=
  done (s.guardedWrite m R.RIG_CLAIM_CTRL (fun s => s.claimWrite m (putBits v.toNat 20 20 0)))

/-- CLAIM_RELEASE. -/
def execClaimRelease (m : Master) (v : Word) (s : State) : Host.Outcome State Fault Refusal :=
  done (s.guardedWrite m R.RIG_CLAIM_CTRL (fun s => s.claimWrite m (putBits v.toNat 20 20 1)))

/-! ## Strands (R69) -/

/-- The islands at the ends of a strand in use: source, destination. -/
def State.strandEnds (s : State) (id : Nat) : Option (Nat × Nat) :=
  s.strandRecs.findSome? (fun r => match r with
    | .strand j si _ di _ _ _ => if j = id then some (si, di) else none
    | _ => none)

/-- TOKEN: the oldest token of a strand's FIFO is delivered, once and in order, and a waiting one enters the FIFO. The
sender blocks while the receiver's island is in reset (R69, R73). -/
def execToken (strand : Nat) (s : State) : Host.Outcome State Fault Refusal :=
  done (match mapFind s.rig.strands strand, (s.strandEnds strand).bind (fun e => islandOf e.2) with
    | some x, some i =>
      match x.fifo ++ x.waiting with
      | t :: rest =>
        if s.runs i then
          let d := s.strandDepth strand
          ({ s with rig := { s.rig with
            strands := mapSet s.rig.strands strand ⟨rest.take d, rest.drop d, x.taken ++ [t]⟩ } } : State).emit (.tokenTaken strand t)
        else s
      | [] => s
    | _, _ => s)

/-! ## Calendars (R74, R250, R279, R280) -/

/-- The contexts of a pitch entry. [assumption 29, DESIGN CHOICE] -/
def PitchEntry.contexts (e : PitchEntry) : List Nat := (List.range e.count).map (· + e.first)

/-- The LIVE sessions of a direction that the calendar names, with a ready row, other than the one just served (R280).
[assumption 29, DESIGN CHOICE] -/
def State.liveRow (s : State) (cal : List PitchEntry) (decode : Bool) (last : Nat) : Option Nat :=
  (List.range 64).find? (fun k => s.bit (F.HEVC_SES_PRIO_live k) && k != last
    && cal.any (fun e => decide (e.first ≤ k) && decide (k < e.first + e.count)) && s.rowReady k decode)

/-- Pre-emption at the end of a work unit: at most `n` rows of LIVE sessions (R280). [assumption 29, DESIGN CHOICE] -/
def State.preempt (cal : List PitchEntry) (decode : Bool) : Nat → Nat → State → State
  | 0, _, s => s
  | n + 1, last, s =>
    match s.liveRow cal decode last with
    | some k => State.preempt cal decode n k (s.sesRow k)
    | none => s

/-- One work unit of a context at its turn, if one is ready (R74): DEV stripes, RAWC blocks by half, HEVC rows by pipe
with the pre-emption that follows, and WALL push passes. [assumption 29, DESIGN CHOICE] -/
def State.workUnit (s : State) (engine : Nat) (cal : List PitchEntry) (k : Nat) : State :=
  match engine with
  | 9 => s.stripeOp k
  | 10 => s.rawUnit k false
  | 26 => s.rawUnit k true
  | 12 => s.pushPass k
  | e =>
    let decode := e = 27
    if s.rowReady k decode then State.preempt cal decode (s.fld F.HEVC_PREEMPT_max_rows) k (s.sesRow k) else s

/-- The calendar that an engine walks: while it still holds work of a configuration that a change has replaced, that
configuration's (R63), else the one in force. [assumption 29, DESIGN CHOICE] -/
def State.engineCal (s : State) (e : Nat) : List PitchEntry :=
  match s.rig.before, s.rig.change with
  | some im, some c => if s.oldOn c.since e then calendarOf im.bodies e else calendarOf s.bodies e
  | _, _ => calendarOf s.bodies e

/-- The next visit of an engine's walk (R74). Engines by island code; 26 and 27 are RAWC's decompressor half and HEVC's
decode pipe, which walk the same calendar on their own. Where a change replaces the calendar, the walk goes on at the old
position modulo the new number of entries, which the spec leaves open. [assumption 29, DESIGN CHOICE] -/
def State.pitchOp (s : State) (engine : Nat) : State :=
  let e := if engine = 26 then 10 else if engine = 27 then 11 else engine
  let cal := s.engineCal e
  match islandOf e with
  | some i =>
    if 9 ≤ e ∧ e ≤ 12 ∧ s.runs i = true ∧ cal ≠ [] then
      let n := mapGet 0 s.rig.calNext engine % cal.length
      match cal[n]? with
      | some p =>
        let s := if engine = e then s.put (F.RIG_CAL_POS_entry (e - 9)) n else s
        let s : State := { s with rig := { s.rig with calNext := mapSet s.rig.calNext engine ((n + 1) % cal.length) } }
        p.contexts.foldl (fun (s : State) k => (List.range p.units).foldl (fun (s : State) _ => s.workUnit engine cal k) s) s
      | none => s
    else s
  | none => s

/-- PITCH. -/
def execPitch (engine : Nat) (s : State) : Host.Outcome State Fault Refusal := done (s.pitchOp engine)

/-- A write of a rigging register (R80 to R87). -/
def State.rigRegWrite (s : State) (m : Master) (off v : Nat) : State :=
  if off = R.RIG_LOAD_CTRL then s.rigLoad v
  else if off = R.RIG_CHANGE_CTRL then s.changeWrite v
  else if off = R.RIG_CLAIM_CTRL then s.claimWrite m v
  else s.regWrite off v

end Sys2Proof.Machine
end

