-- ==== Sys2Proof/Machine/Reset.lean ====
section
/-! DEFINITION. Chapter 14, resets: what an island loses when it enters reset, the sources and episodes, the balls, the
watchdog and the FUNCTION reset of chapter 13. The release sequence stands in Release.lean. -/
namespace Sys2Proof.Machine

/-! ## Clocks and throttling (R37, R88, R550) -/

/-- Division and 1-in-N skipping of a throttle level (R550). -/
def throttleLevel : Nat → Nat × Nat
  | 0 => (1, 0) | 1 => (2, 0) | 2 => (4, 0) | 3 => (4, 16) | 4 => (4, 8) | 5 => (4, 4) | 6 => (4, 3) | _ => (4, 2)

/-- Whether the active configuration makes an island present (R35). -/
def presentIn (l : List RecBody) (i : Island) : Bool :=
  l.any (fun r => match r with | .island c p _ _ _ _ => c = i.code && p = 1 | _ => false)

/-- `throttle` and `skip_n` of an island at a level, within its record's limits (R37, R550). -/
def throttleOf (lim : Option (Nat × Nat × Nat)) (i : Island) (level : Nat) : Nat × Nat :=
  if i = .sys ∨ i = .anchor then (0, 0)
  else
    let t := throttleLevel level
    let d := if i = .memc then 1 else match lim with
      | some (_, m, _) => min t.1 m
      | none => t.1
    let n := match lim with
      | some (_, _, k) => if t.2 = 0 ∨ k = 0 then 0 else max t.2 k
      | none => t.2
    if n != 0 then (3, n) else (if d = 4 then 2 else if d = 2 then 1 else 0, 0)

/-- Every island takes its clock target, and the running ones apply the throttle level (R64, R88, R533, R550). -/
def State.retune (s : State) : State :=
  let level := s.fld F.SYS_THERM_STATUS_level
  Island.releaseOrder.foldl (fun (s : State) i =>
    if s.held i then s.setIsland i { s.island i with clkMhz := s.targetMhz i }
    else
      let t := throttleOf (islandRec s.bodies i) i level
      s.setIsland i { s.island i with clkMhz := s.targetMhz i, throttle := t.1, skipN := t.2 }) s

/-! ## What an island loses (R73, R524, R536, R537) -/

/-- The registers of a range take their reset values, but for those a test keeps. -/
def State.dropBut (s : State) (a b : Nat) (keep : Nat → Bool) : State :=
  { s with regs := s.regs.filter (fun e => decide (e.1 < a) || decide (b ≤ e.1) || keep e.1) }

/-- A strand with an end in an island that is reset is emptied; tokens in its FIFO are counted as discarded (R73). A sender
that is reset loses those it still held, a receiver those it had taken. [assumption 16, DEDUCED] -/
def State.flushStrand (s : State) (id : Nat) (src dst : Bool) : State :=
  let x := mapGet Strand.clear s.rig.strands id
  let s := s.bump F.RIG_STRAND_FLUSH_count x.fifo.length
  -- the rest of a group of tokens that the flush cuts is of no more use to either end
  let n := x.taken.length + x.fifo.length
  let rest := (groupCut n (x.taken ++ x.fifo ++ x.waiting) n).2
  let whole := (groupCut x.taken.length x.taken x.taken.length).1
  let y : Strand := ⟨[], if src then [] else x.waiting.drop rest, if dst then [] else if src then x.taken.take whole else x.taken⟩
  let s : State := { s with rig := { s.rig with strands := mapSet s.rig.strands id y } }
  if src && !dst then ((s.rawCut id).hevcCut id).wallCut id (!x.fifo.isEmpty || !x.waiting.isEmpty) else s

/-- Every strand with an end in an island is emptied (R73). [assumption 16, DEDUCED] -/
def State.flushIsland (s : State) (i : Island) : State :=
  s.strandRecs.foldl (fun (s : State) r => match r with
    | .strand id si _ di _ _ _ => if si = i.code ∨ di = i.code then s.flushStrand id (si = i.code) (di = i.code) else s
    | _ => s) s

/-- Camera frames that are in work when HEAD or DEV is reset are abandoned (R110). [assumption 16, DEDUCED] -/
def State.dropFrames (s : State) : State :=
  let s : State := { s with cam := { s.cam with ctxs := s.cam.ctxs.map (fun e => (e.1, { e.2 with frames := [] })) } }
  let s := s.dropWaits (fun w => w.kind = 1 || (w.kind = 7 && w.target = 1))
  s.strandRecs.foldl (fun (s : State) r => match r with
    | .strand id si _ _ _ _ _ => if si = 9 then ((s.rawCut id).hevcCut id).wallCut id false else s
    | _ => s) s

/-- The walk of an engine begins again (R74). -/
def State.dropCalendar (s : State) (e : Nat) : State := { s with rig := { s.rig with calNext := mapDel s.rig.calNext e } }

/-- Wall frames are abandoned, and the frame clock runs in the reference mode (R349, R418). -/
def State.dropWall (s : State) : State :=
  let s := s.dropWaits (fun w => w.kind = 5 || w.kind = 8 || (w.kind = 7 && (w.target = 2 || w.target = 5)) || (w.kind = 4 && w.target = 1))
  let s := s.clockToRef
  let c := s.fclk
  let s : State := { s with fclk := { c with
    frames := (c.frames.filter (fun f => !f.wall)).map (fun f => { f with openSurf := [], openTile := [], passes := [] }) } }
  { s with fen := { s.fen with held := s.fen.held.filter (fun k => decide (5 < k.ftype)) } }

/-- NET is reset while PUSH packets wait for their turn: the blocks in them never reach their tiles, so every context is
affected until its blocks have been pushed again (R73, R110). [assumption 16, DEDUCED] -/
def State.pushCut (s : State) : State :=
  if s.fen.held.any (fun k => k.ftype = 1) then
    let s := s.markAllTiles
    { s with
      wall := { s.wall with tiles := s.wall.tiles.map (fun e =>
        (e.1, { e.2 with excluded := (tileCtx e.1 e.2.active.regs).allBlocks })) }
      fclk := { s.fclk with frames := s.fclk.frames.map (fun f =>
        if f.wall && !f.complete then { f with marks := { f.marks with excluded := true } } else f) } }
  else s

/-- The registers of a bank that a reset narrower than WARM keeps (R537): its owner, unit and exemption, and its repairs. -/
def State.bankKept (s : State) : State :=
  { s with regs := s.regs.map (fun e =>
    if 0x341000 ≤ e.1 ∧ e.1 < 0x342000 then (e.1, BitVec.ofNat 32 (putBits e.2.toNat 18 17 0)) else e) }

/-- Writes queued at the channels reach the array before self-refresh (R472); other requests are abandoned. -/
def State.drainChannels (s : State) : State :=
  let writes := s.memc.chans.flatMap (fun e => e.2.queue.filter (fun r => r.data.isSome))
  let s := writes.foldl (fun (s : State) r => s.dramIssue r .clean) s
  { s with memc := { s.memc with chans := [] } }

/-- Management SRAM outside the handover area is zeroed (R533 step 4); a wide reset leaves nothing (R536). -/
def State.clearSram (s : State) (wide : Bool) : State :=
  { s with sram := if wide then [] else memZero s.sram 0 handoverBase }

/-- The island whose reset returns a ball to the reset state, by its function (R540, R560). [assumption 25, DEDUCED] -/
def functionIsland (fn : Nat) : Island :=
  if fn < 0x200 then .mgt
  else if fn < 0x300 then .aud
  else if fn < 0x402 then .anchor
  else .vault

/-- The balls claimed for an island's functions show their reset state for 1 µs after its release, then take their claim again
(R540). [assumption 25, DEDUCED] -/
def State.holdBalls (s : State) (i : Island) : State :=
  let due := s.bodies.filterMap (fun r => match r with
    | .ball row col fn _ => if functionIsland fn = i then some (256 * row + col, s.real + 1000) else none
    | _ => none)
  { s with rig := { s.rig with ballHold := s.rig.ballHold.filter (fun h => !due.any (fun d => d.1 = h.1)) ++ due } }

/-- What an island's reset clears: its registers take their reset values and its internal state is lost. `wide`: the reach
is WARM or CHIP; `chip`: it is CHIP. [assumption 16, DEDUCED] -/
def State.clearIsland (s : State) (wide chip : Bool) (i : Island) : State :=
  match i with
  | .sys => s
  | .anchor =>
    let s := (s.dropRegs 0xF0000 0xF8000).put F.WALL_CTRL_enable 0
    let s := (s.put F.WALL_STATUS_running 0).dropWall
    { s with
      anchorT := 0, anchor := AnchorSt.reset, fclk := FrameClock.reset
      jnl := { s.jnl with since := 0, was := (s.jnl.mode, s.jnl.mask), waits := s.jnl.waits.map (fun w => { w with since := 0 }) }
      cam := { s.cam with ctxs := s.cam.ctxs.map (fun e => (e.1, { e.2 with pend := e.2.pend.map (fun p => (p.1, 0)) })) }
      wall := { s.wall with tiles := s.wall.tiles.map (fun e => (e.1, { e.2 with pend := e.2.pend.map (fun p => (p.1, 0, p.2.2)) })) } }
  | .mgt =>
    let s := (s.dropRegs 0x380000 0x3C0000).clearSram wide
    { s with mbox := ⟨[], none, false⟩, host := { s.host with mgtAsserted := [] } }
  | .memc =>
    if wide then { s.dropRegs 0x300000 0x340000 with memc := ⟨[], [], [], [], false⟩ }
    else
      let s := s.drainChannels
      { s.dropBut 0x300000 0x340000 (fun o => o = R.MEMC_CFG) with memc := { s.memc with chans := [], writeBack := [], scrubAt := [] } }
  | .pool =>
    let s : State := { s with poolSt := { s.poolSt with march := none, losers := [], writeBack := [] } }
    if wide then
      let s := s.dropBut 0x340000 0x380000 (fun o =>
        !chip && (o = R.POOL_MARCH_BOOT || (decide (0x341000 ≤ o) && decide (o < 0x342000))))
      { s with regs := s.regs.map (fun e =>
        if 0x341000 ≤ e.1 ∧ e.1 < 0x342000 then
          (e.1, BitVec.ofNat 32 (regReset e.1 % 2 ^ 19 + e.2.toNat / 2 ^ 19 * 2 ^ 19))
        else e) }
    else
      let s := (s.rig.zeroing ++ s.rig.zeroWait).foldl (fun (s : State) b => s.settleBank b) s
      (s.dropBut 0x340000 0x380000 (fun o => o = R.POOL_MARCH_BOOT || (decide (0x341000 ≤ o) && decide (o < 0x342000)))).bankKept
  | .host =>
    { s.dropRegs 0x3C0000 0x400000 with
      host := ⟨PcieFn.reset, PcieFn.reset, [], s.host.subsystem, false⟩ }
  | .vault => s.clipReset
  | .net =>
    let s := s.pushCut.dropBut 0xE0000 0xF0000 (fun o => !chip && o = R.FEN_EPOCH_SEED)
    let s := s.dropWaits (fun w => w.kind = 4 && w.target = 0)
    { s with
      fen := Fen.reset, media := ⟨[], []⟩, aud := { s.aud with rx := [] }
      anchor := { s.anchor with tsq := [] } }
  | .head =>
    let s := (s.dropRegs 0x20000 0x40000).dropFrames
    let s := s.dropWaits (fun w => w.kind = 7 && w.target = 4)
    { s with cam := { s.cam with ports := [] } }
  | .dev =>
    let s := ((s.dropRegs 0x40000 0x80000).dropFrames).dropCalendar 9
    { s with cam := { s.cam with ctxs := [], streams := [], marks := [] } }
  | .rawc => { ((s.dropRegs 0x80000 0xA0000).dropCalendar 10).dropCalendar 26 with raw := [] }
  | .hevc =>
    let s := ((s.dropRegs 0xA0000 0xC0000).dropCalendar 11).dropCalendar 27
    { s.dropWaits (fun w => w.kind = 3 || (w.kind = 7 && w.target = 3)) with hevc := ⟨[]⟩ }
  | .wall =>
    let s := (((s.dropRegs 0xC0000 0xE0000).dropRegs 0x400000 0x600000).dropWall).dropCalendar 12
    { s with wall := { Wall.reset with markAll := true } }
  | .aud =>
    let s := s.dropRegs 0xF8000 0x100000
    { s.dropWaits (fun w => w.kind = 2) with aud := { s.aud with ports := [], groups := [] } }

/-- Islands enter reset: their strands are emptied first, then each is held with its state lost. [assumption 16, DEDUCED] -/
def State.enterReset (s : State) (wide chip : Bool) (l : List Island) : State :=
  let s := l.foldl (fun (s : State) i => s.flushIsland i) s
  l.foldl (fun (s : State) i => (s.clearIsland wide chip i).holdIsland i) s

/-- A change still PENDING is withdrawn by a reset whose set includes ANCHOR or WALL, held in reset already or not (R63, R68).
[assumption 16, DEDUCED] -/
def State.withdrawChange (s : State) (l : List Island) : State :=
  if l.contains .anchor || l.contains .wall then s.changeCancel else s

/-- What a reach of WARM or CHIP ends beside the islands: SYS_READY falls, the push stop ends, and everything that RIG holds
is discarded but RIG_BOOT_SEL, which CHIP alone clears (R68, R84, R536, R541). [assumption 16, DEDUCED] -/
def State.wideReset (s : State) (chip : Bool) : State :=
  let s := (s.put F.SYS_STATUS_ready 0).put F.SYS_STATUS_alert_ref 0
  let s := s.dropBut 0x10000 0x20000 (fun o => !chip && o = R.RIG_BOOT_SEL)
  let s : State := { s with
    rig := Rig.reset, jnl := Jnl.reset
    pool := memZero s.pool (slotBase 0) (32 * bankBytes)
    sys := { s.sys with refStopped := false } }
  s.clipLoseStaging

/-- What a reach of CHIP resets in SYS: every register but the record of episodes, and what SYS keeps inside (R524, R536).
[assumption 16, DEDUCED] -/
def State.chipReset (s : State) : State :=
  let s := s.dropBut 0 0x10000 (fun o => o = R.SYS_RST_CAUSE || o = R.SYS_RST_COUNT)
  { s with
    sys := { s.sys with faultyDiodes := [], refLostAt := none, lcConfirm := false, cskKey := none, fuseSeqs := [] }
    poolSt := { s.poolSt with repairs := [] } }

/-! ## The FUNCTION reset (R505) -/

/-- The owner code of a clip queue that names a function. -/
def ownerFn : Nat → Option Nat
  | 0 => some 1
  | 1 => some 0
  | _ => none

/-- A reset of FUNCTION reach for a function (R505). [assumption 11, DEDUCED] -/
def State.functionReset (s : State) (fn : Nat) : State :=
  let p := s.pcie fn
  let s := (s.setPcie fn { PcieFn.reset with asserted := p.asserted }).wr (if fn = 1 then R.HOST_AP1_BASE else R.HOST_AP0_BASE) 0
  let s := if s.runs .vault then
      (List.range 64).foldl (fun (s : State) q => if ownerFn (s.rd (R.CLIP_Q_OWNER q) % 4) = some fn then s.queueReset q else s) s
    else s
  if s.runs .mgt then
    let me := if fn = 1 then Target.pf1 else Target.pf0
    let s := (List.range 32).foldl (fun (s : State) m =>
      let s := if s.fld (F.MBOX_STATUS_holder m) = fn + 1 then s.put (F.MBOX_STATUS_holder m) 0 else s
      if mboxReceiver m = me then (s.put (F.MBOX_STATUS_full m) 0).put (F.MBOX_STATUS_flushed m) 1 else s) s
    s.wr (R.MBOX_DB_PEND 1) (s.rd (R.MBOX_DB_PEND 1) &&& (if fn = 1 then 0x0000FFFF else 0xFFFF0000))
  else s

/-- FUNCTION_LEVEL_RESET. -/
def execFunctionLevelReset (fn : Nat) (s : State) : Host.Outcome State Fault Refusal :=
  done (if s.runs .host then s.functionReset (fn % 2) else s)

/-- D3HOT_EXIT: a function that is in D3hot returns to D0 (R505). -/
def execD3hotExit (fn : Nat) (s : State) : Host.Outcome State Fault Refusal :=
  done (if s.runs .host && (s.pcie (fn % 2)).d3hot then s.functionReset (fn % 2) else s)

/-! ## Episodes (R525, R529 to R532) -/

/-- The effective set of an episode (R529). -/
def Episode.islands (e : Episode) : List Island :=
  if 4 ≤ e.reach then Island.releaseOrder
  else Island.releaseOrder.filter (fun i => e.sources.any (fun x => x.isl.contains i))

/-- The source that SYS_RST_CAUSE names: of the widest reach, the latest among equals (R532). -/
def Episode.cause (e : Episode) : Option Source :=
  e.sources.foldl (fun (b : Option Source) x => match b with
    | some y => if y.reach ≤ x.reach then some x else b
    | none => some x) none

/-- SYS_RST_CAUSE shows an episode (R532, R553). -/
def State.showCause (s : State) (e : Episode) : State :=
  match e.cause with
  | none => s
  | some x =>
    let mask := (e.sources.map (fun y => y.code)).eraseDups.foldl (fun n c => n + 2 ^ c) 0
    s.wr R.SYS_RST_CAUSE (e.reach + 8 * x.code + (if x.reach ≤ 3 then x.target % 256 else 0) * 2 ^ 8 + mask % 128 * 2 ^ 16)

/-- The minimum hold of a source in ns (R525). -/
def minHold : Nat → Nat
  | 1 => 1000000
  | 0 => 0
  | 6 => 0
  | _ => 100000

/-- A source asserts: it opens an episode or joins the open one, and islands enter reset (R529, R530).
[assumption 17, DEDUCED] -/
def State.sourceAsserts (s : State) (x : Source) : State :=
  let old := s.sys.episode
  let was := (old.map Episode.reach).getD 0
  let e : Episode := ⟨((old.map (fun e => e.sources)).getD []) ++ [{ x with holdUntil := s.real + minHold x.code }], none⟩
  let s : State := { s with sys := { s.sys with
    episode := some e, lcConfirm := s.sys.lcConfirm && old.isSome } }
  let s := if x.code = 0 then s.wr R.SYS_RST_COUNT 1
    else if old.isNone then s.bump F.SYS_RST_COUNT_episodes 1 else s
  let s := s.showCause e
  let wide := decide (4 ≤ e.reach)
  let chip := e.reach = 5
  let again := wide && (decide (was < e.reach) || old.any (fun e => e.release.isSome))
  let s := if again then s.wideReset chip else s
  let s := if chip && decide (was < 5) then s.chipReset else s
  let l := if again then e.islands else e.islands.filter s.runs
  let s := (s.withdrawChange (x.isl ++ l)).enterReset wide chip l
  if x.reach = 1 then s.functionReset (x.target % 2) else s

/-- A source asserts, or is held off until the fuse pulse now in progress ends (R531). [assumption 17, DEDUCED] -/
def State.assertSource (s : State) (code reach target : Nat) (isl : List Island) (lasting : Bool) : State :=
  let x : Source := ⟨code, reach, target, isl, lasting, 0⟩
  if s.sys.fuseSeqs.isEmpty then s.sourceAsserts x
  else { s with sys := { s.sys with heldOff := s.sys.heldOff ++ [x] } }

/-- The condition of a source has ended. [assumption 17, DEDUCED] -/
def State.sourceEnds (s : State) (code : Nat) : State :=
  let f := fun (x : Source) => if x.code = code then { x with asserted := false } else x
  { s with sys := { s.sys with
    heldOff := s.sys.heldOff.map f
    episode := s.sys.episode.map (fun e => { e with sources := e.sources.map f }) } }

/-- A trip ends (R551). [assumption 17, DEDUCED] -/
def State.untrip (s : State) : State := { s with sys := { s.sys with tripped := false } }

/-- Time since power-up runs on by a number of ns that an event measures. [assumption 7, DESIGN CHOICE] -/
def State.elapse (s : State) (ns : Nat) : State := { s with real := s.real + ns }

/-! ## The power-on detector and the reset balls (R523, R525, R526) -/

/-- POWER_ON_DETECT: a rail falls below its threshold, or all three have been back for 10 ms. -/
def execPowerOnDetect (below : Bool) (s : State) : Host.Outcome State Fault Refusal :=
  done (if below then s.untrip.assertSource 0 5 0 Island.releaseOrder true
    else (s.sourceEnds 0).elapse 10000000)

/-- Whether a ball that has been low for a time counts as asserted: not below 1 µs, from 3 µs on, and between them a value
that the spec leaves open (R525). [assumption 17, DEDUCED] -/
def State.lowCounts (s : State) (ns : Nat) : Bool × State :=
  if ns < 1000 then (false, s)
  else if 3000 ≤ ns then (true, s)
  else (s.free.1 % 2 = 1, s.free.2)

/-- A reset ball falls and stays low for a time, asserting its source. [assumption 17, DEDUCED] -/
def State.ballFalls (s : State) (code reach target : Nat) (isl : List Island) (lowNs : Nat) : State :=
  let r := s.lowCounts lowNs
  let s := r.2.elapse (min lowNs 3000)
  if r.1 then s.assertSource code reach target isl (decide (3000 ≤ lowNs)) else s

/-- A reset ball rises after a time low. [assumption 17, DEDUCED] -/
def State.ballRises (s : State) (code lowNs : Nat) : State := (s.sourceEnds code).elapse (lowNs - min lowNs 3000)

/-- PWR_OK. A rise after 1 ms low clears a thermal trip (R551). -/
def execPwrOkBall (level : Bool) (lowNs : Nat) (s : State) : Host.Outcome State Fault Refusal :=
  let s := { s with sys := { s.sys with pwrOk := level } }
  done (if level then (if 1000000 ≤ lowNs then s.untrip else s).ballRises 1 lowNs
    else s.ballFalls 1 5 0 Island.releaseOrder lowNs)

/-- SYS_RST_N. -/
def execSysRstN (level : Bool) (lowNs : Nat) (s : State) : Host.Outcome State Fault Refusal :=
  let s := { s with sys := { s.sys with sysRstN := level } }
  done (if level then s.ballRises 2 lowNs else s.ballFalls 2 4 0 Island.releaseOrder lowNs)

/-- The islands of a reset group (R36): those whose records name it, and HOST and VAULT in group 1. -/
def State.group (s : State) (g : Nat) : List Island :=
  Island.releaseOrder.filter (fun i =>
    (g = 1 && (i = .host || i = .vault))
      || (decide (1 ≤ g) && decide (g ≤ 15) && s.bodies.any (fun r => match r with
        | .island c _ _ _ _ gs => c = i.code && gs.testBit g
        | _ => false)))

/-- The reach, target and islands of source 3 (R526, R553): WARM, or a group, one that does not exist acting as 1. -/
def State.perstReach (s : State) : Nat × Nat × List Island :=
  if s.fld F.SYS_PERST_CFG_reach = 4 then (4, 0, Island.releaseOrder)
  else
    let g := s.fld F.SYS_PERST_CFG_group
    let g := if (s.group g).isEmpty then 1 else g
    (3, g, s.group g)

/-- The host link goes down (R495). [assumption 10, PRESUMED] -/
def State.linkDown (s : State) : State := s.wr R.HOST_LINK 0

/-- PCIE_PERST_N: a low that begins while HOST is out of reset is source 3; any other holds only the link, until the ball
rises (R526). -/
def execPciePerstN (level : Bool) (lowNs : Nat) (s : State) : Host.Outcome State Fault Refusal :=
  done (if level then
      let hold := s.sys.linkHold
      let s := { s with sys := { s.sys with perstN := true, linkHold := false } }
      if hold then s.elapse (lowNs - min lowNs 3000)
      else if s.sys.hotReset then s.elapse (lowNs - min lowNs 3000)
      else s.ballRises 3 lowNs
    else
      let s := ({ s with sys := { s.sys with perstN := false } } : State).linkDown
      if s.held .host then ({ s with sys := { s.sys with linkHold := true } } : State).elapse (min lowNs 3000)
      else
        let r := s.perstReach
        s.ballFalls 3 r.1 r.2.1 r.2.2 lowNs)

/-- HOT_RESET: a hot reset or a link-down event on the host link is source 3 while it lasts (R506, R525), under R526. -/
def execHotReset (active : Bool) (s : State) : Host.Outcome State Fault Refusal :=
  done (if active then
      let s := s.linkDown
      if s.held .host then s
      else
        let r := s.perstReach
        ({ s with sys := { s.sys with hotReset := true } } : State).assertSource 3 r.1 r.2.1 r.2.2 true
    else
      let was := s.sys.hotReset
      let s := { s with sys := { s.sys with hotReset := false } }
      if was && (s.sys.perstN || s.sys.linkHold) then s.sourceEnds 3 else s)

/-! ## The watchdog and software resets (R527, R528) -/

/-- A kick (R527). [assumption 17, DEDUCED] -/
def State.wdtKick (s : State) : State :=
  if s.bit F.SYS_WDT_CTRL_enable then { s with sys := { s.sys with wdtKickAt := s.real } } else s

/-- WDT_KICK. -/
def execWdtKick (m : Master) (_v : Word) (s : State) : Host.Outcome State Fault Refusal :=
  done (s.guardedWrite m R.SYS_WDT_KICK State.wdtKick)

/-- A write of SYS_WDT_CTRL: the watchdog starts from its full timeout when it is enabled. [assumption 17, DEDUCED] -/
def State.wdtCtrlWrite (s : State) (v : Nat) : State :=
  let was := s.bit F.SYS_WDT_CTRL_enable
  let s := s.regWrite R.SYS_WDT_CTRL v
  if was then s else s.wdtKick

/-- WDT_TIMEOUT: source 4, unless the watchdog is off or suspended (R527). -/
def execWdtTimeout (s : State) : Host.Outcome State Fault Refusal :=
  done (if s.bit F.SYS_WDT_CTRL_enable && s.runs .mgt && s.mbox.fwact.isNone then
      let due := s.sys.wdtKickAt + max 1 (s.fld F.SYS_WDT_CTRL_timeout_ms) * 1000000
      ({ s with real := max s.real due } : State).assertSource 4 4 0 Island.releaseOrder false
    else s)

/-- A write of SYS_RST_CTRL; with `go` it requests a reset (R528). -/
def State.resetCtrlWrite (s : State) (v : Nat) : State :=
  let s := s.regWrite R.SYS_RST_CTRL v
  if !v.testBit 31 then s
  else
    let reach := bitsOf v 2 0
    let target := bitsOf v 15 8
    let isl := match reach with
      | 2 => (islandOf target).toList
      | 3 => s.group target
      | 1 => []
      | _ => Island.releaseOrder
    let bad := reach = 0 || decide (5 < reach) || (reach = 1 && decide (1 < target))
      || (reach = 2 && (decide (target < 1) || decide (0x0D < target))) || (reach = 3 && isl.isEmpty)
    if bad then s.put F.SYS_RST_STATUS_result 2
    else (s.put F.SYS_RST_STATUS_result 1).assertSource 5 reach target isl false

/-- SOFTWARE_RESET. -/
def execSoftwareReset (m : Master) (v : Word) (s : State) : Host.Outcome State Fault Refusal :=
  done (s.guardedWrite m R.SYS_RST_CTRL (fun s => s.resetCtrlWrite (v.toNat ||| 2 ^ 31)))

/-! ## Configuration space (R494, R495, R507) -/

/-- The value of an item of a function's configuration space (R494). [assumption 10, PRESUMED] -/
def State.configRead (s : State) (fn : Nat) (item : CfgItem) : Nat :=
  let p := s.pcie fn
  let b := fun (x : Bool) => if x then 1 else 0
  match item with
  | .vendorId => 0x2B9D
  | .deviceId => if fn = 1 then 0x9601 else 0x9600
  | .revisionId => s.stepping
  | .classCode => 0x048000
  | .subsystemVendorId => s.host.subsystem % 2 ^ 16
  | .subsystemId => s.host.subsystem / 2 ^ 16 % 2 ^ 16
  | .busMaster => b p.busMaster
  | .msixEnable => b p.msixEnable
  | .msixFunctionMask => b p.msixMask
  | .powerState => if p.d3hot then 3 else 0
  | .maxPayloadSupported => 512
  | .maxPayload => p.maxPayload
  | .msixTableSize => 256
  | .serialNumber => s.sys.fuses.serial % 2 ^ 64
  | .bar0 => p.bar0
  | .bar2 => p.bar2
  | .bar4 => p.bar4
  | .flrCapable => 1
  | .initiateFlr => 0

/-- A write of an item. A BAR takes the bits above its size (R497). [assumption 10, PRESUMED] -/
def State.configWrite (s : State) (fn : Nat) (item : CfgItem) (v : Nat) : State :=
  let p := s.pcie fn
  match item with
  | .busMaster => s.setPcie fn { p with busMaster := v % 2 = 1 }
  | .msixEnable => s.setPcie fn { p with msixEnable := v % 2 = 1 }
  | .msixFunctionMask => s.setPcie fn { p with msixMask := v % 2 = 1 }
  | .powerState =>
    if v % 4 = 3 then s.setPcie fn { p with d3hot := true }
    else if v % 4 = 0 ∧ p.d3hot = true then s.functionReset fn
    else s
  | .maxPayload => s.setPcie fn { p with maxPayload := v }
  | .bar0 => s.setPcie fn { p with bar0 := v % 2 ^ 64 / 2 ^ 24 * 2 ^ 24 }
  | .bar2 => s.setPcie fn { p with bar2 := v % 2 ^ 64 / 2 ^ 27 * 2 ^ 27 }
  | .bar4 => s.setPcie fn { p with bar4 := v % 2 ^ 64 / 2 ^ 36 * 2 ^ 36 }
  | .initiateFlr => if v % 2 = 1 then s.functionReset fn else s
  | .vendorId | .deviceId | .revisionId | .classCode | .subsystemVendorId | .subsystemId | .maxPayloadSupported
  | .msixTableSize | .serialNumber | .flrCapable => s

/-- CONFIG_REQUEST: Request Retry Status until HOST is released. -/
def execConfigRequest (fn : Nat) (item : CfgItem) (write : Option Nat) (s : State) : Host.Outcome State Fault Refusal :=
  done (if s.held .host then s.emit (.retryStatus (fn % 2))
    else match write with
      | some v => s.configWrite (fn % 2) item v
      | none => s.emit (.config (fn % 2) (s.configRead (fn % 2) item)))

end Sys2Proof.Machine
end

