-- ==== Sys2Proof/Machine/Power.lean ====
section
/-! DEFINITION. Chapter 14, SYS: heat, the 25 MHz reference, the life cycle, key slots, the clip-store key and fuse pulses. -/
namespace Sys2Proof.Machine

/-! ## Heat (R549 to R551) -/

/-- A temperature in a field S8.0. -/
def tempField (t : Int) : Nat := wrapTo 8 (max (-128) (min 127 t))

/-- Whether a diode reading is valid (R549). [assumption 19, DEDUCED] -/
def diodeValid (t : Int) : Bool := decide (-55 ≤ t) && decide (t ≤ 150)

/-- The level rises while T reaches the next level's threshold (R550). [assumption 19, DEDUCED] -/
def levelUp (t thr : Int) : Nat → Nat → Nat
  | 0, l => l
  | n + 1, l => if l < 7 ∧ thr + 2 * l ≤ t then levelUp t thr n (l + 1) else l

/-- The level falls while T is more than 3 °C below its threshold (R550). [assumption 19, DEDUCED] -/
def levelDown (t thr : Int) : Nat → Nat → Nat
  | 0, l => l
  | n + 1, l => if 0 < l ∧ t < thr + 2 * ((l : Int) - 1) - 3 then levelDown t thr n (l - 1) else l

/-- The sensor read of R549 with what R550 sets from it. A diode without a reading is out of range.
[assumption 19, DEDUCED] -/
def State.thermOp (s : State) (diodes rings : List Int) : State :=
  let d := fun (k : Nat) => (diodes[k]?).getD 151
  let r := fun (k : Nat) => (rings[k]?).getD 0
  let faulty := (List.range 16).filter (fun k => !diodeValid (d k))
  let s := if faulty.all (fun k => s.sys.faultyDiodes.contains k) then s else s.put F.SYS_EVT_sensor_fault 1
  let s : State := { s with sys := { s.sys with faultyDiodes := faulty } }
  let s := (List.range 16).foldl (fun (s : State) k =>
    s.wr (R.SYS_THERM_D k) (tempField (d k) + (if faulty.contains k then 256 else 0))) s
  let s := (List.range 4).foldl (fun (s : State) k => s.wr (R.SYS_THERM_R k) (tempField (r k))) s
  let valid := ((List.range 16).filter (fun k => !faulty.contains k)).map d
  let t : Int := match valid with
    | x :: xs => xs.foldl max x
    | [] => [r 1, r 2, r 3].foldl max (r 0)
  let w := s.fld F.SYS_THERM_CFG_warn
  let warn : Int := if 60 ≤ w ∧ w ≤ 100 then w else 100
  let h := s.fld F.SYS_THERM_CFG_thr
  let thr : Int := if 80 ≤ h ∧ h ≤ 110 then h else 110
  let s := (s.put F.SYS_THERM_STATUS_t (tempField t)).flag F.SYS_THERM_STATUS_ring_only valid.isEmpty
  let s := if warn ≤ t then (s.put F.SYS_EVT_warn 1).put F.SYS_STATUS_alert_therm 1
    else if t < warn - 3 then s.put F.SYS_STATUS_alert_therm 0 else s
  let was := s.fld F.SYS_THERM_STATUS_level
  let now := levelDown t thr 7 (levelUp t thr 7 was)
  if now = was then s else ((s.put F.SYS_THERM_STATUS_level now).put F.SYS_EVT_throttle 1).retune

/-- THERM_SAMPLE. -/
def execThermSample (diodes rings : List Int) (s : State) : Host.Outcome State Fault Refusal :=
  done (if s.sysDown then s else s.thermOp diodes rings)

/-- THERMAL_TRIP: every PLL stops, so that no island runs, and the balls take their trip state; the trip is latched
(R551). [assumption 17, DEDUCED] -/
def execThermalTrip (s : State) : Host.Outcome State Fault Refusal :=
  done (({ s with isl := [], sys := { s.sys with tripped := true } } : State).linkDown)

/-! ## The 25 MHz reference (R541) -/

/-- REF_LOST: a gap of 2 µs. [assumption 19, DEDUCED] -/
def execRefLost (s : State) : Host.Outcome State Fault Refusal :=
  done (if s.sysDown || s.bit F.SYS_STATUS_ref_lost then s
    else ({ s with sys := { s.sys with refLostAt := some s.real } } : State).put F.SYS_STATUS_ref_lost 1)

/-- REF_RESUME: the reference has run for 1 ms without a gap. Within 100 ms of the loss this is a glitch.
[assumption 19, DEDUCED] -/
def execRefResume (s : State) : Host.Outcome State Fault Refusal :=
  done (if s.bit F.SYS_STATUS_ref_lost then
      let s := if s.sys.refLostAt.isSome then s.put F.SYS_EVT_ref_glitch 1 else s
      ({ s with sys := { s.sys with refLostAt := none } } : State).put F.SYS_STATUS_ref_lost 0
    else s)

/-- REF_STOP: 100 ms have passed; every Fenmas transmission stops. [assumption 19, DEDUCED] -/
def execRefStop (s : State) : Host.Outcome State Fault Refusal :=
  done (match s.sys.refLostAt with
    | some t =>
      let s : State := { s with
        real := max s.real (t + 100000000), sys := { s.sys with refLostAt := none, refStopped := true } }
      (s.put F.SYS_STATUS_alert_ref 1).put F.SYS_EVT_ref_stop 1
    | none => s)

/-! ## Fuse sequences (R531) -/

/-- Pulses begin, or wait for those in progress. -/
def State.fuse (s : State) (l : List FusePulse) (e : FuseEnd) : State :=
  ({ s with sys := { s.sys with fuseSeqs := s.sys.fuseSeqs ++ [(l, e)] } } : State).put F.SYS_STATUS_fuse_busy 1

/-- SYS draws a new nonce (R544). [assumption 2, DESIGN CHOICE] -/
def State.newNonce (s : State) : State :=
  let r := s.free
  { r.2 with sys := { r.2.sys with nonce := r.1 % 2 ^ 128 } }

/-- A bank's spares and repair marks follow its repairs (R489, R493). -/
def State.showRepairs (s : State) (b : Nat) : State :=
  let s := s.put (F.POOL_BANK_spares b) (min 4 (repairsOf s.poolSt.repairs b).length)
  s.flag (F.POOL_BANK_fused b) (!(repairsOf s.sys.fuses.repairs b).isEmpty)

/-- What one pulse programs. -/
def FusePulse.program (p : FusePulse) (f : Fuses) : Fuses :=
  match p with
  | .epoch => { f with epoch := min 128 (f.epoch + 1) }
  | .lcState st => { f with lcState := st }
  | .keyBytes k key => { f with keys := f.keys.set k ⟨3, key⟩ }
  | .keyState k st => { f with keys := f.keys.mapIdx (fun i x => if i = k then { x with st := st } else x) }
  | .repair b rows => { f with repairs := f.repairs ++ [(b, rows)] }

/-- What follows a sequence that has run (R489, R545 to R548). -/
def State.fuseDone (s : State) (e : FuseEnd) (p : FusePulse) : State :=
  match e with
  | .lifeCycle => (s.put F.SYS_EVT_lc_done 1).sourceAsserts ⟨6, 5, 0, Island.releaseOrder, false, 0⟩
  | .key => (s.put F.SYS_KEY_CTRL_state 2).put F.SYS_EVT_lc_done 1
  | .csk =>
    match s.sys.cskKey with
    | some key =>
      let s := s.poolWrite (s.fld F.SYS_CSK_DST_addr * 8) (aesWrap s.wrapKey key)
      let s : State := { s with sys := { s.sys with cskKey := none } }
      (s.put F.SYS_CSK_CTRL_state 2).put F.SYS_EVT_lc_done 1
    | none => s
  | .repair =>
    match p with
    | .repair b _ => (s.put F.POOL_REPAIR_STATUS_state 2).put (F.POOL_BANK_fused b) 1
    | _ => s
  | .format => s.formatGo

/-- A sequence that a reset has stopped between pulses leaves its operation without a result (R531). -/
def State.fuseStopped (s : State) (e : FuseEnd) : State :=
  match e with
  | .lifeCycle => s.put F.SYS_LC_STATUS_state 0
  | .key => s.put F.SYS_KEY_CTRL_state 0
  | .csk => ({ s with sys := { s.sys with cskKey := none } } : State).put F.SYS_CSK_CTRL_state 0
  | .repair => s.put F.POOL_REPAIR_STATUS_state 0
  | .format => { s with clip := { s.clip with format := false } }

/-- A source that stops a life-cycle transition: its episode wipes the device just as the transition's own would have, so it has
at least WARM reach (R545). [assumption 24, DEDUCED] -/
def wipingSource (x : Source) : Source := if x.reach < 4 then { x with reach := 4, isl := Island.releaseOrder } else x

/-- The pulse in progress ends; a source held off asserts now, and stops the sequences that are not complete (R531). -/
def State.pulseEnds (s : State) : State :=
  match s.sys.fuseSeqs with
  | [] => s
  | ([], _) :: rest => { s with sys := { s.sys with fuseSeqs := rest } }
  | (p :: ps, e) :: rest =>
    let held := s.sys.heldOff
    let left := (if ps.isEmpty then [] else [(ps, e)]) ++ rest
    let s : State := { s with sys := { s.sys with
      fuses := p.program s.sys.fuses, heldOff := [], fuseSeqs := if held.isEmpty then left else [] } }
    let s := s.flag F.SYS_STATUS_fuse_busy (held.isEmpty && !left.isEmpty)
    let s := if held.isEmpty then s else left.foldl (fun (s : State) x => s.fuseStopped x.2) s
    let s := if ps.isEmpty then s.fuseDone e p else s
    let wipes := left.any (fun x => x.2 = .lifeCycle)
    held.foldl (fun (s : State) x => s.sourceAsserts (if wipes then wipingSource x else x)) s

/-- FUSE_PULSE_END. -/
def execFusePulseEnd (s : State) : Host.Outcome State Fault Refusal := done s.pulseEnds

/-! ## Life cycle (R542 to R545, R555) -/

/-- The message that a rescue token signs (R544). -/
def State.rescueMessage (s : State) : List Byte :=
  leBytes 8 s.sys.fuses.serial ++ leBytes 16 s.sys.nonce ++ [0x52, 0x45, 0x53, 0x43, 0x55, 0x45]

/-- Whether the token at SYS_LC_SRC verifies (R544). -/
def State.rescueToken (s : State) : Bool :=
  let t := s.poolRead (s.fld F.SYS_LC_SRC_addr * 8) 96
  ecdsaVerify Config.rescueKey (sha384 s.rescueMessage) (leAt t 0 48) (leAt t 48 48)

/-- The status with which a request ends, or none when it is accepted (R543). [assumption 24, DEDUCED] -/
def State.lcRefusal (s : State) (want : Nat) : Option Nat :=
  let cur := s.sys.fuses.lcState
  if !((cur = 0 && want = 1) || (cur = 1 && want = 2) || (decide (cur < 3) && want = 3)) then some 2
  else if want = 1 && !(s.sys.fuses.keys.any (fun k => k.st = 1)) then some 3
  else if want = 2 && !s.rescueToken then some 4
  else if want = 3 && !s.sys.lcConfirm then some 5
  else none

/-- A request for a transition (R543 to R545). [assumption 24, DEDUCED] -/
def State.lcRequest (s : State) (want : Nat) : State :=
  if s.fld F.SYS_LC_STATUS_state = 1 then s
  else
    let why := s.lcRefusal want
    let s := if want = 2 then s.newNonce else s
    match why with
    | some c => (s.put F.SYS_LC_STATUS_state c).put F.SYS_EVT_lc_done 1
    | none =>
      let left := 128 - s.sys.fuses.epoch
      let n := if want = 3 then left else min 1 left
      (s.put F.SYS_LC_STATUS_state 1).fuse (List.replicate n FusePulse.epoch ++ [.lcState want]) .lifeCycle

/-- A write of SYS_LC_CTRL. -/
def State.lcWrite (s : State) (v : Nat) : State :=
  if v.testBit 31 ∧ s.fld F.SYS_LC_STATUS_state = 1 then s
  else
    let s := s.regWrite R.SYS_LC_CTRL v
    if v.testBit 31 then s.lcRequest (v % 4) else s

/-- A write of SYS_LC_CONFIRM (R543). -/
def State.lcConfirmWrite (s : State) (v : Nat) : State :=
  { s with sys := { s.sys with lcConfirm := s.sys.lcConfirm || v = 0x44455343 } }

/-- LC_ASCENT. -/
def execLcAscent (m : Master) (s : State) : Host.Outcome State Fault Refusal :=
  done (s.guardedWrite m R.SYS_LC_CTRL (fun s => s.lcWrite (2 ^ 31 + 1)))

/-- LC_RESCUE. -/
def execLcRescue (m : Master) (s : State) : Host.Outcome State Fault Refusal :=
  done (s.guardedWrite m R.SYS_LC_CTRL (fun s => s.lcWrite (2 ^ 31 + 2)))

/-- LC_DESCENT. -/
def execLcDescent (m : Master) (s : State) : Host.Outcome State Fault Refusal :=
  done (s.guardedWrite m R.SYS_LC_CTRL (fun s => s.lcWrite (2 ^ 31 + 3)))

/-! ## Key slots (R546, R555) -/

/-- A key operation ends at once. -/
def State.keyEnds (s : State) (c : Nat) : State := (s.put F.SYS_KEY_CTRL_state c).put F.SYS_EVT_lc_done 1

/-- A key slot operation (R542, R546). [assumption 24, DEDUCED] -/
def State.keyRequest (s : State) (op slot : Nat) : State :=
  let keys := s.sys.fuses.keys
  let lc := s.sys.fuses.lcState
  let st := ((keys[slot]?).map (fun k => k.st)).getD 0
  if op = 1 then
    if lc ≠ 0 ∨ st ≠ 0 then s.keyEnds 4
    else (s.put F.SYS_KEY_CTRL_state 1).fuse
      [.keyBytes slot (s.poolRead (s.fld F.SYS_KEY_SRC_addr * 8) 96), .keyState slot 1] .key
  else if op = 2 then
    if lc = 3 ∨ ((List.range 4).any (fun i => i != slot && ((keys[i]?).map (fun k => k.st)) = some 1)) = false then s.keyEnds 4
    else (s.put F.SYS_KEY_CTRL_state 1).fuse [.keyState slot 2] .key
  else s.keyEnds 3

/-- A write of SYS_KEY_CTRL. -/
def State.keyWrite (s : State) (v : Nat) : State :=
  if v.testBit 31 ∧ s.fld F.SYS_KEY_CTRL_state = 1 then s
  else
    let s := s.regWrite R.SYS_KEY_CTRL v
    if v.testBit 31 then s.keyRequest (bitsOf v 3 2) (v % 4) else s

/-- KEY_PROVISION. -/
def execKeyProvision (m : Master) (slot : Nat) (s : State) : Host.Outcome State Fault Refusal :=
  done (s.guardedWrite m R.SYS_KEY_CTRL (fun s => s.keyWrite (2 ^ 31 + 4 + slot % 4)))

/-- KEY_REVOKE. -/
def execKeyRevoke (m : Master) (slot : Nat) (s : State) : Host.Outcome State Fault Refusal :=
  done (s.guardedWrite m R.SYS_KEY_CTRL (fun s => s.keyWrite (2 ^ 31 + 8 + slot % 4)))

/-! ## The clip-store key (R547, R548, R555) -/

/-- A clip-store key operation ends. -/
def State.cskEnds (s : State) (c : Nat) : State := (s.put F.SYS_CSK_CTRL_state c).put F.SYS_EVT_lc_done 1

/-- The info of the export's key derivation: "LY9600 CSX" and both serials (R548). [assumption 24, DEDUCED] -/
def exportInfo (src dst : Nat) : List Byte :=
  [0x4C, 0x59, 0x39, 0x36, 0x30, 0x30, 0x20, 0x43, 0x53, 0x58] ++ leBytes 8 src ++ leBytes 8 dst

/-- The KEK of an export (R548). -/
def exportKek (x : List Byte) (src dst : Nat) : List Byte := (hkdf384 x [] (exportInfo src dst)).take 32

/-- The "CSKX" blob without its `crc` (R548). -/
def exportBody (src dst : Nat) (epub wrapped : List Byte) : List Byte :=
  [0x43, 0x53, 0x4B, 0x58, 0, 0, 0, 0] ++ leBytes 8 src ++ leBytes 8 dst ++ epub ++ wrapped

/-- EXPORT (R548): the target record is verified under an ACTIVE key slot, and the store key leaves wrapped.
[assumption 24, DEDUCED] -/
def State.cskExport (s : State) : State :=
  let rec_ := s.poolRead (s.fld F.SYS_CSK_SRC_addr * 8) 208
  let key := match s.sys.fuses.keys[leAt rec_ 200 1]? with
    | some k => if k.st = 1 then some k.key else none
    | none => none
  if s.sys.fuses.lcState = 3 then s.cskEnds 7
  else if (match key with
      | some k => ecdsaVerify k (sha384 (rec_.take 104)) (leAt rec_ 104 48) (leAt rec_ 152 48)
      | none => false) = false then s.cskEnds 4
  else
    match (match s.sys.storeKey with | some k => some k | none => s.unwrapStoreKey) with
    | none => s.cskEnds 5
    | some store =>
      let r := s.free
      let d := r.1 % (p384N - 1) + 1
      let src := s.sys.fuses.serial
      let dst := leAt rec_ 0 8
      let body := exportBody src dst (publicKey d) (aesWrap (exportKek (ecdhX d (slice rec_ 8 96)) src dst) store)
      (r.2.poolWrite (s.fld F.SYS_CSK_DST_addr * 8) (body ++ leBytes 4 (crc32c body))).cskEnds 2

/-- The key that a blob holds for this part (R548). -/
def State.openBlob (s : State) (b : List Byte) : Option (List Byte) :=
  if slice b 0 4 = [0x43, 0x53, 0x4B, 0x58] ∧ leAt b 16 8 = s.sys.fuses.serial % 2 ^ 64 ∧ leAt b 192 4 = crc32c (b.take 192) then
    aesUnwrap (exportKek (ecdhX Config.transportSecret (slice b 24 96)) (leAt b 8 8) (leAt b 16 8)) (slice b 120 72)
  else none

/-- IMPORT (R548): the epoch advances, then the key is wrapped under it. [assumption 24, DEDUCED] -/
def State.cskImport (s : State) : State :=
  if s.sys.fuses.lcState ≠ 1 then s.cskEnds 7
  else if s.storeState ≠ 0 then s.cskEnds 8
  else if 128 ≤ s.sys.fuses.epoch then s.cskEnds 6
  else match s.openBlob (s.poolRead (s.fld F.SYS_CSK_SRC_addr * 8) 196) with
    | none => s.cskEnds 5
    | some key =>
      (({ s with sys := { s.sys with cskKey := some key } } : State).put F.SYS_CSK_CTRL_state 1).fuse [.epoch] .csk

/-- A write of SYS_CSK_CTRL. -/
def State.cskWrite (s : State) (v : Nat) : State :=
  if v.testBit 31 ∧ s.fld F.SYS_CSK_CTRL_state = 1 then s
  else
    let s := s.regWrite R.SYS_CSK_CTRL v
    if !v.testBit 31 then s
    else match v % 4 with
      | 1 => s.cskExport
      | 2 => s.cskImport
      | _ => s.cskEnds 3

/-- CSK_EXPORT. -/
def execCskExport (m : Master) (s : State) : Host.Outcome State Fault Refusal :=
  done (s.guardedWrite m R.SYS_CSK_CTRL (fun s => s.cskWrite (2 ^ 31 + 1)))

/-- CSK_IMPORT. -/
def execCskImport (m : Master) (s : State) : Host.Outcome State Fault Refusal :=
  done (s.guardedWrite m R.SYS_CSK_CTRL (fun s => s.cskWrite (2 ^ 31 + 2)))

/-- A write of a SYS register. -/
def State.sysRegWrite (s : State) (off v : Nat) : State :=
  if off = R.SYS_RST_CTRL then s.resetCtrlWrite v
  else if off = R.SYS_WDT_CTRL then s.wdtCtrlWrite v
  else if off = R.SYS_WDT_KICK then s.wdtKick
  else if off = R.SYS_LC_CTRL then s.lcWrite v
  else if off = R.SYS_LC_CONFIRM then s.lcConfirmWrite v
  else if off = R.SYS_KEY_CTRL then s.keyWrite v
  else if off = R.SYS_CSK_CTRL then s.cskWrite v
  else s.regWrite off v

end Sys2Proof.Machine
end

