-- ==== Sys2Proof/Machine/HostWrite.lean ====
section
/-! DEFINITION. What a write or a read of any register does, whoever makes it: the rules of R498 and the register maps
brought together, and the PRESET records of an image (R54). -/
namespace Sys2Proof.Machine

/-! ## Writes by block -/

/-- A write of a register of a Gypol port, at offset `r` in its page (R156 to R160). -/
def State.headRegWrite (s : State) (n r v : Nat) : State :=
  let off := 0x20000 + 0x400 * n + r
  let vs := (r - 0x200) / 0x40
  if r = 0 then s.headCfgWrite n v
  else if 0x200 ≤ r ∧ r < 0x300 then
    if (r - 0x200) % 0x40 = 0 then s.mapWrite n vs v
    else if s.sensorUnused n vs then s
    else if (r - 0x200) % 0x40 = 0x20 then
      let s := s.regWrite off v
      if v.testBit 31 then s.exposureGo n vs else s
    else s.regWrite off v
  else s.regWrite off v

/-- A write of a DEV register (R191): pages of contexts that do not exist set shape_miss (R50). -/
def State.devRegWrite (s : State) (off v : Nat) : State :=
  if 0x50000 ≤ off ∧ off < 0x60000 then
    let c := (off - 0x50000) / 0x1000
    if (s.shape 9 c).isNone then s.shapeMiss
    else if off = R.DEV_CTX_CTRL c then (if v % 2 = 1 then s.devCommit c else s)
    else s.regWrite off v
  else s.regWrite off v

/-- A write of a RAWC register: a queue's addresses and sizes hold while it is enabled (R267, R272).
[assumption 32, DEDUCED] -/
def State.rawRegWrite (s : State) (off v : Nat) : State :=
  if 0x81000 ≤ off ∧ off < 0x82000 then
    let q := (off - 0x81000) / 0x80
    let r := (off - 0x81000) % 0x80
    if r = 0 then s.rawCtrl q v
    else if r = 0x1C then s.rawTail q v
    else if r = 0x24 then s.rawCqHead q v
    else if [8, 0xC, 0x10, 0x14, 0x18, 0x30, 0x34, 0x38, 0x3C].contains r && s.bit (F.RAWC_Q_CTRL_enable q) then
      s.put (F.RAWC_Q_STATUS_bad_cfg q) 1
    else s.regWrite off v
  else s.regWrite off v

/-- A write of an HEVC register (R286, R306, R308). [assumption 36, DEDUCED] -/
def State.hevcRegWrite (s : State) (off v : Nat) : State :=
  if 0xA0020 ≤ off ∧ off ≤ 0xA0030 then s.hevcPoolWrite off v
  else if 0xA1000 ≤ off ∧ off < 0xA5000 then
    let k := (off - 0xA1000) / 0x100
    let r := (off - 0xA1000) % 0x100
    let bad := s.put (F.HEVC_SES_STATUS_bad_cfg k) 1
    if (s.shape 11 k).isNone then s.shapeMiss
    else if r = 0 then s.hevcCtrl k v
    else if r = 0x10 then s.hevcQuota k v
    else if r = 0x94 then s.hevcTail k v
    else if 0x80 ≤ r ∧ r ≤ 0x90 then
      if genRuns (s.ses k).active k || s.bit (F.HEVC_SES_STATUS_resetting k) then bad
      else if r = 0x90 ∧ (v % 16 < 4 ∨ 12 < v % 16) then bad
      else s.regWrite off v
    else s.regWrite off v
  else s.regWrite off v

/-- A write of a MEMC register: MEMC_CFG takes its fields until it is locked (R469). -/
def State.memcRegWrite (s : State) (off v : Nat) : State :=
  if off = R.MEMC_CFG then
    if s.bit F.MEMC_CFG_lock then s else s.wr off (v &&& 0x8000007F)
  else if off = R.MEMC_SCRUB then s.scrubWrite v
  else s.regWrite off v

/-- A write of a POOL register (R486, R488, R489). -/
def State.poolRegWrite (s : State) (off v : Nat) : State :=
  if off = R.POOL_MARCH_CTRL then
    if v.testBit 1 then s.marchStopOp v else if v.testBit 0 then s.marchGoOp v else s.regWrite off v
  else if off = R.POOL_REPAIR_CTRL ∧ v.testBit 31 = true then s.repairFuseOp v
  else if 0x348000 ≤ off ∧ off < 0x349C00 then
    let m := (off - 0x348000) / 0x400
    let r := (off - 0x348000) % 0x400 / 0x10
    if off % 0x10 = 0 then s.regionBaseWrite m r v
    else if off % 0x10 = 4 then s.regionSizeWrite m r v
    else s
  else s.regWrite off v

/-- A write of a mailbox, doorbell or activation register (R510 to R517). -/
def State.mboxRegWrite (s : State) (m : Master) (off v : Nat) : State :=
  if 0x380000 ≤ off ∧ off < 0x381000 then
    let mb := (off - 0x380000) / 0x80
    let r := (off - 0x380000) % 0x80
    if r < 0x40 then s.mboxWordWrite m mb (r / 4) v
    else if r = 0x40 then
      let s := if v.testBit 0 then s.mboxClaimOp m mb else s
      if v.testBit 1 then s.mboxReleaseOp m mb else s
    else if r = 0x44 ∧ v.testBit 31 = true then s.mboxSendOp m mb v
    else s.regWrite off v
  else if off = R.MBOX_DB_RING 0 then s.doorbellRingOp false v
  else if off = R.MBOX_DB_RING 1 then s.doorbellRingOp true v
  else if off = R.MBOX_DB_PEND 0 then s.doorbellClear m false v
  else if off = R.MBOX_DB_PEND 1 then s.doorbellClear m true v
  else if off = R.MBOX_FWACT_CTRL then (if v.testBit 0 then s.fwactOp else s)
  else s.regWrite off v

/-- The PCIe function of a master; the management processors have no MSI-X table. -/
def masterPcie : Master → Option Nat
  | .pf0 => some 0
  | .pf1 => some 1
  | .mgt => none

/-- A write of a HOST register, or of the writer's own MSI-X table (R508, R519). -/
def State.hostRegWrite (s : State) (m : Master) (off v : Nat) : State :=
  if 0x3E0000 ≤ off ∧ off < 0x3E1000 then
    match masterPcie m with
    | some fn =>
      let p := s.pcie fn
      s.setPcie fn { p with table := mapSet p.table (off - 0x3E0000) (BitVec.ofNat 32 v) }
    | none => s
  else if msixOffset off then s
  else s.regWrite off v

/-- What a write that completes does, wherever it falls in BAR0. -/
def State.writeEffect (s : State) (m : Master) (off v : Nat) : State :=
  if off < 0x10000 then s.sysRegWrite off v
  else if off < 0x18000 then s.rigRegWrite m off v
  else if off < 0x20000 then s.jnlRegWrite off v
  else if off < 0x22000 then s.headRegWrite ((off - 0x20000) / 0x400) ((off - 0x20000) % 0x400) v
  else if off < 0x80000 then s.devRegWrite off v
  else if off < 0xA0000 then s.rawRegWrite off v
  else if off < 0xC0000 then s.hevcRegWrite off v
  else if off < 0xE0000 then (s.wallRegWrite off v).wallResume none
  else if 0xE1000 ≤ off ∧ off < 0xE8000 then s.mediaRegWrite off v
  else if off < 0xF0000 then s.netRegWrite off v
  else if off < 0xF8000 then s.anchorRegWrite off v
  else if off < 0x100000 then s.audRegWrite off v
  else if off < 0x300000 then s.clipRegWrite off v
  else if off < 0x340000 then s.memcRegWrite off v
  else if off < 0x380000 then s.poolRegWrite off v
  else if off < 0x3C0000 then s.mboxRegWrite m off v
  else if off < 0x400000 then s.hostRegWrite m off v
  else s.wallRegWrite off v

/-! ## Reads -/

/-- RAWC_Qq_STATUS as it reads: the shape's kind, directions and port beside the stored bits (R249, R272).
[assumption 32, DEDUCED] -/
def State.rawStatus (s : State) (q : Nat) : Nat :=
  let v := s.rd (R.RAWC_Q_STATUS q)
  match s.rawShape q with
  | none => v
  | some h =>
    let kind := if h.tap then 1 else 2
    let dirs := if h.tap then 1 else h.format % 4
    let port := if h.tap then h.format % 16 else 0
    putBits (putBits (putBits v 1 0 kind) 3 2 dirs) 7 4 port

/-- Whether an offset is a sensor register that a bond leaves unused: it reads 0 (R120, R156). -/
def State.sensorHidden (s : State) (off : Nat) : Bool :=
  let o := (off - 0x20000) % 0x400
  decide (0x20000 ≤ off) && decide (off < 0x22000) && decide (0x200 ≤ o) && decide (o < 0x300)
    && s.sensorUnused ((off - 0x20000) / 0x400) ((o - 0x200) / 0x40)

/-- The value of any register as it reads, before write-only bits are masked. ANCHOR_TMRt_T_NS keeps what was written, and
with `src` 0 its bits [31:30] are reserved and read 0 (R19, R435); MEMC_x_STATUS shows the channel's self-refresh (R479, R491).
[assumption 53, DEDUCED] -/
def State.viewAll (s : State) (off : Nat) : Nat :=
  if s.sensorHidden off then 0 else
  if timerPage off && decide (off % 0x20 = 4) && !s.bit (F.ANCHOR_TMR_CTRL_src ((off - 0xF1000) / 0x20)) then s.view off % 2 ^ 30 else
  if 0x301000 ≤ off ∧ off < 0x301800 ∧ off % 0x100 = 0 then
    putBits (s.view off) 2 2 (if (s.chan ((off - 0x301000) / 0x100)).clockStopped then 1 else 0) else
  if 0x81000 ≤ off ∧ off < 0x82000 ∧ off % 0x80 = 4 then s.rawStatus ((off - 0x81000) / 0x80)
  else s.view off

/-- A read of a register whose read has no rule of its own: its value, and its RC bits cleared (R19). A read of
HOST_VIOL_COUNT clears the record beside it too (R500). -/
def State.plainRead (s : State) (off : Nat) : Nat × State :=
  match regRow off with
  | some r => (s.viewAll off &&& readMask off,
      let s := if r.rc = 0 then s else s.wr off (s.rd off &&& (0xFFFFFFFF ^^^ r.rc))
      if off = R.HOST_VIOL_COUNT then s.wr R.HOST_VIOL_INFO 0 else s)
  | none => (0, s)

/-- A read in the MSI-X table or the PBA of the reader (R508). -/
def State.msixRead (s : State) (m : Master) (off : Nat) : Nat :=
  match masterPcie m with
  | none => 0
  | some fn =>
    let p := s.pcie fn
    if off < 0x3E1000 then
      let d := (if off % 16 = 12 then 1 else 0 : Nat)
      (mapGet (BitVec.ofNat 32 d) p.table (off - 0x3E0000)).toNat
    else
      let k := (off - 0x3E1000) / 4
      ofBits ((List.range 32).map (fun i => p.pba.contains (32 * k + i)))

/-- What a read that completes returns and does, wherever it falls in BAR0. -/
def State.readEffect (s : State) (m : Master) (off : Nat) : Nat × State :=
  if off = R.RIG_DIG_FRAME then s.digFrame
  else if off = R.ANCHOR_NS then s.nsRead
  else if 0xF0100 ≤ off ∧ off < 0xF0200 ∧ (off - 0xF0100) % 0x20 = 0 then s.tsqRead ((off - 0xF0100) / 0x20)
  else if 0x380000 ≤ off ∧ off < 0x381000 ∧ (off - 0x380000) % 0x80 < 0x40 then
    s.mboxWordReadOp m ((off - 0x380000) / 0x80) ((off - 0x380000) % 0x80 / 4)
  else if msixOffset off then (s.msixRead m off, s)
  else s.plainRead off

/-! ## Register accesses (R498 to R501) -/

/-- REGISTER_WRITE: one DWORD of a BAR0 write, dropped and counted unless every byte enable is set.
[assumption 9, DEDUCED] -/
def execRegisterWrite (m : Master) (off be : Nat) (v : Word) (s : State) : Host.Outcome State Fault Refusal :=
  let o := off % 2 ^ 24 / 4 * 4
  done (if be % 16 = 15 then s.guardedWrite m o (fun s => s.writeEffect m o v.toNat)
    else if s.served m then s.bump F.HOST_ACC_BAD_count 1 else s)

/-- A read of one DWORD. -/
def State.registerRead (s : State) (m : Master) (off : Nat) : State :=
  s.guardedRead m (off % 2 ^ 24 / 4 * 4) (fun s => s.readEffect m (off % 2 ^ 24 / 4 * 4))

/-- COUNTER_READ: a register with RC bits returns its count and clears it (R19). [assumption 9, DEDUCED] -/
def execCounterRead (m : Master) (off : Nat) (s : State) : Host.Outcome State Fault Refusal := done (s.registerRead m off)

/-- REFUSED_REGISTER_READ: a read that its master may not make, or that meets a block that does not answer (R500, R501);
a read that meets neither returns the register. -/
def execRefusedRegisterRead (m : Master) (off : Nat) (s : State) : Host.Outcome State Fault Refusal := done (s.registerRead m off)

/-! ## PRESET records (R54, R469) -/

/-- The writes of an image's PRESET records in stream order. [assumption 18, DEDUCED] -/
def presetWrites (l : List RecBody) : List (Nat × Nat) :=
  l.flatMap (fun r => match r with
    | .preset o vs => vs.zipIdx.map (fun e => (o + 4 * e.2, e.1))
    | _ => [])

/-- Whether a list of offsets, in order, writes registers that a commit latches after the last such commit. -/
def leftUncommitted (w : List Nat) (touch commit : Nat → Bool) : Bool :=
  w.foldl (fun d o => if commit o then false else d || touch o) false

/-- The commits that preset writes stand for (R54): of camera contexts, sessions, tile contexts with the layer table, and
the wall's mode. [assumption 18, DEDUCED] -/
def State.presetCommits (s : State) (w : List Nat) : State :=
  let devs := (List.range 16).filter (fun c => (s.shape 9 c).isSome
    && leftUncommitted w (fun o => (decide (R.DEV_CTX_CTRL c < o) && decide (o < R.DEV_CTX_CTRL (c + 1)))
      || (decide (0x41000 ≤ o) && decide (o < 0x41800) && s.fld (F.DEV_OS_CTRL_src ((o - 0x41000) / 0x100)) = c))
      (fun o => o = R.DEV_CTX_CTRL c))
  let s := devs.foldl (fun (s : State) c => s.devCommit c) s
  let sess := (List.range 64).filter (fun k => (s.sesShape k).isSome
    && leftUncommitted w (fun o => decide (R.HEVC_SES_SIZE k ≤ o) && decide (o ≤ R.HEVC_SES_OUT_STRIDE k)) (fun o => o = R.HEVC_SES_CTRL k))
  let s := sess.foldl (fun (s : State) k => (s.hevcCommit k).hevcResume k false) s
  let own := fun (o : Nat) => o = R.WALL_COMMIT_CTRL
  let tiles := ((w.filter (fun o => decide (0x400000 ≤ o) && decide (o < 0x600000))).map (fun o => (o - 0x400000) / 0x80)).eraseDups.filter
    (fun i => leftUncommitted w (fun o => decide (R.WALL_TCTX_CTRL i ≤ o) && decide (o < R.WALL_TCTX_CTRL (i + 1))) own)
  let layers := leftUncommitted w (fun o => decide (0xC8000 ≤ o) && decide (o < 0xC8400)) own
  let s := if tiles.isEmpty && !layers then s else s.tileCommit tiles layers s.nowNs
  if s.bit F.WALL_CTRL_enable && leftUncommitted w (fun o => decide (0xC0010 ≤ o) && decide (o < 0xC001C)) (fun o => o = R.WALL_MODE_CTRL)
  then s.modeCommitOp else s

/-- The presets of blocks whose islands run are written, in stream order and with privileged authority; the others wait for
their island. A locked MEMC_CFG stands. [assumption 18, DEDUCED] -/
def State.applyPresets (s : State) : State :=
  let runs := fun (e : Nat × Nat) => match blockIsland e.1 with
    | some i => s.runs i
    | none => true
  let now := s.rig.presets.filter runs
  if now.isEmpty then s
  else
    let s : State := { s with rig := { s.rig with presets := s.rig.presets.filter (fun e => !runs e) } }
    let s := now.foldl (fun (s : State) e => s.writeEffect .mgt e.1 e.2) s
    (s.presetCommits (now.map (fun e => e.1))).resumeAll

end Sys2Proof.Machine
end

