-- ==== Sys2Proof/Machine/Release.lean ====
section
/-! DEFINITION. Chapter 14, the release sequence: the boot of chapters 01 and 12, the release work of each island, and what
a missing CLK_GOOD leaves in reset (R59, R469 to R472, R486, R488, R533 to R539). -/
namespace Sys2Proof.Machine

/-! ## The boot ROM (R59, R534) -/

/-- The bytes that the boot ROM loads from a flash slot: 0 slot A, 1 slot B. A `body_len` beyond its rule of R24 fails
step 6 of R57, so that nothing after the header matters. -/
def State.bootBytes (s : State) (k : Nat) : List Byte :=
  let base := 0x400000 + 0x200000 * k
  let n := leAt (flashRead s.flash base 64) 12 4
  flashRead s.flash base (if 2096984 < n then 64 else 64 + n + 104)

/-- The image of a flash slot that passes steps 1 and 4 to 13 of R57 as a FULL image. -/
def State.bootImage (s : State) (k : Nat) : Option Image :=
  if s.sys.fuses.lcState = 3 then none else (s.verdict (s.bootBytes k) true).2.2

/-- The slot that the boot ROM activates (R59, R84). [assumption 18, DEDUCED] -/
def State.bootPick (s : State) : Option Nat :=
  let first := s.fld F.RIG_BOOT_SEL_first
  if (s.bootImage first).isSome then some first
  else if s.bit F.RIG_BOOT_SEL_fallback && (s.bootImage (1 - first)).isSome then some (1 - first)
  else none

/-- The subsystem IDs that the boot ROM loads (R494). -/
def State.bootSubsystem (s : State) : Nat :=
  let w := leNat (flashRead s.flash 0x100 4)
  if w = 0xFFFFFFFF then 0 else w

/-! ## Activation (R31, R37, R42, R54, R81) -/

/-- The pool banks of a record set take their owners (R42). -/
def State.ownBanks (s : State) (l : List RecBody) : State :=
  l.foldl (fun (s : State) r => match r with
    | .pool first count o u x => (List.range count).foldl (fun (s : State) i => s.setBankOwner (first + i) o u x) s
    | _ => s) s

/-- RIG_ACTIVE_CLASS reports a result class (R65). -/
def State.showClass (s : State) (c : Nat) : State :=
  (s.wr R.RIG_ACTIVE_CLASS_LO (c % 2 ^ 32)).wr R.RIG_ACTIVE_CLASS_HI (c / 2 ^ 32 % 2 ^ 32)

/-- The boot activates a slot's image: the slot is ACTIVE, banks take their owners, clocks their targets, and the presets
wait for their islands. [assumption 18, DEDUCED] -/
def State.bootActivate (s : State) (k : Nat) : State :=
  match (s.slot k).img with
  | none => s
  | some im =>
    let s : State := { s with rig := { s.rig with active := some im, presets := presetWrites im.bodies } }
    let s := ((s.setSlot k ⟨.active, some im⟩).put F.RIG_STATUS_no_image 0).put F.RIG_STATUS_fragment_applied 0
    ((s.showClass im.resultClass).ownBanks im.bodies).retune

/-! ## Release work (R469 to R472, R486, R488, R534, R535) -/

/-- MEMC is released: the first image since a wide reset configures and locks it, its DRAM is trained and zeroed; a narrower
reset reuses the training results and leaves the array as it is. [assumptions 18, DEDUCED, 54, DEDUCED] -/
def State.memcRelease (s : State) (trainFail : Nat) : State :=
  let fresh := !s.bit F.MEMC_CFG_lock
  let word := match s.rig.bootSlot.bind s.bootImage with
    | some im => memcWord im.bodies
    | none => memcWord s.bodies
  let s := if fresh then s.wr R.MEMC_CFG (word % 128 + 2 ^ 31) else s
  if !s.bit F.MEMC_CFG_enable then (s.wr R.MEMC_CAPACITY 0).put F.MEMC_STATUS_ready 1
  else
    let chans := List.range s.channels
    let failed := if fresh then chans.filter (fun c => trainFail.testBit c) else []
    if failed.isEmpty then
      let s := chans.foldl (fun (s : State) c => s.put (F.MEMC_x_STATUS_trained c) 1) s
      let s := s.put F.MEMC_STATUS_trained (2 ^ s.channels - 1)
      let s := s.put F.MEMC_CAPACITY_gib ((memcCapacity (s.rd R.MEMC_CFG % 128)).getD 0 / 2 ^ 30)
      let s : State := if fresh then { s with dram := [], memc := { s.memc with poison := [], trainedStored := true } } else s
      s.put F.MEMC_STATUS_ready 1
    else
      let s := failed.foldl (fun (s : State) c => s.put (F.MEMC_x_STATUS_fail c) 1) s
      let s := s.put F.MEMC_STATUS_train_fail (failed.foldl (fun n c => n + 2 ^ c) 0)
      (s.put F.MEMC_EVT_train_fail 1).holdIsland .memc

/-- The boot march (R488), with the rows that fail it. [assumption 15, DEDUCED] -/
def State.bootMarch (s : State) (failRows : List (Nat × Nat)) : State :=
  let b := s.fld F.POOL_MARCH_BOOT_boot
  if b = 1 ∨ b = 2 then
    let s := failRows.foldl (fun (s : State) r => s.rowFails (r.1 % 1024) r.2 (s.bit F.POOL_MARCH_CTRL_repair)) s
    (s.put F.POOL_MARCH_STATUS_state 2).put F.POOL_EVT_march_done 1
  else s

/-- A flash slot is copied to its device slot, which is EMPTY unless the slot passed its checks and the copy its own. -/
def State.bootCopy (s : State) (k : Nat) (bad : Bool) : State :=
  match s.bootImage k with
  | some im =>
    if bad then s.emptySlot k
    else (s.poolWrite (slotBase k) (s.bootBytes k)).setSlot k ⟨.validFull, some im⟩
  | none => s.emptySlot k

/-- Region 63 of MP0 to MP3 is enabled over the firmware's interrupt-handler area, where its package declares one (R486).
[assumption 18, DEDUCED] -/
def State.bootRegions (s : State) (base size : Nat) : State :=
  if size = 0 ∨ base % 4096 ≠ 0 ∨ size % 4096 ≠ 0 ∨ 992 * bankBytes < base + size then s
  else [2, 3, 4, 5].foldl (fun (s : State) m =>
    (s.wr (R.POOL_RGN_SIZE m 63) size).wr (R.POOL_RGN_BASE m 63) (base + 15)) s

/-- POOL's release work after a wide reset: march, zeroing, the copies of the flash slots, and the activation (R534, R535).
[assumption 18, DEDUCED] -/
def State.poolBoot (s : State) (b : BootIn) : State :=
  let s := s.bootMarch b.failRows
  let s : State := { s with pool := [], poolSt := { s.poolSt with poison := [] } }
  let s := (s.bootCopy 0 (b.copyBad.testBit 0)).bootCopy 1 (b.copyBad.testBit 1)
  let s := s.bootRegions b.areaBase b.areaSize
  let valid := fun (k : Nat) => (s.slot k).st = .validFull
  let pick := match s.rig.bootSlot with
    | none => none
    | some k =>
      if valid k then some k
      else if s.bit F.RIG_BOOT_SEL_fallback && valid (1 - k)
          && ((s.slot (1 - k)).img.map (fun im => memcWord im.bodies % 128)) == some (s.rd R.MEMC_CFG % 128) then some (1 - k)
      else none
  let s : State := { s with rig := { s.rig with bootSlot := none } }
  match pick with
  | some k => s.bootActivate k
  | none => s

/-- An island leaves reset: its working storage is zeroed, its clock runs at its target, and its release work is done.
[assumption 18, DEDUCED] -/
def State.bringUp (s : State) (wide : Bool) (i : Island) (b : BootIn) : State :=
  let s := if i = .host then s else s.clearIsland wide false i
  let t := throttleOf (islandRec s.bodies i) i (s.fld F.SYS_THERM_STATUS_level)
  let s := (if wide then s else s.holdBalls i).setIsland i ⟨false, true, false, s.targetMhz i, t.1, t.2, true⟩
  match i with
  | .mgt =>
    let s : State := { s with sys := { s.sys with wdtKickAt := s.real } }
    if wide then
      { s with host := { s.host with subsystem := s.bootSubsystem }, rig := { s.rig with bootSlot := s.bootPick } }
    else s
  | .memc => s.memcRelease b.trainFail
  | .pool => if wide then s.poolBoot b else s
  | .host =>
    let s := if wide then s.put F.SYS_STATUS_ready 1 else s
    if s.fld F.HOST_LINK_speed != 0 && !s.host.readyMsg then
      ({ s with host := { s.host with readyMsg := true } } : State).emit .readinessStatus
    else s
  | _ => s

/-! ## The sequence (R530, R533, R538, R539) -/

/-- Whether DRAM training has failed since the latest reset of WARM reach or wider (R471): the configuration is locked and no
training results are stored. -/
def State.trainFailed (s : State) : Bool := s.bit F.MEMC_CFG_lock && s.bit F.MEMC_CFG_enable && !s.memc.trainedStored

/-- Whether the release sequence releases an island or passes it over (R59, R469, R471, R533). -/
def State.mayRelease (s : State) (i : Island) : Bool :=
  match i with
  | .sys => false
  | .anchor | .mgt | .pool | .host => true
  | .memc =>
    !s.trainFailed && (if s.rig.active.isSome then presentIn s.bodies .memc else s.bit F.MEMC_CFG_lock || s.rig.bootSlot.isSome)
  | i => presentIn s.bodies i && !s.trainFailed

/-- The sequence goes on: islands that are passed over leave it, and when none is left the episode is over. -/
def State.releaseOn (s : State) (l : List Island) : State :=
  match s.sys.episode with
  | none => s
  | some e =>
    let l := if l.all (fun i => decide (5 < i.code)) then l.filter s.mayRelease else l.dropWhile (fun i => !s.mayRelease i)
    if l.isEmpty then
      let s : State := { s with sys := { s.sys with episode := none } }
      if 4 ≤ e.reach ∧ s.rig.active.isNone = true then s.put F.RIG_STATUS_no_image 1 else s
    else { s with sys := { s.sys with episode := some { e with release := some l } } }

/-- Every source has released: fuse shadows are loaded and the strap sampled after CHIP, and the sequence starts (R530,
R534 step 1). -/
def State.episodeReleaseOp (s : State) : State :=
  match s.sys.episode with
  | some e =>
    if e.release.isSome || e.sources.any (fun x => x.asserted) || s.sys.tripped then s
    else
      let s : State := { s with real := (e.sources.map (fun x => x.holdUntil)).foldl max s.real }
      let s := if 4 ≤ e.reach then s.newNonce else s
      let s := if e.reach = 5 then
          let s : State := { s with
            sys := { s.sys with strap := s.sys.strapPin }
            poolSt := { s.poolSt with repairs := s.sys.fuses.repairs } }
          (s.poolSt.repairs.map (fun r => r.1)).foldl (fun (s : State) b => s.showRepairs b) s
        else s
      s.releaseOn e.islands
  | none => s

/-- EPISODE_RELEASE. [assumption 6, DESIGN CHOICE] -/
def execEpisodeRelease (s : State) : Host.Outcome State Fault Refusal := done s.episodeReleaseOp

/-- Whether an island is due in a release sequence: the first that is left, or in compatibility mode any island after POOL
once none before is left (R533, R539). [assumption 18, DEDUCED] -/
def State.releaseDue (s : State) (l : List Island) (i : Island) : Bool :=
  if l.head? = some i then s.mayRelease i
  else s.sys.strap && decide (4 < i.code) && l.contains i && l.all (fun j => decide (4 < j.code)) && s.mayRelease i

/-- The gap in ns (R533). [assumption 18, DEDUCED] -/
def State.gapNs (s : State) : Nat := if s.sys.strap then 0 else s.sys.fuses.rstGap * 40

/-- Whether an island that a change makes present may start: no open episode holds it (R64). -/
def State.startsNow (s : State) (i : Island) : Bool :=
  s.rig.starting.contains i && s.mayRelease i && (match s.sys.episode with
    | some e => !e.islands.contains i
    | none => true)

/-- An island leaves the list of those that a change starts. -/
def State.notStarting (s : State) (p : Island → Bool) : State :=
  { s with rig := { s.rig with starting := s.rig.starting.filter (fun i => !p i) } }

/-- An island is released with its release work (R64, R533, R534). [assumption 18, DEDUCED] -/
def State.islandReleaseOp (s : State) (i : Island) (b : BootIn) : State :=
  if s.sys.tripped then s
  else if s.startsNow i then
    ((s.notStarting (· = i)).bringUp false i b).applyPresets
  else match s.sys.episode with
  | some e => match e.release with
    | some l =>
      if s.releaseDue l i then
        let s := if (s.island i).gapDone then s else s.elapse s.gapNs
        (((s.notStarting (· = i)).bringUp (decide (4 ≤ e.reach)) i b).releaseOn (l.filter (· != i))).applyPresets
      else s
    | none => s
  | none => s

/-- ISLAND_RELEASE. [assumption 6, DESIGN CHOICE] -/
def execIslandRelease (island : Nat) (b : BootIn) (s : State) : Host.Outcome State Fault Refusal :=
  done (match islandOf island with
    | some i => s.islandReleaseOp i b
    | none => s)

/-- RELEASE_GAP: CLK_GOOD of the island due has come and SYS_RST_GAP cycles of the 25 MHz reference have passed (R533). -/
def execReleaseGap (s : State) : Host.Outcome State Fault Refusal :=
  done (match s.sys.episode.bind (fun e => e.release.bind List.head?) with
    | some i =>
      if s.sys.strap || (s.island i).gapDone || s.sys.tripped then s
      else (s.setIsland i { s.island i with clkGood := true, gapDone := true, clkMhz := s.targetMhz i }).elapse s.gapNs
    | none => s)

/-- The islands that a strand of the active configuration reaches from a list, in one step. -/
def State.reachStep (s : State) (l : List Island) : List Island :=
  (l ++ s.bodies.filterMap (fun r => match r with
    | .strand _ si _ di _ _ _ => if l.any (fun i => i.code = si) then islandOf di else none
    | _ => none)).eraseDups

/-- An island and every island that depends on it (R538). -/
def State.dependents (s : State) (i : Island) : List Island := (List.range 14).foldl (fun l _ => s.reachStep l) [i]

/-- RELEASE_STALL (R538). [assumption 18, DEDUCED] -/
def State.releaseStallOp (s : State) (i : Island) : State :=
  let inSeq := match s.sys.episode.bind (fun e => e.release) with
    | some l => s.releaseDue l i
    | none => false
  if (inSeq || s.startsNow i) && !s.sys.tripped then
    let s := (s.setIsland i { IslState.held with stall := true, clkMhz := s.targetMhz i }).elapse 1000000
    let s := s.put F.SYS_EVT_release_stall 1
    let out := if i.code ≤ 4 then fun (j : Island) => j != .host else fun (j : Island) => (s.dependents i).contains j
    let s := s.notStarting out
    match s.sys.episode with
    | some e => match e.release with
      | some l => s.releaseOn (l.filter (fun j => !out j))
      | none => s
    | none => s
  else s

/-- RELEASE_STALL: CLK_GOOD does not come within 1 ms. -/
def execReleaseStall (island : Nat) (s : State) : Host.Outcome State Fault Refusal :=
  done (match islandOf island with
    | some i => s.releaseStallOp i
    | none => s)

end Sys2Proof.Machine
end

