-- ==== Sys2Proof/Machine/Latch.lean ====
section
/-! DEFINITION. The latch point: a change of structure takes effect (R63 to R67), the frame clock's next frame begins, and
what each chapter does at that instant follows. -/
namespace Sys2Proof.Machine

/-! ## Strands that a change replaces (R65) -/

/-- The strand records of a record set. -/
def strandsOf (l : List RecBody) : List RecBody :=
  l.filter (fun r => match r with | .strand _ _ _ _ _ _ _ => true | _ => false)

/-- A strand's number. -/
def strandId : RecBody → Nat
  | .strand id _ _ _ _ _ _ => id
  | _ => 0

/-- A strand record under another number. -/
def renumber (r : RecBody) (id : Nat) : RecBody :=
  match r with
  | .strand _ a b c d e f => .strand id a b c d e f
  | r => r

/-- A link to a strand under its new number. -/
def relink (old new : Nat) (l : Option (Nat × Nat)) : Option (Nat × Nat) :=
  l.map (fun p => if p.1 = old then (new, p.2) else p)

/-- A camera frame whose links name a strand that has been renumbered. -/
def CamFrame.relink (f : CamFrame) (old new : Nat) : CamFrame :=
  let outs := f.outs.map (fun (o : OutFrame) => { o with link := Machine.relink old new o.link })
  { f with link := Machine.relink old new f.link, tapLink := Machine.relink old new f.tapLink, outs := outs }

/-- A replaced strand keeps its tokens under another number until the last is delivered. [assumption 27, DEDUCED] -/
def State.retireStrand (s : State) (r : RecBody) (id : Nat) : State :=
  let old := strandId r
  let x := mapGet Strand.clear s.rig.strands old
  let ctxs := s.cam.ctxs.map (fun (e : Nat × DevCtx) =>
    (e.1, { e.2 with frames := e.2.frames.map (fun (f : CamFrame) => f.relink old id) }))
  { s with
    rig := { s.rig with
      strands := mapSet (mapDel s.rig.strands old) id x
      retiring := s.rig.retiring ++ [renumber r id] }
    cam := { s.cam with ctxs := ctxs } }

/-- Every strand of the old records that the new ones change or drop is replaced. -/
def State.retireOld (s : State) (old new : List RecBody) : State :=
  let base := ((s.rig.retiring.map strandId).foldl max 0 / 512 + 1) * 512
  ((strandsOf old).filter (fun r => !new.contains r)).foldl (fun (s : State) r => s.retireStrand r (base + strandId r)) s

/-! ## Banks that a change moves (R66) -/

/-- The POOL_BANK claim on a bank: owner, unit and exemption. -/
def bankClaim (l : List RecBody) (b : Nat) : Option (Nat × Nat × Bool) :=
  l.findSome? (fun r => match r with
    | .pool first count o u x => if first ≤ b ∧ b < first + count then some (o, u, x) else none
    | _ => none)

/-- Whether a run-time claim holds a bank (R78). -/
def State.bankClaimed (s : State) (b : Nat) : Bool := s.rig.claims.any (fun c => c.res = 3 && c.index = b)

/-- The owner's unit index of a bank (R34, R493). -/
def State.bankUnit (s : State) (b : Nat) : Nat := bitsOf (s.rd (R.POOL_BANK b)) 15 8

/-- One bank under the new records: with another owner, an island code together with a unit index (R34), it is zeroed before
the new owner's first access; a bank that no record names any more has none. A bank that a run-time claim holds stays with the
claim (R78). [assumption 27, DEDUCED] -/
def State.moveBank (s : State) (old new : List RecBody) (b : Nat) : State :=
  match bankClaim new b with
  | some (o, u, x) =>
    if s.bankClaimed b then s
    else if s.bankOwner b = o && s.bankUnit b = u then s.setBankOwner b o u x
    else
      let s := (s.marchDropBank b).setBankOwner b o u x
      { s with rig := { s.rig with zeroWait := s.rig.zeroWait ++ [b] } }
  | none => if (bankClaim old b).isSome && !s.bankClaimed b then s.setBankOwner b 0xFF 0 false else s

/-! ## The change point (R63 to R67) -/

/-- The slots after a change: the former ACTIVE slot holds its own image as VALID_FULL after a switch, the fragment's slot
is EMPTY after a re-rig. -/
def State.changeSlots (s : State) (c : Change) : State :=
  if c.rerig then s.setSlot c.slot ⟨.empty, none⟩
  else
    let s := match s.activeSlot with
      | some k => s.setSlot k { s.slot k with st := .validFull }
      | none => s
    s.setSlot c.slot { s.slot c.slot with st := .active }

/-- The presets of a change are committed for the frame at which it takes effect (R54, R63): they act just before its latch
point `t`, also where other commands have moved time beyond it. [assumption 27, DEDUCED] -/
def State.presetsAt (s : State) (t : Nat) : State :=
  { ({ s with anchorT := min s.anchorT ((t - 1) <<< 48) } : State).applyPresets with anchorT := s.anchorT }

/-- The jobs and pictures in progress, by engine code and context: they belong to the configuration before a change (R63). -/
def State.unitsNow (s : State) : List (Nat × Nat) :=
  (s.raw.filter (fun e => e.2.job.isSome)).map (fun e => (10, e.1))
    ++ (s.hevc.ses.filter (fun e => e.2.pic.isSome || e.2.hold.isSome || !e.2.recs.isEmpty)).map (fun e => (11, e.1))

/-- The BALL_CLAIM on a ball, named as 256 * row + column: its function and pad (R39). -/
def ballClaim (l : List RecBody) (b : Nat) : Option (Nat × Nat) :=
  l.findSome? (fun r => match r with
    | .ball row col fn pad => if 256 * row + col = b then some (fn, pad) else none
    | _ => none)

/-- The balls whose claim differs between two record sets (R64). -/
def ballsChanged (old new : List RecBody) : List Nat :=
  ((old ++ new).filterMap (fun r => match r with
    | .ball row col _ _ => some (256 * row + col)
    | _ => none)).eraseDups.filter (fun b => ballClaim old b != ballClaim new b)

/-- A change becomes APPLYING at its latch point `t`. A ball whose claim changes shows its reset state for 1 µs first (R64).
[assumption 27, DEDUCED] -/
def State.changeApply (s : State) (c : Change) (new : Image) (t : Nat) : State :=
  let old := s.bodies
  let now := new.bodies
  let part := match s.slotImage c.slot with
    | some im => im
    | none => new
  let s := (s.retireOld old now).changeSlots c
  let start := Island.releaseOrder.filter (fun i => presentIn now i && s.held i && (!presentIn old i || s.rig.starting.contains i))
  let stop := Island.releaseOrder.filter (fun i => presentIn old i && !presentIn now i && s.runs i)
  let left := if c.rerig then s.rig.presets else []
  let s : State := { s with rig := { s.rig with
    active := some new, change := some { c with applying := true, since := t }
    before := s.rig.active, oldUnits := s.unitsNow
    ballHold := (ballsChanged old now).map (fun b => (b, s.real + 1000))
    starting := start, stopping := stop, presets := left ++ presetWrites part.bodies } }
  let s := if presentIn old .wall && !presentIn now .wall then s.clockToRef else s
  let s := (s.showClass part.resultClass).flag F.RIG_STATUS_fragment_applied c.rerig
  let s := s.put F.RIG_CHANGE_STATUS_state 2
  let s := (List.range 992).foldl (fun (s : State) b => s.moveBank old now b) s
  (s.zeroStart.retune).presetsAt t

/-- CHANGE_DONE: the change is DONE once its old work has completed and its banks are zeroed; islands that it leaves
absent then enter reset, their strands emptied, and their clocks stop (R63, R64, R73). [assumption 27, DEDUCED] -/
def execChangeDone (s : State) : Host.Outcome State Fault Refusal :=
  done (match s.rig.change with
    | some c =>
      if c.applying && !s.oldWork c.since && s.rig.zeroing.isEmpty && s.rig.zeroWait.isEmpty then
        let s := s.enterReset false false (s.rig.stopping.filter s.runs)
        ({ s with rig := { s.rig with stopping := [], before := none, oldUnits := [] } } : State).changeEnd 3
      else s
    | none => s)

/-- At the latch point of frame N a pending change takes effect, or ends BUSY where it would take memory from a running
user. [assumption 27, DEDUCED] -/
def State.changeLatch (s : State) (t : Nat) : State :=
  match s.rig.change with
  | none => s
  | some c =>
    if c.applying || laterThan 32 c.frame s.nextFrame then s
    else match s.resultOf c.rerig c.slot with
    | some new => if s.usersOk new.bodies then s.changeApply c new t else s.changeEnd 5
    | none => s.changeEnd 6

/-! ## The latch point (R104, R311, R371, R418) -/

/-- Whether an entry names a point of a wall frame. -/
def Entry.ofWall (e : Entry) : Bool :=
  e.kind = 5 || e.kind = 6 || e.kind = 8 || (e.kind = 7 && (e.target = 2 || e.target = 5)) || (e.kind = 9 && decide (e.a ≤ 2))

/-- Held entries that name a point of a wall frame before frame N, of which nothing is left to do here, are discarded
(R107). [assumption 26, DEDUCED] -/
def State.dropPassed (s : State) (n : Nat) : State :=
  { s with jnl := { s.jnl with held := s.jnl.held.filter (fun e =>
      !(e.ofWall && e.frame != n && !laterThan 32 e.frame n && !s.fclk.frames.any (fun f => f.num = e.frame))) } }

/-- The frame clock reaches its next latch point. A followed mode change that may begin with the frame is settled first
(R105); then come the change of structure, the unit's role, the follow mode, the frame itself, and what Fenmas sends and
counts. A change of structure that ends WALL leaves the latch point to the reference mode (R311). -/
def State.latchOp (s : State) : State :=
  let t := s.nextLatch
  let n := s.nextFrame
  let wait := (s.reach t).modeResume false
  if s.held .anchor then s
  else if wait.modeWaits n t then wait.block 7 5 0 n t
  else
    let wall := s.fclk.wall
    let s := ((s.reach (t - 1)).modeResume false).changeLatch t
    if wall && !s.fclk.wall then s.resumeAll else
    let s := s.clockRoll
    let s := s.reach t
    let role := s.fenRoleStep
    let s := role.2.jnlLatch t
    let last := s.fclk.last
    let n := s.fclk.mode.number s.fclk.next
    let served := s.fclk.wall && s.runs .wall
    let s := (s.wr R.ANCHOR_FC_FRAME n).frameOpen s.leads
    let s := s.wallLatch
    let s := if served then s.fenLatch n role.1 (last / 1000000000 != t / 1000000000) else s
    (s.dropPassed n).resumeAll

/-- LATCH_POINT. -/
def execLatchPoint (s : State) : Host.Outcome State Fault Refusal := done s.latchOp

end Sys2Proof.Machine
end

