-- ==== Sys2Proof/Machine/Ports.lean ====
section
/-! DEFINITION. Chapter 15: the JTAG port (R574) and the SMBus port (R575). -/
namespace Sys2Proof.Machine

/-- The number of cells of the boundary register (R574). [assumption 25, DEDUCED] -/
def boundaryCells : Nat := 3561

/-- Bits cut or padded to the length of the boundary register. -/
def fitCells (l : List Bool) : List Bool := (l ++ List.replicate boundaryCells false).take boundaryCells

/-- A test instruction runs unless TRST_N holds the test logic in reset (R574). [assumption 10, PRESUMED] -/
def State.jtagRun (s : State) (f : Jtag → Jtag) (o : Jtag → List Bool) : State :=
  if s.jtag.trstN then
    let j := f s.jtag
    ({ s with jtag := j }).emit (.jtag (o s.jtag))
  else s

/-- EXTEST: the boundary register drives the balls and captures the pins; the captured cells shift out. -/
def execExtest (cells pins : List Bool) (s : State) : Host.Outcome State Fault Refusal :=
  done (s.jtagRun (fun j => { j with ir := 0x00, cells := fitCells cells, captured := fitCells pins, driving := true, highz := false })
    (fun _ => fitCells pins))

/-- SAMPLE/PRELOAD: the pins are captured and the cells loaded; the balls keep their functions. -/
def execSamplePreload (cells pins : List Bool) (s : State) : Host.Outcome State Fault Refusal :=
  done (s.jtagRun (fun j => { j with ir := 0x01, cells := fitCells cells, captured := fitCells pins, driving := false, highz := false })
    (fun _ => fitCells pins))

/-- The identification code: [31:28] SYS_ID [15:12], [27:12] 0x9600, [11:1] 0x4E7, [0] 1 (R574). -/
def State.idcode (s : State) : Nat := s.sys.fuses.stepLetter % 16 * 2 ^ 28 + 0x9600 * 2 ^ 12 + 0x4E7 * 2 + 1

/-- IDCODE: the code shifts out, bit 0 first. -/
def execIdcode (s : State) : Host.Outcome State Fault Refusal :=
  done (s.jtagRun (fun j => { j with ir := 0x02, driving := false, highz := false }) (fun _ => bitsList 32 s.idcode))

/-- CLAMP: the balls hold what the boundary register drives, and the bypass register is selected. -/
def execClamp (s : State) : Host.Outcome State Fault Refusal :=
  done (s.jtagRun (fun j => { j with ir := 0x03, driving := true, highz := false, bypass := false }) (fun j => [j.bypass]))

/-- HIGHZ: every boundary output is off, and the bypass register is selected. -/
def execHighz (s : State) : Host.Outcome State Fault Refusal :=
  done (s.jtagRun (fun j => { j with ir := 0x04, driving := false, highz := true, bypass := false }) (fun j => [j.bypass]))

/-- BYPASS: one bit passes through the bypass register. -/
def execBypass (tdi : Bool) (s : State) : Host.Outcome State Fault Refusal :=
  done (s.jtagRun (fun j => { j with ir := 0xFF, driving := false, highz := false, bypass := tdi }) (fun j => [j.bypass]))

/-- TRST_N: low holds the test logic in reset, with IDCODE as its instruction, and leaves the device unaffected. -/
def execTrstN (level : Bool) (s : State) : Host.Outcome State Fault Refusal :=
  done { s with jtag := if level then { s.jtag with trstN := true }
    else { s.jtag with trstN := false, ir := 0x02, driving := false, highz := false, bypass := false } }

/-- An SMBus Block Read of one register: 4 bytes, little-endian, which SYS answers while it runs (R575). -/
def State.smbRead (s : State) (off : Nat) : State := if s.sysDown then s else s.emit (.smb (leBytes 4 (s.view off)))

/-- SMB_SYS_ID: command 0x01. -/
def execSmbSysId (s : State) : Host.Outcome State Fault Refusal := done (s.smbRead R.SYS_ID)

/-- SMB_THERM_STATUS: command 0x02. -/
def execSmbThermStatus (s : State) : Host.Outcome State Fault Refusal := done (s.smbRead R.SYS_THERM_STATUS)

/-- SMB_STATUS: command 0x03. -/
def execSmbStatus (s : State) : Host.Outcome State Fault Refusal := done (s.smbRead R.SYS_STATUS)

/-- SMB_RST_CAUSE: command 0x04. -/
def execSmbRstCause (s : State) : Host.Outcome State Fault Refusal := done (s.smbRead R.SYS_RST_CAUSE)

/-- SMB_OTHER_COMMAND: answered NACK. -/
def execSmbOtherCommand (code : Nat) (s : State) : Host.Outcome State Fault Refusal := done (if s.sysDown then s else s.emit (.smbNack (code % 256)))

end Sys2Proof.Machine
end

