-- ==== Sys2Proof/Machine/Dispatch.lean ====
section
/-! DEFINITION. The dispatch: one arm per command, each one direct call of its meaning. -/
namespace Sys2Proof.Machine

def exec (i : Instr) (s : State) : Host.Outcome State Fault Refusal :=
  match i with
  | .rigLoad m v => Sys2Proof.Machine.execRigLoad m v s
  | .loadCopyComplete => Sys2Proof.Machine.execLoadCopyComplete s
  | .switch m v => Sys2Proof.Machine.execSwitch m v s
  | .reRig m v => Sys2Proof.Machine.execReRig m v s
  | .cancel m v => Sys2Proof.Machine.execCancel m v s
  | .changeDone => Sys2Proof.Machine.execChangeDone s
  | .bankZeroComplete bank => Sys2Proof.Machine.execBankZeroComplete bank s
  | .claim m v => Sys2Proof.Machine.execClaim m v s
  | .claimRelease m v => Sys2Proof.Machine.execClaimRelease m v s
  | .token strand => Sys2Proof.Machine.execToken strand s
  | .pitch engine => Sys2Proof.Machine.execPitch engine s
  | .jnlEnable m v => Sys2Proof.Machine.execJnlEnable m v s
  | .jnlInject m v => Sys2Proof.Machine.execJnlInject m v s
  | .jnlHoldExpire k => Sys2Proof.Machine.execJnlHoldExpire k s
  | .digFrameRead m => Sys2Proof.Machine.execDigFrameRead m s
  | .portEnable m port v => Sys2Proof.Machine.execPortEnable m port v s
  | .portDisable m port v => Sys2Proof.Machine.execPortDisable m port v s
  | .headCfgReconfigure m port v => Sys2Proof.Machine.execHeadCfgReconfigure m port v s
  | .blockLock port lane => Sys2Proof.Machine.execBlockLock port lane s
  | .align port lane pos skew block => Sys2Proof.Machine.execAlign port lane pos skew block s
  | .capability port t rest => Sys2Proof.Machine.execCapability port t rest s
  | .capRequestTimeout port => Sys2Proof.Machine.execCapRequestTimeout port s
  | .trainTimeout port => Sys2Proof.Machine.execTrainTimeout port s
  | .lockLoss port t => Sys2Proof.Machine.execLockLoss port t s
  | .frameStart port t rest => Sys2Proof.Machine.execFrameStart port t rest s
  | .line port t rest => Sys2Proof.Machine.execLine port t rest s
  | .frameEnd port t rest => Sys2Proof.Machine.execFrameEnd port t rest s
  | .ingressDeadline ctx tag also => Sys2Proof.Machine.execIngressDeadline ctx tag also s
  | .exposure m port vs v => Sys2Proof.Machine.execExposure m port vs v s
  | .ack port t rest => Sys2Proof.Machine.execAck port t rest s
  | .ackTimeout port => Sys2Proof.Machine.execAckTimeout port s
  | .controlStart m port vs v => Sys2Proof.Machine.execControlStart m port vs v s
  | .controlStop m port vs v => Sys2Proof.Machine.execControlStop m port vs v s
  | .devCommit m ctx v => Sys2Proof.Machine.execDevCommit m ctx v s
  | .stripe ctx => Sys2Proof.Machine.execStripe ctx s
  | .contactSheetRecord ctx => Sys2Proof.Machine.execContactSheetRecord ctx s
  | .outputFrameComplete stream => Sys2Proof.Machine.execOutputFrameComplete stream s
  | .rawcSqTail m q v => Sys2Proof.Machine.execRawcSqTail m q v s
  | .rawcCqHead m q v => Sys2Proof.Machine.execRawcCqHead m q v s
  | .compress q => Sys2Proof.Machine.execCompress q s
  | .decompress q => Sys2Proof.Machine.execDecompress q s
  | .tapFrame q => Sys2Proof.Machine.execTapFrame q s
  | .negativeBlock q => Sys2Proof.Machine.execNegativeBlock q s
  | .rawcCompletion q => Sys2Proof.Machine.execRawcCompletion q s
  | .rawcQueueEnable m q v => Sys2Proof.Machine.execRawcQueueEnable m q v s
  | .rawcQueueReset m q v => Sys2Proof.Machine.execRawcQueueReset m q v s
  | .hevcCommit m k v => Sys2Proof.Machine.execHevcCommit m k v s
  | .hevcSessionReset m k v => Sys2Proof.Machine.execHevcSessionReset m k v s
  | .hevcPoolEnable m v => Sys2Proof.Machine.execHevcPoolEnable m v s
  | .quotaWrite m k v => Sys2Proof.Machine.execQuotaWrite m k v s
  | .hevcSqTail m k v => Sys2Proof.Machine.execHevcSqTail m k v s
  | .picture k => Sys2Proof.Machine.execPicture k s
  | .au k => Sys2Proof.Machine.execAu k s
  | .encodeInput k => Sys2Proof.Machine.execEncodeInput k s
  | .ctuRow k => Sys2Proof.Machine.execCtuRow k s
  | .hevcRecord k => Sys2Proof.Machine.execHevcRecord k s
  | .wallEnable m => Sys2Proof.Machine.execWallEnable m s
  | .wallDisable m => Sys2Proof.Machine.execWallDisable m s
  | .modeCommit m => Sys2Proof.Machine.execModeCommit m s
  | .modeChangeEffect => Sys2Proof.Machine.execModeChangeEffect s
  | .surfaceEnable m surf v => Sys2Proof.Machine.execSurfaceEnable m surf v s
  | .surfaceDisable m surf v => Sys2Proof.Machine.execSurfaceDisable m surf v s
  | .surfaceCommit m surf buf => Sys2Proof.Machine.execSurfaceCommit m surf buf s
  | .surfaceDone port t => Sys2Proof.Machine.execSurfaceDone port t s
  | .pictureDone k t => Sys2Proof.Machine.execPictureDone k t s
  | .rxDone t => Sys2Proof.Machine.execRxDone t s
  | .directFrameStart port t => Sys2Proof.Machine.execDirectFrameStart port t s
  | .latchPoint => Sys2Proof.Machine.execLatchPoint s
  | .pushDeadline fetched => Sys2Proof.Machine.execPushDeadline fetched s
  | .presentTime => Sys2Proof.Machine.execPresentTime s
  | .pushPass ctx => Sys2Proof.Machine.execPushPass ctx s
  | .wallCommit m layers => Sys2Proof.Machine.execWallCommit m layers s
  | .present => Sys2Proof.Machine.execPresent s
  | .fenmasEnable m v => Sys2Proof.Machine.execFenmasEnable m v s
  | .beacon port t frame => Sys2Proof.Machine.execBeacon port t frame s
  | .forceLead m => Sys2Proof.Machine.execForceLead m s
  | .forceSecond m => Sys2Proof.Machine.execForceSecond m s
  | .digest port t frame => Sys2Proof.Machine.execDigest port t frame s
  | .journal port t frame => Sys2Proof.Machine.execJournal port t frame s
  | .journalSendTimer => Sys2Proof.Machine.execJournalSendTimer s
  | .calSubmit m v => Sys2Proof.Machine.execCalSubmit m v s
  | .ethernetLinkChange port up => Sys2Proof.Machine.execEthernetLinkChange port up s
  | .rxStreamEnable m r v => Sys2Proof.Machine.execRxStreamEnable m r v s
  | .txStreamEnable m t v => Sys2Proof.Machine.execTxStreamEnable m t v s
  | .mediaFrame port t frame => Sys2Proof.Machine.execMediaFrame port t frame s
  | .rxFrameDeadline r => Sys2Proof.Machine.execRxFrameDeadline r s
  | .auDeadline r => Sys2Proof.Machine.execAuDeadline r s
  | .audioBlockDecision r => Sys2Proof.Machine.execAudioBlockDecision r s
  | .txVideoFrame v => Sys2Proof.Machine.execTxVideoFrame v s
  | .txAccessUnit k => Sys2Proof.Machine.execTxAccessUnit k s
  | .txAudioPacket j => Sys2Proof.Machine.execTxAudioPacket j s
  | .ptpSync port t frac frame => Sys2Proof.Machine.execPtpSync port t frac frame s
  | .ptpFollowUp port t frac frame => Sys2Proof.Machine.execPtpFollowUp port t frac frame s
  | .ptpDelayReq port t frac frame => Sys2Proof.Machine.execPtpDelayReq port t frac frame s
  | .ptpDelayResp port t frac frame => Sys2Proof.Machine.execPtpDelayResp port t frac frame s
  | .ptpAnnounce port t frac frame => Sys2Proof.Machine.execPtpAnnounce port t frac frame s
  | .ptpIgnoredMessage port t frac frame => Sys2Proof.Machine.execPtpIgnoredMessage port t frac frame s
  | .ptpSyncInterval port t frac => Sys2Proof.Machine.execPtpSyncInterval port t frac s
  | .ptpAnnounceInterval port t => Sys2Proof.Machine.execPtpAnnounceInterval port t s
  | .ptpDelayReqInterval port t frac => Sys2Proof.Machine.execPtpDelayReqInterval port t frac s
  | .ptpSyncLoss => Sys2Proof.Machine.execPtpSyncLoss s
  | .announceReceiptTimeout port => Sys2Proof.Machine.execAnnounceReceiptTimeout port s
  | .ptpCfgWrite m reg v => Sys2Proof.Machine.execPtpCfgWrite m reg v s
  | .anchorSrcWrite m v => Sys2Proof.Machine.execAnchorSrcWrite m v s
  | .anchorNsRead m => Sys2Proof.Machine.execAnchorNsRead m s
  | .ppsEdge t frac => Sys2Proof.Machine.execPpsEdge t frac s
  | .ppsLoss => Sys2Proof.Machine.execPpsLoss s
  | .ref10Loss => Sys2Proof.Machine.execRef10Loss s
  | .ref10Restore => Sys2Proof.Machine.execRef10Restore s
  | .setTime m => Sys2Proof.Machine.execSetTime m s
  | .tsqPop m q => Sys2Proof.Machine.execTsqPop m q s
  | .txiGo m v => Sys2Proof.Machine.execTxiGo m v s
  | .txiSent t frac => Sys2Proof.Machine.execTxiSent t frac s
  | .timerEnable m t v => Sys2Proof.Machine.execTimerEnable m t v s
  | .timerFire t => Sys2Proof.Machine.execTimerFire t s
  | .pulseEnd t => Sys2Proof.Machine.execPulseEnd t s
  | .sampleFrame port t frac line => Sys2Proof.Machine.execSampleFrame port t frac line s
  | .clockLost port => Sys2Proof.Machine.execClockLost port s
  | .rateWindow port dur => Sys2Proof.Machine.execRateWindow port dur s
  | .groupEnable m g v => Sys2Proof.Machine.execGroupEnable m g v s
  | .groupDisable m g v => Sys2Proof.Machine.execGroupDisable m g v s
  | .groupOrigin g => Sys2Proof.Machine.execGroupOrigin g s
  | .groupBoundary g => Sys2Proof.Machine.execGroupBoundary g s
  | .outputBlockLeave g t => Sys2Proof.Machine.execOutputBlockLeave g t s
  | .storeEnable m v ssds lost => Sys2Proof.Machine.execStoreEnable m v ssds lost s
  | .storeFormat m v ssds lost => Sys2Proof.Machine.execStoreFormat m v ssds lost s
  | .storeDisable m v => Sys2Proof.Machine.execStoreDisable m v s
  | .memberLost slot => Sys2Proof.Machine.execMemberLost slot s
  | .clipSqTail m q v => Sys2Proof.Machine.execClipSqTail m q v s
  | .clipCqHead m q v => Sys2Proof.Machine.execClipCqHead m q v s
  | .write => Sys2Proof.Machine.execWrite s
  | .read => Sys2Proof.Machine.execRead s
  | .flush => Sys2Proof.Machine.execFlush s
  | .deallocate => Sys2Proof.Machine.execDeallocate s
  | .identify => Sys2Proof.Machine.execIdentify s
  | .getLog => Sys2Proof.Machine.execGetLog s
  | .commandComplete k errs => Sys2Proof.Machine.execCommandComplete k errs s
  | .stagingDrain count => Sys2Proof.Machine.execStagingDrain count s
  | .deferredError lba count status => Sys2Proof.Machine.execDeferredError lba count status s
  | .clipQueueEnable m q v => Sys2Proof.Machine.execClipQueueEnable m q v s
  | .clipQueueReset m q v => Sys2Proof.Machine.execClipQueueReset m q v s
  | .cs1Entry t => Sys2Proof.Machine.execCs1Entry t s
  | .cs2Entry t => Sys2Proof.Machine.execCs2Entry t s
  | .dramRequest arrivals ch sub notAllowed ecc row => Sys2Proof.Machine.execDramRequest arrivals ch sub notAllowed ecc row s
  | .agePromotion ch id => Sys2Proof.Machine.execAgePromotion ch id s
  | .eccWriteBack line => Sys2Proof.Machine.execEccWriteBack line s
  | .refresh ch => Sys2Proof.Machine.execRefresh ch s
  | .mr4Read ch hot => Sys2Proof.Machine.execMr4Read ch hot s
  | .trackerClear => Sys2Proof.Machine.execTrackerClear s
  | .zqCalibration ch => Sys2Proof.Machine.execZqCalibration ch s
  | .dqsDrift ch => Sys2Proof.Machine.execDqsDrift ch s
  | .selfRefreshEntry ch => Sys2Proof.Machine.execSelfRefreshEntry ch s
  | .patrolScrub ch found => Sys2Proof.Machine.execPatrolScrub ch found s
  | .poolAccess reqs => Sys2Proof.Machine.execPoolAccess reqs s
  | .poolWriteBack word => Sys2Proof.Machine.execPoolWriteBack word s
  | .marchGo m v => Sys2Proof.Machine.execMarchGo m v s
  | .marchStop m v => Sys2Proof.Machine.execMarchStop m v s
  | .marchSegment failRows => Sys2Proof.Machine.execMarchSegment failRows s
  | .repairFuse m v => Sys2Proof.Machine.execRepairFuse m v s
  | .regionEnable m mst rgn v => Sys2Proof.Machine.execRegionEnable m mst rgn v s
  | .registerWrite m off be v => Sys2Proof.Machine.execRegisterWrite m off be v s
  | .counterRead m off => Sys2Proof.Machine.execCounterRead m off s
  | .apertureAccess fn off acc => Sys2Proof.Machine.execApertureAccess fn off acc s
  | .configRequest fn item write => Sys2Proof.Machine.execConfigRequest fn item write s
  | .linkTraining speed width => Sys2Proof.Machine.execLinkTraining speed width s
  | .functionLevelReset fn => Sys2Proof.Machine.execFunctionLevelReset fn s
  | .d3hotExit fn => Sys2Proof.Machine.execD3hotExit fn s
  | .mboxClaim m mb => Sys2Proof.Machine.execMboxClaim m mb s
  | .mboxRelease m mb => Sys2Proof.Machine.execMboxRelease m mb s
  | .mboxSend m mb v => Sys2Proof.Machine.execMboxSend m mb v s
  | .mboxWordRead m mb n => Sys2Proof.Machine.execMboxWordRead m mb n s
  | .doorbellRing m hi v => Sys2Proof.Machine.execDoorbellRing m hi v s
  | .fwact m => Sys2Proof.Machine.execFwact m s
  | .fwReady ms => Sys2Proof.Machine.execFwReady ms s
  | .fwactTakingResume => Sys2Proof.Machine.execFwactTakingResume s
  | .fwactFallback => Sys2Proof.Machine.execFwactFallback s
  | .powerOnDetect below => Sys2Proof.Machine.execPowerOnDetect below s
  | .pwrOkBall level lowNs => Sys2Proof.Machine.execPwrOkBall level lowNs s
  | .sysRstN level lowNs => Sys2Proof.Machine.execSysRstN level lowNs s
  | .pciePerstN level lowNs => Sys2Proof.Machine.execPciePerstN level lowNs s
  | .hotReset active => Sys2Proof.Machine.execHotReset active s
  | .wdtKick m v => Sys2Proof.Machine.execWdtKick m v s
  | .wdtTimeout => Sys2Proof.Machine.execWdtTimeout s
  | .softwareReset m v => Sys2Proof.Machine.execSoftwareReset m v s
  | .episodeRelease => Sys2Proof.Machine.execEpisodeRelease s
  | .islandRelease island b => Sys2Proof.Machine.execIslandRelease island b s
  | .releaseGap => Sys2Proof.Machine.execReleaseGap s
  | .releaseStall island => Sys2Proof.Machine.execReleaseStall island s
  | .refLost => Sys2Proof.Machine.execRefLost s
  | .refResume => Sys2Proof.Machine.execRefResume s
  | .refStop => Sys2Proof.Machine.execRefStop s
  | .thermSample diodes rings => Sys2Proof.Machine.execThermSample diodes rings s
  | .thermalTrip => Sys2Proof.Machine.execThermalTrip s
  | .fusePulseEnd => Sys2Proof.Machine.execFusePulseEnd s
  | .lcAscent m => Sys2Proof.Machine.execLcAscent m s
  | .lcRescue m => Sys2Proof.Machine.execLcRescue m s
  | .lcDescent m => Sys2Proof.Machine.execLcDescent m s
  | .keyProvision m slot => Sys2Proof.Machine.execKeyProvision m slot s
  | .keyRevoke m slot => Sys2Proof.Machine.execKeyRevoke m slot s
  | .cskExport m => Sys2Proof.Machine.execCskExport m s
  | .cskImport m => Sys2Proof.Machine.execCskImport m s
  | .extest cells pins => Sys2Proof.Machine.execExtest cells pins s
  | .samplePreload cells pins => Sys2Proof.Machine.execSamplePreload cells pins s
  | .idcode => Sys2Proof.Machine.execIdcode s
  | .clamp => Sys2Proof.Machine.execClamp s
  | .highz => Sys2Proof.Machine.execHighz s
  | .bypass tdi => Sys2Proof.Machine.execBypass tdi s
  | .trstN level => Sys2Proof.Machine.execTrstN level s
  | .smbSysId => Sys2Proof.Machine.execSmbSysId s
  | .smbThermStatus => Sys2Proof.Machine.execSmbThermStatus s
  | .smbStatus => Sys2Proof.Machine.execSmbStatus s
  | .smbRstCause => Sys2Proof.Machine.execSmbRstCause s
  | .smbOtherCommand code => Sys2Proof.Machine.execSmbOtherCommand code s
  | .badHeadPacket port t pkt framed => Sys2Proof.Machine.execBadHeadPacket port t pkt framed s
  | .invalidFenmasPacket port t frame => Sys2Proof.Machine.execInvalidFenmasPacket port t frame s
  | .refusedRegisterRead m off => Sys2Proof.Machine.execRefusedRegisterRead m off s
  | .fwactHandover area => Sys2Proof.Machine.execFwactHandover area s

end Sys2Proof.Machine
end

