-- ==== Sys2Proof/Machine/Step.lean ====
section
/-! DEFINITION. One step: the command at the front of the queue takes effect; with an empty queue one ANCHOR cycle passes. -/
namespace Sys2Proof.Machine

/-- The command at the front of the queue runs with the rest left waiting. On an empty queue the device idles for one ANCHOR
cycle (R405; assumption 3). [assumptions 3, DESIGN CHOICE, 6, DESIGN CHOICE] -/
def step (s : State) : Host.Outcome State Fault Refusal :=
  match s.pending with
  | c :: rest => exec c { s with pending := rest }
  | [] => .next s.anchorCycle

/-- The state with the command that a table word spells put at the front of its queue; unchanged where it spells none.
[assumption 6, DESIGN CHOICE] -/
def State.withFetchWord (s : State) (nbits w : Nat) : State :=
  match decodeTableWord nbits w with
  | some c => { s with pending := c :: s.pending }
  | none => s

end Sys2Proof.Machine
end

