-- ==== Sys2Proof/Machine/Balls.lean ====
section
/-! DEFINITION. Chapter 15: the ball map (R556 to R560) and what the device drives on its balls in each phase (R39, R40,
R540, R568). These are views: a command changes what they show by changing the state. -/
namespace Sys2Proof.Machine

/-- What a ball is (R556). A `pol` of `false` is the P ball of a pair. -/
inductive Ball where
  /-- Signal 0–68 of a subchannel of a DDR5 channel 0–7 (A–H) (R557). -/
  | ddr (channel sub signal : Nat)
  | vddq
  | gypolRx (port lane : Nat) (pol : Bool)
  | gypolTx (port : Nat) (pol : Bool)
  | pcieRx (lane : Nat) (pol : Bool)
  | pcieTx (lane : Nat) (pol : Bool)
  | ethRx (port lane : Nat) (pol : Bool)
  | ethTx (port lane : Nat) (pol : Bool)
  | vaultRx (lane : Nat) (pol : Bool)
  | vaultTx (lane : Nat) (pol : Bool)
  | pcieRefclk (pol : Bool)
  | ethRefclk (pol : Bool)
  /-- A CMOS ball of fixed function, by its place `s` of R559. -/
  | fixed (s : Nat)
  | multi (b : MfBall)
  | vddCore | vddSram | vddSd09 | vddSd12 | vddIo18 | vss
deriving DecidableEq, Repr

/-- A ball of the DDR columns, by its channel and its place in the channel's block (R557). -/
def ddrBall (channel j c : Nat) : Ball :=
  if c = 3 then (if j % 2 = 0 then .vddq else .vss)
  else if c < 3 then .ddr channel 0 (3 * j + c)
  else .ddr channel 1 (3 * j + (c - 4))

/-- A ball of SerDes pair `p` of the top band (R558). -/
def topPair (p : Nat) (pol : Bool) : Ball :=
  if p < 24 then (if p % 3 = 2 then .gypolTx (p / 3) pol else .gypolRx (p / 3) (p % 3) pol)
  else if p < 40 then (if p % 2 = 0 then .pcieRx ((p - 24) / 2) pol else .pcieTx ((p - 24) / 2) pol)
  else .vss

/-- A ball of SerDes pair `p` of the bottom band (R558). -/
def bottomPair (p : Nat) (pol : Bool) : Ball :=
  if p < 32 then (if p % 2 = 0 then .ethRx (p / 8) (p % 8 / 2) pol else .ethTx (p / 8) (p % 8 / 2) pol)
  else if p < 48 then (if p % 2 = 0 then .vaultRx ((p - 32) / 2) pol else .vaultTx ((p - 32) / 2) pol)
  else .vss

/-- A ball of a SerDes band by its row's place among the signal rows (R558). -/
def serdesBall (rows : List Nat) (pair : Nat → Bool → Ball) (row col : Nat) : Ball :=
  match rows.findIdx? (· = row) with
  | some k => pair (9 * k + (col - 15) / 2) ((col - 15) % 2 = 1)
  | none => .vss

/-- A ball of rows 11 to 15 of columns 15 to 32 (R559). -/
def cmosBall (s : Nat) : Ball :=
  if s = 8 ∨ s = 11 ∨ s = 14 then .vss
  else if s = 9 ∨ s = 10 then .pcieRefclk (s = 10)
  else if s = 12 ∨ s = 13 then .ethRefclk (s = 13)
  else if s < 34 then .fixed s
  else if s < 66 then .multi (.gp (s - 34))
  else .multi (.audio (s - 66))

/-- A ball of rows 16 to 36 of columns 15 to 32 (R559). -/
def powerBall (row col : Nat) : Ball :=
  if 21 ≤ row ∧ row ≤ 34 then (if (col - 15) % 3 = 0 then .vss else .vddCore)
  else if col % 2 = 0 then .vss
  else if row = 16 then .vddSd09
  else if row = 17 then .vddSd12
  else if row = 18 then .vddIo18
  else .vddSram

/-- The ball at a row and column of the 46 × 46 grid (R556). [assumption 25, DEDUCED] -/
def ballAt (row col : Nat) : Ball :=
  if col ≤ 14 then
    let block := (col - 1) / 7
    ddrBall (2 * block + (row - 1) / 23) ((row - 1) % 23) ((col - 1) % 7)
  else if 33 ≤ col then
    let block := (col - 33) / 7
    ddrBall (4 + 2 * block + (row - 1) / 23) ((row - 1) % 23) ((col - 33) % 7)
  else if row ≤ 10 then serdesBall [1, 2, 4, 5, 7] topPair row col
  else if row ≤ 15 then cmosBall (18 * (row - 11) + (col - 15))
  else if row ≤ 36 then powerBall row col
  else serdesBall [38, 39, 41, 42, 44, 45] bottomPair row col

/-- The phases of R540. -/
inductive Phase where
  | wideReset | running | trip
deriving DecidableEq, Repr

/-- The phase that the device is in: a trip; a CHIP or WARM reset, and until the active image's claims apply; else running. -/
def State.phase (s : State) : Phase :=
  if s.sys.tripped then .trip
  else if s.held .pool || s.rig.active.isNone then .wideReset
  else .running

/-- What a CMOS ball shows: its reset state, output off with the weak pull-up, or what claims it (R39, R40). -/
inductive CmosState where
  | weakPullUp
  | claimed (function pull drive : Nat)
deriving DecidableEq, Repr

/-- A multi-function ball under the image's claims; a ball whose claim a change has just changed (R64), or whose island has just
been released (R540), is in its reset state, and a run-time claim holds a ball for MGT or HOST without a function (R78).
[assumption 25, DEDUCED] -/
def State.cmosState (s : State) (row col : Nat) : CmosState :=
  if s.phase ≠ .running then .weakPullUp
  else if s.rig.ballHold.any (fun h => h.1 = 256 * row + col && decide (s.real < h.2)) then .weakPullUp
  else if s.rig.claims.any (fun c => c.res = 1 && c.index = 256 * row + col) then .weakPullUp
  else
    match s.bodies.findSome? (fun r => match r with
      | .ball a b fn pad => if a = row ∧ b = col then some (fn, pad) else none
      | _ => none) with
    | some (fn, pad) => if s.held (functionIsland fn) then .weakPullUp else .claimed fn (pad % 4) (pad / 4 % 4)
    | none => .weakPullUp

/-! ## The boundary register (R574) -/

/-- Whether a ball has boundary cells: the DDR5 and CMOS balls. -/
def Ball.hasCells : Ball → Bool
  | .ddr _ _ _ | .fixed _ | .multi _ => true
  | _ => false

/-- The balls with cells, in ascending row, then column. -/
def cellBalls : List (Nat × Nat) :=
  (List.range 46).flatMap (fun r => ((List.range 46).map (fun c => (r + 1, c + 1))).filter (fun b => (ballAt b.1 b.2).hasCells))

/-- The number of a ball's input cell, counted from TDO; its output and output enable cells follow. -/
def cellOf (row col : Nat) : Option Nat := (cellBalls.findIdx? (fun b => b = (row, col))).map (fun k => 3 * k)

/-- What the test logic makes of a ball: its own function, output off, or a level driven from its output cell. -/
inductive TestDrive where
  | functional
  | off
  | level (high : Bool)
deriving DecidableEq, Repr

/-- EXTEST and CLAMP drive a ball from its cells, HIGHZ turns every output off, and the other instructions leave the ball its
function (R574). [assumption 25, DEDUCED] -/
def State.testDrive (s : State) (row col : Nat) : TestDrive :=
  match cellOf row col with
  | none => .functional
  | some k =>
    if s.jtag.highz then .off
    else if s.jtag.driving then (if s.jtag.cells.getD (k + 2) false then .level (s.jtag.cells.getD (k + 1) false) else .off)
    else .functional

/-- SYS_READY is driven low in a CHIP or WARM reset and released once it has risen (R534, R540). -/
def State.sysReadyLow (s : State) : Bool := !s.bit F.SYS_STATUS_ready

/-- ALERT_N is driven low while a reason holds (R541, R550). -/
def State.alertLow (s : State) : Bool := s.bit F.SYS_STATUS_alert_therm || s.bit F.SYS_STATUS_alert_ref

/-- THERM_TRIP_N is driven low from a trip until it is cleared (R551). -/
def State.thermTripLow (s : State) : Bool := s.sys.tripped

/-- DDR_RESET_N of a channel, driven low in a CHIP or WARM reset, under a trip and on an unconfigured channel; MEMC then
holds its configuration at the reset value or is not yet released (R563, R568). [assumption 25, DEDUCED] -/
def State.ddrResetLow (s : State) (channel : Nat) : Bool :=
  s.sys.tripped || !s.bit F.MEMC_CFG_lock || !s.bit F.MEMC_CFG_enable || decide (s.channels ≤ channel)

/-- CK of a channel is stopped in reset, under a trip and in self-refresh (R568). -/
def State.ddrClockStopped (s : State) (channel : Nat) : Bool :=
  s.ddrResetLow channel || s.held .memc || (s.chan channel).clockStopped

end Sys2Proof.Machine
end

