-- ==== Sys2Proof/Safety.lean ====
section
/-! DEFINITION. The terms in which claims about the LY9600 are made: when a register access is admitted, what a command
leaves alone, and what every step keeps. -/
namespace Sys2Proof.Machine

/-- The outcome of a command is a next state. -/
def Answers (i : Instr) (s t : State) : Prop := exec i s = .next t

/-- A register access of a master reaches its register: the master's requests are served, privilege permits it, and the
block's island answers (R499 to R501). -/
def Admitted (s : State) (m : Master) (off : Nat) : Prop := s.served m = true ∧ s.access m off = .allowed

/-- A PF1 access that R500 refuses. -/
def Violates (s : State) (m : Master) (off : Nat) : Prop := s.served m = true ∧ s.access m off = .violation

/-- The counters of packets sent: they move whenever waiting JOURNAL packets leave after a command (R354, R382). -/
def SendCounter (o : Nat) : Prop := o = R.FEN_JNL_TX ∨ (0xE8100 ≤ o ∧ o < 0xE8180)

/-- Every register outside a list of offsets reads as before, the counters of packets sent apart. -/
def RegsBut (l : List Nat) (s t : State) : Prop := ∀ o, o ∉ l → ¬ SendCounter o → t.rd o = s.rd o

/-- Every byte of every memory reads as before. -/
def SameMemory (s t : State) : Prop :=
  ∀ a, memGet t.dram a = memGet s.dram a ∧ memGet t.pool a = memGet s.pool a ∧ memGet t.sram a = memGet s.sram a
    ∧ flashGet t.flash a = flashGet s.flash a

/-- All state but registers and outputs is as before, apart from what the closing step of a command moves: strands that a
change has replaced and that are empty, JOURNAL packets that go out, and the interrupt sources delivered. -/
def Undisturbed (s t : State) : Prop :=
  t = { s with
    regs := t.regs, out := t.out
    rig := { s.rig with retiring := t.rig.retiring }
    jnl := { s.jnl with forwardQ := t.jnl.forwardQ, recent := t.jnl.recent }
    fen := { s.fen with seq := t.fen.seq, held := t.fen.held }
    host := { s.host with
      fn0 := { s.host.fn0 with pba := t.host.fn0.pba, asserted := t.host.fn0.asserted }
      fn1 := { s.host.fn1 with pba := t.host.fn1.pba, asserted := t.host.fn1.asserted }
      mgtAsserted := t.host.mgtAsserted } }

/-- The frame of a command that writes only some registers: nothing else changes. -/
def OnlyRegs (l : List Nat) (s t : State) : Prop := RegsBut l s t ∧ Undisturbed s t

/-- The frame of a command that, beside some registers, changes a part of the state that `f` puts into the old state. -/
def OnlyRegsAnd (l : List Nat) (f : State → State → State) (s t : State) : Prop :=
  RegsBut l s t ∧ Undisturbed (f t s) t

/-- A packet of a type and payload arrives whole on a Gypol port whose state receives packets: every check of R131 passes. -/
def Received (s : State) (n pt : Nat) (pkt payload : List Byte) : Prop :=
  s.runs .head = true ∧ 3 ≤ s.fld (F.HEAD_STATE_state n) ∧ s.fld (F.HEAD_STATE_state n) ≤ 5
    ∧ pkt.length = 24 + payload.length ∧ slice pkt 16 payload.length = payload ∧ beAt pkt 0 1 = pt
    ∧ crc8 (pkt.take 15) = beAt pkt 15 1 ∧ beAt pkt 10 2 = payload.length
    ∧ beAt pkt (16 + payload.length) 4 = (if payload.length = 0 then 0 else crc32c payload)
    ∧ s.packetFits n pt (beAt pkt 1 1) (beAt pkt 2 2) (beAt pkt 4 2) (beAt pkt 6 2) (beAt pkt 8 2) payload.length
        (beAt pkt 14 1 = 0 && payloadReserved pt payload) = true

/-- A PTP message of a type has left on a port with its sequence number, flags and correctionField, and `q` holds of its bytes
(R413, R416). -/
def PtpSent (s t : State) (p ty seq flags : Nat) (corr : Int) (q : List Byte → Prop) : Prop :=
  ∃ fr, .ethernet p fr ∈ t.out ∧
    let b := fr.drop (if s.fld F.ANCHOR_PTP_CFG_udp = 1 then 42 else 14)
    beAt b 0 1 = ty ∧ beAt b 6 2 = flags ∧ beAt b 8 8 = wrapTo 64 corr ∧ beAt b 20 10 = s.portId p ∧ beAt b 30 2 = seq % 65536 ∧ q b

/-- No request waits in a DRAM channel, so that an access of an engine or of the host finds nothing to wait for (R476). -/
def DramIdle (s : State) : Prop := ∀ c, (s.chan c).queue = []

/-- No request waits in a DRAM channel and no line of DRAM is poisoned (R476, R481). -/
def DramCalm (s : State) : Prop := DramIdle s ∧ s.memc.poison = []

/-- The registers in which DRAM errors are recorded (R481, R491). -/
def dramErrRegs : List Nat :=
  R.MEMC_EVT :: (List.range 8).flatMap (fun c => [R.MEMC_x_UE c, R.MEMC_x_ERR_LO c, R.MEMC_x_ERR_HI c])

/-- Every binding of the outstanding frames is made, as it is while nothing is followed and every RX_DONE has come (R316, R334). -/
def WallSettled (s : State) : Prop := ∀ f ∈ s.fclk.frames, f.openSurf = [] ∧ f.openTile = [] ∧ f.sealed = true

/-- The journal follows nothing: the unit decides everything itself (R104). -/
def Leads (s : State) : Prop := s.jnl.mode = 0 ∧ s.jnl.was.1 = 0

/-- The memories are in canonical form: addresses rise strictly and no cell holds what an unlisted address reads as. -/
def MemoriesCanonical (s : State) : Prop :=
  memWf s.dram = true ∧ memWf s.pool = true ∧ memWf s.sram = true ∧ flashWf s.flash = true

/-- Fuses are only ever programmed: the epoch never falls, and no repair that was fused is forgotten (R489, R547). -/
def FusesGrow (s t : State) : Prop :=
  min 128 s.sys.fuses.epoch ≤ t.sys.fuses.epoch ∧ s.sys.fuses.repairs <+: t.sys.fuses.repairs

/-- What is fixed in silicon: stepping, serial number and image minor version (R540). -/
def SameSilicon (s t : State) : Prop :=
  t.sys.fuses.stepLetter = s.sys.fuses.stepLetter ∧ t.sys.fuses.stepDigit = s.sys.fuses.stepDigit
    ∧ t.sys.fuses.serial = s.sys.fuses.serial ∧ t.sys.fuses.imgMinor = s.sys.fuses.imgMinor

end Sys2Proof.Machine
end

