-- ==== Sys2Proof/Certificates/Slice0/Obligations.lean ====
section
/-! DEFINITION. The obligations: what the provers are asked to show of the LY9600. Registers and fields carry the spec's names
(`R`, `F`); `Answers c s t` says that the command `c` takes the state `s` to the next state `t`. -/
open Sys2Proof Sys2Proof.Machine

/-- A step with a command at the front of the queue is the command on the state with the rest of the queue (R499, model assumption 3). -/
def Obligations.StepTakesFront : Prop :=
  ∀ (c : Instr) (q : List Instr) (s : State), step { s with pending := c :: q } = exec c { s with pending := q }

/-- With no command waiting a step is one ANCHOR cycle: while ANCHOR runs and no thermal trip holds it, time goes on by 4 ns at the local rate and no memory or queue changes (the model's choice, assumption 3) (R405, model assumption 3). -/
def Obligations.IdleStep : Prop :=
  ∀ s : State, s.pending = [] → ∃ t, step s = .next t ∧ t.pending = [] ∧ SameMemory s t ∧ s.anchorT ≤ t.anchorT ∧ s.real ≤ t.real

/-- No command stops the block, whatever its operands and whatever the state (R15, R34). -/
def Obligations.CommandsNeverStop : Prop :=
  ∀ (c : Instr) (s : State), ∃ u, Answers c s (settle u)

/-- Every step takes exactly the command at the front of the queue and leaves the others waiting in their order (R499, model assumption 3). -/
def Obligations.StepMovesQueue : Prop :=
  ∀ s t : State, step s = .next t → t.pending = s.pending.tail

/-- Every step keeps DRAM, the pool, management SRAM and boot flash in canonical form (R467, R483, R22, model assumption 5). -/
def Obligations.MemoriesCanonicalKept : Prop :=
  ∀ s t : State, MemoriesCanonical s → step s = .next t → MemoriesCanonical t

/-- No step changes what is fixed in silicon, brings the epoch back, or forgets a fused repair (R540, R547, R489). -/
def Obligations.FusesOnlyGrow : Prop :=
  ∀ s t : State, step s = .next t → SameSilicon s t ∧ FusesGrow s t

/-- What power-on reset leaves: islands held, Anchor time 0, no image, memories empty, one episode of the power-on detector (fuses and ball levels are the model's choice, assumption 4) (R22, R405, R432, R467, R483, R488, R533, R553). -/
def Obligations.ResetState : Prop :=
  MemoriesCanonical State.reset ∧ State.reset.pending = [] ∧ State.reset.anchorT = 0 ∧ State.reset.real = 0
    ∧ (∀ i, i ≠ .sys → State.reset.held i = true) ∧ State.reset.held .sys = false
    ∧ State.reset.rig.active = none ∧ State.reset.rig.slotA.st = .empty ∧ State.reset.rig.slotB.st = .empty
    ∧ State.reset.fld F.SYS_RST_COUNT_episodes = 1 ∧ State.reset.fld F.RIG_JNL_CTRL_mode = 0
    ∧ (∃ e, State.reset.sys.episode = some e ∧ e.islands = Island.releaseOrder ∧ e.sources.map (fun x => x.code) = [0])
    ∧ State.reset.fclk.mode = .ref ∧ State.reset.fld F.CLIP_STORE_STATUS_state = 0

/-- A claim on a free mailbox by a master that may send on it makes the writer the holder; any other claim, and a release by another or while the mailbox is full, changes nothing; the holder's release frees it. The holder's send of 1 to 16 words on an empty mailbox sets full, records sender and length and ends OK; a length outside 1 to 16 ends LENGTH_RANGE and a full mailbox BUSY; nobody else sends. The receiver's read of a word of a full mailbox returns it; its read of word len - 1 clears full, releases the claim and, with notify, sets emptied for the sender; the holder reads back its words of an empty mailbox; any other read returns 0. A ring by anyone sets the pending bits written 1, and only those; a write of the pending register clears the bits written 1 whose doorbells target the writer, and no others (R512, R513). -/
def Obligations.Mailboxes : Prop :=
  (∀ (m : Master) (mb : Nat) (s : State), mb < 32 → Admitted s m (R.MBOX_CLAIM mb) →
    (∃ t, Answers (.mboxClaim m mb) s t ∧ OnlyRegs [R.MBOX_STATUS mb] s t ∧
      t.fld (F.MBOX_STATUS_holder mb) =
        if mboxSender m mb = true ∧ s.fld (F.MBOX_STATUS_holder mb) = 0 then masterCode m else s.fld (F.MBOX_STATUS_holder mb))
    ∧ (∃ t, Answers (.mboxRelease m mb) s t ∧ OnlyRegs [R.MBOX_STATUS mb] s t ∧
      t.fld (F.MBOX_STATUS_holder mb) =
        if s.fld (F.MBOX_STATUS_holder mb) = masterCode m ∧ s.fld (F.MBOX_STATUS_full mb) = 0 then 0
        else s.fld (F.MBOX_STATUS_holder mb)))
  ∧ (∀ (m : Master) (mb : Nat) (v : Word) (s : State), mb < 32 → Admitted s m (R.MBOX_CTRL mb) →
    ∃ t, Answers (.mboxSend m mb v) s t ∧ OnlyRegs [R.MBOX_STATUS mb, R.MBOX_CTRL mb] s t ∧
      (if s.fld (F.MBOX_STATUS_holder mb) ≠ masterCode m then
        t.fld (F.MBOX_STATUS_result mb) = 3 ∧ t.fld (F.MBOX_STATUS_full mb) = s.fld (F.MBOX_STATUS_full mb)
      else if bitsOf v.toNat 4 0 < 1 ∨ 16 < bitsOf v.toNat 4 0 then
        t.fld (F.MBOX_STATUS_result mb) = 2 ∧ t.fld (F.MBOX_STATUS_full mb) = s.fld (F.MBOX_STATUS_full mb)
      else if s.fld (F.MBOX_STATUS_full mb) = 1 then
        t.fld (F.MBOX_STATUS_result mb) = 1 ∧ t.fld (F.MBOX_STATUS_full mb) = 1
      else
        t.fld (F.MBOX_STATUS_result mb) = 0 ∧ t.fld (F.MBOX_STATUS_full mb) = 1
          ∧ t.fld (F.MBOX_STATUS_sender mb) = masterCode m ∧ t.fld (F.MBOX_STATUS_msg_len mb) = bitsOf v.toNat 4 0))
  ∧ (∀ (m : Master) (mb n : Nat) (s : State), mb < 32 → n < 16 → Admitted s m (R.MBOX_W mb n) →
    ∃ t, Answers (.mboxWordRead m mb n) s t ∧ RegsBut [R.MBOX_STATUS mb] s t ∧ SameMemory s t ∧
      (if s.fld (F.MBOX_STATUS_full mb) = 1 ∧ mboxReads m mb = true then
        .readData m (R.MBOX_W mb n) (s.rd (R.MBOX_W mb n)) ∈ t.out ∧
        (if n + 1 = s.fld (F.MBOX_STATUS_msg_len mb) then
          t.fld (F.MBOX_STATUS_full mb) = 0 ∧ t.fld (F.MBOX_STATUS_holder mb) = 0 ∧
          (s.fld (F.MBOX_CTRL_notify mb) = 1 →
            t.fld (F.MBOX_STATUS_emptied mb) = 1 ∧ mapGet 0 t.mbox.emptiedFor mb = s.fld (F.MBOX_STATUS_sender mb))
        else OnlyRegs [] s t)
      else if s.fld (F.MBOX_STATUS_full mb) = 0 ∧ s.fld (F.MBOX_STATUS_holder mb) = masterCode m then
        .readData m (R.MBOX_W mb n) (s.rd (R.MBOX_W mb n)) ∈ t.out ∧ OnlyRegs [] s t
      else .readData m (R.MBOX_W mb n) 0 ∈ t.out ∧ OnlyRegs [] s t))
  ∧ (∀ (m : Master) (hi : Bool) (v : Word) (s : State), s.rd (dbPend hi) < 2 ^ 32 →
    (Admitted s m (R.MBOX_DB_RING (if hi then 1 else 0)) → ∃ t, Answers (.doorbellRing m hi v) s t ∧ OnlyRegs [dbPend hi] s t ∧
      ∀ k, k < 32 → (t.rd (dbPend hi)).testBit k = ((s.rd (dbPend hi)).testBit k || v.getLsbD k))
    ∧ (Admitted s m (dbPend hi) → ∃ t, Answers (.registerWrite m (dbPend hi) 15 v) s t ∧ OnlyRegs [dbPend hi] s t ∧
      ∀ k, k < 32 → (t.rd (dbPend hi)).testBit k
        = ((s.rd (dbPend hi)).testBit k && !(v.getLsbD k && (
            let d := if hi then 32 + k else k
            match m with
            | .mgt => decide (d < 32)
            | .pf0 => decide (32 ≤ d) && decide (d < 48)
            | .pf1 => decide (48 ≤ d))))))

/-- A whole write of a register of MEMC, POOL's error block or HOST that has no rule of its own leaves what its access codes say; a write with some byte enables clear is dropped and counted; a read of a counter returns it and clears its RC bits (the places are the model's reading of the maps) (R19, R498). -/
def Obligations.RegisterAccess : Prop :=
  (∀ (m : Master) (off : Nat) (v : Word) (r : RegRow) (s : State), 0x3C0000 ≤ off → off < 0x3E0000 → off % 4 = 0 →
    Admitted s m off → regRow off = some r →
    ∃ t, Answers (.registerWrite m off 15 v) s t ∧ RegsBut [off] s t ∧ SameMemory s t
      ∧ t.rd off = writeValue r (s.rd off) v.toNat % 2 ^ 32)
  ∧ (∀ (m : Master) (off be : Nat) (v : Word) (s : State), s.served m = true → be < 15 →
    ∃ t, Answers (.registerWrite m off be v) s t ∧ OnlyRegs [R.HOST_ACC_BAD] s t
      ∧ t.fld F.HOST_ACC_BAD_count = min (s.fld F.HOST_ACC_BAD_count + 1) (2 ^ 32 - 1))
  ∧ (∀ (m : Master) (s : State), Admitted s m R.HOST_ACC_BAD →
    ∃ t, Answers (.counterRead m R.HOST_ACC_BAD) s t ∧ OnlyRegs [R.HOST_ACC_BAD] s t
      ∧ .readData m R.HOST_ACC_BAD (s.rd R.HOST_ACC_BAD) ∈ t.out ∧ t.rd R.HOST_ACC_BAD = 0)

/-- A PF1 access to a privileged register returns 0 or is dropped, counts one violation, records offset and direction, sets HOST_EVT.viol and does nothing else; a privileged read of the count clears the record. A read of a block whose island does not answer ends with Completer Abort, counts one dead access and records it (R500, R501). -/
def Obligations.RefusedAccesses : Prop :=
  ((∀ (m : Master) (off : Nat) (s : State), Violates s m (off % 2 ^ 24 / 4 * 4) →
    ∃ t, Answers (.refusedRegisterRead m off) s t ∧ .readData m (off % 2 ^ 24 / 4 * 4) 0 ∈ t.out
      ∧ OnlyRegs [R.HOST_VIOL_COUNT, R.HOST_VIOL_INFO, R.HOST_EVT] s t
      ∧ t.fld F.HOST_VIOL_COUNT_count = min (s.fld F.HOST_VIOL_COUNT_count + 1) (2 ^ 32 - 1)
      ∧ t.fld F.HOST_VIOL_INFO_offset = off % 2 ^ 24 / 4 * 4 ∧ t.fld F.HOST_VIOL_INFO_write = 0 ∧ t.fld F.HOST_EVT_viol = 1)
  ∧ (∀ (m : Master) (off : Nat) (v : Word) (s : State), Violates s m (off % 2 ^ 24 / 4 * 4) →
    ∃ t, Answers (.registerWrite m off 15 v) s t
      ∧ OnlyRegs [R.HOST_VIOL_COUNT, R.HOST_VIOL_INFO, R.HOST_EVT] s t
      ∧ t.fld F.HOST_VIOL_COUNT_count = min (s.fld F.HOST_VIOL_COUNT_count + 1) (2 ^ 32 - 1)
      ∧ t.fld F.HOST_VIOL_INFO_offset = off % 2 ^ 24 / 4 * 4 ∧ t.fld F.HOST_VIOL_INFO_write = 1 ∧ t.fld F.HOST_EVT_viol = 1)
  ∧ (∀ (m : Master) (s : State), Admitted s m R.HOST_VIOL_COUNT →
    ∃ t, Answers (.counterRead m R.HOST_VIOL_COUNT) s t ∧ OnlyRegs [R.HOST_VIOL_COUNT, R.HOST_VIOL_INFO] s t
      ∧ .readData m R.HOST_VIOL_COUNT (s.rd R.HOST_VIOL_COUNT) ∈ t.out
      ∧ t.rd R.HOST_VIOL_COUNT = 0 ∧ t.rd R.HOST_VIOL_INFO = 0))
  ∧ (∀ (m : Master) (off : Nat) (i : Island) (s : State), s.served m = true → s.access m (off % 2 ^ 24 / 4 * 4) = .dead i →
    ∃ t, Answers (.refusedRegisterRead m off) s t ∧ .abort m (off % 2 ^ 24 / 4 * 4) ∈ t.out
      ∧ OnlyRegs [R.HOST_DEAD_COUNT, R.HOST_DEAD_INFO, R.HOST_EVT] s t
      ∧ t.fld F.HOST_DEAD_COUNT_count = min (s.fld F.HOST_DEAD_COUNT_count + 1) (2 ^ 32 - 1)
      ∧ t.fld F.HOST_DEAD_INFO_offset = off % 2 ^ 24 / 4 * 4 ∧ t.fld F.HOST_DEAD_INFO_bar = 0
      ∧ t.fld F.HOST_DEAD_INFO_write = 0 ∧ t.fld F.HOST_DEAD_INFO_island = i.code ∧ t.fld F.HOST_EVT_dead = 1)

/-- A BAR4 write wholly inside regions with bar4 stores its bytes at base plus offset and no others; a read returns the bytes, with EP set where a line is poisoned; outside, a read returns zeros with a successful completion and a write is dropped, each counted; a write of the base register sets the base in GiB for the accesses that follow (R502). Requests that wait for the same lines issue first (R476), which `dramTurn` says; with none waiting no other byte or register changes. -/
def Obligations.ApertureAccess : Prop :=
  ∀ (fn off : Nat) (s : State), fn < 2 → s.served (if fn = 1 then .pf1 else .pf0) = true → s.fld F.MEMC_STATUS_ready = 1 →
    let a := s.fld (if fn = 1 then F.HOST_AP1_BASE_base_gib else F.HOST_AP0_BASE_base_gib) * 2 ^ 30 + off % 2 ^ 36
    (∀ d : List Byte, ∃ t, Answers (.apertureAccess fn off (.write d false)) s t ∧
      (if s.bar4Covers a d.length = true then
        RegsBut dramErrRegs s t ∧ (∀ i (h : i < d.length), memGet t.dram (a + i) = d[i])
          ∧ (∀ b, b < a ∨ a + d.length ≤ b → memGet t.dram b = memGet (s.dramTurn a d.length).dram b) ∧ t.pool = s.pool
          ∧ (DramIdle s → (s.memc.poison = [] → RegsBut [] s t)
            ∧ ∀ b, b < a ∨ a + d.length ≤ b → memGet t.dram b = memGet s.dram b)
      else OnlyRegs [R.HOST_AP_VIOL] s t ∧ t.fld F.HOST_AP_VIOL_count = min (s.fld F.HOST_AP_VIOL_count + 1) (2 ^ 32 - 1)))
    ∧ (∀ n : Nat, let u := s.dramTurn a n
      ∃ t, Answers (.apertureAccess fn off (.read n)) s t ∧
      (if s.bar4Covers a n = true then
        .apertureData fn (u.dramRead a n) (u.dramPoisoned a n) ∈ t.out ∧ t.isl = s.isl ∧ t.pool = s.pool ∧ t.dram = u.dram
        ∧ RegsBut (R.HOST_POISON :: dramErrRegs) s t
        ∧ (u.dramPoisoned a n = true → t.fld F.HOST_POISON_count = min (s.fld F.HOST_POISON_count + 1) (2 ^ 32 - 1))
        ∧ (DramIdle s → t.dram = s.dram ∧ u.dramPoisoned a n = s.dramPoisoned a n
          ∧ (s.dramPoisoned a n = false → OnlyRegsAnd [] (fun t s => { s with memc := t.memc }) s t))
      else .apertureData fn (zeroBytes n) false ∈ t.out ∧ OnlyRegs [R.HOST_AP_VIOL] s t
        ∧ t.fld F.HOST_AP_VIOL_count = min (s.fld F.HOST_AP_VIOL_count + 1) (2 ^ 32 - 1)))
    ∧ (∀ (m : Master) (v : Word), Admitted s m (if fn = 1 then R.HOST_AP1_BASE else R.HOST_AP0_BASE) →
      ∃ t, Answers (.registerWrite m (if fn = 1 then R.HOST_AP1_BASE else R.HOST_AP0_BASE) 15 v) s t
        ∧ t.fld (if fn = 1 then F.HOST_AP1_BASE_base_gib else F.HOST_AP0_BASE_base_gib) = v.toNat % 256
        ∧ OnlyRegs [if fn = 1 then R.HOST_AP1_BASE else R.HOST_AP0_BASE] s t)

/-- A function-level reset, and the return from D3hot, reset the function's configuration, MSI-X table and aperture base, empty its mailboxes, release its claims and clear its doorbells, and leave every island and the other function alone (R505). -/
def Obligations.FunctionReset : Prop :=
  ∀ (fn : Nat) (s : State), fn < 2 → s.runs .host = true → ∀ c : Instr,
    (c = .functionLevelReset fn ∨ (c = .d3hotExit fn ∧ (s.pcie fn).d3hot = true)) →
    ∃ t, Answers c s t ∧ (t.pcie fn).busMaster = false ∧ (t.pcie fn).msixEnable = false ∧ (t.pcie fn).d3hot = false
      ∧ (t.pcie fn).bar0 = 0 ∧ (t.pcie fn).bar2 = 0 ∧ (t.pcie fn).bar4 = 0 ∧ (t.pcie fn).table = []
      ∧ t.rd (if fn = 1 then R.HOST_AP1_BASE else R.HOST_AP0_BASE) = 0
      ∧ (t.pcie (1 - fn)).busMaster = (s.pcie (1 - fn)).busMaster ∧ (t.pcie (1 - fn)).table = (s.pcie (1 - fn)).table
      ∧ t.isl = s.isl
      ∧ (s.runs .mgt = true →
        (∀ mb, mb < 32 → mboxReceiver mb = (if fn = 1 then .pf1 else .pf0) →
          t.fld (F.MBOX_STATUS_full mb) = 0 ∧ t.fld (F.MBOX_STATUS_flushed mb) = 1)
        ∧ (∀ mb, mb < 32 → s.fld (F.MBOX_STATUS_holder mb) = fn + 1 → t.fld (F.MBOX_STATUS_holder mb) = 0)
        ∧ ∀ k, 32 ≤ k → k < 64 → doorbellTarget k = (if fn = 1 then .pf1 else .pf0) →
          (t.rd (R.MBOX_DB_PEND 1)).testBit (k - 32) = false)

/-- A configuration request meets Request Retry Status while HOST is in reset; afterwards a read returns the item and a write of Bus Master Enable or of D3hot takes it; link training shows speed and width while the link is not held in reset (R494, R495, R507). -/
def Obligations.ConfigurationAndLink : Prop :=
  (∀ (fn : Nat) (it : CfgItem) (w : Option Nat) (s : State), fn < 2 → s.held .host = true →
    ∃ t, Answers (.configRequest fn it w) s t ∧ .retryStatus fn ∈ t.out ∧ OnlyRegs [] s t)
  ∧ (∀ (fn : Nat) (it : CfgItem) (s : State), fn < 2 → s.held .host = false →
    ∃ t, Answers (.configRequest fn it none) s t ∧ .config fn (s.configRead fn it) ∈ t.out ∧ OnlyRegs [] s t)
  ∧ (∀ (fn v : Nat) (s : State), fn < 2 → s.held .host = false →
    (∃ t, Answers (.configRequest fn .busMaster (some v)) s t ∧ (t.pcie fn).busMaster = decide (v % 2 = 1) ∧ RegsBut [] s t)
    ∧ ∃ t, Answers (.configRequest fn .powerState (some 3)) s t ∧ (t.pcie fn).d3hot = true ∧ RegsBut [] s t)
  ∧ (∀ (speed width : Nat) (s : State), s.sys.perstN = true → s.sys.tripped = false → 1 ≤ speed → speed ≤ 5 →
      width ∈ [1, 2, 4, 8] →
    ∃ t, Answers (.linkTraining speed width) s t ∧ t.fld F.HOST_LINK_speed = speed ∧ t.fld F.HOST_LINK_width = width
      ∧ RegsBut [R.HOST_LINK] s t ∧ SameMemory s t)

/-- An accepted go holds taking and gives notice; the handover keeps 64 KiB at the top of SRAM and zeroes the rest; ready ends it DONE with the hold recorded; 50 ms resumes taking; 500 ms falls back with the handover area kept (R515, R516, R517). -/
def Obligations.FirmwareActivation : Prop :=
  (∀ (m : Master) (s : State), Admitted s m R.MBOX_FWACT_CTRL → s.fld F.MBOX_FWACT_STATUS_state = 0 →
    let len := s.fld F.MBOX_FWACT_LEN_len
    let pkg := s.poolRead (s.rd R.MBOX_FWACT_SRC) len
    let code :=
      if s.sys.fuses.lcState = 3 then 8
      else if len % 8 ≠ 0 ∨ len < 4096 ∨ 1048576 < len
        ∨ s.banksOwned (s.rd R.MBOX_FWACT_SRC) len (fun o => o = 2 || o = 5) = false then 5
      else if ((s.verifyKey (Config.packageKeyIndex pkg)).any (fun k => Config.packageSigned k pkg)) = false then 6
      else if s.stepping < Config.packageStepMin pkg ∨ Config.packageStepMax pkg < s.stepping then 7
      else 2
    ∃ t, Answers (.fwact m) s t ∧ t.fld F.MBOX_FWACT_STATUS_state = code ∧ SameMemory s t
      ∧ RegsBut [R.MBOX_FWACT_STATUS, R.HOST_EVT] s t
      ∧ (code = 2 → t.takingHeld = true ∧ .fwNotice ∈ t.out) ∧ (code ≠ 2 → t.fld F.HOST_EVT_fwact = 1))
  ∧ (∀ (area : List Byte) (f : Fwact) (s : State), area.length = 65536 → s.mbox.fwact = some f → f.starting = false →
    ∃ t, Answers (.fwactHandover area) s t ∧ t.fld F.MBOX_FWACT_STATUS_state = 3
      ∧ (∀ i (h : i < area.length), memGet t.sram (0x1F0000 + i) = area[i])
      ∧ (∀ b, b < 0x1F0000 → memGet t.sram b = 0) ∧ t.dram = s.dram ∧ t.pool = s.pool)
  ∧ (∀ (ms : Nat) (f : Fwact) (s : State), s.mbox.fwact = some f → f.starting = true → ms < 65536 →
    ∃ t, Answers (.fwReady ms) s t ∧ t.fld F.MBOX_FWACT_STATUS_state = 4 ∧ t.fld F.MBOX_FWACT_STATUS_hold_ms = ms
      ∧ t.mbox.fwact = none ∧ t.takingHeld = false ∧ t.fld F.HOST_EVT_fwact = 1)
  ∧ (∀ (f : Fwact) (s : State), s.mbox.fwact = some f →
    (∃ t, Answers .fwactTakingResume s t ∧ t.takingHeld = false ∧ t.mbox.fwact.isSome = true ∧ RegsBut [] s t ∧ SameMemory s t)
    ∧ ∃ t, Answers .fwactFallback s t ∧ t.fld F.MBOX_FWACT_STATUS_state = 9 ∧ t.mbox.fwact = none
      ∧ t.fld F.HOST_EVT_fwact = 1 ∧ (∀ b, b < 0x1F0000 → memGet t.sram b = 0)
      ∧ ∀ b, 0x1F0000 ≤ b → b < 0x200000 → memGet t.sram b = memGet s.sram b)

/-- Every reset source that asserts outside a fuse pulse opens or joins an episode with its code, reach and target, and every island of the episode is then in reset; an episode that it opens is counted (R525, R526, R527, R528, R529, R532). -/
def Obligations.SourceAsserts : Prop :=
  ∀ (c : Instr) (code reach target : Nat) (s : State), s.sys.fuseSeqs = [] →
    ((c = .powerOnDetect true ∧ code = 0 ∧ reach = 5 ∧ target = 0)
      ∨ (∃ low, 3000 ≤ low ∧ c = .pwrOkBall false low ∧ code = 1 ∧ reach = 5 ∧ target = 0)
      ∨ (∃ low, 3000 ≤ low ∧ c = .sysRstN false low ∧ code = 2 ∧ reach = 4 ∧ target = 0)
      ∨ (∃ low, 3000 ≤ low ∧ s.held .host = false ∧ c = .pciePerstN false low ∧ code = 3
          ∧ reach = s.perstReach.1 ∧ target = s.perstReach.2.1)
      ∨ (s.held .host = false ∧ c = .hotReset true ∧ code = 3 ∧ reach = s.perstReach.1 ∧ target = s.perstReach.2.1)
      ∨ (s.fld F.SYS_WDT_CTRL_enable = 1 ∧ s.runs .mgt = true ∧ s.mbox.fwact = none ∧ c = .wdtTimeout ∧ code = 4 ∧ reach = 4
          ∧ target = 0)
      ∨ (∃ m v, Admitted s m R.SYS_RST_CTRL ∧ c = .softwareReset m v ∧ code = 5
          ∧ reach = bitsOf v.toNat 2 0 ∧ target = bitsOf v.toNat 15 8
          ∧ ((reach = 1 ∧ target < 2) ∨ (reach = 2 ∧ 1 ≤ target ∧ target < 14) ∨ (reach = 3 ∧ s.group target ≠ [])
            ∨ reach = 4 ∨ reach = 5))) →
    ∃ t e, Answers c s t ∧ t.sys.episode = some e
      ∧ (∃ x ∈ e.sources, x.code = code ∧ x.reach = reach ∧ x.target = target)
      ∧ (∀ i ∈ e.islands, t.held i = true)
      ∧ (code ≠ 0 → s.sys.episode = none →
        t.fld F.SYS_RST_COUNT_episodes = min (s.fld F.SYS_RST_COUNT_episodes + 1) (2 ^ 32 - 1)
          ∧ t.fld F.SYS_RST_CAUSE_reach = reach ∧ t.fld F.SYS_RST_CAUSE_source = code)

/-- A reset of WARM or CHIP reach while the episode was narrower leaves no image, no change and no pending load, and every island with registers returns to reset values (R524, R536). -/
def Obligations.WideResetWipes : Prop :=
  ∀ (s : State), s.sys.fuseSeqs = [] → s.sys.episode = none → ∀ low, 3000 ≤ low →
    ∃ t, Answers (.sysRstN false low) s t ∧ t.rig.active = none ∧ t.rig.change = none ∧ t.rig.load = none
      ∧ t.rig.slotA = ⟨.empty, none⟩ ∧ t.rig.slotB = ⟨.empty, none⟩ ∧ t.sram = [] ∧ t.cam.ctxs = [] ∧ t.raw = [] ∧ t.hevc.ses = []
      ∧ (∀ i, i ≠ .sys → t.held i = true) ∧ t.fld F.SYS_STATUS_ready = 0
      ∧ (∀ o, 0x40000 ≤ o → o < 0x80000 → t.rd o = regReset o)

/-- When the condition of a source has ended it no longer asserts, and the islands stay as they are (R525, R526). -/
def Obligations.SourcesEnd : Prop :=
  ∀ (c : Instr) (code : Nat) (e : Episode) (s : State), s.sys.episode = some e →
    ((c = .powerOnDetect false ∧ code = 0) ∨ (∃ low, c = .pwrOkBall true low ∧ code = 1)
      ∨ (∃ low, c = .sysRstN true low ∧ code = 2)
      ∨ (∃ low, s.sys.linkHold = false ∧ s.sys.hotReset = false ∧ c = .pciePerstN true low ∧ code = 3)
      ∨ (s.sys.hotReset = true ∧ s.sys.perstN = true ∧ c = .hotReset false ∧ code = 3)) →
    ∃ t e', Answers c s t ∧ t.sys.episode = some e' ∧ (∀ x ∈ e'.sources, x.code = code → x.asserted = false)
      ∧ e'.sources.map (fun x => x.code) = e.sources.map (fun x => x.code) ∧ t.isl = s.isl ∧ RegsBut [] s t ∧ SameMemory s t

/-- Once every source has released, the release sequence starts over the islands of the episode, without those before the first that is to be released, or, with ANCHOR, MGT, MEMC, POOL and HOST not among them, without any that is not to be released; where none is left the episode ends; a CHIP release samples the strap (R530, R533, R534). -/
def Obligations.EpisodeRelease : Prop :=
  ∀ (e : Episode) (s : State), s.sys.episode = some e → e.release = none → (∀ x ∈ e.sources, x.asserted = false) →
    s.sys.tripped = false →
    let l := if e.islands.all (fun i => decide (5 < i.code)) then e.islands.filter s.mayRelease
      else e.islands.dropWhile (fun i => !s.mayRelease i)
    ∃ t, Answers .episodeRelease s t ∧ t.isl = s.isl ∧ SameMemory s t
      ∧ (e.reach = 5 → t.sys.strap = s.sys.strapPin)
      ∧ t.sys.episode = (if l = [] then none else some { e with release := some l })

/-- An island due in the release sequence, with no preset waiting, leaves reset with its clock at its target; the gap counts its reference cycles; a stall holds the island and reports it (R533, R538, R539). -/
def Obligations.IslandRelease : Prop :=
  (∀ (k : Nat) (i : Island) (b : BootIn) (e : Episode) (l : List Island) (s : State), islandOf k = some i →
    i ≠ .memc → i ≠ .pool → s.sys.tripped = false → s.rig.presets = [] → s.startsNow i = false →
    s.sys.episode = some e → e.release = some l → s.releaseDue l i = true →
    ∃ t, Answers (.islandRelease k b) s t ∧ t.held i = false ∧ (t.island i).clkMhz = s.targetMhz i
      ∧ (∀ j, j ≠ i → t.held j = s.held j) ∧ t.dram = s.dram ∧ t.pool = s.pool)
  ∧ (∀ (i : Island) (l : List Island) (e : Episode) (s : State), s.sys.episode = some e → e.release = some (i :: l) → i ≠ .sys →
    s.sys.strap = false → (s.island i).gapDone = false → s.sys.tripped = false →
    ∃ t, Answers .releaseGap s t ∧ (t.island i).gapDone = true ∧ (t.island i).clkGood = true
      ∧ t.real = s.real + s.sys.fuses.rstGap * 40 ∧ RegsBut [] s t ∧ SameMemory s t)
  ∧ (∀ (k : Nat) (i : Island) (e : Episode) (l : List Island) (s : State), islandOf k = some i → i ≠ .sys → s.sys.tripped = false →
    s.sys.episode = some e → e.release = some l → s.releaseDue l i = true →
    ∃ t, Answers (.releaseStall k) s t ∧ t.held i = true ∧ (t.island i).stall = true ∧ t.fld F.SYS_EVT_release_stall = 1
      ∧ SameMemory s t)

/-- A watchdog kick restarts an enabled watchdog and does nothing to one that is off; a thermal trip is latched, stops every island but SYS and takes the host link down; loss of the reference is shown, its return within 100 ms is a glitch, and 100 ms without it stops Fenmas and asserts ALERT_N (R527, R551, R541). -/
def Obligations.BoardEvents : Prop :=
  (∀ (m : Master) (v : Word) (s : State), Admitted s m R.SYS_WDT_KICK →
    ∃ t, Answers (.wdtKick m v) s t ∧ RegsBut [] s t ∧ SameMemory s t
      ∧ t.sys = { s.sys with wdtKickAt := if s.fld F.SYS_WDT_CTRL_enable = 1 then s.real else s.sys.wdtKickAt })
  ∧ (∀ s : State, ∃ t, Answers .thermalTrip s t ∧ t.sys.tripped = true ∧ (∀ i, i ≠ .sys → t.held i = true)
    ∧ t.thermTripLow = true ∧ RegsBut [R.HOST_LINK] s t ∧ SameMemory s t)
  ∧ ((∀ s : State, s.sysDown = false → s.fld F.SYS_STATUS_ref_lost = 0 →
    ∃ t, Answers .refLost s t ∧ t.fld F.SYS_STATUS_ref_lost = 1 ∧ t.sys.refLostAt = some s.real
      ∧ RegsBut [R.SYS_STATUS] s t ∧ SameMemory s t)
  ∧ (∀ (n : Nat) (s : State), s.fld F.SYS_STATUS_ref_lost = 1 → s.sys.refLostAt = some n →
    (∃ t, Answers .refResume s t ∧ t.fld F.SYS_STATUS_ref_lost = 0 ∧ t.fld F.SYS_EVT_ref_glitch = 1 ∧ t.sys.refLostAt = none
      ∧ RegsBut [R.SYS_STATUS, R.SYS_EVT] s t ∧ SameMemory s t)
    ∧ ∃ t, Answers .refStop s t ∧ t.sys.refStopped = true ∧ t.fenOn = false ∧ t.fld F.SYS_STATUS_alert_ref = 1
      ∧ t.alertLow = true ∧ t.fld F.SYS_EVT_ref_stop = 1 ∧ t.fld F.SYS_STATUS_ref_lost = 1
      ∧ RegsBut [R.SYS_STATUS, R.SYS_EVT] s t ∧ SameMemory s t))

/-- A sample with sixteen valid diodes takes T as the highest reading; the level that results has risen to every threshold that T reaches and fallen from every one that T is more than 3 degrees below (R549, R550). -/
def Obligations.ThermalSample : Prop :=
  ∀ (d r : List Int) (T : Int) (s : State), d.length = 16 → r.length = 4 → (∀ x ∈ d, -55 ≤ x ∧ x ≤ 150) →
    T ∈ d → (∀ x ∈ d, x ≤ T) → s.sysDown = false → 60 ≤ s.fld F.SYS_THERM_CFG_warn → s.fld F.SYS_THERM_CFG_warn ≤ 100 →
    80 ≤ s.fld F.SYS_THERM_CFG_thr → s.fld F.SYS_THERM_CFG_thr ≤ 110 →
    let thr : Int := s.fld F.SYS_THERM_CFG_thr
    let was := s.fld F.SYS_THERM_STATUS_level
    ∃ t, Answers (.thermSample d r) s t ∧ t.sys.faultyDiodes = [] ∧ t.fld F.SYS_THERM_STATUS_ring_only = 0
      ∧ t.fld F.SYS_THERM_STATUS_t = wrapTo 8 (min 127 T) ∧ SameMemory s t
      ∧ ((s.fld F.SYS_THERM_CFG_warn : Int) ≤ T → t.fld F.SYS_EVT_warn = 1 ∧ t.fld F.SYS_STATUS_alert_therm = 1)
      ∧ (T < (s.fld F.SYS_THERM_CFG_warn : Int) - 3 → t.fld F.SYS_STATUS_alert_therm = 0)
      ∧ (was < t.fld F.SYS_THERM_STATUS_level → thr + 2 * ((t.fld F.SYS_THERM_STATUS_level : Int) - 1) ≤ T)
      ∧ (t.fld F.SYS_THERM_STATUS_level < was → T < thr + 2 * (t.fld F.SYS_THERM_STATUS_level : Int) - 3)
      ∧ (t.fld F.SYS_THERM_STATUS_level = 7 ∨ T < thr + 2 * (t.fld F.SYS_THERM_STATUS_level : Int))
      ∧ (t.fld F.SYS_THERM_STATUS_level = 0 ∨ thr + 2 * ((t.fld F.SYS_THERM_STATUS_level : Int) - 1) - 3 ≤ T)

/-- The end of a pulse programs that pulse and no other: an epoch pulse advances the epoch by one, a key pulse sets its slot, a life-cycle pulse the state; while more pulses follow fuse_busy stays set (R531, R543, R546, R547). -/
def Obligations.FusePulses : Prop :=
  ∀ (p q : FusePulse) (ps : List FusePulse) (e : FuseEnd) (rest : List (List FusePulse × FuseEnd)) (s : State),
    s.sys.fuseSeqs = (p :: q :: ps, e) :: rest → s.sys.heldOff = [] →
    ∃ t, Answers .fusePulseEnd s t ∧ RegsBut [R.SYS_STATUS] s t ∧ SameMemory s t
      ∧ t.fld F.SYS_STATUS_fuse_busy = 1 ∧ t.sys.fuseSeqs = (q :: ps, e) :: rest
      ∧ (p = .epoch → t.sys.fuses = { s.sys.fuses with epoch := min 128 (s.sys.fuses.epoch + 1) })
      ∧ (∀ n, p = .lcState n → t.sys.fuses = { s.sys.fuses with lcState := n })
      ∧ (∀ k st x, p = .keyState k st → s.sys.fuses.keys[k]? = some x → t.sys.fuses.keys[k]? = some { x with st := st })
      ∧ (∀ b rows, p = .repair b rows → t.sys.fuses.repairs = s.sys.fuses.repairs ++ [(b, rows)])

/-- A life-cycle request that is permitted is accepted and its pulses begin: one epoch and the new state, or for DESCENT every epoch left; one that is not ends with its status and programs nothing; a rescue draws a new nonce either way (R543, R544). -/
def Obligations.LifeCycleRequests : Prop :=
  ∀ (m : Master) (c : Instr) (want : Nat) (s : State), Admitted s m R.SYS_LC_CTRL → s.fld F.SYS_LC_STATUS_state ≠ 1 →
    ((c = .lcAscent m ∧ want = 1) ∨ (c = .lcRescue m ∧ want = 2) ∨ (c = .lcDescent m ∧ want = 3)) →
    let s' := s.regWrite R.SYS_LC_CTRL (2 ^ 31 + want)
    ∃ t, Answers c s t ∧ t.sys.fuses = s.sys.fuses ∧ t.isl = s.isl
      ∧ (∀ why, s'.lcRefusal want = some why → t.fld F.SYS_LC_STATUS_state = why ∧ t.sys.fuseSeqs = s.sys.fuseSeqs)
      ∧ (s'.lcRefusal want = none → t.fld F.SYS_LC_STATUS_state = 1 ∧ t.fld F.SYS_STATUS_fuse_busy = 1 ∧
        t.sys.fuseSeqs = s.sys.fuseSeqs ++ [(List.replicate (if want = 3 then 128 - s.sys.fuses.epoch
          else min 1 (128 - s.sys.fuses.epoch)) FusePulse.epoch ++ [.lcState want], .lifeCycle)])
      ∧ (want = 2 → t.sys.nonce = Config.freeValue s.freeCtr % 2 ^ 128)

/-- A key is provisioned only in BASECAMP into an unprovisioned slot, from the bytes at SYS_KEY_SRC; a slot is revoked only while another is ACTIVE and not in DESCENT; other requests end with status 4 and program nothing (R546). -/
def Obligations.KeySlots : Prop :=
  ∀ (m : Master) (slot : Nat) (x : KeySlot) (s : State), slot < 4 → Admitted s m R.SYS_KEY_CTRL →
    s.fld F.SYS_KEY_CTRL_state ≠ 1 → s.sys.fuses.keys[slot]? = some x →
    (∃ t, Answers (.keyProvision m slot) s t ∧ t.sys.fuses = s.sys.fuses ∧
      (if s.sys.fuses.lcState = 0 ∧ x.st = 0 then
        t.fld F.SYS_KEY_CTRL_state = 1 ∧ t.sys.fuseSeqs = s.sys.fuseSeqs ++
          [([.keyBytes slot (s.poolRead (s.fld F.SYS_KEY_SRC_addr * 8) 96), .keyState slot 1], .key)]
      else t.fld F.SYS_KEY_CTRL_state = 4 ∧ t.sys.fuseSeqs = s.sys.fuseSeqs ∧ t.fld F.SYS_EVT_lc_done = 1))
    ∧ (∃ t, Answers (.keyRevoke m slot) s t ∧ t.sys.fuses = s.sys.fuses ∧
      (s.sys.fuses.lcState ≠ 3 → (∃ k y, k < 4 ∧ k ≠ slot ∧ s.sys.fuses.keys[k]? = some y ∧ y.st = 1) →
        t.fld F.SYS_KEY_CTRL_state = 1 ∧ t.sys.fuseSeqs = s.sys.fuseSeqs ++ [([.keyState slot 2], .key)])
      ∧ (s.sys.fuses.lcState = 3 ∨ (∀ k y, k < 4 → k ≠ slot → s.sys.fuses.keys[k]? = some y → y.st ≠ 1) →
        t.fld F.SYS_KEY_CTRL_state = 4 ∧ t.sys.fuseSeqs = s.sys.fuseSeqs ∧ t.fld F.SYS_EVT_lc_done = 1))

/-- An import that passes its checks keeps the key and programs one epoch pulse before it counts; an export that passes its checks writes a blob that begins CSKX at SYS_CSK_DST and ends DONE; otherwise each ends with the status of the first failed check (R548). -/
def Obligations.StoreKeyExchange : Prop :=
  ∀ (m : Master) (s : State), Admitted s m R.SYS_CSK_CTRL → s.fld F.SYS_CSK_CTRL_state ≠ 1 →
    (∃ t, Answers (.cskImport m) s t ∧ t.sys.fuses = s.sys.fuses ∧ SameMemory s t ∧
      (if s.sys.fuses.lcState ≠ 1 then t.fld F.SYS_CSK_CTRL_state = 7
      else if s.storeState ≠ 0 then t.fld F.SYS_CSK_CTRL_state = 8
      else if 128 ≤ s.sys.fuses.epoch then t.fld F.SYS_CSK_CTRL_state = 6
      else ∀ r, r = s.openBlob (s.poolRead (s.fld F.SYS_CSK_SRC_addr * 8) 196) →
        (r = none → t.fld F.SYS_CSK_CTRL_state = 5) ∧
        (∀ key, r = some key → t.fld F.SYS_CSK_CTRL_state = 1 ∧ t.sys.cskKey = some key
          ∧ t.sys.fuseSeqs = s.sys.fuseSeqs ++ [([.epoch], .csk)])))
    ∧ (let blob := s.poolRead (s.fld F.SYS_CSK_SRC_addr * 8) 208
      let good := match s.sys.fuses.keys[leAt blob 200 1]? with
        | some k => k.st = 1 ∧ ecdsaVerify k.key (sha384 (blob.take 104)) (leAt blob 104 48) (leAt blob 152 48) = true
        | none => False
      ∃ t, Answers (.cskExport m) s t ∧ t.sys.fuses = s.sys.fuses ∧ t.dram = s.dram ∧ t.fld F.SYS_EVT_lc_done = 1
        ∧ (s.sys.fuses.lcState = 3 → t.fld F.SYS_CSK_CTRL_state = 7 ∧ t.pool = s.pool)
        ∧ (s.sys.fuses.lcState ≠ 3 → ¬ good → t.fld F.SYS_CSK_CTRL_state = 4 ∧ t.pool = s.pool)
        ∧ (s.sys.fuses.lcState ≠ 3 → good → s.sys.storeKey = none → s.unwrapStoreKey = none →
            t.fld F.SYS_CSK_CTRL_state = 5 ∧ t.pool = s.pool)
        ∧ (s.sys.fuses.lcState ≠ 3 → good → s.sys.storeKey ≠ none ∨ s.unwrapStoreKey ≠ none →
            t.fld F.SYS_CSK_CTRL_state = 2 ∧ memRead t.pool (s.fld F.SYS_CSK_DST_addr * 8) 4 = [0x43, 0x53, 0x4B, 0x58]))

/-- Each JTAG instruction becomes the current one and shifts out what it captures: pins, identification code or bypass bit; the device is unaffected; TRST_N low resets the test logic to IDCODE. While SYS runs an SMBus Block Read answers the four bytes of its register, least significant first, and changes nothing; any other command is answered NACK (R574, R575). -/
def Obligations.ManagementPorts : Prop :=
  (∀ (cells pins : List Bool) (tdi : Bool) (s : State), cells.length = 3561 → pins.length = 3561 → s.jtag.trstN = true →
    (∃ t, Answers (.extest cells pins) s t ∧ .jtag pins ∈ t.out ∧ t.jtag.ir = 0x00 ∧ t.jtag.cells = cells ∧ t.jtag.driving = true
      ∧ OnlyRegsAnd [] (fun t s => { s with jtag := t.jtag }) s t)
    ∧ (∃ t, Answers (.samplePreload cells pins) s t ∧ .jtag pins ∈ t.out ∧ t.jtag.ir = 0x01 ∧ t.jtag.cells = cells ∧ t.jtag.driving = false
      ∧ OnlyRegsAnd [] (fun t s => { s with jtag := t.jtag }) s t)
    ∧ (∃ t, Answers .idcode s t ∧ .jtag (bitsList 32 (s.sys.fuses.stepLetter % 16 * 2 ^ 28 + 0x9600 * 2 ^ 12 + 0x4E7 * 2 + 1)) ∈ t.out
      ∧ t.jtag.ir = 0x02 ∧ OnlyRegsAnd [] (fun t s => { s with jtag := t.jtag }) s t)
    ∧ (∃ t, Answers .clamp s t ∧ .jtag [s.jtag.bypass] ∈ t.out ∧ t.jtag.ir = 0x03 ∧ t.jtag.driving = true
      ∧ OnlyRegsAnd [] (fun t s => { s with jtag := t.jtag }) s t)
    ∧ (∃ t, Answers .highz s t ∧ .jtag [s.jtag.bypass] ∈ t.out ∧ t.jtag.ir = 0x04 ∧ t.jtag.highz = true
      ∧ OnlyRegsAnd [] (fun t s => { s with jtag := t.jtag }) s t)
    ∧ (∃ t, Answers (.bypass tdi) s t ∧ .jtag [s.jtag.bypass] ∈ t.out ∧ t.jtag.ir = 0xFF ∧ t.jtag.bypass = tdi
      ∧ OnlyRegsAnd [] (fun t s => { s with jtag := t.jtag }) s t)
    ∧ (∃ t, Answers (.trstN false) s t ∧ t.jtag.ir = 0x02 ∧ t.jtag.driving = false ∧ t.jtag.highz = false
      ∧ OnlyRegsAnd [] (fun t s => { s with jtag := t.jtag }) s t))
  ∧ (∀ (code : Nat) (s : State), code < 256 → s.sysDown = false →
    (∃ t, Answers .smbSysId s t ∧ .smb (leBytes 4 (s.view R.SYS_ID)) ∈ t.out ∧ OnlyRegs [] s t)
    ∧ (∃ t, Answers .smbThermStatus s t ∧ .smb (leBytes 4 (s.rd R.SYS_THERM_STATUS)) ∈ t.out ∧ OnlyRegs [] s t)
    ∧ (∃ t, Answers .smbStatus s t ∧ .smb (leBytes 4 (s.rd R.SYS_STATUS)) ∈ t.out ∧ OnlyRegs [] s t)
    ∧ (∃ t, Answers .smbRstCause s t ∧ .smb (leBytes 4 (s.rd R.SYS_RST_CAUSE)) ∈ t.out ∧ OnlyRegs [] s t)
    ∧ (∃ t, Answers (.smbOtherCommand code) s t ∧ .smbNack code ∈ t.out ∧ OnlyRegs [] s t))

/-- Refresh, calibration, drift correction, tracker clearing and write-back of a corrected line neither read nor write the array; MR4 shows whether the device is hot (R473, R477, R478, R480). -/
def Obligations.DramMaintenance : Prop :=
  ∀ (ch line : Nat) (hot : Bool) (s : State), ch < 8 → s.runs .memc = true →
    (∃ t, Answers (.refresh ch) s t ∧ (t.chan ch).refreshes = (s.chan ch).refreshes + 1 ∧ RegsBut [] s t ∧ SameMemory s t)
    ∧ (∃ t, Answers (.zqCalibration ch) s t ∧ (t.chan ch).zqs = (s.chan ch).zqs + 1 ∧ RegsBut [] s t ∧ SameMemory s t)
    ∧ (∃ t, Answers (.dqsDrift ch) s t ∧ (t.chan ch).dqs = (s.chan ch).dqs + 1 ∧ RegsBut [] s t ∧ SameMemory s t)
    ∧ (∃ t, Answers (.mr4Read ch hot) s t ∧ t.fld (F.MEMC_x_STATUS_hot ch) = (if hot then 1 else 0)
      ∧ OnlyRegs [R.MEMC_x_STATUS ch] s t)
    ∧ (∃ t, Answers .trackerClear s t ∧ (t.chan ch).trackers = [] ∧ RegsBut [] s t ∧ SameMemory s t)
    ∧ (∃ t, Answers (.eccWriteBack line) s t ∧ (∀ l ∈ t.memc.writeBack, l.1 ≠ line) ∧ RegsBut [] s t ∧ SameMemory s t)

/-- A command slot issues the oldest waiting request of the highest class whose line is free: a read answers its bytes, marked where their line is uncorrectable, a write stores its bytes and clears the poison of lines written whole; what the ECC check finds and the neighbour refreshes are recorded, and of clean lines nothing; a request past its age limit rises one class (R474, R475, R476, R478, R480, R481). -/
def Obligations.DramRequests : Prop :=
  (∀ (ch sub : Nat) (no : List Nat) (e : EccResult) (row : Option (Nat × Nat)) (r : DramReq) (s : State), ch < 8 → sub < 2 →
    s.runs .memc = true → s.fld F.MEMC_STATUS_ready = 1 → s.jnl.ringQ = [] → pickReq (s.chan ch).queue sub no = some r →
    let c := s.channelOf r.addr
    let bad := s.memc.poison.contains (r.addr / 64)
    let writes := R.MEMC_x_CE c :: R.MEMC_x_NBR_REFRESH ch :: dramErrRegs
    (∀ d, r.data = some d →
      ∃ t, Answers (.dramRequest [] ch sub no e row) s t ∧ RegsBut writes s t
        ∧ (row = none → (r.addr % 64 = 0 ∧ d.length % 64 = 0) ∨ (e = .clean ∧ bad = false) → RegsBut [] s t)
        ∧ (∀ i (h : i < d.length), memGet t.dram (r.addr + i) = d[i])
        ∧ (∀ b, b < r.addr ∨ r.addr + d.length ≤ b → memGet t.dram b = memGet s.dram b)
        ∧ (∀ l ∈ t.memc.poison, 64 * l < r.addr ∨ r.addr + d.length < 64 * l + 64) ∧ t.pool = s.pool
        ∧ (∀ q ∈ (t.chan ch).queue, q ≠ r))
    ∧ (r.data = none → 1 ≤ r.len → s.memc.poison = [] →
      ∃ t, Answers (.dramRequest [] ch sub no e row) s t ∧ .dramData r.id (s.dramRead r.addr r.len) (decide (e = .uncorrectable)) ∈ t.out
        ∧ RegsBut writes s t ∧ SameMemory s t ∧ (∀ q ∈ (t.chan ch).queue, q ≠ r)
        ∧ (row = none → e = .clean → RegsBut [] s t)
        ∧ (e = .correctable → t.fld (F.MEMC_x_CE_count c) = min (s.fld (F.MEMC_x_CE_count c) + 1) (2 ^ 32 - 1)
            ∧ ∃ l ∈ t.memc.writeBack, l.1 = r.addr / 64)
        ∧ (e = .uncorrectable → t.fld (F.MEMC_x_UE_count c) = min (s.fld (F.MEMC_x_UE_count c) + 1) (2 ^ 32 - 1)
            ∧ r.addr / 64 ∈ t.memc.poison)))
  ∧ (∀ (ch id l : Nat) (r : DramReq) (s : State), ch < 8 → (s.chan ch).queue.find? (fun q => q.id = id) = some r →
    s.ageLimit r.cls = some l →
    ∃ t r', Answers (.agePromotion ch id) s t ∧ r' ∈ (t.chan ch).queue ∧ r'.id = id ∧ r'.cls = r.cls - 1 ∧ RegsBut [] s t
      ∧ SameMemory s t)

/-- An idle channel that has devices enters self-refresh, shows it and counts the entry; a scrub batch of a channel with MiB left to read advances the position by 1 MiB and its own place by one, and at the capacity reports the pass and begins again; a batch that finds nothing reports nothing else (R479, R482). -/
def Obligations.SelfRefreshAndScrub : Prop :=
  (∀ (ch : Nat) (s : State), ch < s.channels → s.runs .memc = true → s.fld F.MEMC_CFG_enable = 1 → s.fld F.MEMC_SR_idle_us ≠ 0 →
    (s.chan ch).queue = [] → (s.chan ch).clockStopped = false →
    ∃ t, Answers (.selfRefreshEntry ch) s t ∧ (t.chan ch).clockStopped = true ∧ (t.viewAll (R.MEMC_x_STATUS ch)).testBit 2 = true
      ∧ t.fld (F.MEMC_x_SR_ENTRIES_count ch) =
        min (s.fld (F.MEMC_x_SR_ENTRIES_count ch) + 1) (2 ^ 32 - 1)
      ∧ RegsBut [R.MEMC_x_SR_ENTRIES ch] s t ∧ SameMemory s t)
  ∧ (∀ (ch : Nat) (found : List (Nat × EccResult)) (s : State), ch < s.channels → s.runs .memc = true →
    s.fld F.MEMC_STATUS_ready = 1 → s.fld F.MEMC_SCRUB_hours ≠ 0 → s.rd R.MEMC_SCRUB_POS < 2 ^ 31 →
    let k := mapGet 0 s.memc.scrubAt ch
    k < s.chanMib →
    ∃ t, Answers (.patrolScrub ch found) s t ∧ SameMemory s t ∧
      (if s.chanMib * s.channels ≤ s.rd R.MEMC_SCRUB_POS + 1 then
        t.rd R.MEMC_SCRUB_POS = 0 ∧ t.memc.scrubAt = [] ∧ t.fld F.MEMC_EVT_scrub_pass = 1
      else t.rd R.MEMC_SCRUB_POS = s.rd R.MEMC_SCRUB_POS + 1 ∧ mapGet 0 t.memc.scrubAt ch = k + 1
        ∧ (found = [] → s.memc.poison = [] → RegsBut [R.MEMC_SCRUB_POS] s t)))

/-- A host-side write that its region and the bank's owner permit stores its bytes and no others; one that they do not is dropped and recorded; a permitted read of clean words answers the bytes (R484, R486, R501, R503). -/
def Obligations.PoolAccesses : Prop :=
  ∀ (m a : Nat) (s : State), m < 7 → a < 134217728 → s.held .pool = false → s.poolReaches ⟨.hostSide m, a, .read 0, .clean⟩ = true →
    s.poolSt.losers = [] → s.poolSt.march = none → a / bankBytes ∉ s.rig.zeroing → a / bankBytes ∉ s.rig.zeroWait →
    (∀ d : List Byte, a % 8 = 0 → d.length % 8 = 0 →
      ∃ t, Answers (.poolAccess [⟨.hostSide m, a, .write d false, .clean⟩]) s t ∧ t.dram = s.dram ∧
        (if s.ownerRefuses a d.length = false ∧ (∀ k, k < d.length → s.regionGrants m (a + k) true = true) then
          RegsBut [] s t ∧ (∀ i (h : i < d.length), memGet t.pool (a + i) = d[i])
            ∧ ∀ b, b < a ∨ a + d.length ≤ b → memGet t.pool b = memGet s.pool b
        else OnlyRegs [R.POOL_VIOL, R.POOL_VIOL_INFO] s t
          ∧ t.fld F.POOL_VIOL_count = min (s.fld F.POOL_VIOL_count + 1)
            (2 ^ 32 - 1)))
    ∧ (∀ n : Nat, (∀ k, k < n → s.regionGrants m (a + k) false = true) → a + n ≤ 134217728 →
      s.poolPoisoned a n = false → s.poolSt.poison.contains (a / 8) = false →
      ∃ t, Answers (.poolAccess [⟨.hostSide m, a, .read n, .clean⟩]) s t ∧ .poolData m (s.poolRead a n) false ∈ t.out ∧ OnlyRegs [] s t)

/-- A go on an idle engine with a range in the pool starts a march of it where something of the range can be tested, and is DONE at once where nothing can; a stop ends the run STOPPED; the test of a segment that ends leaves the others in test, and with nothing left to do ends the run DONE; a fuse write of a bank with a soft repair not yet fused starts its pulse; a corrected word is written back (R483, R487, R488, R489). -/
def Obligations.PoolTests : Prop :=
  (∀ (m : Master) (v : Word) (s : State), Admitted s m R.POOL_MARCH_CTRL → s.poolSt.march = none →
    1 ≤ s.fld F.POOL_MARCH_RANGE_count → s.fld F.POOL_MARCH_RANGE_first + s.fld F.POOL_MARCH_RANGE_count ≤ 1024 →
    let s1 := s.regWrite R.POOL_MARCH_CTRL (v.toNat / 4 * 4)
    let can := (List.range (s.fld F.POOL_MARCH_RANGE_count)).any (fun k =>
      let b := k + s.fld F.POOL_MARCH_RANGE_first
      if s1.bit F.POOL_MARCH_CTRL_destructive then s1.destructible b else (List.range 64).any (s1.borrowable b))
    ∃ t, Answers (.marchGo m v) s t ∧ SameMemory s t
      ∧ (can = true → t.fld F.POOL_MARCH_STATUS_state = 1 ∧ ∃ r, t.poolSt.march = some r ∧ r.borrowed ≠ []
          ∧ r.first = s.fld F.POOL_MARCH_RANGE_first ∧ r.count = s.fld F.POOL_MARCH_RANGE_count)
      ∧ (can = false → t.fld F.POOL_MARCH_STATUS_state = 2 ∧ t.poolSt.march = none ∧ t.fld F.POOL_EVT_march_done = 1))
  ∧ (∀ (m : Master) (v : Word) (r : MarchRun) (s : State), Admitted s m R.POOL_MARCH_CTRL → s.poolSt.march = some r →
    ∃ t, Answers (.marchStop m v) s t ∧ t.poolSt.march = none ∧ t.fld F.POOL_MARCH_STATUS_state = 3
      ∧ t.fld F.POOL_EVT_march_done = 1 ∧ t.dram = s.dram ∧ (r.destructive = false → t.pool = s.pool))
  ∧ (∀ (fails : List Nat) (r : MarchRun) (b : Nat × Nat) (rest : List (Nat × Nat)) (s : State), s.poolSt.march = some r →
    r.borrowed = b :: rest →
    ∃ t, Answers (.marchSegment fails) s t ∧ t.dram = s.dram ∧ (r.destructive = false → t.pool = s.pool)
      ∧ (rest = [] → r.todo = [] → t.poolSt.march = none ∧ t.fld F.POOL_MARCH_STATUS_state = 2 ∧ t.fld F.POOL_EVT_march_done = 1)
      ∧ (rest ≠ [] → t.fld F.POOL_MARCH_STATUS_state = s.fld F.POOL_MARCH_STATUS_state
          ∧ ∃ q, t.poolSt.march = some q ∧ rest <+: q.borrowed ∧ q.first = r.first ∧ q.count = r.count))
  ∧ (∀ (m : Master) (v : Word) (s : State), Admitted s m R.POOL_REPAIR_CTRL → s.sys.fuses.lcState ≠ 3 →
    s.fld F.POOL_REPAIR_STATUS_state ≠ 1 →
    let b := bitsOf v.toNat 9 0
    let fresh := (repairsOf s.poolSt.repairs b).filter (fun e => !(repairsOf s.sys.fuses.repairs b).contains e)
    fresh ≠ [] →
    ∃ t, Answers (.repairFuse m v) s t ∧ t.fld F.POOL_REPAIR_STATUS_state = 1 ∧ t.fld F.SYS_STATUS_fuse_busy = 1
      ∧ t.sys.fuseSeqs = s.sys.fuseSeqs ++ [([.repair b fresh], .repair)] ∧ SameMemory s t)
  ∧ (∀ (w : Nat) (s : State), ∃ t, Answers (.poolWriteBack w) s t ∧ w ∉ t.poolSt.writeBack ∧ RegsBut [] s t ∧ SameMemory s t)

/-- A region that is off takes its new base and permissions and is enabled where it is not empty and lies in the pool, and otherwise stays off with bad_cfg; one that is on stays as it is (R486, R493). -/
def Obligations.RegionEnable : Prop :=
  ∀ (m : Master) (mst rgn : Nat) (v : Word) (s : State), mst < 7 → rgn < 64 → Admitted s m (R.POOL_RGN_BASE mst rgn) →
    ∃ t, Answers (.regionEnable m mst rgn v) s t ∧ OnlyRegs [R.POOL_RGN_BASE mst rgn, R.POOL_EVT] s t ∧
      (if s.fld (F.POOL_RGN_BASE_enable mst rgn) = 1 then t.rd (R.POOL_RGN_BASE mst rgn) = s.rd (R.POOL_RGN_BASE mst rgn)
      else t.fld (F.POOL_RGN_BASE_base mst rgn) = bitsOf v.toNat 26 12 ∧
        (if s.fld (F.POOL_RGN_SIZE_size mst rgn) = 0
            ∨ 134217728 < bitsOf v.toNat 26 12 * 4096 + s.fld (F.POOL_RGN_SIZE_size mst rgn) * 4096 then
          t.fld (F.POOL_RGN_BASE_enable mst rgn) = 0 ∧ t.fld F.POOL_EVT_bad_cfg = 1
        else t.fld (F.POOL_RGN_BASE_enable mst rgn) = 1))

/-- A load with a good source begins and fills its slot; when its copy is complete it is checked: an image that passes leaves the slot VALID with exactly the source bytes and the code OK; one that fails leaves it EMPTY with every byte of its 16 banks zero, the code of the first check that failed and the offset of the record at fault (R56, R57, R58, R83). -/
def Obligations.ImageLoads : Prop :=
  (∀ (m : Master) (v : Word) (s : State), Admitted s m R.RIG_LOAD_CTRL → s.rig.load = none → s.sys.fuses.lcState ≠ 3 →
    let src := s.rd R.RIG_LOAD_SRC
    let len := s.rd R.RIG_LOAD_LEN
    let k := bitsOf v.toNat 1 1
    len % 8 = 0 → 176 ≤ len → len ≤ 2097152 → src % 8 = 0 → src + len ≤ 992 * bankBytes →
    (s.slot k).st ≠ .active → (s.rig.change.map (fun c => c.slot)) ≠ some k →
    ∃ t, Answers (.rigLoad m v) s t ∧ t.rig.load = some ⟨k, src, len⟩ ∧ t.slot k = ⟨.loading, none⟩
      ∧ t.slot (1 - k) = s.slot (1 - k) ∧ t.fld F.RIG_LOAD_STATUS_code = 1 ∧ t.rd R.RIG_LOAD_ERR_OFS = 0xFFFFFFFF
      ∧ t.rig.active = s.rig.active ∧ SameMemory s t
      ∧ RegsBut [R.RIG_LOAD_CTRL, R.RIG_LOAD_STATUS, R.RIG_LOAD_ERR_OFS, R.RIG_SLOT_STATE, R.RIG_STATUS] s t)
  ∧ (∀ (ld : Load) (s : State), s.rig.load = some ld → ld.slot < 2 → ld.src + ld.len ≤ 992 * bankBytes → ld.len ≤ 2097152 →
    let b := s.poolRead ld.src ld.len
    let s1 : State := s.poolWrite (slotBase ld.slot) b
    let r := ({ s1 with rig := { s1.rig with load := none } } : State).verdict b false
    ∃ t, Answers .loadCopyComplete s t ∧ t.rig.load = none ∧ t.rig.active = s.rig.active ∧ t.fld F.HOST_EVT_rig_load = 1
      ∧ t.slot (1 - ld.slot) = s.slot (1 - ld.slot) ∧ t.dram = s.dram
      ∧ (∀ a, a < slotBase ld.slot ∨ slotBase ld.slot + 2097152 ≤ a → memGet t.pool a = memGet s.pool a)
      ∧ (∀ im, r.2.2 = some im → t.slot ld.slot = ⟨if im.full then .validFull else .validFragment, some im⟩
          ∧ t.fld F.RIG_LOAD_STATUS_code = 2 ∧ t.rd R.RIG_LOAD_ERR_OFS = s.rd R.RIG_LOAD_ERR_OFS
          ∧ ∀ i, i < ld.len → memGet t.pool (slotBase ld.slot + i) = memGet s.pool (ld.src + i))
      ∧ (r.2.2 = none → t.slot ld.slot = ⟨.empty, none⟩ ∧ t.fld F.RIG_LOAD_STATUS_code = r.1.num ∧ 3 ≤ r.1.num
          ∧ t.rd R.RIG_LOAD_ERR_OFS = r.2.1 % 2 ^ 32 ∧ ∀ i, i < 2097152 → memGet t.pool (slotBase ld.slot + i) = 0))

/-- A switch or re-rig that meets R61 with at least 20 ms to its latch point and with every running user kept becomes pending; with less time it ends LATE; one that fails R61 otherwise ends INVALID; a cancel withdraws a change that has not begun to apply (R60, R61, R62, R67, R85). -/
def Obligations.ChangeRequests : Prop :=
  (∀ (m : Master) (c : Instr) (rerig : Bool) (v : Word) (s : State), Admitted s m R.RIG_CHANGE_CTRL → s.rig.change = none →
    v.toNat.testBit 1 = false →
    ((c = .switch m v ∧ rerig = false) ∨ (c = .reRig m v ∧ rerig = true)) →
    let w := putBits (putBits v.toNat 3 2 (if rerig then 2 else 1)) 0 0 1
    let s1 := s.regWrite R.RIG_CHANGE_CTRL w
    let late := s.latchOfFrame (s.rd R.RIG_CHANGE_FRAME) < s.nowNs + 20000000
    let keeps := (s1.resultOf rerig (s.changeSlot w)).map (fun im => s1.usersOk im.bodies) ≠ some false
    ∃ t, Answers c s t ∧ SameMemory s t ∧ RegsBut [R.RIG_CHANGE_CTRL, R.RIG_CHANGE_STATUS, R.RIG_STATUS, R.HOST_EVT] s t
      ∧ (s.changeValid w = true → ¬ late → keeps →
        t.rig.change = some ⟨rerig, bitsOf v.toNat 23 16, s.rd R.RIG_CHANGE_FRAME, s.changeSlot w, false, 0⟩
          ∧ t.fld F.RIG_CHANGE_STATUS_state = 1 ∧ t.fld F.RIG_STATUS_change_pending = 1)
      ∧ (s.changeValid w = true → late → t.rig.change = none ∧ t.fld F.RIG_CHANGE_STATUS_state = 4 ∧ t.fld F.HOST_EVT_rig_change = 1)
      ∧ (s.changeValid w = false → t.rig.change = none ∧ t.fld F.RIG_CHANGE_STATUS_state = 6 ∧ t.fld F.HOST_EVT_rig_change = 1))
  ∧ (∀ (m : Master) (v : Word) (c : Change) (s : State), Admitted s m R.RIG_CHANGE_CTRL → s.rig.change = some c →
    c.applying = false → s.rig.busyLater = false → v.toNat.testBit 0 = false →
    ∃ t, Answers (.cancel m v) s t ∧ t.rig.change = none ∧ t.fld F.RIG_CHANGE_STATUS_state = 7
      ∧ t.fld F.RIG_STATUS_change_pending = 0 ∧ t.fld F.HOST_EVT_rig_change = 1
      ∧ OnlyRegsAnd [R.RIG_CHANGE_CTRL, R.RIG_CHANGE_STATUS, R.RIG_STATUS, R.HOST_EVT]
          (fun t s => { s with rig := { s.rig with change := t.rig.change } }) s t)

/-- A moved bank whose old owner's work is done is zeroed while the change applies: it then holds only zeros, and every other byte of the pool is as before; a change whose old work is done and whose banks are zeroed ends DONE, or BUSY where another request came meanwhile, and the islands it leaves absent enter reset (R63, R64, R66, R85). -/
def Obligations.ChangeCompletes : Prop :=
  (∀ (c : Change) (s : State), s.rig.change = some c → c.applying = true → s.oldWork c.since = false →
    s.rig.zeroing = [] → s.rig.zeroWait = [] →
    ∃ t, Answers .changeDone s t ∧ t.rig.change = none ∧ t.rig.stopping = [] ∧ t.rig.before = none
      ∧ (∀ i ∈ s.rig.stopping, i ≠ .sys → t.held i = true) ∧ (∀ i, i ∉ s.rig.stopping → t.held i = s.held i)
      ∧ t.fld F.RIG_CHANGE_STATUS_state = (if s.rig.busyLater then 5 else 3)
      ∧ t.fld F.RIG_STATUS_change_pending = 0 ∧ t.fld F.HOST_EVT_rig_change = 1
      ∧ (s.rig.stopping = [] → RegsBut [R.RIG_CHANGE_STATUS, R.RIG_STATUS, R.HOST_EVT] s t ∧ SameMemory s t))
  ∧ (∀ (b : Nat) (s : State), b < 1024 → b ∈ s.rig.zeroing → b ∉ s.rig.zeroWait →
    (∀ c, s.rig.change = some c → s.oldWork c.since = false) → (∀ r ∈ s.rig.stalled, r.addr / bankBytes ≠ b) →
    ∃ t, Answers (.bankZeroComplete b) s t ∧ b ∉ t.rig.zeroing ∧ t.fld (F.POOL_BANK_zeroing b) = 0 ∧ t.dram = s.dram
      ∧ (∀ i, i < bankBytes → memGet t.pool (b * bankBytes + i) = 0)
      ∧ (∀ a, a / bankBytes ≠ b → memGet t.pool a = memGet s.pool a))

/-- A claim of a resource that exists and that neither the image nor a claim holds succeeds, and a claimed bank is zeroed and owned by the claimer; one that is held answers 1; the holder's release frees it and takes the bank's owner away (R78, R86). -/
def Obligations.RunTimeClaims : Prop :=
  ∀ (m : Master) (v : Word) (s : State), Admitted s m R.RIG_CLAIM_CTRL → s.poolSt.march = none →
    let index := bitsOf v.toNat 15 0
    let res := bitsOf v.toNat 19 16
    let mine : RtClaim := ⟨res, index, decide (m = .mgt)⟩
    claimNames res index = true →
    (∃ t, Answers (.claim m v) s t ∧ t.dram = s.dram
      ∧ ((∀ c ∈ s.rig.claims, c.res ≠ res ∨ c.index ≠ index) → s.imageHolds res index = false →
        t.fld F.RIG_CLAIM_STATUS_code = 0 ∧ t.rig.claims = s.rig.claims ++ [mine]
          ∧ (res ≠ 3 → RegsBut [R.RIG_CLAIM_CTRL, R.RIG_CLAIM_STATUS] s t ∧ SameMemory s t)
          ∧ (res = 3 → RegsBut [R.RIG_CLAIM_CTRL, R.RIG_CLAIM_STATUS, R.POOL_BANK index] s t ∧ t.bankOwner index = (if m = .mgt then 2 else 5)
            ∧ (∀ i, i < bankBytes → memGet t.pool (index * bankBytes + i) = 0)
            ∧ ∀ a, a / bankBytes ≠ index → memGet t.pool a = memGet s.pool a))
      ∧ ((∃ c ∈ s.rig.claims, c.res = res ∧ c.index = index) ∨ s.imageHolds res index = true →
        t.fld F.RIG_CLAIM_STATUS_code = 1 ∧ OnlyRegs [R.RIG_CLAIM_CTRL, R.RIG_CLAIM_STATUS] s t))
    ∧ (mine ∈ s.rig.claims → (∀ c ∈ s.rig.claims, c.res = res → c.index = index → c = mine) →
      ∃ t, Answers (.claimRelease m v) s t ∧ t.fld F.RIG_CLAIM_STATUS_code = 0 ∧ SameMemory s t
        ∧ t.rig.claims = s.rig.claims.filter (fun c => c != mine)
        ∧ (res = 3 → t.bankOwner index = 0xFF)
        ∧ RegsBut [R.RIG_CLAIM_CTRL, R.RIG_CLAIM_STATUS, R.POOL_BANK index] s t)

/-- A strand delivers its oldest token, once and in order, to a receiver that runs, and a waiting token takes the place; other strands, registers and memory are as before. A visit of an engine serves the calendar entry that is due: each of its contexts in order is offered the entry's number of work units, after the position has moved to the next entry, the first after the last (R69, R73, R74). -/
def Obligations.StrandsAndCalendars : Prop :=
  (∀ (k : Nat) (x : Strand) (tok : Token) (r : List Token) (ends : Nat × Nat) (i : Island) (s : State),
    mapFind s.rig.strands k = some x → x.fifo = tok :: r → s.strandEnds k = some ends → islandOf ends.2 = some i → s.runs i = true →
    ∃ t y, Answers (.token k) s t ∧ mapFind t.rig.strands k = some y ∧ y.taken = x.taken ++ [tok] ∧ y.fifo ++ y.waiting = r ++ x.waiting
      ∧ y.fifo = (r ++ x.waiting).take (s.strandDepth k) ∧ .tokenTaken k tok ∈ t.out
      ∧ (∀ j, j ≠ k → mapFind t.rig.strands j = mapFind s.rig.strands j) ∧ RegsBut [] s t ∧ SameMemory s t)
  ∧ (∀ (engine e : Nat) (i : Island) (p : PitchEntry) (s : State),
    ((engine = e ∧ 9 ≤ e ∧ e ≤ 12) ∨ (engine = 26 ∧ e = 10) ∨ (engine = 27 ∧ e = 11)) → islandOf e = some i → s.runs i = true →
    let cal := s.engineCal e
    let n := mapGet 0 s.rig.calNext engine % cal.length
    cal[n]? = some p →
    ∃ s1, mapGet 0 s1.rig.calNext engine = (if n + 1 = cal.length then 0 else n + 1) ∧ s1.cam = s.cam ∧ s1.hevc = s.hevc ∧ s1.out = s.out
      ∧ RegsBut [R.RIG_CAL_POS (e - 9)] s s1 ∧ SameMemory s s1 ∧ (engine = e → s1.fld (F.RIG_CAL_POS_entry (e - 9)) = n % 4096)
      ∧ Answers (.pitch engine) s (settle (p.contexts.foldl (fun (u : State) k =>
          (List.range p.units).foldl (fun (u : State) _ => u.workUnit engine cal k) u) s1)))

/-- A journal ring that R99 permits is enabled with ring_ok; an injected entry in FOLLOW_HOST, with room for it among those held, is accepted exactly when its check holds, and is then held unless it is known, passed or in conflict; a digest read answers the number and captures the digest. When the hold of a default exposure target runs out with no entry received, the device decides it: the entry carries override, the override is counted and reported, the command is queued and its point waits no more (R99, R104, R107, R112, R105, R106, R152). -/
def Obligations.JournalControl : Prop :=
  ((∀ (m : Master) (v : Word) (s : State), Admitted s m R.RIG_JNL_CTRL → s.fld F.RIG_JNL_CTRL_enable = 0 → bitsOf v.toNat 3 2 ≠ 3 →
    ∃ t, Answers (.jnlEnable m v) s t ∧ OnlyRegs [R.RIG_JNL_CTRL, R.RIG_JNL_STATUS] s t ∧
      t.fld F.RIG_JNL_CTRL_mode = bitsOf v.toNat 3 2 ∧ t.fld F.RIG_JNL_CTRL_forward = bitsOf v.toNat 1 1 ∧
      if s.jnlRingOk then t.fld F.RIG_JNL_CTRL_enable = 1 ∧ t.fld F.RIG_JNL_STATUS_ring_ok = 1
      else t.fld F.RIG_JNL_CTRL_enable = 0 ∧ t.fld F.RIG_JNL_STATUS_bad_cfg = 1)
  ∧ (∀ (m : Master) (v : Word) (s : State), Admitted s m (R.RIG_JNL_INJ 7) → s.jnl.mode = 2 → s.jnl.waits = [] →
    s.jnl.held.length < 4096 →
    let b := (s.wr (R.RIG_JNL_INJ 7) v.toNat).injected
    let e := Entry.ofBytes b
    ∃ t, Answers (.jnlInject m v) s t ∧ SameMemory s t ∧
      if leAt b 28 4 = crc32c (b.take 28) then
        t.jnl.held = (if s.jnlSort e = .keep then s.jnl.held ++ [e] else s.jnl.held)
          ∧ t.fen.lastSeq = some e.seq ∧ t.rd R.RIG_JNL_SRC_SEQ = e.seq ∧ RegsBut [R.RIG_JNL_INJ 7, R.RIG_JNL_SRC_SEQ, R.RIG_JNL_STATUS] s t
          ∧ (s.jnlSort e = .conflict → t.fld F.RIG_JNL_STATUS_conflict = 1)
          ∧ (∀ q, s.fen.lastSeq = some q → e.seq ≠ (q + 1) % 2 ^ 32 → t.fld F.RIG_JNL_STATUS_gap = 1)
      else t.jnl.held = s.jnl.held ∧ t.fen.lastSeq = s.fen.lastSeq ∧ t.fld F.RIG_JNL_STATUS_crc_bad = 1
        ∧ t.fld F.RIG_JNL_CRC_BAD_count = min (s.fld F.RIG_JNL_CRC_BAD_count + 1) (2 ^ 32 - 1)
        ∧ RegsBut [R.RIG_JNL_INJ 7, R.RIG_JNL_CRC_BAD, R.RIG_JNL_STATUS] s t)
  ∧ (∀ (m : Master) (d : DigestVal) (s : State), Admitted s m R.RIG_DIG_FRAME →
    mapFind s.jnl.digests (256 * s.fld F.RIG_DIG_SEL_scope + s.fld F.RIG_DIG_SEL_index) = some d →
    ∃ t, Answers (.digFrameRead m) s t ∧ .readData m R.RIG_DIG_FRAME d.num ∈ t.out ∧ t.jnl.captured = d ∧ RegsBut [] s t ∧ SameMemory s t))
  ∧ (∀ (k u tag since : Nat) (c : ExpCmd) (s : State), u < 32 → c.vs = u % 4 → tag < 65536 →
    s.jnl.waits[k]? = some ⟨7, 4, u, tag, since⟩ → s.pointTime 7 4 u tag = since →
    (s.port (u / 4)).expWaits.find? (fun w => w.1 = tag && w.2.vs = u % 4) = some (tag, c) → s.jnl.leadFrom = none →
    s.follows 7 since = true → s.heldEntry 7 4 u tag = none → s.fld (F.HEAD_STATE_state (u / 4)) = 4 → s.expFull (u / 4) = false →
    ∃ t e, Answers (.jnlHoldExpire k) s t ∧ t.blocked 7 4 u tag = false ∧ e ∈ t.jnl.applied ∧ e.kind = 7 ∧ e.target = 4 ∧ e.unit = u
      ∧ e.frame = tag ∧ e.a = c.target ∧ e.override = true ∧ e.replayed = false
      ∧ t.fld F.RIG_JNL_OVERRIDES_count = min (s.fld F.RIG_JNL_OVERRIDES_count + 1) (2 ^ 32 - 1)
      ∧ t.fld F.RIG_JNL_STATUS_override = 1 ∧ (t.port (u / 4)).expWaits = (s.port (u / 4)).expWaits.erase (tag, c)
      ∧ (t.port (u / 4)).nextSeq = ((s.port (u / 4)).nextSeq + 1) % 65536 ∧ SameMemory s t
      ∧ (s.runs .anchor = true → since + s.holdNs ≤ t.nowNs))

/-- A port that is enabled trains, and every member of a bond that is not right is in CFG_ERR; block lock on both lanes begins alignment; matching aligned lanes ask for capabilities; the record is shown, and once every port of the sensor has one, records that fit make the port READY and others are a mismatch; timeouts ask again or train again; a lock loss or a disable ends the commands. A packet whose header CRC is wrong is dropped and counted, the receiver hunts for the next START, and no frame, command, memory or other register changes (R141, R142, R143, R144, R155, R129, R131, R145). -/
def Obligations.HeadTraining : Prop :=
  ((∀ (m : Master) (n : Nat) (v : Word) (s : State), n < 8 → Admitted s m (R.HEAD_CFG n) →
    let quiet := ∀ v, v < 4 → s.sensorFrames (s.primary n) v = []
    (s.fld (F.HEAD_CFG_enable n) = 0 →
      ∃ t, Answers (.portEnable m n v) s t ∧ t.fld (F.HEAD_CFG_enable n) = 1 ∧ SameMemory s t
        ∧ t.fld (F.HEAD_STATE_state n) = (if (s.regWrite (R.HEAD_CFG n) (v.toNat ||| 1)).badBond n then 6 else 1))
    ∧ (s.fld (F.HEAD_CFG_enable n) = 1 →
      (∃ t, Answers (.portDisable m n v) s t ∧ t.fld (F.HEAD_CFG_enable n) = 0
        ∧ t.fld (F.HEAD_STATE_state n) = (if t.badBond n then 6 else 0) ∧ (t.port n).sent = none ∧ (t.port n).queue = []
        ∧ (quiet → SameMemory s t ∧ ∀ q, q < 8 → q ≠ n → t.rd (R.HEAD_CFG q) = s.rd (R.HEAD_CFG q)))
      ∧ ∃ t, Answers (.headCfgReconfigure m n v) s t ∧ (t.port n).sent = none ∧ (t.port n).queue = []
        ∧ t.fld (F.HEAD_CFG_enable n) = v.toNat % 2
        ∧ t.fld (F.HEAD_STATE_state n) = (if t.badBond n then 6 else v.toNat % 2)
        ∧ (quiet → SameMemory s t ∧ ∀ q, q < 8 → q ≠ n → t.rd (R.HEAD_CFG q) = s.rd (R.HEAD_CFG q))))
  ∧ (∀ (n : Nat) (s : State), n < 8 → s.runs .head = true →
    (∀ lane, lane < 2 → s.fld (F.HEAD_STATE_state n) = 1 →
      ∃ t, Answers (.blockLock n lane) s t ∧ RegsBut (R.HEAD_STATE n :: (List.range 48).map (R.HEAD_CAP n)) s t ∧ SameMemory s t
        ∧ t.fld (if lane = 0 then F.HEAD_STATE_lock0 n else F.HEAD_STATE_lock1 n) = 1
        ∧ t.fld (F.HEAD_STATE_state n) =
          if s.fld (if lane = 0 then F.HEAD_STATE_lock1 n else F.HEAD_STATE_lock0 n) = 1 then 2 else 1)
    ∧ (∀ lane pos skew (b : List Byte), lane < 2 → 16384 ≤ pos → skew ≤ 128 → s.fld (F.HEAD_STATE_state n) = 2 → alignValid lane b = true →
      ∃ t, Answers (.align n lane pos skew b) s t ∧ RegsBut [R.HEAD_STATE n, R.HEAD_ERR n] s t ∧ SameMemory s t ∧
        if leAt b 2 1 = s.fld (F.HEAD_CFG_member n) ∧ leAt b 3 1 = s.fld (F.HEAD_CFG_members n) + 1 then
          t.fld (F.HEAD_STATE_skew n) = skew ∧ mapFind (t.port n).alignAt lane = some pos
            ∧ (mapFind (s.port n).alignAt lane = some (pos - 16384) → mapFind (s.port n).alignAt (1 - lane) = some pos →
              1 - lane ∈ (s.port n).aligned →
              t.fld (F.HEAD_STATE_state n) = 3 ∧ (t.port n).capTries = (s.port n).capTries + 1
                ∧ .capRequest n (s.port n).txSeq ∈ t.out ∧ .gypol n (gypolPacket 0x83 0 0 (s.port n).txSeq []) ∈ t.out)
        else t.fld (F.HEAD_ERR_align_cfg n) = 1 ∧ t.fld (F.HEAD_STATE_state n) = 2)
    ∧ (s.fld (F.HEAD_STATE_state n) = 3 → (s.port n).cap = none →
      ∃ t, Answers (.capRequestTimeout n) s t ∧ SameMemory s t ∧
        if 3 ≤ (s.port n).capTries then t.fld (F.HEAD_STATE_state n) = 1 ∧ (t.port n).capTries = 0
        else t.fld (F.HEAD_STATE_state n) = 3 ∧ (t.port n).capTries = (s.port n).capTries + 1
          ∧ .capRequest n (s.port n).txSeq ∈ t.out ∧ .gypol n (gypolPacket 0x83 0 0 (s.port n).txSeq []) ∈ t.out)
    ∧ (s.fld (F.HEAD_STATE_state n) ∈ [1, 2, 3, 5] →
      ∃ t, Answers (.trainTimeout n) s t ∧ t.fld (F.HEAD_STATE_state n) = 1 ∧ SameMemory s t
        ∧ t.fld (F.HEAD_TRAIN_FAIL_count n) = min (s.fld (F.HEAD_TRAIN_FAIL_count n) + 1) (2 ^ 32 - 1))
    ∧ (∀ at_, s.fld (F.HEAD_STATE_state n) ∈ [2, 3, 4, 5]
        ∨ (s.fld (F.HEAD_STATE_state n) = 1 ∧ (s.fld (F.HEAD_STATE_lock0 n) = 1 ∨ s.fld (F.HEAD_STATE_lock1 n) = 1)) →
      ∃ t, Answers (.lockLoss n at_) s t ∧ t.fld (F.HEAD_STATE_state n) = t.fld (F.HEAD_CFG_enable n) ∧ (t.port n).sent = none
        ∧ (t.port n).queue = [] ∧ t.fld (F.HEAD_ERR_lock_loss n) = 1
        ∧ ((∀ v, v < 4 → s.sensorFrames (s.primary n) v = []) → SameMemory s t
          ∧ t.fld (F.HEAD_CFG_enable n) = s.fld (F.HEAD_CFG_enable n)
          ∧ t.fld (F.HEAD_LOCK_LOSS_count n) = min (s.fld (F.HEAD_LOCK_LOSS_count n) + 1) (2 ^ 32 - 1))))
  ∧ (∀ (n at_ : Nat) (rest payload : List Byte) (s : State), n < 8 → s.fld (F.HEAD_STATE_state n) = 3 → (s.port n).cap = none →
    Received s n 4 (0x04#8 :: rest) payload →
    let ports := s.sensorPorts n
    ∃ t, Answers (.capability n at_ rest) s t ∧ SameMemory s t ∧ (t.port n).cap = some payload
      ∧ (∀ k, k < 48 → t.rd (R.HEAD_CAP n k) = beAt payload (4 * k) 4)
      ∧ ((∃ q ∈ ports, q ≠ n ∧ (s.port q).cap = none) → t.fld (F.HEAD_STATE_state n) = 3)
      ∧ (∀ p, ports.head? = some p → (∀ q ∈ ports, q ≠ n → (s.port q).cap = some payload) →
          t.fld (F.HEAD_STATE_state n) = if s.capsPass p ports.length payload then 4 else 5)))
  ∧ (∀ (n at_ : Nat) (pkt : List Byte) (framed : Bool) (s : State), n < 8 → s.runs .head = true →
    3 ≤ s.fld (F.HEAD_STATE_state n) → s.fld (F.HEAD_STATE_state n) ≤ 5 → 16 ≤ pkt.length → crc8 (pkt.take 15) ≠ beAt pkt 15 1 →
    ∃ t, Answers (.badHeadPacket n at_ pkt framed) s t ∧ (t.port n).hunting = true
      ∧ t.fld (F.HEAD_HCRC_BAD_count n) = min (s.fld (F.HEAD_HCRC_BAD_count n) + 1) (2 ^ 32 - 1) ∧ t.fld (F.HEAD_ERR_hcrc n) = 1
      ∧ t.cam.ctxs = s.cam.ctxs ∧ t.cam.streams = s.cam.streams ∧ (t.port n).queue = (s.port n).queue
      ∧ RegsBut [R.HEAD_HCRC_BAD n, R.HEAD_ERR n] s t ∧ SameMemory s t)

/-- A FRAME_START of a READY port opens a frame under the generation that R172 binds, with its start-of-frame time; a LINE that follows what the line holds stores its photosites at their place; the last FRAME_END closes a whole frame; the ingress deadline closes an open one with what arrived; each close is journalled (R92, R133, R145, R146, R147, R148, R172). -/
def Obligations.HeadFrames : Prop :=
  (∀ (n at_ : Nat) (rest payload : List Byte) (s : State), n < 8 → s.fld (F.HEAD_STATE_state n) = 4 → Leads s →
    Received s n 1 (0x01#8 :: rest) payload →
    let v := beAt rest 0 1 / 64
    let tag := beAt rest 1 2
    let p := s.primary n
    let c := s.fld (F.HEAD_VS_MAP_ctx p v)
    let sof := ((at_ : Int) - signedOf 16 (s.fld (F.HEAD_SOF_ADJ_adj_ns n))).toNat
    let g := match newestBefore (s.ctx c).pend sof with
      | some i => ((s.ctx c).pend.map (fun e => e.1)).getD i (s.ctx c).active
      | none => (s.ctx c).active
    s.sensorOn p v = true → (∀ e ∈ s.sensorFrames p v, e.2.tag ≠ tag) → (s.sensorFrames p v).length < 2 →
    tag ∉ (s.sensor p v).dropped → s.openFrame c tag = none → (∀ f ∈ (s.ctx c).frames, f.bound = true) → declRun g c = true →
    (s.shape 9 c).isSome = true → .head ∉ s.rig.stopping →
    ∃ t f, Answers (.frameStart n at_ rest) s t ∧ t.openFrame c tag = some f ∧ f.port = p ∧ f.vs = v ∧ f.bound = true
      ∧ f.fs = frameStartOf payload ∧ f.gen = g ∧ (t.ctx c).active = g ∧ f.got = [] ∧ f.sof = sof
      ∧ t.fld (F.HEAD_VS_STATUS_last_tag p v) = tag ∧ SameMemory s t)
  ∧ (∀ (n at_ c line : Nat) (f : CamFrame) (rest payload : List Byte) (s : State), n < 8 → s.fld (F.HEAD_STATE_state n) = 4 → Leads s →
    Received s n 2 (0x02#8 :: rest) payload → s.packetFrame n (beAt rest 0 1 / 64) f.tag = some (c, f) → s.openFrame c f.tag = some f →
    let first := beAt rest 5 2
    let count := beAt rest 7 2
    let w := declW f.intake c
    beAt rest 1 2 = f.tag → beAt rest 3 2 = line → f.count line = first → first + count ≤ w → n ∈ f.ports → f.stopped = 0 →
    line < declH f.intake c → f.linesSent = none →
    (∀ l, l < line → l % f.ports.length = f.ports.idxOf n → f.count l = w) →
    f.link ≠ none → (line ∈ f.held ∨ s.slotBusy c f line = false) → f.flags.testBit 6 = false →
    ∃ t g, Answers (.line n at_ rest) s t ∧ t.openFrame c f.tag = some g ∧ g.count line = first + count ∧ line ∈ g.held
      ∧ g.flags = f.flags ∧ t.dram = s.dram
      ∧ (s.rig.zeroing = [] → s.rig.zeroWait = [] → (f.slotPos line + 2 * first) % bankBytes + 2 * count ≤ bankBytes →
        t.poolRead (f.banks.getD ((f.slotPos line + 2 * first) / bankBytes) 0 * bankBytes + (f.slotPos line + 2 * first) % bankBytes)
            (2 * count)
          = (unpackSites payload f.fs.bits count).flatMap (fun x => leBytes 2 (x * 2 ^ (16 - f.fs.bits)))))
  ∧ (∀ (n at_ c : Nat) (f : CamFrame) (rest payload : List Byte) (s : State), n < 8 → s.fld (F.HEAD_STATE_state n) = 4 → Leads s →
    Received s n 3 (0x03#8 :: rest) payload → s.packetFrame n (beAt rest 0 1 / 64) f.tag = some (c, f) →
    (s.ctx c).frames.filter (fun g => g.isOpen && g.tag = f.tag) = [f] → beAt rest 1 2 = f.tag → f.stopped = 0 →
    (∀ q ∈ f.ports, q = n ∨ q ∈ f.ended) → f.linesSent.getD (beAt payload 0 2) = declH f.intake c →
    f.accepted c = declH f.intake c → c < 16 →
    ∃ t e, Answers (.frameEnd n at_ rest) s t ∧ t.openFrame c f.tag = none ∧ e ∈ t.jnl.applied ∧ e.kind = 1 ∧ e.unit = c
      ∧ e.frame = f.tag ∧ e.a = declH f.intake c ∧ e.b = 0 ∧ SameMemory s t)
  ∧ (∀ (c d also : Nat) (f : CamFrame) (s : State), c < 16 → Leads s →
    (s.ctx c).frames.filter (fun g => g.isOpen && g.tag = f.tag) = [f] → s.boundary 1 c = some d →
    ∃ t e, Answers (.ingressDeadline c f.tag also) s t ∧ t.openFrame c f.tag = none ∧ e ∈ t.jnl.applied ∧ e.kind = 1 ∧ e.unit = c
      ∧ e.frame = f.tag ∧ e.a = f.accepted c ∧ e.b = (2 ||| (also &&& 5)) ∧ SameMemory s t
      ∧ (s.runs .anchor = true → f.sof + d ≤ t.nowNs))

/-- An explicit exposure command on a READY port with room takes the next command number; with none before it, it goes out at once, its packet laid out as R127 to R129 and R138 say, and is shown SENT, and behind another it is queued; on a port that is not READY it is REFUSED; its ACK ends it with the outcome, and the next one goes out; a timeout sends it again up to three times and then ends it NO_ACK; enabling or disabling a sensor sends START or STOP to every port of it (R135, R138, R139, R151, R152, R159, R160). -/
def Obligations.HeadCommands : Prop :=
  (∀ (m : Master) (n w : Nat) (v : Word) (s : State), n < 8 → w < 4 → Admitted s m (R.HEAD_VS_EXP_CTRL n w) → s.sensorUnused n w = false →
    v.toNat.testBit 16 = true →
    (s.fld (F.HEAD_STATE_state n) = 4 → s.expFull n = false →
      let c : ExpCmd := ⟨w, (s.port n).nextSeq, bitsOf v.toNat 15 0, false, s.rd (R.HEAD_VS_EXP_NS n w),
        s.fld (F.HEAD_VS_EXP_GAIN_gain n w), s.rd (R.HEAD_VS_EXP_PARAM0 n w), s.rd (R.HEAD_VS_EXP_PARAM1 n w)⟩
      ∃ t, Answers (.exposure m n w v) s t ∧ (t.port n).nextSeq = ((s.port n).nextSeq + 1) % 65536
        ∧ mapFind (t.port n).latest w = some c ∧ SameMemory s t
        ∧ ((s.port n).sent = none → (s.port n).queue = [] → (t.port n).sent = some (c, 1) ∧ (t.port n).queue = []
          ∧ .exposure n (s.port n).txSeq c ∈ t.out
          ∧ .gypol n (gypolPacket 0x81 w (bitsOf v.toNat 15 0) (s.port n).txSeq (exposurePayload c)) ∈ t.out
          ∧ t.fld (F.HEAD_VS_EXP_STATUS_state n w) = 2 ∧ t.fld (F.HEAD_VS_EXP_STATUS_target n w) = bitsOf v.toNat 15 0
          ∧ RegsBut [R.HEAD_VS_EXP_CTRL n w, R.HEAD_VS_EXP_STATUS n w] s t)
        ∧ ((s.port n).sent ≠ none → (t.port n).sent = (s.port n).sent ∧ (t.port n).queue = (s.port n).queue ++ [c]
          ∧ t.fld (F.HEAD_VS_EXP_STATUS_state n w) = 1 ∧ t.fld (F.HEAD_VS_EXP_STATUS_target n w) = bitsOf v.toNat 15 0))
    ∧ (s.fld (F.HEAD_STATE_state n) ≠ 4 →
      ∃ t, Answers (.exposure m n w v) s t ∧ t.fld (F.HEAD_VS_EXP_STATUS_state n w) = 5
        ∧ t.fld (F.HEAD_VS_EXP_STATUS_target n w) = bitsOf v.toNat 15 0 ∧ (t.port n).queue = (s.port n).queue
        ∧ (t.port n).sent = (s.port n).sent ∧ RegsBut [R.HEAD_VS_EXP_CTRL n w, R.HEAD_VS_EXP_STATUS n w] s t ∧ SameMemory s t))
  ∧ (∀ (n at_ k : Nat) (c : ExpCmd) (rest payload : List Byte) (s : State), n < 8 → s.fld (F.HEAD_STATE_state n) = 4 →
    Received s n 5 (0x05#8 :: rest) payload → (s.port n).sent = some (c, k) → beAt payload 0 2 = c.seq → beAt payload 2 1 ≤ 2 →
    ∃ t, Answers (.ack n at_ rest) s t ∧ (t.port n).sent = ((s.port n).queue.head?).map (fun d => (d, 1))
      ∧ (t.port n).queue = (s.port n).queue.tail ∧ SameMemory s t
      ∧ ((s.port n).queue = [] → mapFind (s.port n).latest c.vs = some c →
        t.fld (F.HEAD_VS_EXP_STATUS_state n c.vs) = 3 + beAt payload 2 1))
  ∧ (∀ (n k : Nat) (c : ExpCmd) (s : State), n < 8 → s.held .head = false → (s.port n).sent = some (c, k) →
    ∃ t, Answers (.ackTimeout n) s t ∧ SameMemory s t ∧
      if k < 4 then (t.port n).sent = some (c, k + 1) ∧ (t.port n).queue = (s.port n).queue ∧ .exposure n (s.port n).txSeq c ∈ t.out
        ∧ .gypol n (gypolPacket 0x81 c.vs c.target (s.port n).txSeq (exposurePayload c)) ∈ t.out
      else (t.port n).sent = ((s.port n).queue.head?).map (fun d => (d, 1)) ∧ (t.port n).queue = (s.port n).queue.tail
        ∧ t.fld (F.HEAD_ERR_no_ack n) = 1)
  ∧ (∀ (m : Master) (n w : Nat) (v : Word) (s : State), n < 8 → w < 4 → Admitted s m (R.HEAD_VS_MAP n w) → s.sensorUnused n w = false →
    s.fld (F.HEAD_STATE_state n) = 4 →
    (∃ t, Answers (.controlStart m n w v) s t ∧ t.fld (F.HEAD_VS_MAP_enable n w) = 1 ∧ RegsBut [R.HEAD_VS_MAP n w] s t ∧ SameMemory s t
      ∧ ∀ q ∈ s.sensorPorts n, .control q (s.port q).txSeq 1 (2 ^ w) ∈ t.out
        ∧ .gypol q (gypolPacket 0x82 0 0 (s.port q).txSeq (controlPayload 1 (2 ^ w))) ∈ t.out)
    ∧ (∃ t, Answers (.controlStop m n w v) s t ∧ t.fld (F.HEAD_VS_MAP_enable n w) = 0 ∧ RegsBut [R.HEAD_VS_MAP n w] s t ∧ SameMemory s t
      ∧ ∀ q ∈ s.sensorPorts n, .control q (s.port q).txSeq 2 (2 ^ w) ∈ t.out
        ∧ .gypol q (gypolPacket 0x82 0 0 (s.port q).txSeq (controlPayload 2 (2 ^ w))) ∈ t.out))

/-- A commit that passes every check is the context's pending generation under the next number, or while the bindings are followed the newest of up to four that are held; one that fails shows the failing check's code, raises the context's event and changes no generation. No frame that is bound changes (R171, R172, R212, R230, R231). -/
def Obligations.DeveloperCommits : Prop :=
  ∀ (m : Master) (c : Nat) (v : Word) (s : State), c < 16 → Admitted s m (R.DEV_CTX_CTRL c) → s.shape 9 c ≠ none →
    (∀ f ∈ (s.ctx c).frames, f.bound = true) →
    let b := s.snap (R.DEV_CTX_SIZE c) (R.DEV_CTX_CTRL (c + 1))
    let os := ((List.range 8).map (fun k => (k, s.snap (R.DEV_OS_CTRL k) (R.DEV_OS_STATUS k)))).filter (fun e =>
      bankFld e.2 (F.DEV_OS_CTRL_src e.1) = c)
    let g := (s.fld (F.DEV_CTX_GEN_PEND_value c) + 1) % 2 ^ 32
    ∃ t, Answers (.devCommit m c v) s t ∧ SameMemory s t ∧ (t.ctx c).active = (s.ctx c).active ∧ (t.ctx c).frames = (s.ctx c).frames ∧
      RegsBut [R.DEV_CTX_GEN_PEND c, R.DEV_CTX_STATUS c, R.DEV_REFUSE_DETAIL c, R.DEV_EVT] s t ∧
      match s.commitChecks c b os with
      | none => t.fld (F.DEV_CTX_GEN_PEND_value c) = g
          ∧ (t.ctx c).pend = (if s.follows 7 s.nowNs then ((s.ctx c).pend ++ [((⟨g, b, os⟩ : DevGen), s.nowNs)]).drop ((s.ctx c).pend.length - 3)
            else [(⟨g, b, os⟩, s.nowNs)])
          ∧ t.fld (F.DEV_CTX_STATUS_commit_state c) = 1 ∧ t.rd (R.DEV_REFUSE_DETAIL c) = 0
      | some r => (t.ctx c).pend = (s.ctx c).pend ∧ t.fld (F.DEV_CTX_GEN_PEND_value c) = s.fld (F.DEV_CTX_GEN_PEND_value c)
          ∧ t.fld (F.DEV_CTX_STATUS_commit_state c) = r.state ∧ t.fld ⟨R.DEV_EVT, 16 + c, 16 + c⟩ = 1

/-- A ready stripe of the first frame with work completes: the frame's count of stripes grows by one and the lines that no later stripe reads are released; after the last stripe the context shows the frame's tag and its count of lines. The pool keeps its bytes. The contact sheet of the oldest frame that owes one is written to its slot and its number counts on; a finished output frame shows its tag, buffer and generation together and completes its digest (R166, R168, R169, R102, R185, R186, R190, R234). -/
def Obligations.DeveloperWork : Prop :=
  (∀ (c : Nat) (a b : List CamFrame) (f : CamFrame) (s : State), c < 16 → s.runs .dev = true → (s.ctx c).frames = a ++ f :: b →
    (∀ e ∈ a, e.link = none ∨ e.developed c = true) → f.link.isSome = true → f.developed c = false →
    s.stripeReady c f = true → s.senderBlocked .dev (fun _ => true) = false → 0 < declH f.gen c →
    ∃ t, Answers (.stripe c) s t ∧ t.pool = s.pool ∧
      if 64 * f.stripes + 64 < declH f.gen c then
        ∃ g, (t.ctx c).frames = a ++ g :: b ∧ g.tag = f.tag ∧ g.stripes = f.stripes + 1 ∧ g.got = f.got ∧ g.isOpen = f.isOpen
          ∧ (∀ l, l ∈ g.held ↔ l ∈ f.held ∧ 64 * f.stripes + 59 ≤ l)
      else t.fld (F.DEV_CTX_LAST_tag c) = f.tag % 65536
        ∧ t.fld (F.DEV_CTX_LAST_lines c) = (if f.isOpen then f.accepted c else f.lines) % 65536
        ∧ (∀ g ∈ (t.ctx c).frames, (g.tag = f.tag ∧ g.stripes = f.stripes + 1 ∧ g.held = [])
          ∨ ∃ e ∈ a ++ b, g.tag = e.tag ∧ g.stripes = e.stripes ∧ g.held = e.held))
  ∧ ((∀ (c : Nat) (f : CamFrame) (k : Contact) (s : State), c < 16 → s.runs .dev = true →
    (s.ctx c).frames.find? (fun f => f.stats.isSome && !f.recorded) = some f → f.finished = true → f.stats = some k →
    let b := f.gen.regs
    let a := bankAddr b (R.DEV_CTX_STAT_LO c) (R.DEV_CTX_STAT_HI c)
      + 65536 * ((s.ctx c).statSeq % 2 ^ bankFld b (F.DEV_CTX_STAT_CTRL_log_slots c))
    let r := contactRecord c f k (s.ctx c).statSeq
    ∃ t, Answers (.contactSheetRecord c) s t ∧ t.dramRead a r.length = r ∧ t.pool = s.pool
      ∧ (DramIdle s → ∀ x, x < a ∨ a + r.length ≤ x → memGet t.dram x = memGet s.dram x)
      ∧ (t.ctx c).statSeq = ((s.ctx c).statSeq + 1) % 2 ^ 32 ∧ t.rd (R.DEV_CTX_STAT_SEQ c) = ((s.ctx c).statSeq + 1) % 2 ^ 32
      ∧ t.fld ⟨R.DEV_EVT, c, c⟩ = 1)
  ∧ (∀ (c k : Nat) (f : CamFrame) (o : OutFrame) (s : State), k < 8 → s.runs .dev = true →
    (List.range 16).findSome? (fun i => ((s.ctx i).frames.find? (fun g => g.finished && g.outs.any (fun o => o.stream = k && !o.complete))).map
      (fun g => (i, g))) = some (c, f) → f.outs.find? (fun o => o.stream = k) = some o →
    ∃ t, Answers (.outputFrameComplete k) s t ∧ SameMemory s t ∧ t.fld (F.DEV_OS_STATUS_tag k) = f.tag % 65536
      ∧ t.fld (F.DEV_OS_STATUS_buf k) = o.num % max 1 (osBufs o.bank k) % 4 ∧ t.rd (R.DEV_OS_GEN k) = f.gen.num % 2 ^ 32
      ∧ mapFind t.jnl.digests (256 + k) = some ⟨o.num, o.crc ^^^ 0xFFFFFFFFFFFFFFFF, f.excluded, f.replayed, f.override⟩
      ∧ RegsBut [R.DEV_OS_STATUS k, R.DEV_OS_GEN k] s t))

/-- A submission tail within the ring is taken and one beyond it is bad_tail; the completion head is taken; a queue that R267 permits is enabled and any other is bad_cfg; a reset waits for a job in progress, and with none ends at once with the queue empty, disabled and its dropped descriptors counted (R254, R255, R267, R268). -/
def Obligations.RawQueues : Prop :=
  ∀ (m : Master) (q : Nat) (v : Word) (s : State), q < 32 →
    (Admitted s m (R.RAWC_Q_SQ_TAIL q) → s.fld (F.RAWC_Q_STATUS_resetting q) = 0 →
      ∃ t, Answers (.rawcSqTail m q v) s t ∧ OnlyRegs [R.RAWC_Q_SQ_TAIL q, R.RAWC_Q_STATUS q] s t ∧
        if ringDist (v.toNat % 65536) (s.fld (F.RAWC_Q_SQ_HEAD_index q)) ≤ s.rawRing q then
          t.fld (F.RAWC_Q_SQ_TAIL_index q) = v.toNat % 65536
        else t.fld (F.RAWC_Q_SQ_TAIL_index q) = s.fld (F.RAWC_Q_SQ_TAIL_index q) ∧ t.fld (F.RAWC_Q_STATUS_bad_tail q) = 1)
    ∧ (Admitted s m (R.RAWC_Q_CQ_HEAD q) → s.fld (F.RAWC_Q_STATUS_resetting q) = 0 →
      ∃ t, Answers (.rawcCqHead m q v) s t ∧ OnlyRegs [R.RAWC_Q_CQ_HEAD q] s t ∧ t.fld (F.RAWC_Q_CQ_HEAD_index q) = v.toNat % 65536)
    ∧ (∀ h, Admitted s m (R.RAWC_Q_CTRL q) → s.rawShape q = some h →
      ∃ t, Answers (.rawcQueueEnable m q v) s t ∧ OnlyRegs [R.RAWC_Q_CTRL q, R.RAWC_Q_STATUS q] s t ∧
        if v.toNat % 2 = 0 then t.fld (F.RAWC_Q_CTRL_enable q) = 0
        else if s.fld (F.RAWC_Q_CTRL_enable q) = 1 then OnlyRegs [] s t
        else if s.rawCfgOk q h then t.fld (F.RAWC_Q_CTRL_enable q) = 1
        else t.fld (F.RAWC_Q_CTRL_enable q) = 0 ∧ t.fld (F.RAWC_Q_STATUS_bad_cfg q) = 1)
    ∧ (Admitted s m (R.RAWC_Q_CTRL q) → (s.rawq q).job ≠ none →
      ∃ t, Answers (.rawcQueueReset m q v) s t ∧ t.fld (F.RAWC_Q_STATUS_resetting q) = 1
        ∧ OnlyRegs [R.RAWC_Q_CTRL q, R.RAWC_Q_STATUS q, R.RIG_STATUS] s t)
    ∧ (Admitted s m (R.RAWC_Q_CTRL q) → (s.rawq q).job = none →
      ∃ t, Answers (.rawcQueueReset m q v) s t ∧ SameMemory s t ∧ t.fld (F.RAWC_Q_CTRL_enable q) = 0
        ∧ t.fld (F.RAWC_Q_STATUS_resetting q) = 0 ∧ t.fld (F.RAWC_Q_SQ_HEAD_index q) = 0 ∧ t.fld (F.RAWC_Q_SQ_TAIL_index q) = 0
        ∧ t.fld (F.RAWC_Q_CQ_HEAD_index q) = 0 ∧ t.fld (F.RAWC_Q_CQ_TAIL_index q) = 0 ∧ t.fld (F.RAWC_Q_NEXT_SEQ_value q) = 0
        ∧ t.fld (F.RAWC_Q_DROPPED_index q) = ringDist (s.fld (F.RAWC_Q_SQ_TAIL_index q)) (s.fld (F.RAWC_Q_SQ_HEAD_index q))
        ∧ RegsBut [R.RAWC_Q_CTRL q, R.RAWC_Q_STATUS q, R.RAWC_Q_SQ_HEAD q, R.RAWC_Q_SQ_TAIL q, R.RAWC_Q_CQ_HEAD q, R.RAWC_Q_CQ_TAIL q,
            R.RAWC_Q_NEXT_SEQ q, R.RAWC_Q_DROPPED q, R.RIG_STATUS] s t)

/-- A queue takes its next descriptor as a job, refused with the first breach of R256; a tap frame starts a job in the next slot or is ignored and counted; a compressed block is stored at its place or the job ends short of room, and a decompressed one is counted or ends the job likewise; a finished job posts its completion entry and is counted. Errors that the DRAM reads meet are recorded in its registers alone, and with no request waiting there no other byte of DRAM changes (R239, R251, R252, R254, R255, R256, R257, R258, R260, R264). -/
def Obligations.RawJobs : Prop :=
  (∀ (q : Nat) (h : Shape) (s : State), q < 32 → s.rawShape q = some h → h.tap = false → s.rawTakes q = true →
    let l := (s.dramFetch (s.rawBase (F.RAWC_Q_SQ_LO_base_lo q) (F.RAWC_Q_SQ_HI_base_hi q)
      + 64 * (s.fld (F.RAWC_Q_SQ_HEAD_index q) % s.rawRing q)) 64).1
    let j := descriptorJob l
    ∃ t k, Answers (if leAt l 0 1 = 2 then .decompress q else .compress q) s t ∧ (t.rawq q).job = some k ∧ k.id = j.id
      ∧ k.irq = j.irq ∧ k.src = j.src ∧ k.dst = j.dst ∧ k.limit = j.limit ∧ k.next = 0 ∧ k.written = []
      ∧ k.decode = decide (leAt l 0 1 = 2) ∧ t.fld (F.RAWC_Q_SQ_HEAD_index q) = (s.fld (F.RAWC_Q_SQ_HEAD_index q) + 1) % 65536
      ∧ t.fld (F.RAWC_Q_STATUS_busy q) = 1 ∧ (DramIdle s → SameMemory s t)
      ∧ RegsBut ([R.RAWC_Q_SQ_HEAD q, R.RAWC_Q_STATUS q] ++ dramErrRegs) s t
      ∧ (∀ st, fieldChecks h l = some st → k.status = some st)
      ∧ (fieldChecks h l = none → leAt l 0 1 ≠ 2 → k.status = s.rangeChecks q j (leAt l 24 4)
          ∧ (k.status = none → k.count = blockCount j.width j.height ∧ k.place = indexLen (blockCount j.width j.height))))
  ∧ (∀ (q id : Nat) (tok : Token) (rest : List Token) (s : State), q < 32 → s.tapStrand q = some id → s.strandStream id = tok :: rest →
    s.runs .rawc = true → (s.rawq q).job = none → (s.rawq q).ignoring = false → tokenField tok 7 0 = 1 →
    ∃ t, Answers (.tapFrame q) s t ∧ SameMemory s t ∧ RegsBut [R.RAWC_Q_STATUS q, R.RAWC_Q_IGNORED q] s t ∧
      if s.fld (F.RAWC_Q_CTRL_enable q) = 1 ∧ s.fld (F.RAWC_Q_STATUS_resetting q) = 0 then
        (∃ j, (t.rawq q).job = some j ∧ { s.tapJob q tok with ended := j.ended, lines := j.lines, fflags := j.fflags, marks := j.marks } = j
            ∧ (rest = [] → j = s.tapJob q tok))
          ∧ (t.rawq q).taps = (s.rawq q).taps + 1 ∧ t.fld (F.RAWC_Q_STATUS_busy q) = 1
          ∧ t.rd (R.RAWC_Q_IGNORED q) = s.rd (R.RAWC_Q_IGNORED q)
      else (t.rawq q).job = none ∧ (t.rawq q).taps = (s.rawq q).taps
        ∧ t.fld (F.RAWC_Q_IGNORED_count q) = min (s.fld (F.RAWC_Q_IGNORED_count q) + 1) (2 ^ 32 - 1))
  ∧ (∀ (q : Nat) (j : RawJob) (s : State), q < 32 →
    let s1 := s.rawIntake q
    (s1.rawq q).job = some j → s1.rawReady q false = true →
    let p := blockPlace j.width j.height j.next
    let rows := ((s1.rawLines q j p).1.map List.toArray).toArray
    let b := codeBlock j.bits j.cfa j.tag p (fun x y => ((rows.getD y #[]).getD x 0) >>> (16 - j.bits))
    ∃ t k, Answers (.negativeBlock q) s t ∧ (t.rawq q).job = some k ∧ t.pool = s.pool ∧ k.id = j.id ∧
      if j.limit < j.place + b.length then k.status = some 3 ∧ k.next = j.next ∧ k.written = j.written ∧ (DramIdle s → t.dram = s.dram)
        ∧ RegsBut dramErrRegs s t
      else t.dramRead (j.dst + j.place) b.length = b ∧ k.next = j.next + 1 ∧ k.place = j.place + b.length
        ∧ k.entries = j.entries ++ [(j.place, b.length / 8)] ∧ k.status = (if j.next + 1 = j.count then some 0 else none)
        ∧ (DramIdle s → ∀ x, x < j.dst + j.place ∨ j.dst + j.place + b.length ≤ x → memGet t.dram x = memGet s.dram x)
        ∧ t.fld F.RAWC_CBLK_count = min (s.fld F.RAWC_CBLK_count + 1) (2 ^ 32 - 1) ∧ RegsBut (R.RAWC_CBLK :: dramErrRegs) s t)
  ∧ (∀ (q : Nat) (j : RawJob) (s : State), q < 32 →
    let s1 := s.rawIntake q
    (s1.rawq q).job = some j → s1.rawReady q true = true →
    let p := blockPlace j.width j.height (j.first + j.next)
    let y0 := 16 * (j.first / blockCols j.width)
    let e := j.entries.getD j.next (0, 0)
    ∃ t k, Answers (.negativeBlock q) s t ∧ (t.rawq q).job = some k ∧ t.pool = s.pool ∧ k.id = j.id ∧
      if j.limit ≤ j.dstPitch * (16 * p.by_ + (p.bh - 1) - y0) + 2048 * p.bx + 2 * p.bw - 1 then
        k = { j with status := some 4 } ∧ t.dram = s.dram ∧ RegsBut [] s t
      else k.next = j.next + 1 ∧ k.consumed = j.consumed + 8 * e.2
        ∧ t.fld F.RAWC_DBLK_count = min (s.fld F.RAWC_DBLK_count + 1) (2 ^ 32 - 1) ∧ RegsBut (R.RAWC_DBLK :: dramErrRegs) s t
        ∧ k.bad = j.bad + (if decodeBlock j.bits j.cfa j.tag p (s1.dramFetch (j.src + e.1) (8 * e.2)).1 = none then 1 else 0)
        ∧ k.status = (if j.next + 1 = j.count then some (if k.bad = 0 then 0 else 6) else none))
  ∧ (∀ (q st : Nat) (j : RawJob) (s : State), q < 32 →
    let s1 := s.rawIntake q
    (s1.rawq q).job = some j → j.status = some st → j.ended = true → s.runs .rawc = true → s.fld (F.RAWC_Q_STATUS_resetting q) = 0 →
    let a := s.rawBase (F.RAWC_Q_CQ_LO_base_lo q) (F.RAWC_Q_CQ_HI_base_hi q) + 32 * (s.fld (F.RAWC_Q_CQ_TAIL_index q) % s.rawRing q)
    let k := if st = 0 ∧ j.decode = false then (s1.writeIndex q j).1 else j
    ∃ t, Answers (.rawcCompletion q) s t ∧ (t.rawq q).job = none ∧ t.fld (F.RAWC_Q_STATUS_busy q) = 0 ∧ t.pool = s.pool
      ∧ t.dramRead a 32 = completionBytes q s k st
      ∧ (∀ x, (x < a ∨ a + 32 ≤ x) → st = 3 ∨ st = 4 → DramIdle s →
          memGet t.dram x = if j.dst ≤ x ∧ x < j.dst + j.limit then 0 else memGet s.dram x)
      ∧ (∀ x, (x < a ∨ a + 32 ≤ x) → st ≠ 3 → st ≠ 4 → DramIdle s → (∀ w, k.written = w :: j.written → x < j.dst ∨ j.dst + w.2.length ≤ x) →
          memGet t.dram x = memGet s.dram x)
      ∧ t.fld (F.RAWC_Q_CQ_TAIL_index q) = (s.fld (F.RAWC_Q_CQ_TAIL_index q) + 1) % 65536
      ∧ t.fld (F.RAWC_Q_NEXT_SEQ_value q) = (s.fld (F.RAWC_Q_NEXT_SEQ_value q) + 1) % 2 ^ 32
      ∧ (j.irq = true → t.fld ⟨R.RAWC_EVT, q, q⟩ = 1)
      ∧ (∃ d, mapFind t.jnl.digests (1024 + q) = some d ∧ d.num = s.fld (F.RAWC_Q_NEXT_SEQ_value q) ∧ (st ≠ 0 → st ≠ 6 → d.val = 0))
      ∧ RegsBut ([R.RAWC_Q_CQ_TAIL q, R.RAWC_Q_NEXT_SEQ q, R.RAWC_Q_JOBS q, R.RAWC_Q_FAILED q, R.RAWC_Q_DAMAGED q, R.RAWC_EVT,
          R.RAWC_Q_STATUS q] ++ dramErrRegs) s t)

/-- A session commit that passes is pending under the next number and one that fails shows its code; a reset of an idle session clears it and frees its buffers, and one of a busy session waits; the pool is enabled only when R285 holds and no session runs, and disabling frees every buffer; a quota within R287 is taken; a submission tail within the ring is taken (R282, R285, R286, R287, R288, R299, R304, R308). -/
def Obligations.CodingSessions : Prop :=
  ∀ (m : Master) (k : Nat) (v : Word) (h : Shape) (s : State), k < 64 → s.shape 11 k = some h →
    (Admitted s m (R.HEVC_SES_CTRL k) → bitsOf v.toNat 1 1 = 0 → (s.ses k).hold = none →
      let b := s.snap (R.HEVC_SES_SIZE k) (R.HEVC_SES_OUT_STRIDE k + 4)
      let g := (s.fld (F.HEVC_SES_GEN_PEND_value k) + 1) % 2 ^ 32
      ∃ t, Answers (.hevcCommit m k v) s t ∧ SameMemory s t ∧ RegsBut [R.HEVC_SES_GEN_PEND k, R.HEVC_SES_STATUS k] s t ∧
        match s.hevcChecks k h b with
        | none => t.ses k = { s.ses k with pend := if s.follows 7 s.nowNs
              then ((s.ses k).pend ++ [(⟨g, b⟩ : HevcGen)]).drop ((s.ses k).pend.length - 3) else [⟨g, b⟩] }
            ∧ t.fld (F.HEVC_SES_GEN_PEND_value k) = g ∧ t.fld (F.HEVC_SES_STATUS_commit_state k) = 1
        | some code => t.ses k = s.ses k ∧ t.fld (F.HEVC_SES_STATUS_commit_state k) = code
            ∧ t.rd (R.HEVC_SES_GEN_PEND k) = s.rd (R.HEVC_SES_GEN_PEND k))
    ∧ (Admitted s m (R.HEVC_SES_CTRL k) → bitsOf v.toNat 0 0 = 0 →
      ∃ t, Answers (.hevcSessionReset m k v) s t ∧ SameMemory s t ∧
        if (s.ses k).busy then t.fld (F.HEVC_SES_STATUS_resetting k) = 1 ∧ OnlyRegs [R.HEVC_SES_STATUS k] s t
        else t.ses k = { HevcSes.clear with skip := (s.ses k).skip }
          ∧ t.heldBufs k = [] ∧ t.fld (F.HEVC_SES_STATUS_resetting k) = 0 ∧ t.fld (F.HEVC_SES_STATUS_running k) = 0
          ∧ t.fld (F.HEVC_SES_SQ_HEAD_index k) = 0 ∧ t.fld (F.HEVC_SES_SQ_TAIL_index k) = 0 ∧ t.rd (R.HEVC_SES_NEXT_SEQ k) = 0
          ∧ t.fld (F.HEVC_SES_DROPPED_dropped k)
            = ringDist (s.fld (F.HEVC_SES_SQ_TAIL_index k)) (s.fld (F.HEVC_SES_SQ_HEAD_index k)))
    ∧ (Admitted s m R.HEVC_POOL_CTRL →
      ∃ t, Answers (.hevcPoolEnable m v) s t ∧ SameMemory s t ∧
        if s.anyRuns then t.fld F.HEVC_POOL_STATUS_bad_cfg = 1 ∧ OnlyRegs [R.HEVC_POOL_STATUS] s t
        else if v.toNat % 2 = 0 then t.fld F.HEVC_POOL_CTRL_enable = 0 ∧ t.fld F.HEVC_POOL_STATUS_free = 0
          ∧ ∀ n, n < 512 → t.rd (R.HEVC_POOL_MARK n) = 0
        else if s.poolOk then t.fld F.HEVC_POOL_CTRL_enable = 1
        else t.fld F.HEVC_POOL_CTRL_enable = s.fld F.HEVC_POOL_CTRL_enable ∧ t.fld F.HEVC_POOL_STATUS_bad_cfg = 1)
    ∧ (Admitted s m (R.HEVC_SES_QUOTA k) →
      let quota := v.toNat % 1024
      let sum := ((List.range 64).map (fun j => if j = k then quota else s.fld (F.HEVC_SES_QUOTA_quota j))).sum
      ∃ t, Answers (.quotaWrite m k v) s t ∧ OnlyRegs [R.HEVC_SES_QUOTA k, R.HEVC_POOL_STATUS] s t ∧
        if quota ≤ 512 ∧ sum ≤ s.fld F.HEVC_POOL_COUNT_count
            ∧ (genRuns (s.ses k).active k = true → (s.heldBufs k).length ≤ quota) then
          t.fld (F.HEVC_SES_QUOTA_quota k) = quota ∧ t.fld F.HEVC_POOL_STATUS_quota_sum = sum
        else t.rd (R.HEVC_SES_QUOTA k) = s.rd (R.HEVC_SES_QUOTA k) ∧ t.fld F.HEVC_POOL_STATUS_quota_busy = 1)
    ∧ (Admitted s m (R.HEVC_SES_SQ_TAIL k) → s.fld (F.HEVC_SES_STATUS_resetting k) = 0 →
      ∃ t, Answers (.hevcSqTail m k v) s t ∧ OnlyRegs [R.HEVC_SES_SQ_TAIL k, R.HEVC_SES_STATUS k] s t ∧
        if ringDist (v.toNat % 65536) (s.fld (F.HEVC_SES_SQ_HEAD_index k)) ≤ s.sesRing k then
          t.fld (F.HEVC_SES_SQ_TAIL_index k) = v.toNat % 65536
        else t.fld (F.HEVC_SES_SQ_TAIL_index k) = s.fld (F.HEVC_SES_SQ_TAIL_index k) ∧ t.fld (F.HEVC_SES_STATUS_bad_tail k) = 1)

/-- A memory-fed session takes its next descriptor: a good PICTURE becomes the picture in progress, an access unit is accepted whole with its entry, a bad one leaves a record, and one bound to a generation that does not run is discarded; a strand frame of the session's format becomes the picture, any other is consumed with a record; a row completes and the last one ends the picture; the oldest record is posted in order, after its access unit or picture (R279, R283, R290, R291, R293, R296, R297, R298, R299, R300, R580). -/
def Obligations.PicturesAndUnits : Prop :=
  (∀ (k : Nat) (h : Shape) (s : State), k < 64 → s.sesShape k = some h → h.byStrand = false → s.sesDescriptor k = true → Leads s →
    let l := (s.dramFetch (s.base2 (F.HEVC_SES_SQ_LO_base_lo k) (F.HEVC_SES_SQ_HI_base_hi k)
      + 32 * (s.fld (F.HEVC_SES_SQ_HEAD_index k) % s.sesRing k)) 32).1
    let g := (s.ses k).nextBank
    ∃ t, Answers (if leAt l 0 1 = 2 then .au k else .picture k) s t ∧ (DramIdle s → SameMemory s t)
      ∧ t.fld (F.HEVC_SES_SQ_HEAD_index k) = (s.fld (F.HEVC_SES_SQ_HEAD_index k) + 1) % 65536 ∧
      if genRuns g k = false then (t.ses k).pic = none ∧ (t.ses k).pics = ((s.ses k).pics + 1) % 2 ^ 32 ∧ (t.ses k).active = g
        ∧ t.fld (F.HEVC_SES_DISCARDED_count k) = min (s.fld (F.HEVC_SES_DISCARDED_count k) + 1) (2 ^ 32 - 1)
      else
      (∀ st, s.descriptorChecks k h g l = some st →
        ∃ r, (t.ses k).recs = (s.ses k).recs ++ [r] ∧ r.id = leAt l 2 2 ∧ r.status = st ∧ (t.ses k).pic = none
          ∧ (t.ses k).pics = (s.ses k).pics)
      ∧ (s.descriptorChecks k h g l = none → (t.ses k).pics = ((s.ses k).pics + 1) % 2 ^ 32 ∧ (t.ses k).active = g
        ∧ (h.decodes = false → ∃ p, (t.ses k).pic = some p ∧ p.inp.id = leAt l 2 2 ∧ p.inp.addr = leAt l 8 8 ∧ p.num = (s.ses k).pics
          ∧ p.done = 0 ∧ p.ended = true ∧ p.gen = g)
        ∧ (h.decodes = true → (t.ses k).aus = ((s.ses k).aus + 1) % 2 ^ 32
          ∧ ∃ e ∈ t.jnl.applied, e.kind = 3 ∧ e.unit = k ∧ e.frame = (s.ses k).aus ∧ e.a = leAt l 4 4 ∧ e.replayed = false)))
  ∧ (∀ (k id : Nat) (h : Shape) (tok : Token) (rest : List Token) (s : State), k < 64 → s.sesShape k = some h →
    s.sesStrand k false = some id → s.strandStream id = tok :: rest → s.sesTakes k = true → tokenField tok 7 0 = 1 →
    s.fld (F.HEVC_SES_STATUS_resetting k) = 0 → Leads s →
    let g := (s.ses k).nextBank
    let e := encBank g.regs k
    ∃ t, Answers (.encodeInput k) s t ∧ SameMemory s t ∧
      if genRuns g k = false then (t.ses k).pic = none ∧ (t.ses k).pics = ((s.ses k).pics + 1) % 2 ^ 32
        ∧ t.fld (F.HEVC_SES_DISCARDED_count k) = min (s.fld (F.HEVC_SES_DISCARDED_count k) + 1) (2 ^ 32 - 1)
      else if tokenField tok 15 8 = (if e.chroma = 1 then 4 else 6) ∧ tokenField tok 79 64 = e.width ∧ tokenField tok 95 80 = e.height then
        ∃ p, (t.ses k).pic = some p ∧ p.inp.tag = tokenField tok 31 16 ∧ p.num = (s.ses k).pics ∧ p.done = 0 ∧ p.gen = g
          ∧ (rest = [] → p.lines = []) ∧ (t.ses k).pics = ((s.ses k).pics + 1) % 2 ^ 32
      else (t.ses k).pic = none ∧ ∃ r, (t.ses k).recs = (s.ses k).recs ++ [r] ∧ r.status = 4)
  ∧ (∀ (k : Nat) (h : Shape) (p : HevcPic) (s : State), k < 64 →
    let s1 := s.hevcIntake k
    s1.sesShape k = some h → (s1.ses k).pic = some p → s1.rowReady k h.decodes = true →
    let rows := if h.decodes then (decInfo (s1.ses k).ctx (usable (s1.ses k).ctx p.inp.au)).rows else (encBank p.gen.regs k).rows
    ∃ t, Answers (.ctuRow k) s t ∧ SameMemory s t ∧
      if p.done + 1 < rows then
        ∃ q, (t.ses k).pic = some q ∧ q.done = p.done + 1 ∧ q.num = p.num ∧ q.buf.isSome = true ∧ (p.buf.isSome = true → q.buf = p.buf)
          ∧ (h.decodes = false → q.rows.length = p.rows.length + 1) ∧ (t.ses k).recs = (s.ses k).recs
      else (t.ses k).pic = none
        ∧ (h.decodes = false → ∃ r, (t.ses k).recs = (s.ses k).recs ++ [r] ∧ r.status = 0 ∧ r.num = p.num ∧ r.au ≠ none)
        ∧ (h.decodes = true → ∃ d, mapFind t.jnl.digests (768 + k) = some d ∧ d.num = p.num))
  ∧ (∀ (k : Nat) (r : HevcRec) (rest : List HevcRec) (s : State), k < 64 → (s.ses k).recs = r :: rest →
    s.runs .hevc = true → s.senderBlocked .hevc (fun p => p = k) = false → s.fld (F.HEVC_SES_STATUS_resetting k) = 0 →
    let seq := s.fld (F.HEVC_SES_NEXT_SEQ_value k)
    let a := s.base2 (F.HEVC_SES_CQ_LO_base_lo k) (F.HEVC_SES_CQ_HI_base_hi k) + 32 * (seq % s.sesRing k)
    let b := (s.ses k).active.regs
    let ring := bankFld b (F.HEVC_SES_BS_LO_base_lo k) * 2 ^ 12 + bankFld b (F.HEVC_SES_BS_HI_base_hi k) * 2 ^ 32
    let size := max 1 (bankFld b (F.HEVC_SES_BS_SIZE_bs_size k) * 4096)
    let buf := (s.ses k).outs % max 1 (bankFld b (F.HEVC_SES_OUT_BUF_out_bufs k))
    let stride := bankFld b (F.HEVC_SES_OUT_STRIDE_out_stride k) * 4096
    let out := bankFld b (F.HEVC_SES_OUT_LO_base_lo k) * 2 ^ 12 + bankFld b (F.HEVC_SES_OUT_HI_base_hi k) * 2 ^ 32 + buf * stride
    ∃ t, Answers (.hevcRecord k) s t ∧ (t.ses k).recs = rest ∧ t.pool = s.pool
      ∧ t.dramRead a 32 = (match r.au, r.pic with
        | some (au, _, _, _), _ => recordBytes r seq 0 ((s.ses k).bsPos % size) au.length
        | none, some p => recordBytes r seq buf (wrapTo 32 r.poc) p.lost
        | none, none => recordBytes r seq (s.noBuffer k) (wrapTo 32 r.poc) r.lost)
      ∧ (DramIdle s → ∀ x, x < a ∨ a + 32 ≤ x → (r.au ≠ none → x < ring ∨ ring + size ≤ x) →
          (r.au = none → r.pic ≠ none → x < out ∨ out + stride ≤ x) → memGet t.dram x = memGet s.dram x)
      ∧ t.rd (R.HEVC_SES_NEXT_SEQ k) = (seq + 1) % 2 ^ 32
      ∧ (r.irq = true → t.fld ⟨R.HEVC_EVT (k / 32), k % 32, k % 32⟩ = 1)
      ∧ (r.pic = none → RegsBut ([R.HEVC_SES_NEXT_SEQ k, R.HEVC_EVT (k / 32)] ++ dramErrRegs) s t)
      ∧ RegsBut ([R.HEVC_SES_NEXT_SEQ k, R.HEVC_EVT (k / 32), R.HEVC_SES_HELD k, R.HEVC_POOL_STATUS] ++ dramErrRegs
          ++ (List.range 512).map R.HEVC_POOL_MARK) s t)

/-- The wall is enabled with a mode and tables that R312 permits, to start 1 ms or more later, and is refused otherwise; disabling returns to the reference mode at a later latch point; neither is done while a change of structure is pending; a mode commit is refused, takes effect at once with the wall off, or is decided with its origin; it takes effect at S; a commit of tile contexts is pending for each or names what failed (R310, R312, R313, R333, R343, R344, R345, R346). -/
def Obligations.WallControl : Prop :=
  (∀ (m : Master) (s : State), Admitted s m R.WALL_CTRL →
    (s.rig.change ≠ none → (∃ t, Answers (.wallEnable m) s t ∧ OnlyRegs [R.WALL_STATUS] s t ∧ t.fld F.WALL_STATUS_bad_cfg = 1)
      ∧ ∃ t, Answers (.wallDisable m) s t ∧ OnlyRegs [R.WALL_STATUS] s t ∧ t.fld F.WALL_STATUS_bad_cfg = 1)
    ∧ (s.rig.change = none → s.fld F.WALL_CTRL_enable = 0 → ∃ t, Answers (.wallEnable m) s t ∧ SameMemory s t ∧
      if s.modeRegs.ok = true ∧ s.tablesOk = true then
        t.fld F.WALL_CTRL_enable = 1 ∧ t.wall.markAll = true
          ∧ (∀ i, i < 16384 → (s.wall.tiles.map (fun e => e.1)).count i = 1 →
              t.repush i = (tileCtx i (s.tile i).active.regs).allBlocks % 2 ^ 64)
          ∧ t.fclk = { s.fclk with start := some (s.modeRegs, s.modeRegs.firstLatch (s.nowNs + 1000000)) }
      else t.fld F.WALL_CTRL_enable = 0 ∧ t.fld F.WALL_STATUS_bad_cfg = 1 ∧ t.fclk = s.fclk)
    ∧ (s.rig.change = none → s.fld F.WALL_CTRL_enable = 1 → (∃ t, Answers (.wallEnable m) s t ∧ OnlyRegs [] s t)
      ∧ ∃ t, Answers (.wallDisable m) s t ∧ SameMemory s t ∧ t.fld F.WALL_CTRL_enable = 0
      ∧ t.fclk.wall = false ∧ t.fclk.start = none ∧ t.fclk.change = none ∧ t.fclk.frames = s.fclk.frames
      ∧ (s.fclk.wall = true → t.fclk.mode = WallMode.ref ∧ s.nowNs < WallMode.ref.latch t.fclk.next
          ∧ ∀ f ∈ s.fclk.frames, f.wall = true → f.present < WallMode.ref.latch t.fclk.next)))
  ∧ (∀ (m : Master) (s : State), Admitted s m R.WALL_MODE_CTRL →
    ∃ t, Answers (.modeCommit m) s t ∧ SameMemory s t ∧
      if s.fclk.change ≠ none then t.fld F.WALL_MODE_STATUS_state = 4 ∧ t.fclk = s.fclk
      else if s.modeRegs.ok = false then t.fld F.WALL_MODE_STATUS_state = 3 ∧ t.fclk = s.fclk
      else if s.fld F.WALL_CTRL_enable = 0 then
        t.fld F.WALL_MODE_STATUS_state = 2 ∧ t.fclk = s.fclk ∧ t.rd R.WALL_MODE_GEN = (s.rd R.WALL_MODE_GEN + 1) % 2 ^ 32
      else
        let c := s.fclk.wallMode.1.changeAt s.nowNs
        let new := { s.modeRegs with gen := (s.rd R.WALL_MODE_GEN + 1) % 2 ^ 32, orgFrame := c.1, orgSec := c.2 }
        t.fld F.WALL_MODE_STATUS_state = 1 ∧ t.fclk.change ≠ none
          ∧ (Leads s → t.fclk.change = some new ∧ t.fclk.decided = true
              ∧ ∃ e ∈ t.jnl.applied, e.kind = 7 ∧ e.target = 5 ∧ e.unit = 0 ∧ e.frame = c.1 ∧ e.a = new.gen))
  ∧ (∀ (m : WallMode) (s : State), s.fclk.change = some m → s.fclk.wall = true → s.fclk.decided = true →
    m.orgSec * 1000000000 ≤ s.fclk.mode.present s.fclk.next → m ≠ s.fclk.mode →
    ∃ t, Answers .modeChangeEffect s t ∧ t.fclk = { s.fclk with mode := m, next := 0, change := none, decided := false }
      ∧ t.fld F.WALL_MODE_STATUS_state = 2 ∧ t.rd R.WALL_MODE_GEN = m.gen % 2 ^ 32 ∧ t.rd R.WALL_MODE_ORG_FRAME = m.orgFrame % 2 ^ 32
      ∧ (s.runs .anchor = true → m.orgSec * 1000000000 ≤ t.nowNs) ∧ SameMemory s t)
  ∧ (∀ (m : Master) (layers : Bool) (s : State), Admitted s m R.WALL_COMMIT_CTRL → WallSettled s →
    let n := s.fld F.WALL_COMMIT_RANGE_count
    let first := s.fld F.WALL_COMMIT_RANGE_first
    let ctxs := ((List.range n).map (fun i => first + i)).filter (fun i => (s.shape 12 i).isSome)
    let new := s.snap 0xC8000 0xC8400
    let joined := if layers then s.tileJoined ctxs new else []
    let contents := (ctxs.map (fun i => (i, s.tileShadow i)) ++ joined.map (fun i => (i, (s.tile i).newest.regs))).foldl
      (fun m e => mapSet m e.1 e.2) []
    ∃ t, Answers (.wallCommit m layers) s t ∧ SameMemory s t ∧
      if n = 0 ∨ 16384 < n ∨ 16384 < first + n then t.rd R.WALL_COMMIT_STATUS = 3 ∧ t.wall = s.wall
      else if 4 ≤ s.wall.commits.length then t.rd R.WALL_COMMIT_STATUS = 9 ∧ t.wall = s.wall
      else if layers = true ∧ ∃ l, l < 64 ∧ s.layerOk (layerOf new l) = false then t.rd R.WALL_COMMIT_STATUS = 10 ∧ t.wall = s.wall
      else match s.tileChecks contents with
      | some (code, i) => t.wall = s.wall ∧ t.rd R.WALL_COMMIT_STATUS = code + i * 2 ^ 16
      | none => t.fld F.WALL_COMMIT_STATUS_state = 1 ∧ t.wall.commits = s.wall.commits ++ [s.wall.nextCommit]
          ∧ t.wall.layers = (if layers then new else s.wall.layers)
          ∧ ∀ i ∈ ctxs, (t.tile i).active = (s.tile i).active ∧ (t.tile i).pend = (s.tile i).pend
            ++ [(⟨((s.tile i).newest.num + 1) % 2 ^ 32, s.tileShadow i, if layers then new else s.wall.layers⟩, s.nowNs, s.wall.nextCommit)])

/-- A surface that is off is enabled empty where R315 permits and is refused otherwise; disabling one makes an empty generation available; a HOST commit, a SURFACE_DONE, a PICTURE_DONE, an RX_DONE and a DIRECT FRAME_START each make the next generation of every surface that they feed available, marked where its size differs (R314, R315, R317, R318, R319, R347). -/
def Obligations.SurfaceGenerations : Prop :=
  (∀ (m : Master) (n : Nat) (v : Word) (s : State), n < 256 → Admitted s m (R.WALL_SURF_CFG n) →
    (s.surfLive n = false →
      let s1 := s.wr (R.WALL_SURF_CFG n) (v.toNat % 2 ^ 26 / 2 * 2)
      ∃ t, Answers (.surfaceEnable m n v) s t ∧ SameMemory s t ∧
        if s1.surfOk n = true then t.fld (F.WALL_SURF_CFG_enable n) = 1 ∧ t.fld (F.WALL_SURF_STATUS_idle n) = 0
          ∧ t.rd (R.WALL_SURF_AVAIL n) = 0 ∧ t.rd (R.WALL_SURF_BOUND n) = 0 ∧ t.surf n = Surface.clear
        else t.fld (F.WALL_SURF_CFG_enable n) = 0 ∧ t.fld (F.WALL_SURF_STATUS_bad_cfg n) = 1 ∧ t.surf n = s.surf n)
    ∧ (s.surfLive n = true → ∃ t, Answers (.surfaceEnable m n v) s t ∧ OnlyRegs [R.WALL_SURF_STATUS n] s t)
    ∧ (s.surfLive n = true → s.rd (R.WALL_SURF_CFG n) % 2 = 1 →
      ∃ t, Answers (.surfaceDisable m n v) s t ∧ SameMemory s t ∧ t.fld (F.WALL_SURF_CFG_enable n) = 0
        ∧ t.rd (R.WALL_SURF_AVAIL n) = (s.rd (R.WALL_SURF_AVAIL n) + 1) % 2 ^ 32
        ∧ (WallSettled s → t.surfLive n = true ∧ ∃ g, (t.surf n).gens = (s.surf n).gens ++ [g] ∧ g.empty = true
          ∧ g.num = (s.rd (R.WALL_SURF_AVAIL n) + 1) % 2 ^ 32 ∧ g.since = s.nowNs)))
  ∧ (∀ (m : Master) (n buf : Nat) (s : State), n < 256 → Admitted s m (R.WALL_SURF_COMMIT n) → buf < 4 →
    ∃ t, Answers (.surfaceCommit m n buf) s t ∧ SameMemory s t ∧
      if s.fld (F.WALL_SURF_CFG_enable n) = 1 ∧ s.feed n = 0 ∧ buf < s.fld (F.WALL_SURF_BUF_bufs n) then
        t.rd (R.WALL_SURF_AVAIL n) = (s.rd (R.WALL_SURF_AVAIL n) + 1) % 2 ^ 32
        ∧ (WallSettled s → ∃ g, (t.surf n).gens = (s.surf n).gens ++ [g] ∧ g.buf = buf ∧ g.empty = false ∧ g.bad = false
          ∧ g.since = s.nowNs ∧ g.num = (s.rd (R.WALL_SURF_AVAIL n) + 1) % 2 ^ 32)
      else t.rd (R.WALL_SURF_AVAIL n) = s.rd (R.WALL_SURF_AVAIL n) ∧ (WallSettled s → t.surf n = s.surf n))
  ∧ (∀ (port n at_ id d feed src : Nat) (c : Instr) (tok : Token) (rest : List Token) (s : State), s.runs .wall = true →
    ((c = .surfaceDone port at_ ∧ port < 8 ∧ feed = 1 ∧ src = port ∧ tokenField tok 7 0 = 4)
      ∨ (∃ k, c = .pictureDone k at_ ∧ k < 64 ∧ port = 8 + k ∧ feed = 2 ∧ src = k ∧ tokenField tok 7 0 = 8)
      ∨ (c = .rxDone at_ ∧ port = 72 ∧ feed = 3 ∧ src = tokenField tok 15 8 ∧ tokenField tok 7 0 = 9)
      ∨ (c = .directFrameStart port at_ ∧ port < 8 ∧ feed = 4 ∧ src = port ∧ tokenField tok 7 0 = 1)) →
    s.strandTo .wall port = some (id, d) → s.strandStream id = tok :: rest → n < 256 → s.fld (F.WALL_SURF_CFG_enable n) = 1 →
    (feed ≠ 4 → (s.surfsOf feed src).count n = 1) → (feed = 4 → (s.directOf port).count n = 1) →
    ∃ t, Answers c s t ∧ SameMemory s t ∧ (feed = 2 ∨ feed = 3 ∨ rest = [] → t.strandStream id = rest)
      ∧ t.rd (R.WALL_SURF_AVAIL n) = (s.rd (R.WALL_SURF_AVAIL n) + 1) % 2 ^ 32 ∧ (s.runs .anchor = true → at_ ≤ t.nowNs)
      ∧ (WallSettled s → ∃ g, (t.surf n).gens = (s.surf n).gens ++ [g]
        ∧ g.num = (s.rd (R.WALL_SURF_AVAIL n) + 1) % 2 ^ 32 ∧ g.empty = false
        ∧ g.since = t.nowNs ∧ (feed = 1 ∨ feed = 2 ∨ feed = 3 → g.buf = tokenField tok 71 64)
        ∧ (feed = 1 → let z := mapGet (0, 0, 0) s.wall.sizes port
            g.bad = (decide (z.1 ≠ s.surfW n) || decide (z.2.1 ≠ s.surfH n)))
        ∧ (feed = 2 → g.chroma = tokenField tok 77 76 ∧ g.depth = 8 + tokenField tok 75 72
            ∧ g.bad = (decide (tokenField tok 95 80 ≠ s.surfW n) || decide (tokenField tok 111 96 ≠ s.surfH n)))
        ∧ (feed = 3 → g.frame = some (tokenField tok 63 32) ∧ g.lines = tokenField tok 95 80)
        ∧ (feed = 4 → (rest = [] → (t.surf n).arriving = g.num)
            ∧ g.bad = (decide (tokenField tok 79 64 ≠ s.surfW n) || decide (tokenField tok 95 80 ≠ s.surfH n)))
        ∧ RegsBut ((if feed = 4 then s.directOf port else s.surfsOf feed src).map R.WALL_SURF_AVAIL) s t))

/-- A latch point opens the next frame of the clock in force at its instant; at the push deadline of the oldest frame that has not met it every pass of a leading unit is fetched, with what is missing filled; the present time of a frame is reached after it; a ready pass is hashed and leaves its frame, and the stored hash of each block is that of its pixels; PRESENT leaves once the frame has nothing to push (R101, R311, R317, R337, R338, R340, R341, R358, R418, R580). -/
def Obligations.WallFrames : Prop :=
  (∀ s : State, s.held .anchor = false → s.rig.change = none → s.fclk.change = none → s.modeWaits s.nextFrame s.nextLatch = false →
    let c := s.fclk.roll
    ∃ t f, Answers .latchPoint s t ∧ f ∈ t.fclk.frames ∧ f.latch = c.mode.latch c.next ∧ f.present = c.mode.present c.next
      ∧ f.deadline = c.mode.deadline c.next ∧ f.num = c.mode.number c.next ∧ f.wall = (c.wall && s.runs .wall)
      ∧ t.fclk.mode = c.mode ∧ t.fclk.next = c.next + 1 ∧ t.rd R.ANCHOR_FC_FRAME = f.num ∧ f.latch ≤ t.nowNs
      ∧ (Leads s → s.jnl.waits = [] → DramIdle s → SameMemory s t))
  ∧ (∀ (f : WallFrame) (fetched : List (Nat × Nat × Nat)) (s : State), s.fclk.frames.find? (fun g => !g.due) = some f →
    ∃ t, Answers (.pushDeadline fetched) s t ∧ (∀ g ∈ t.fclk.frames, g.latch = f.latch → g.due = true)
      ∧ (Leads s → s.fclk.frames.find? (fun g => g.latch = f.latch) = some f →
          ∀ g ∈ t.fclk.frames, g.latch = f.latch → ∀ p ∈ g.passes, (∃ q ∈ f.passes, q.ctx = p.ctx) → p.pix.isSome = true ∨ p.fillAll = true)
      ∧ (DramIdle s → SameMemory s t) ∧ (s.runs .anchor = true → f.deadline ≤ t.nowNs))
  ∧ (∀ (f : WallFrame) (s : State), s.fclk.frames.find? (fun g => g.due && !g.lit) = some f →
    ∃ t, Answers .presentTime s t ∧ (∀ g ∈ t.fclk.frames, g.latch = f.latch → g.lit = true)
      ∧ (∀ g ∈ t.fclk.frames, g.latch ≠ f.latch → g ∈ s.fclk.frames) ∧ RegsBut [] s t ∧ SameMemory s t
      ∧ (s.runs .anchor = true → f.present ≤ t.nowNs))
  ∧ (∀ (i : Nat) (f : WallFrame) (p : Pass) (g : TileGen) (s : State), i < 16384 → s.runs .wall = true →
    s.nextPass i = some (f, p) → p.gen = some g → passBound f g = true →
    p.pix.isSome = true ∨ p.fillAll = true ∨ (s.followsFill f = false ∧ s.directIntake.passFetchable f p g [] = true) →
    ∃ t, Answers (.pushPass i) s t ∧ (∀ h ∈ t.fclk.frames, h.latch = f.latch → ∀ q ∈ h.passes, q.ctx ≠ i)
      ∧ t.rd (R.WALL_TCTX_LAST i) = f.num % 2 ^ 32 ∧ t.pool = s.pool
      ∧ (∀ blocks, p.pix = some blocks → DramIdle s →
        (∀ k ∈ blocks, (∀ j ∈ blocks, j.block = k.block → j = k) → p.fillOf k.block = none →
          t.dramRead (s.hashAddr i k.block) 8 = leBytes 8 (crc64 (pixelBytes k.px)))
        ∧ ∀ a, (∀ k ∈ blocks, a < s.hashAddr i k.block ∨ s.hashAddr i k.block + 8 ≤ a) → memGet t.dram a = memGet s.dram a)
      ∧ (f.wall = true → f.complete = false → (∀ q ∈ f.passes, q.ctx = i) → s.fclk.frames.find? (fun h => h.latch = f.latch) = some f →
          ∃ d, mapFind t.jnl.digests 0 = some d ∧ d.num = f.num))
  ∧ (∀ (f : WallFrame) (s : State), s.fclk.frames.find? (fun g => g.wall && !g.presented) = some f → f.due = true → f.passes = [] →
    ∃ t, Answers .present s t ∧ (∀ g ∈ t.fclk.frames, g.latch = f.latch → g.presented = true) ∧ SameMemory s t
      ∧ (f.sends = true → s.fenOn = true → ∀ p ∈ s.wallPorts, s.portUp p = true →
          ∃ bytes, .ethernet p bytes ∈ t.out))

/-- Fenmas is enabled as solo, or as second where belay is set, and is refused where R387 does not permit it; a link change is shown; forced roles are taken at the next latch point; a calibration load is queued or refused with its code; a BEACON is heard from the other unit of the pair, whose lead gives a second its epoch and makes a lead that it beats demote, and from other pairs keeps their claims; a DIGEST of the other unit is compared or kept; the entries of a JOURNAL packet of the followed source are received in order; never 16 entries wait after a command, and those that wait leave after the ones of the packet before; an invalid packet is counted (R350, R363, R369, R372, R375, R377, R378, R382, R383, R385, R387, R388). -/
def Obligations.FenmasCommands : Prop :=
  (∀ (m : Master) (v : Word) (s : State), Admitted s m R.FEN_CFG → s.fld F.FEN_CFG_enable = 1 →
    ∃ t, Answers (.fenmasEnable m v) s t ∧ OnlyRegs [R.FEN_CFG] s t ∧ t.fld F.FEN_CFG_enable = 1)
  ∧ (∀ (m : Master) (v : Word) (s : State), Admitted s m R.FEN_CFG → s.fld F.FEN_CFG_enable = 0 →
    let s1 := s.regWrite R.FEN_CFG (putBits v.toNat 0 0 1)
    ∃ t, Answers (.fenmasEnable m v) s t ∧ SameMemory s t ∧
      if s1.fenOk = true then t.fld F.FEN_CFG_enable = 1
        ∧ t.fld F.FEN_BELAY_STATUS_role = (if s.fld F.FEN_BELAY_CFG_belay = 1 then 2 else 3)
        ∧ t.rd R.FEN_CUR_EPOCH = s.rd R.FEN_EPOCH_SEED ∧ t.fen.cals = [] ∧ t.fen.claims = []
      else t.fld F.FEN_CFG_enable = 0 ∧ t.fld F.FEN_BELAY_STATUS_bad_cfg = 1)
  ∧ (∀ (port : Nat) (up : Bool) (s : State), port < 8 →
    ∃ t, Answers (.ethernetLinkChange port up) s t ∧ OnlyRegs [R.NET_PHY_CFG (port / 2)] s t ∧
      t.portUp port = (up && s.runs .net && s.portExists port && s.bit (F.NET_PHY_CFG_enable (port / 2))))
  ∧ (∀ (m : Master) (s : State), Admitted s m R.FEN_BELAY_CTRL →
    (∃ t, Answers (.forceLead m) s t ∧ RegsBut [] s t ∧ SameMemory s t ∧ t.fen.forceSecond = s.fen.forceSecond
      ∧ t.fen.forceLead = (s.fen.forceLead || (decide (s.fenRole = 2) && s.fen.rise.isNone)))
    ∧ (∃ t, Answers (.forceSecond m) s t ∧ RegsBut [] s t ∧ SameMemory s t ∧ t.fen.forceLead = s.fen.forceLead
      ∧ t.fen.forceSecond = (s.fen.forceSecond || decide (s.fenRole = 1))))
  ∧ (∀ (m : Master) (v : Word) (s : State), Admitted s m R.FEN_CAL_CTRL → bitsOf v.toNat 31 31 = 1 →
    let s1 := s.regWrite R.FEN_CAL_CTRL v.toNat
    let len := s1.fld F.FEN_CAL_CTRL_len
    let addr := s.fld F.FEN_CAL_ADDR_LO_addr_lo * 64 + s.fld F.FEN_CAL_ADDR_HI_addr_hi * 2 ^ 32
    let tile := s.fld F.FEN_CAL_DESC_tile_id
    ∃ t, Answers (.calSubmit m v) s t ∧ SameMemory s t ∧ RegsBut [R.FEN_CAL_CTRL, R.FEN_CAL_STATUS] s t ∧
      if 1024 < len then t.fld F.FEN_CAL_STATUS_state = 3 ∧ t.fen.cals = s.fen.cals
      else if s.userRegion addr len (fun o _ => o = 7 || o = 5) = false then t.fld F.FEN_CAL_STATUS_state = 4 ∧ t.fen.cals = s.fen.cals
      else if tile ≠ 0xFFFF ∧ s.servedTiles.all (fun c => c.tileId ≠ tile) = true then
        t.fld F.FEN_CAL_STATUS_state = 5 ∧ t.fen.cals = s.fen.cals
      else if s.leads = false then t.fld F.FEN_CAL_STATUS_state = 6 ∧ t.fen.cals = s.fen.cals
      else if 64 ≤ s.fen.cals.length then t.fld F.FEN_CAL_STATUS_state = 7 ∧ t.fen.cals = s.fen.cals
      else t.fld F.FEN_CAL_STATUS_state = 1 ∧ t.fld F.FEN_CAL_STATUS_cal_seq = s.fen.calNext % 65536
        ∧ t.fen.cals = s.fen.cals ++ [⟨s.fen.calNext, tile, s.fld F.FEN_CAL_DESC_class, addr, len⟩]
        ∧ t.fen.calNext = (s.fen.calNext + 1) % 65536)
  ∧ (∀ (port at_ : Nat) (frame : List Byte) (p : FenRx) (s : State), port < 8 → s.fenSeen port frame = .packet p →
    let me := s.fld F.FEN_ADDR_unit
    let mine := p.wall = s.fld F.FEN_ADDR_wall_id ∧ p.pair = s.fld F.FEN_ADDR_pair ∧ p.unit ≠ me
    let lead := beAt p.bytes 16 1 = 1
    (p.ftype = 5 → ∃ t, Answers (.beacon port at_ frame) s t ∧ SameMemory s t
      ∧ (p.wall ≠ s.fld F.FEN_ADDR_wall_id ∨ (p.pair = s.fld F.FEN_ADDR_pair ∧ p.unit = me) → RegsBut [] s t ∧ t.fen.claims = s.fen.claims)
      ∧ (p.wall = s.fld F.FEN_ADDR_wall_id → p.pair ≠ s.fld F.FEN_ADDR_pair → RegsBut [] s t ∧ t.fen.claims =
          if lead ∧ (∀ c, mapFind s.fen.claims p.pair = some c → beats (p.epoch, p.unit) c = true)
          then mapSet s.fen.claims p.pair (p.epoch, p.unit) else s.fen.claims)
      ∧ (mine → t.fen.peerHeard = true ∧ t.fld F.FEN_BELAY_STATUS_peer = 1 ∧ t.fld F.FEN_BELAY_STATUS_peer_silent = 0
        ∧ (lead → s.fenRole = 2 → laterThan 32 s.fenEpoch p.epoch = false →
            t.fen.heard = true ∧ t.rd R.FEN_CUR_EPOCH = p.epoch ∧ t.fld F.FEN_BELAY_STATUS_missing = 0)
        ∧ (lead → s.fenRole = 1 → beats (p.epoch, p.unit) (s.fenEpoch, me) = true → s.fen.demote = none → t.fen.demote = some (p.epoch, true))
        ∧ (lead → s.fenRole = 1 → beats (s.fenEpoch, me) (p.epoch, p.unit) = true → beats (p.epoch, p.unit) (s.fenEpoch, me) = false →
            t.fen.demote = s.fen.demote ∧ t.fld F.FEN_STALE_count
              = min (s.fld F.FEN_STALE_count + 1) (2 ^ (F.FEN_STALE_count.hi + 1 - F.FEN_STALE_count.lo) - 1))))
    ∧ (p.ftype = 6 → mine →
      let peer : WallDig := ⟨p.frame, beAt p.bytes 16 8, beAt p.bytes 24 1 % 2 = 1⟩
      ∃ t, Answers (.digest port at_ frame) s t ∧ SameMemory s t ∧
        match s.fen.digs.find? (fun d => d.frame = p.frame) with
        | some d =>
          if d.excluded = true ∨ peer.excluded = true then RegsBut [] s t
          else if d.val = peer.val then t.fld F.FEN_DIG_MATCH_count = min (s.fld F.FEN_DIG_MATCH_count + 1) (2 ^ 32 - 1)
          else t.fld F.FEN_DIG_MISMATCH_count = min (s.fld F.FEN_DIG_MISMATCH_count + 1) (2 ^ 32 - 1)
            ∧ t.fld F.FEN_EVT_dig_mismatch = 1 ∧ t.rd R.FEN_DIG_LAST_BAD = d.frame % 2 ^ 32
        | none => RegsBut [] s t ∧ t.fen.digs = s.fen.digs
          ∧ (s.fen.digs = [] → s.fen.peerDigs.length < 512 → t.fen.peerDigs = s.fen.peerDigs ++ [peer]))
    ∧ (p.ftype = 7 → s.jnl.mode = 1 → s.followSource = some (p.pair, p.unit) →
      (s.fld F.FEN_FOLLOW_src_pair = s.fld F.FEN_ADDR_pair → laterThan 32 s.fenEpoch p.epoch = false) → s.jnl.waits = [] →
      let s1 := s.sourceCheck
      let r := (List.range (beAt p.bytes 16 1)).foldl (fun (x : State) i => x.journalEntry (slice p.bytes (24 + 32 * i) 32)) s1
      let b := slice p.bytes 24 32
      let e := Entry.ofBytes b
      ∃ t, Answers (.journal port at_ frame) s t ∧ SameMemory s t
        ∧ t.fld F.FEN_JNL_RX_count = min (s.fld F.FEN_JNL_RX_count + 1) (2 ^ 32 - 1)
        ∧ t.jnl.held = r.jnl.held ∧ t.fen.lastSeq = r.fen.lastSeq ∧ t.jnl.seqs = r.jnl.seqs ∧ t.fen.source = some (p.pair, p.unit)
        ∧ (beAt p.bytes 16 1 = 1 → (∀ q, s1.fen.lastSeq = some q → laterThan 32 e.seq q = true) →
          if leAt b 28 4 ≠ crc32c (b.take 28) then
            t.jnl.held = s1.jnl.held ∧ t.fen.lastSeq = s1.fen.lastSeq ∧ t.fld F.RIG_JNL_STATUS_crc_bad = 1
          else if s1.jnlSort e = .keep ∧ 4096 ≤ s1.jnl.held.length then
            t.jnl.held = s1.jnl.held ∧ t.fen.lastSeq = s1.fen.lastSeq ∧ t.fld F.RIG_JNL_STATUS_gap = 1
          else t.fen.lastSeq = some e.seq ∧ t.rd R.RIG_JNL_SRC_SEQ = e.seq
            ∧ t.jnl.held = (if s1.jnlSort e = .keep then s1.jnl.held ++ [e] else s1.jnl.held))))
  ∧ (∀ (port at_ : Nat) (frame : List Byte) (s : State), port < 8 → s.fenSeen port frame = .invalid →
    ∃ t, Answers (.invalidFenmasPacket port at_ frame) s t ∧ RegsBut [R.FEN_RX_BAD] s t ∧ SameMemory s t
      ∧ t.fld F.FEN_RX_BAD_count = min (s.fld F.FEN_RX_BAD_count + 1) (2 ^ 32 - 1))
  ∧ (∀ (i : Instr) (s t : State), Answers i s t → t.jnl.forwardQ.length < 16)
  ∧ (∀ s : State, s.jnl.forwardQ.length < 16 →
    ∃ t, Answers .journalSendTimer s t ∧ t.jnl.forwardQ = s.jnl.forwardQ.drop s.jnlNew.length ∧ t.jnl.recent = s.jnlNew
      ∧ RegsBut [] s t ∧ SameMemory s t
      ∧ (s.jnl.recent ++ s.jnlNew ≠ [] → s.fenOn = true → ∀ p ∈ portsOf (s.fld F.FEN_PORTS_jnl_ports), s.portUp p = true →
          ∃ bytes, .ethernet p bytes ∈ t.out))

/-- A stream that is off is enabled where its settings permit and is refused otherwise, and a disabled one holds nothing open; a received frame that no stream takes counts as unmatched, one with IP options or a fragment counts as such, and a packet of a stream counts there, is discarded when it is no RTP packet of its payload type, and opens a video frame when it is the first of one (R394, R395, R396, R402, R404). -/
def Obligations.MediaStreams : Prop :=
  (∀ (m : Master) (r : Nat) (v : Word) (s : State), r < 64 → Admitted s m (R.NET_RX_CFG r) →
    let old := s.rd (R.NET_RX_CFG r)
    let w := v.toNat &&& 0xFFFF3FFF
    ∃ t, Answers (.rxStreamEnable m r v) s t
      ∧ OnlyRegsAnd [R.NET_RX_CFG r, R.NET_RX_STATUS r] (fun t s => { s with media := t.media }) s t ∧
      if old % 2 = 0 then
        (if w % 2 = 1 ∧ (s.wr (R.NET_RX_CFG r) (w / 2 * 2)).rxOk r = true then
          t.rd (R.NET_RX_CFG r) = w ∧ t.fld (F.NET_RX_STATUS_active r) = 1 ∧ t.rx r = NetRx.clear
        else t.rd (R.NET_RX_CFG r) = w / 2 * 2 ∧ t.media = s.media ∧ (w % 2 = 1 → t.fld (F.NET_RX_STATUS_bad_cfg r) = 1))
      else if w % 2 = 1 ∨ (s.fld (F.NET_RX_CFG_type r) = 3 ∧ s.bit (F.NET_RX_CFG_member r) = true
          ∧ s.grpHeld (s.fld (F.NET_RX_MEDIA_group r)) = true) then
        t.rd (R.NET_RX_CFG r) = old ∧ t.media = s.media ∧ (w ≠ old → t.fld (F.NET_RX_STATUS_bad_cfg r) = 1)
      else t.rd (R.NET_RX_CFG r) = old - 1 ∧ t.fld (F.NET_RX_STATUS_active r) = 0 ∧ t.rx r = NetRx.clear)
  ∧ (∀ (m : Master) (k : Nat) (v : Word) (s : State), k < 80 → Admitted s m (R.NET_TX_CFG k) →
    ∃ t, Answers (.txStreamEnable m k v) s t ∧ SameMemory s t ∧ RegsBut [R.NET_TX_CFG k, R.NET_TX_STATUS k] s t ∧
      if v.toNat % 2 = 0 then t.fld (F.NET_TX_CFG_enable k) = 0 ∧ t.fld (F.NET_TX_STATUS_active k) = 0 ∧ t.media = s.media
      else if s.bit (F.NET_TX_CFG_enable k) = true then t.fld (F.NET_TX_CFG_enable k) = 1 ∧ t.media = s.media
      else if (s.regWrite (R.NET_TX_CFG k) v.toNat).txOk k = true then
        t.fld (F.NET_TX_CFG_enable k) = 1 ∧ t.fld (F.NET_TX_STATUS_active k) = 1
          ∧ (k < 8 → (t.tx k).seq = 0)
          ∧ (72 ≤ k → ((t.tx k).next, (t.tx k).origin) = s.txFirst (k - 72))
      else t.fld (F.NET_TX_CFG_enable k) = 0 ∧ t.fld (F.NET_TX_STATUS_bad_cfg k) = 1 ∧ t.media = s.media)
  ∧ (∀ (port at_ : Nat) (f : List Byte) (s : State), port < 8 → s.runs .net = true → s.portUp port = true → 18 ≤ f.length →
    f.drop (f.length - 4) = frameCheck (f.take (f.length - 4)) → s.fenSeen port f = .ignored → s.ptpTakes port f = false →
    let ip := (f.take (f.length - 4)).drop 14
    let seg := slice ip 20 (beAt ip 2 2 - 20)
    let mine := fun (q : Nat) => s.fld (F.NET_RX_CFG_enable q) = 1 ∧ s.fld (F.NET_RX_CFG_port q) = port
      ∧ s.rd (R.NET_RX_DST_IP q) = beAt ip 16 4 ∧ s.fld (F.NET_RX_CFG_udp_port q) = beAt seg 2 2
      ∧ (s.rd (R.NET_RX_SRC_IP q) = 0 ∨ s.rd (R.NET_RX_SRC_IP q) = beAt ip 12 4)
    let time := fun (t s : State) => { s with anchorT := t.anchorT, real := t.real }
    ∃ t, Answers (.mediaFrame port at_ f) s t
      ∧ (beAt f 12 2 ≠ 0x0800 → t.fld F.NET_RX_UNMATCHED_count = min (s.fld F.NET_RX_UNMATCHED_count + 1) (2 ^ 32 - 1)
          ∧ OnlyRegsAnd [R.NET_RX_UNMATCHED] time s t)
      ∧ (beAt f 12 2 = 0x0800 → 20 ≤ ip.length → beAt ip 0 1 / 16 = 4 → beAt ip 0 1 ≠ 0x45 ∨ beAt ip 6 2 % 0x4000 ≠ 0 →
          t.fld F.NET_RX_FRAG_count = min (s.fld F.NET_RX_FRAG_count + 1) (2 ^ 32 - 1) ∧ OnlyRegsAnd [R.NET_RX_FRAG] time s t)
      ∧ (beAt f 12 2 = 0x0800 → beAt ip 0 1 = 0x45 → beAt ip 6 2 % 0x4000 = 0 → beAt ip 2 2 ≤ ip.length → beAt ip 9 1 = 17 →
          40 ≤ beAt ip 2 2 → beAt seg 4 2 = seg.length → beAt seg 6 2 = 0 → beAt seg 8 1 = 0x80 →
          ((∀ q, q < 64 → ¬ mine q) → t.fld F.NET_RX_UNMATCHED_count = min (s.fld F.NET_RX_UNMATCHED_count + 1) (2 ^ 32 - 1)
            ∧ OnlyRegsAnd [R.NET_RX_UNMATCHED] time s t)
          ∧ (∀ r, r < 64 → mine r → (∀ q, q < r → ¬ mine q) →
            (beAt seg 9 1 % 128 ≠ s.fld (F.NET_RX_CFG_pt r) →
              t.fld (F.NET_RX_PKTS_count r) = min (s.fld (F.NET_RX_PKTS_count r) + 1) (2 ^ 32 - 1)
                ∧ t.fld (F.NET_RX_DROP_count r) = min (s.fld (F.NET_RX_DROP_count r) + 1) (2 ^ 32 - 1)
                ∧ OnlyRegsAnd [R.NET_RX_PKTS r, R.NET_RX_DROP r, R.NET_RX_STATUS r] time s t)
            ∧ (∀ n rest ps, beAt seg 9 1 = s.fld (F.NET_RX_CFG_pt r) → s.fld (F.NET_RX_CFG_type r) = 1 → s.surfsOf 3 r = n :: rest →
              Leads s → ((s.rx r).vids.filter (fun f => !f.due)).length < 2 →
              (∀ f ∈ (s.rx r).vids, f.ts ≠ beAt seg 12 4 ∧ f.num ≠ (s.rx r).count) → beAt seg 12 4 ∉ (s.rx r).closed →
              videoPieces (s.fld (F.WALL_SURF_CFG_fmt n)) (s.surfW n) (s.surfH n) (seg.drop 20) = some ps →
              t.fld (F.NET_RX_PKTS_count r) = min (s.fld (F.NET_RX_PKTS_count r) + 1) (2 ^ 32 - 1)
                ∧ t.fld (F.NET_RX_STATUS_last_seq r) = beAt seg 10 2
                ∧ OnlyRegsAnd [R.NET_RX_PKTS r, R.NET_RX_STATUS r] (fun t s => { time t s with media := t.media }) s t
                ∧ (t.rx r).count = (s.rx r).count + 1
                ∧ (t.rx r).vids = (s.rx r).vids ++ [ps.foldl (fun f p => f.add (s.fld (F.WALL_SURF_CFG_fmt n)) p)
                    ⟨(s.rx r).count, beAt seg 12 4, at_, [], false, false, false⟩]))))

/-- A unit that leads closes the oldest open video frame of a stream at its deadline with the lines accepted, the oldest open access unit with the bytes of its run, written to its part of the ring and handed to its session in RTP order, and an audio block with the frames present, each with its entry of kind 4 or 3; a whole frame, access unit or audio packet of an enabled send stream uses its tokens and advances its sequence by its packets (R92, R97, R295, R396, R397, R398, R399, R400, R401). -/
def Obligations.MediaDecisions : Prop :=
  (∀ (r n : Nat) (rest : List Nat) (f : VidFrame) (s : State), r < 64 → Leads s →
    (s.rx r).vids.find? (fun g => !g.due) = some f → (∀ g ∈ (s.rx r).vids, g.num = f.num → g = f) → f.dead = false →
    s.surfsOf 3 r = n :: rest →
    let s1 := s.reach (f.first + (s.boundary 4 r).getD 0)
    let a := min (s.vidAccepted r f) (s.surfH n)
    ∃ t, Answers (.rxFrameDeadline r) s t ∧ (t.rx r).vids = (s.rx r).vids.filter (fun g => g.num != f.num)
      ∧ f.ts ∈ (t.rx r).closed ∧ t.anchorT = s1.anchorT
      ∧ (∃ e ∈ t.jnl.applied, e.kind = 4 ∧ e.target = 0 ∧ e.unit = r ∧ e.frame = s1.frameAfterNow ∧ e.a = f.ts ∧ e.b = a)
      ∧ t.fld (F.NET_RX_CUT_count r)
        = if a < s.surfH n then min (s.fld (F.NET_RX_CUT_count r) + 1) (2 ^ 32 - 1) else s.fld (F.NET_RX_CUT_count r))
  ∧ (∀ (r : Nat) (u : RtpUnit) (a b : List RtpUnit) (s : State), r < 64 → Leads s →
    (s.rx r).units.filter (fun v => v.closed.isNone && !v.due) = a ++ u :: b →
    (∀ v ∈ a, u.first < v.first) → (∀ v ∈ b, u.first ≤ v.first) → (∀ v ∈ (s.rx r).units, v.ts = u.ts → v = u) →
    let k := s.fld (F.NET_RX_MEDIA_session r)
    let ring := s.rxRing r
    let run := u.run (ring.2 / 4)
    ∃ t, Answers (.auDeadline r) s t
      ∧ t.anchorT = (s.reach (u.first + (s.boundary 3 k).getD 0)).anchorT
      ∧ memRead t.dram (ring.1 + u.slot * (ring.2 / 4)) run.2.1.length = run.2.1
      ∧ (∃ e ∈ t.jnl.applied, e.kind = 3 ∧ e.target = 0 ∧ e.unit = k ∧ e.frame = s.unitNum r u.ts ∧ e.a = run.2.1.length
          ∧ e.b = (if run.1 then 0 else 1) + (if run.2.2 then 0 else 2))
      ∧ (∀ rest, (s.rx r).units = u :: rest → (∀ v ∈ rest, v.closed = none) →
        (t.rx r).units = rest ∧ u.ts ∈ (t.rx r).closed ∧ (t.ses k).aus = ((s.ses k).aus + 1) % 2 ^ 32))
  ∧ (∀ (r : Nat) (x : AudGroup) (s : State), r < 8 → Leads s → s.rxGroup (56 + r) = some x → x.stopping = false →
    x.reached ≤ x.next → (s.audRx (56 + r)).reached = (s.audRx (56 + r)).next →
    let y := s.audRx (56 + r)
    let got := y.present y.next
    ∃ t, Answers (.audioBlockDecision r) s t ∧ SameMemory s t
      ∧ t.anchorT = (s.reach (x.time y.next + (s.boundary 4 (56 + r)).getD 0)).anchorT
      ∧ t.audRx (56 + r) = ⟨y.frames.filter (fun e => decide (64 * y.next + 64 ≤ e.1)), y.next + 1, y.next + 1,
          y.done ++ [⟨y.next, got, Marks.none⟩]⟩
      ∧ (∃ e ∈ t.jnl.applied, e.kind = 4 ∧ e.target = 0 ∧ e.unit = 56 + r ∧ e.frame = y.next % 2 ^ 32
          ∧ e.a = s.expectedTs (56 + r) x y.next ∧ e.b = got.length)
      ∧ t.fld (F.NET_RX_CUT_count (56 + r)) = if got.length < 64 then min (s.fld (F.NET_RX_CUT_count (56 + r)) + 1) (2 ^ 32 - 1)
          else s.fld (F.NET_RX_CUT_count (56 + r)))
  ∧ (∀ (v id d n : Nat) (t0 : Token) (rest : List Token) (lines : SMap (List Token)) (s : State), v < 8 → s.runs .net = true →
    s.strandTo .net (8 + v) = some (id, d) → s.strandStream id = t0 :: rest → s.fld (F.NET_TX_CFG_enable v) = 1 →
    tokenField t0 7 0 = 1 → frontFrame rest.length rest = some (n, lines) →
    let g := pgroup (tokenField t0 15 8)
    let px := s.fld (F.NET_TX_MEDIA_V_pkt_px v)
    let per := px / (g.1 * g.2.1)
    ∃ t, Answers (.txVideoFrame v) s t ∧ SameMemory s t ∧ t.strandStream id = rest.drop n ∧
      if 7 < tokenField t0 15 8 ∨ per = 0 ∨ px % (g.1 * g.2.1) ≠ 0 ∨ 1436 < per * g.2.2.1 + 8 then
        t.media = s.media ∧ t.fld (F.NET_TX_DROP_count v) = min (s.fld (F.NET_TX_DROP_count v) + 1) (2 ^ 32 - 1)
      else (t.tx v).seq = (s.tx v).seq + ceilDiv (tokenField t0 95 80) g.2.1 * ceilDiv (ceilDiv (tokenField t0 79 64) g.1) per)
  ∧ (∀ (k id d n : Nat) (t0 e : Token) (au : List Byte) (s : State), k < 64 → s.runs .net = true →
    s.strandTo .net (16 + k) = some (id, d) → frontUnit (s.strandStream id) = some (n, t0, e, au) →
    s.fld (F.NET_TX_CFG_enable (8 + k)) = 1 →
    let most := s.fld (F.NET_TX_MEDIA_H_max_payload k)
    let nals := (nalUnits au).filter (fun l => !l.isEmpty)
    ∃ t, Answers (.txAccessUnit k) s t ∧ SameMemory s t ∧ t.strandStream id = (s.strandStream id).drop n
      ∧ (t.tx (8 + k)).seq = (s.tx (8 + k)).seq
        + (nals.map (fun l => if l.length ≤ most then 1 else ceilDiv (l.length - 2) (most - 3))).sum)
  ∧ (∀ (j : Nat) (x : AudGroup) (s : State), j < 8 → s.runs .net = true → s.fld (F.NET_TX_CFG_enable (72 + j)) = 1 →
    s.grp (s.fld (F.NET_TX_MEDIA_A_group j)) = some x →
    let f := packetFrames x.fs (s.bit (F.NET_TX_MEDIA_A_short j))
    let first := if (s.tx (72 + j)).origin = x.origin then (s.tx (72 + j)).next else 0
    (first + 1) * f ≤ 64 * x.next →
    ∃ t, Answers (.txAudioPacket j) s t ∧ (DramIdle s → SameMemory s t) ∧ (t.tx (72 + j)).next = first + 1
      ∧ (t.tx (72 + j)).origin = x.origin
      ∧ (t.tx (72 + j)).seq = (s.tx (72 + j)).seq
        + (if x.counts.sum < s.fld (F.NET_TX_MEDIA_A_first j) + s.fld (F.NET_TX_MEDIA_A_count j) then 0 else 1))

/-- A group is enabled with its members and the first whole second at least 10 ms away as its origin where R423 permits, and is refused otherwise; disabling stops it at its next boundary; its origin shows it running; a unit that leads takes a block at each boundary; a good frame enters an input buffer or leaves an output buffer, a damaged one is counted; a lost clock and a rate off by more than 1,000 ppm in two windows are shown; a leaving output block completes its record (R423, R424, R425, R426, R427, R429, R430, R436, R437). -/
def Obligations.AudioGroups : Prop :=
  (∀ (m : Master) (g : Nat) (v : Word) (s : State), g < 8 → Admitted s m (R.AUD_GRP_CFG g) →
    let o := R.AUD_GRP_CFG g
    let old := s.rd o
    (let w := putBits v.toNat 0 0 1 &&& 0x7FFF0007
      ∃ t, Answers (.groupEnable m g v) s t ∧ SameMemory s t ∧
        if old % 2 = 1 then t.rd o = old ∧ t.aud = s.aud ∧ (w ≠ old → t.fld (F.AUD_GRP_STATUS_bad_cfg g) = 1)
        else if (s.wr o (w / 2 * 2)).grpOk g = true then
          t.rd o = w ∧ t.fld (F.AUD_GRP_STATUS_running g) = 0 ∧ t.rd (R.AUD_GRP_BLOCK g) = 0
            ∧ ∃ x, t.grp g = some x ∧ x.members = s.sapMembers g ++ s.netMembers g ∧ x.next = 0 ∧ x.reached = 0
              ∧ x.stopping = false ∧ s.nowNs + 10000000 ≤ x.origin ∧ x.origin < s.nowNs + 1010000000
              ∧ x.origin % 1000000000 = 0
        else t.rd o = w / 2 * 2 ∧ t.aud = s.aud ∧ t.fld (F.AUD_GRP_STATUS_bad_cfg g) = 1)
    ∧ ∃ t, Answers (.groupDisable m g v) s t ∧ SameMemory s t ∧
        if old % 2 = 1 then t.rd o = old - 1 ∧ t.grp g = (s.grp g).map (fun x => { x with stopping := true })
        else t.rd o = putBits v.toNat 0 0 0 &&& 0x7FFF0007 ∧ t.aud = s.aud)
  ∧ (∀ (g : Nat) (x : AudGroup) (s : State), g < 8 → s.grp g = some x →
    (x.stopping = false → ∃ t, Answers (.groupOrigin g) s t ∧ t.fld (F.AUD_GRP_STATUS_running g) = 1 ∧ t.aud = s.aud
      ∧ RegsBut [R.AUD_GRP_STATUS g] s t ∧ SameMemory s t ∧ (s.runs .anchor = true → x.origin ≤ t.nowNs))
    ∧ (x.stopping = true → ∃ t, Answers (.groupBoundary g) s t ∧ t.grp g = none ∧ t.fld (F.AUD_GRP_STATUS_running g) = 0)
    ∧ (x.stopping = false → ∃ t x', Answers (.groupBoundary g) s t ∧ t.grp g = some x' ∧ x'.reached = x.reached + 1
        ∧ (s.runs .anchor = true → x.time x.reached + x.deadline ≤ t.nowNs)
        ∧ (x.net = false → x.next ≤ x.reached → Leads s →
          x'.next = x.reached + 1 ∧ t.rd (R.AUD_GRP_BLOCK g) = (x.reached + 1) % 2 ^ 32)))
  ∧ (∀ (n at_ frac : Nat) (line : List SapPeriod) (s : State), n < 8 → s.runs .aud = true → s.sapGroup n = none →
    s.fld (F.AUD_SAP_CFG_member n) = 1 → s.fld (F.AUD_SAP_CFG_dir n) = 1 →
    ∃ t, Answers (.sampleFrame n at_ frac line) s t ∧ OnlyRegs [] s t
      ∧ .sap n (s.bit (F.AUD_SAP_CFG_bclk_inv n)) (s.sapDelay n) (s.sapLevels n (List.replicate (s.sapSlots n) 0)) ∈ t.out)
  ∧ (∀ (n at_ frac g : Nat) (line : List SapPeriod) (x : AudGroup) (s : State), n < 8 → s.runs .aud = true →
    s.sapGroup n = some (g, x) → frac < 65536 →
    let fine := at_ * 65536 + frac
    let levels := line.map (s.sapLevel n)
    let d := s.sapDelay n
    let good := s.frameWhole n ((levels.take (levels.length - d)).map Prod.fst)
    let buf := (s.sap n).buf
    (x.output = false → ∃ t, Answers (.sampleFrame n at_ frac line) s t ∧ (x.reached ≤ x.next → SameMemory s t ∧
        if good then
          (t.sap n).buf = (if x.origin * 65536 ≤ fine ∧ buf.length < 512 then buf ++ [⟨fine,
            (s.sapSamples n ((levels.drop d).map Prod.snd)).map (sampleWord (s.sapWidth n)), (s.sap n).glitch, 0⟩] else buf)
          ∧ t.fld (F.AUD_SAP_GLITCH_count n) = s.fld (F.AUD_SAP_GLITCH_count n)
        else (t.sap n).buf = buf ∧ t.fld (F.AUD_SAP_STATUS_glitch n) = 1
          ∧ t.fld (F.AUD_SAP_GLITCH_count n)
            = min (s.fld (F.AUD_SAP_GLITCH_count n) + 1) (2 ^ ((F.AUD_SAP_GLITCH_count n).hi + 1 - (F.AUD_SAP_GLITCH_count n).lo) - 1)))
    ∧ (x.output = true → ∃ t, Answers (.sampleFrame n at_ frac line) s t ∧ SameMemory s t ∧ (t.sap n).buf = buf.drop 1
      ∧ ∀ f rest, good = true → s.silent n = false → s.fld (F.AUD_SAP_STATUS_clock_lost n) = 0 → buf = f :: rest →
        .sap n (s.bit (F.AUD_SAP_CFG_bclk_inv n)) d (s.sapLevels n (f.words.map (fun v => v / 2 ^ (32 - s.sapWidth n)))) ∈ t.out)
    ∧ (∃ t, Answers (.clockLost n) s t ∧ SameMemory s t ∧ t.fld (F.AUD_SAP_STATUS_clock_lost n) = 1
      ∧ RegsBut [R.AUD_SAP_STATUS n, R.AUD_SAP_CLOST n] s t
      ∧ (s.fld (F.AUD_SAP_STATUS_clock_lost n) = 0 → t.fld (F.AUD_SAP_CLOST_count n)
        = min (s.fld (F.AUD_SAP_CLOST_count n) + 1) (2 ^ ((F.AUD_SAP_CLOST_count n).hi + 1 - (F.AUD_SAP_CLOST_count n).lo) - 1)))
    ∧ (∀ dur, 0 < dur →
      let part := x.fs * dur
      let whole : Int := (part : Int)
      let d : Int := 64000000000 * 65536 - whole
      let far := 1000 * part < 1000000 * d.natAbs
      ∃ t, Answers (.rateWindow n dur) s t ∧ RegsBut [R.AUD_SAP_STATUS n] s t ∧ SameMemory s t
        ∧ t.fld (F.AUD_SAP_STATUS_ppm n) = wrapTo 16 (clampI (-32768) 32767 ((2000000 * d + whole) / (2 * whole)))
        ∧ (far → 1 ≤ (s.sap n).off → t.fld (F.AUD_SAP_STATUS_rate_bad n) = 1)
        ∧ (¬ far → 1 ≤ (s.sap n).within → t.fld (F.AUD_SAP_STATUS_rate_bad n) = 0)
        ∧ ((if far then (s.sap n).off else (s.sap n).within) = 0 →
          t.fld (F.AUD_SAP_STATUS_rate_bad n) = s.fld (F.AUD_SAP_STATUS_rate_bad n))))
  ∧ (∀ (g at_ : Nat) (x : AudGroup) (b : OutBlock) (rest : List OutBlock) (s : State), g < 8 → s.grp g = some x →
    x.outs = b :: rest →
    let a := s.grpRecord g x.counts.sum b.k + 4
    let ts := match s.clockedMember x with
      | some n => s.adjusted n at_
      | none => x.unclocked b.k
    let m := recordMiddle x (if x.glitched.contains b.k then putBits b.flags 3 3 1 else b.flags) b.slip ts
    ∃ t, Answers (.outputBlockLeave g at_) s t ∧ t.grp g = some { x with prevTs := ts, outs := rest } ∧ RegsBut dramErrRegs s t
      ∧ (∀ i (h : i < m.length), memGet t.dram (a + i) = m[i])
      ∧ (DramIdle s → ∀ c, c < a ∨ a + m.length ≤ c → memGet t.dram c = memGet s.dram c))

/-- A source is selected where the image claims its balls and starts in FREERUN; its loss while LOCKING or LOCKED leads to HOLDOVER at the held rate; the 10 MHz input is noted as lost and restored; time is set where R410 permits and refused otherwise; a read of ANCHOR_NS captures seconds and fraction of the same instant; a PPS edge marks the second of ANCHOR_PPS_SEC, or is ignored and counted while LOCKED and more than 1 ms off (R407, R408, R409, R410, R411, R412, R431). -/
def Obligations.AnchorDiscipline : Prop :=
  (∀ (m : Master) (v : Word) (s : State), Admitted s m R.ANCHOR_CTRL →
    let src := v.toNat % 8
    ∃ t, Answers (.anchorSrcWrite m v) s t ∧ SameMemory s t ∧
      if 4 < src ∨ ((src = 2 ∨ src = 3) ∧ s.ballClaimed 0x400 = false) ∨ ((src = 3 ∨ src = 4) ∧ s.ballClaimed 0x401 = false) then
        t.fld F.ANCHOR_STATUS_bad_cfg = 1 ∧ OnlyRegs [R.ANCHOR_STATUS] s t
      else t.fld F.ANCHOR_CTRL_src = src ∧ t.clockState = 0 ∧ t.anchor.good = 0
        ∧ t.rate = (if src = 0 then 0 else s.rate) ∧ RegsBut [R.ANCHOR_CTRL, R.ANCHOR_STATUS, R.ANCHOR_RATE] s t)
  ∧ (∀ (c : Instr) (s : State),
    ((c = .ppsLoss ∧ (s.fld F.ANCHOR_CTRL_src = 2 ∨ s.fld F.ANCHOR_CTRL_src = 3))
      ∨ (c = .ptpSyncLoss ∧ (s.fld F.ANCHOR_CTRL_src = 1 ∨ s.fld F.ANCHOR_CTRL_src = 4))) →
    ∃ t, Answers c s t ∧ SameMemory s t ∧
      if s.clockState = 1 ∨ s.clockState = 2 then t.clockState = 3 ∧ t.fld F.ANCHOR_EVT_holdover = 1 ∧ t.anchor.holdAt = s.real
        ∧ t.rd R.ANCHOR_RATE = wrapTo 32 s.lockSegment.heldRate ∧ t.anchorT = s.anchorT
      else OnlyRegs [] s t)
  ∧ (∀ s : State, (∃ t, Answers .ref10Loss s t ∧ t.anchor = { s.anchor with ref10 := false }
        ∧ OnlyRegsAnd [] (fun t s => { s with anchor := t.anchor }) s t)
      ∧ ∃ t, Answers .ref10Restore s t ∧ t.anchor = { s.anchor with ref10 := true }
        ∧ OnlyRegsAnd [] (fun t s => { s with anchor := t.anchor }) s t)
  ∧ (∀ (m : Master) (s : State), Admitted s m R.ANCHOR_SET_CTRL → ∃ t, Answers (.setTime m) s t ∧
      let ns := s.fld F.ANCHOR_SET_NS_ns
      if 1000000000 ≤ ns ∨ s.stepAllowed = false then t.fld F.ANCHOR_SET_CTRL_refused = 1 ∧ OnlyRegs [R.ANCHOR_SET_CTRL] s t
      else t.anchorT = ((s.rd (R.ANCHOR_SET_SEC 0) + s.rd (R.ANCHOR_SET_SEC 1) * 2 ^ 32) * 1000000000 + ns) * 2 ^ 48
        ∧ t.fld F.ANCHOR_STATUS_stepped = 1 ∧ t.fld F.ANCHOR_EVT_step = 1)
  ∧ (∀ (m : Master) (s : State), Admitted s m R.ANCHOR_NS →
    ∃ t, Answers (.anchorNsRead m) s t ∧ .readData m R.ANCHOR_NS (s.nowNs % 1000000000) ∈ t.out
      ∧ t.rd2 (R.ANCHOR_SEC 0) (R.ANCHOR_SEC 1) = s.nowNs / 1000000000 % 2 ^ 64 ∧ t.rd R.ANCHOR_FRAC = s.anchorT / 2 ^ 32 % 65536
      ∧ OnlyRegs [R.ANCHOR_SEC 0, R.ANCHOR_SEC 1, R.ANCHOR_FRAC] s t)
  ∧ (∀ (at_ frac : Nat) (s : State), s.runs .anchor = true → s.fld F.ANCHOR_CTRL_src = 2 ∨ s.fld F.ANCHOR_CTRL_src = 3 →
    frac < 65536 →
    let off := (at_ * 65536 + frac) % (1000000000 * 65536)
    let sec := s.rd2 (R.ANCHOR_PPS_SEC 0) (R.ANCHOR_PPS_SEC 1)
    ∃ t, Answers (.ppsEdge at_ frac) s t ∧ (s.fclk.frames = [] → SameMemory s t) ∧
      if s.clockState = 2 ∧ 1000000 * 65536 < off ∧ off < 999000000 * 65536 then
        t.fld F.ANCHOR_PPS_BAD_count
            = min (s.fld F.ANCHOR_PPS_BAD_count + 1) (2 ^ (F.ANCHOR_PPS_BAD_count.hi + 1 - F.ANCHOR_PPS_BAD_count.lo) - 1)
          ∧ OnlyRegsAnd [R.ANCHOR_PPS_BAD] (fun t s => { s with anchorT := t.anchorT, real := t.real }) s t
      else t.rd2 (R.ANCHOR_PPS_SEC 0) (R.ANCHOR_PPS_SEC 1) = (sec + 1) % 2 ^ 64
        ∧ t.rd R.ANCHOR_OFFSET = wrapTo 32 (clampI (-2147483648) 2147483647
            (roundShift 16 (((at_ * 65536 + frac : Nat) : Int) - ((sec * 1000000000 * 65536 : Nat) : Int)))))

/-- A PTP message of another domain or of no known type is ignored and counted; an Announce joins the foreign masters; a Sync, alone or with its Follow_Up, from the selected master gives the difference of its times; a master port answers Delay_Req with Delay_Resp, and Delay_Resp gives the mean path delay; a master port sends Sync, with the time in it or in a Follow_Up, and Announce, a slave port Delay_Req; a timeout forgets what a port heard; a settings write starts PTP afresh (the layout and the algorithm are those of IEEE 1588, which the model presumes) (R409, R411, R413, R414, R415, R416, R433). -/
def Obligations.PtpMessages : Prop :=
  (∀ (p at_ frac : Nat) (f b : List Byte) (s : State), p < 8 → s.runs .anchor = true → s.runs .net = true →
    s.ptpMessage p f = some b → frac < 65536 →
    let s1 := s.reachAt at_ frac
    let fine := at_ * 65536 + frac
    let ty := beAt b 0 1 % 16
    let source := s.fld F.ANCHOR_CTRL_src = 1 ∨ s.fld F.ANCHOR_CTRL_src = 4
    let off := fun (x : Int) => wrapTo 32 (clampI (-2147483648) 2147483647 (roundShift 16 (x - s.anchor.delay)))
    (beAt b 4 1 ≠ s.fld F.ANCHOR_PTP_CFG_domain ∨ beAt b 0 1 / 16 ≠ 0 ∨ (ty ≠ 0 ∧ ty ≠ 1 ∧ ty ≠ 8 ∧ ty ≠ 9 ∧ ty ≠ 11) →
      ∃ t, Answers (.ptpIgnoredMessage p at_ frac f) s t
        ∧ t.fld F.ANCHOR_PTP_RX_IGN_count
            = min (s.fld F.ANCHOR_PTP_RX_IGN_count + 1) (2 ^ (F.ANCHOR_PTP_RX_IGN_count.hi + 1 - F.ANCHOR_PTP_RX_IGN_count.lo) - 1)
        ∧ OnlyRegsAnd [R.ANCHOR_PTP_RX_IGN] (fun t s => { s with anchorT := t.anchorT, real := t.real }) s t)
    ∧ (beAt b 4 1 = s.fld F.ANCHOR_PTP_CFG_domain → beAt b 0 1 / 16 = 0 →
      (ty = 11 → 64 ≤ b.length → (announceOf b).sender / 65536 ≠ s.clockId →
        ∃ t, Answers (.ptpAnnounce p at_ frac f) s t ∧ SameMemory s t
          ∧ ∃ x ∈ t.anchor.foreign, x.port = p ∧ x.data = announceOf b ∧ x.times.head? = some s1.nowNs)
      ∧ (ty = 0 → s.fromParent p b = true → 44 ≤ b.length →
        ∃ t, Answers (.ptpSync p at_ frac f) s t ∧ (s.fclk.frames = [] → SameMemory s t) ∧
          let diff := (fine : Int) - (stampAt b 34 + correction b)
          if (beAt b 6 1).testBit 1 then (t.ptpPort p).sync = some (beAt b 30 2, fine, correction b)
          else (¬ source → t.anchor.diff = some diff) ∧ (source → t.rd R.ANCHOR_OFFSET = off diff))
      ∧ (∀ t2 c, ty = 8 → s.fromParent p b = true → 44 ≤ b.length → (s.ptpPort p).sync = some (beAt b 30 2, t2, c) →
        ∃ t, Answers (.ptpFollowUp p at_ frac f) s t ∧ (s.fclk.frames = [] → SameMemory s t) ∧ (t.ptpPort p).sync = none ∧
          let diff := (t2 : Int) - (stampAt b 34 + c + correction b)
          (¬ source → t.anchor.diff = some diff) ∧ (source → t.rd R.ANCHOR_OFFSET = off diff))
      ∧ (ty = 1 → s.ptpState p = 4 → 44 ≤ b.length →
        ∃ t, Answers (.ptpDelayReq p at_ frac f) s t ∧ SameMemory s t
          ∧ PtpSent s t p 9 (beAt b 30 2) 0 (correction b - frac) (fun k => slice k 34 10 = ptpStamp fine ∧ slice k 44 10 = slice b 20 10))
      ∧ (∀ t3 d, ty = 9 → s.fromParent p b = true → 54 ≤ b.length → beAt b 44 10 = s.portId p →
        (s.ptpPort p).req = some (beAt b 30 2, t3) → s.anchor.diff = some d →
        ∃ t, Answers (.ptpDelayResp p at_ frac f) s t ∧ SameMemory s t ∧ (t.ptpPort p).req = none ∧ t.ptpState p = 3
          ∧ t.anchor.delay = (d + (stampAt b 34 - correction b - t3)) / 2)))
  ∧ (∀ (p at_ frac : Nat) (s : State), p < 8 → s.runs .anchor = true → s.runs .net = true → s.portUp p = true → frac < 65536 →
    (s.ptpState p = 4 →
      (∃ t, Answers (.ptpSyncInterval p at_ frac) s t ∧ SameMemory s t ∧ (t.ptpPort p).syncSeq = ((s.ptpPort p).syncSeq + 1) % 65536
        ∧ if s.fld F.ANCHOR_PTP_CFG_two_step = 0 then
            PtpSent s t p 0 (s.ptpPort p).syncSeq 0 frac (fun k => slice k 34 10 = ptpStamp (at_ * 65536 + frac))
          else PtpSent s t p 0 (s.ptpPort p).syncSeq 0x0200 0 (fun k => slice k 34 10 = zeroBytes 10)
            ∧ PtpSent s t p 8 (s.ptpPort p).syncSeq 0 frac (fun k => slice k 34 10 = ptpStamp (at_ * 65536 + frac)))
      ∧ ∃ t, Answers (.ptpAnnounceInterval p at_) s t ∧ SameMemory s t ∧ (t.ptpPort p).annSeq = ((s.ptpPort p).annSeq + 1) % 65536
        ∧ (s.anchor.parent = none → PtpSent s t p 11 (s.ptpPort p).annSeq 0 0 (fun k => beAt k 47 1 = s.fld F.ANCHOR_PTP_CFG_priority1
            ∧ beAt k 52 1 = s.fld F.ANCHOR_PTP_CFG_priority2 ∧ beAt k 53 8 = s.clockId ∧ beAt k 61 2 = 0)))
    ∧ (s.ptpState p = 2 ∨ s.ptpState p = 3 → ∃ t, Answers (.ptpDelayReqInterval p at_ frac) s t ∧ SameMemory s t
      ∧ (t.ptpPort p).req = some ((s.ptpPort p).reqSeq, at_ * 65536 + frac)
      ∧ PtpSent s t p 1 (s.ptpPort p).reqSeq 0 0 (fun k => slice k 34 10 = zeroBytes 10)))
  ∧ (∀ (p : Nat) (s : State), p < 8 → ∃ t, Answers (.announceReceiptTimeout p) s t ∧ SameMemory s t ∧
      if s.ptpState p = 0 ∨ s.ptpState p = 4 ∨ s.ptpState p = 6 then OnlyRegs [] s t else ∀ x ∈ t.anchor.foreign, x.port ≠ p)
  ∧ (∀ (m : Master) (k : Nat) (v : Word) (s : State), k < 7 → Admitted s m (ptpOffset k) →
    let s1 := s.regWrite (ptpOffset k) v.toNat
    ∃ t, Answers (.ptpCfgWrite m k v) s t ∧ SameMemory s t ∧
      if s1.fld F.ANCHOR_PTP_CFG_enable = 0 then
        t.rd (ptpOffset k) = s1.rd (ptpOffset k) ∧ RegsBut [ptpOffset k, R.ANCHOR_PTP_STATE] s t
      else t.anchor.foreign = [] ∧ t.anchor.parent = none ∧
        if s1.ptpOk = true then ∀ p, p < 8 → t.ptpState p = if p ∈ s1.ptpPorts then 1 else 0
        else t.fld F.ANCHOR_PTP_CFG_enable = 0 ∧ t.fld F.ANCHOR_STATUS_bad_cfg = 1 ∧ t.rd R.ANCHOR_PTP_STATE = 0)

/-- A timer of HOST or MGT is enabled where R419 permits, fires at once and late when its target has passed, and is refused otherwise; an armed timer fires, stops or moves on by its period, and drives its ball until the pulse ends; an injection is checked, sent once with its frame check sequence, and its time stamp is queued and popped in order (R417, R419, R420, R434, R435). -/
def Obligations.TimersAndInjection : Prop :=
  (∀ (m : Master) (k : Nat) (v : Word) (s : State), k < 32 → Admitted s m (R.ANCHOR_TMR_CTRL k) →
    s.rd (R.ANCHOR_TMR_CTRL k) % 2 = 0 → v.toNat % 2 = 1 →
    let w := v.toNat &&& 0xFFFF000F
    let s1 := s.wr (R.ANCHOR_TMR_CTRL k) (w / 2 * 2)
    let x := ((s.rd (R.ANCHOR_TMR_T_SEC k 0) + s.rd (R.ANCHOR_TMR_T_SEC k 1) * 2 ^ 32) * 1000000000 + s.rd (R.ANCHOR_TMR_T_NS k) % 2 ^ 30) * 65536
    ∃ t, Answers (.timerEnable m k v) s t ∧ SameMemory s t ∧
      if s.timerWritable k = false then OnlyRegs [] s t
      else if s1.timerOk k = false then t.fld (F.ANCHOR_TMR_STATUS_bad_cfg k) = 1 ∧ t.rd (R.ANCHOR_TMR_CTRL k) = w / 2 * 2
      else if bitsOf w 2 2 = 1 ∨ s.anchorT / 2 ^ 32 ≤ x then
        t.rd (R.ANCHOR_TMR_CTRL k) = w ∧ t.fld (F.ANCHOR_TMR_STATUS_armed k) = 1
          ∧ OnlyRegsAnd [R.ANCHOR_TMR_CTRL k, R.ANCHOR_TMR_STATUS k] (fun t s => { s with anchor := t.anchor }) s t
      else t.fld (F.ANCHOR_TMR_STATUS_late k) = 1 ∧ t.fld ⟨R.ANCHOR_TMR_EVT, k, k⟩ = 1)
  ∧ (∀ (k : Nat) (s : State), k < 32 → s.runs .anchor = true → s.fld (F.ANCHOR_TMR_STATUS_armed k) = 1 →
    ∃ t, Answers (.timerFire k) s t ∧ SameMemory s t ∧ t.fld ⟨R.ANCHOR_TMR_EVT, k, k⟩ = 1
      ∧ (s.fld (F.ANCHOR_TMR_CTRL_pulse k) = 1 → .timerBall k true ∈ t.out ∧ ∃ q ∈ t.anchor.pulses, q.1 = k)
      ∧ (if s.fld (F.ANCHOR_TMR_CTRL_periodic k) = 1 ∨ s.fld (F.ANCHOR_TMR_CTRL_src k) = 1 then t.fld (F.ANCHOR_TMR_STATUS_armed k) = 1
        else t.fld (F.ANCHOR_TMR_CTRL_enable k) = 0 ∧ t.fld (F.ANCHOR_TMR_STATUS_armed k) = 0)
      ∧ (s.fld (F.ANCHOR_TMR_CTRL_src k) = 0 → s.tmrTarget k / 65536 ≤ t.nowNs)
      ∧ (s.fld (F.ANCHOR_TMR_CTRL_periodic k) = 1 → s.fld (F.ANCHOR_TMR_CTRL_src k) = 0 →
          s.tmrTarget k + s.tmrPeriod k < 2 ^ 64 * 1000000000 * 65536 → t.tmrTarget k = s.tmrTarget k + s.tmrPeriod k))
  ∧ (∀ (k : Nat) (q : Nat × Nat) (s : State), k < 32 → s.anchor.pulses.find? (fun p => p.1 = k) = some q →
    ∃ t, Answers (.pulseEnd k) s t ∧ .timerBall k false ∈ t.out ∧ (∀ p ∈ t.anchor.pulses, p.1 ≠ k) ∧ RegsBut [] s t ∧ SameMemory s t
      ∧ t.anchorT = (s.reach q.2).anchorT)
  ∧ (∀ (m : Master) (v : Word) (s : State), Admitted s m R.ANCHOR_TXI_CTRL →
    let s1 := s.regWrite R.ANCHOR_TXI_CTRL (putBits v.toNat 15 15 1)
    let len := s1.fld F.ANCHOR_TXI_CTRL_len
    let port := s1.fld F.ANCHOR_TXI_CTRL_port
    ∃ t, Answers (.txiGo m v) s t ∧ SameMemory s t ∧
      if len < 60 ∨ 2044 < len then t.fld F.ANCHOR_TXI_CTRL_state = 3 ∧ t.fld F.ANCHOR_EVT_txi = 1 ∧ t.anchor = s.anchor
      else if s.anchor.txi ≠ none then t.fld F.ANCHOR_TXI_CTRL_state = 4 ∧ t.fld F.ANCHOR_EVT_txi = 1 ∧ t.anchor = s.anchor
      else if s.portUp port = false then t.fld F.ANCHOR_TXI_CTRL_state = 5 ∧ t.fld F.ANCHOR_EVT_txi = 1 ∧ t.anchor = s.anchor
      else t.fld F.ANCHOR_TXI_CTRL_state = 1 ∧ ∃ k, t.anchor.txi = some k ∧ k.port = port ∧ k.bytes.length = len
        ∧ k.id = s.fld F.ANCHOR_TXI_ID_id ∧ k.ts = s1.bit F.ANCHOR_TXI_CTRL_ts)
  ∧ (∀ (at_ frac : Nat) (k : Inject) (s : State), s.anchor.txi = some k → k.port < 8 → frac < 65536 →
    let q := mapGet [] s.anchor.tsq k.port
    ∃ t, Answers (.txiSent at_ frac) s t ∧ SameMemory s t ∧ t.anchor.txi = none ∧ t.fld F.ANCHOR_EVT_txi = 1 ∧
      if s.portUp k.port = true then
        .ethernet k.port (k.bytes ++ frameCheck k.bytes) ∈ t.out ∧ t.fld F.ANCHOR_TXI_CTRL_state = 2 ∧
        (if k.ts = true ∧ q.length < 64 then mapGet [] t.anchor.tsq k.port = q ++ [⟨k.id, at_ * 65536 + frac⟩]
        else t.anchor.tsq = s.anchor.tsq ∧ (k.ts = true → t.fld (F.ANCHOR_TSQ_OVF_count k.port)
          = min (s.fld (F.ANCHOR_TSQ_OVF_count k.port) + 1)
              (2 ^ ((F.ANCHOR_TSQ_OVF_count k.port).hi + 1 - (F.ANCHOR_TSQ_OVF_count k.port).lo) - 1)))
      else t.fld F.ANCHOR_TXI_CTRL_state = 5 ∧ t.anchor.tsq = s.anchor.tsq)
  ∧ (∀ (m : Master) (p : Nat) (s : State), p < 8 → Admitted s m (R.ANCHOR_TSQ_ID p) →
    ∃ t, Answers (.tsqPop m p) s t ∧ SameMemory s t ∧
      match mapGet [] s.anchor.tsq p with
      | [] => .readData m (R.ANCHOR_TSQ_ID p) 0 ∈ t.out ∧ OnlyRegs [] s t
      | e :: r => .readData m (R.ANCHOR_TSQ_ID p) (e.id % 65536 + 65536) ∈ t.out ∧ mapGet [] t.anchor.tsq p = r
        ∧ t.rd (R.ANCHOR_TSQ_NS p) = e.time / 65536 % 1000000000 ∧ t.rd (R.ANCHOR_TSQ_FRAC p) = e.time % 65536
        ∧ t.rd2 (R.ANCHOR_TSQ_SEC p 0) (R.ANCHOR_TSQ_SEC p 1) = e.time / 65536 / 1000000000 % 2 ^ 64
        ∧ RegsBut [R.ANCHOR_TSQ_NS p, R.ANCHOR_TSQ_FRAC p, R.ANCHOR_TSQ_SEC p 0, R.ANCHOR_TSQ_SEC p 1] s t)

/-- Enabling the store, from OFF or FAULTED, ends in each state and reason of R444 by its steps, and has no effect elsewhere; a format of the SSDs that pass takes one epoch fuse and starts, or is refused; disabling turns the store off and forgets its key; a lost member faults the store, or waits for the end of an activation; a staged block that may drain reaches its member, an atomic one the log first; blocks that fail leave staging as deferred errors; an idle store enters CS1 and then CS2 (R438, R444, R451, R453, R454, R455, R459, R460, R465, R547). -/
def Obligations.ClipStoreStates : Prop :=
  (∀ (m : Master) (v : Word) (ssds : List Ssd) (lost : List (Nat × Nat)) (s : State), Admitted s m R.CLIP_STORE_CTRL →
    let st := s.storeState
    let same := bitsOf v.toNat 3 2 = s.fld F.CLIP_STORE_CTRL_bif
    let s0 := if same then s else if st = 0 then s.put F.CLIP_STORE_CTRL_bif (bitsOf v.toNat 3 2) else s.put F.CLIP_STORE_STATUS_bad_cfg 1
    (st = 0 ∨ st = 3 →
      let s1 := (if st = 3 then s0.storeQuiesce.storeClose else s0).put F.CLIP_STORE_CTRL_enable 1
      let s2 := s1.attach ssds lost
      ∃ t, Answers (.storeEnable m v ssds lost) s t ∧ t.fld F.CLIP_STORE_CTRL_enable = 1 ∧
        if s.sys.fuses.lcState = 3 then t.storeState = 4 ∧ t.fld F.CLIP_STORE_STATUS_reason = 1
        else if s1.stageOk = false then t.storeState = 3 ∧ t.fld F.CLIP_STORE_STATUS_reason = 2
        else if s2.linkReason ≠ 0 then t.storeState = 3 ∧ t.fld F.CLIP_STORE_STATUS_reason = s2.linkReason
        else match s2.headerOrder with
          | none => t.storeState = 3 ∧ t.fld F.CLIP_STORE_STATUS_reason = 5
          | some order =>
            let s3 : State := { s2 with clip := { s2.clip with order := order } }
            match s3.unwrapStoreKey with
            | none => t.storeState = 3 ∧ t.fld F.CLIP_STORE_STATUS_reason = 6 ∧ t.clip.order = []
            | some key => t.sys.storeKey = some key ∧
              if s3.losesAt 6 = [] ∧ s3.losesAt 7 = [] then
                t.storeState = 2 ∧ t.fld F.CLIP_STORE_STATUS_reason = 0 ∧ t.fld F.CLIP_EVT_ready = 1
              else t.storeState = 3 ∧ t.fld F.CLIP_STORE_STATUS_reason = 7)
    ∧ (st ≠ 0 → st ≠ 3 → ∃ t, Answers (.storeEnable m v ssds lost) s t ∧
        if same then OnlyRegs [] s t else t.fld F.CLIP_STORE_STATUS_bad_cfg = 1 ∧ OnlyRegs [R.CLIP_STORE_STATUS] s t)
    ∧ (∃ t, Answers (.storeFormat m v ssds lost) s t ∧
        if st ≠ 0 ∧ st ≠ 3 then t.fld F.CLIP_STORE_STATUS_bad_cfg = 1 ∧ t.sys = s.sys ∧ t.clip = s.clip
        else if s.sys.fuses.lcState = 3 then t.storeState = 4 ∧ t.fld F.CLIP_STORE_STATUS_reason = 1
        else if (s0.attach ssds lost).formatSsds = [] then t.fld F.CLIP_STORE_STATUS_bad_cfg = 1 ∧ t.sys = s.sys
        else if 128 ≤ s.sys.fuses.epoch then t.fld F.SYS_CSK_CTRL_state = 6 ∧ t.sys = s.sys
        else t.storeState = 1 ∧ t.sys.fuseSeqs = s.sys.fuseSeqs ++ [([FusePulse.epoch], FuseEnd.format)] ∧ t.sys.storeKey = none
          ∧ t.fld F.SYS_STATUS_fuse_busy = 1 ∧ t.clip.format = true ∧ t.clip.order = [])
    ∧ (∃ t, Answers (.storeDisable m v) s t ∧
        if st = 0 then OnlyRegs [R.CLIP_STORE_CTRL] s t
        else t.storeState = 0 ∧ t.fld F.CLIP_STORE_CTRL_enable = 0 ∧ t.clip.order = [] ∧ t.sys.storeKey = none
          ∧ ∀ k ∈ s.clip.order, .nvme k .shutdown ∈ t.out))
  ∧ (∀ (k : Nat) (s : State), k < 4 → s.memberLeaves k = true →
    ∃ t, Answers (.memberLost k) s t ∧
      if s.mbox.fwact = none then t.storeState = 3 ∧ t.fld F.CLIP_STORE_STATUS_reason = 7 ∧ t.fld F.CLIP_EVT_fault = 1
        ∧ t.slotLost k = true ∧ ∀ e ∈ t.clip.staged, e.acked = true → (s.homeOf e.lba).1 ≠ k
      else t.clip = { s.clip with heldErrs := s.clip.heldErrs ++ [.lost k] } ∧ RegsBut [] s t ∧ SameMemory s t)
  ∧ (∀ (count : Nat) (e : Staged) (s : State), s.storeState = 2 ∨ s.storeState = 3 → s.clip.order ≠ [] → s.clip.cmds = [] →
    s.clip.staged.find? s.canDrain = some e →
    count = 1 ∨ (1 ≤ count ∧ ∀ f ∈ s.clip.staged, s.canDrain f = true → f.id = e.id ∧ f.lba = e.lba) →
    let h := s.homeOf e.lba
    let d := e.data.getD (zeroBytes blockBytes)
    (e.atomic = false ∨ (s.atomOf e.id).map (fun a => a.whole) = some true → d.length = blockBytes →
      ∃ t, Answers (.stagingDrain count) s t ∧ t.dram = s.dram
        ∧ memRead (t.memberCells h.1) (h.2 * blockBytes) blockBytes = d
        ∧ (∀ f ∈ t.clip.staged, f.id = e.id → f.lba = e.lba → f.written = true)
        ∧ (∀ a, a < h.2 * blockBytes ∨ h.2 * blockBytes + blockBytes ≤ a →
          memGet (t.memberCells h.1) a = memGet (s.memberCells h.1) a)
        ∧ ∀ k, k ≠ h.1 → t.memberCells k = s.memberCells k)
    ∧ (count = 1 → e.atomic = true → (s.atomOf e.id).map (fun a => a.whole) ≠ some true →
      ∃ t, Answers (.stagingDrain count) s t ∧ t.dram = s.dram ∧ t.clip.cells = s.clip.cells ∧ t.clip.staged = s.clip.staged
        ∧ ∃ a ∈ t.clip.atoms, a.id = e.id
          ∧ a.blocks = (s.unitBlocks e.id).take (((s.atomOf e.id).map (fun a => a.blocks.length)).getD 0 + 1)))
  ∧ (∀ (lba count status : Nat) (s : State),
    let p := fun (e : Staged) => e.acked && decide (lba ≤ e.lba) && decide (e.lba < lba + count)
    ∃ t, Answers (.deferredError lba count status) s t ∧ t.dram = s.dram ∧
      if s.mbox.fwact = none then t.clip.staged = s.clip.staged.filter (fun e => !p e)
        ∧ ((∃ e ∈ s.clip.staged, p e = true) → t.fld F.CLIP_EVT_deferred = 1)
      else t.clip = { s.clip with heldErrs := s.clip.heldErrs
        ++ [.failed ((s.clip.staged.filter p).map (fun e => (e.id, e.lba))) (status % 65536)] })
  ∧ (∀ (at_ : Nat) (s : State), s.storeState = 2 →
    let s1 := s.reach at_
    (s.fld F.CLIP_PWR_STATUS_cs = 0 → s.fld F.CLIP_PWR_idle1 ≠ 0 → s.clip.cmds = [] →
      s.clip.lastTake + s.fld F.CLIP_PWR_idle1 * 1000000 ≤ s1.real →
      ∃ t, Answers (.cs1Entry at_) s t ∧ t.fld F.CLIP_PWR_STATUS_cs = 1 ∧ t.clip.cs1Since = s1.real
        ∧ ∀ p ∈ s.cs1Members, .nvme p.1 (.power p.2) ∈ t.out)
    ∧ (s.fld F.CLIP_PWR_STATUS_cs = 1 → s.fld F.CLIP_PWR_idle2 ≠ 0 → s.ballClaimed 0x402 = true →
      s.fld F.CLIP_PWR_STATUS_bivouac_ok = 1 → s.clip.cs1Since + s.fld F.CLIP_PWR_idle2 * 1000000000 ≤ s1.real →
      ∃ t, Answers (.cs2Entry at_) s t ∧ t.fld F.CLIP_PWR_STATUS_cs = 2 ∧ .ssdPower false ∈ t.out
        ∧ ∀ k ∈ s.clip.order, .nvme k .shutdown ∈ t.out))

/-- A doorbell write moves a queue index, or sets bad_tail where it would leave too many commands pending; a queue is enabled where R464 permits; a reset of a queue ends at once where every command of it is aborted, and else stays until the others have ended; the store takes the command at the head of the queue whose turn it is, which joins those in progress or completes at once with the status of the check it fails, and wakes its members but for a FLUSH of durable blocks; a command that can finish leaves them and posts one completion entry with its status (R445, R446, R447, R448, R449, R452, R453, R457, R459, R460, R464). -/
def Obligations.ClipCommands : Prop :=
  (∀ (m : Master) (q : Nat) (v : Word) (s : State), q < 64 →
    (Admitted s m (R.CLIP_Q_SQ_TAIL q) → ∃ t, Answers (.clipSqTail m q v) s t ∧
      if s.fld (F.CLIP_Q_STATUS_resetting q) = 1 then OnlyRegs [] s t
      else if s.ringEntries q < (v.toNat % 65536 + 65536 - s.rd (R.CLIP_Q_SQ_HEAD q) % 65536) % 65536 then
        t.fld (F.CLIP_Q_STATUS_bad_tail q) = 1 ∧ OnlyRegs [R.CLIP_Q_STATUS q] s t
      else t.rd (R.CLIP_Q_SQ_TAIL q) = v.toNat % 65536 ∧ OnlyRegs [R.CLIP_Q_SQ_TAIL q] s t)
    ∧ (Admitted s m (R.CLIP_Q_CQ_HEAD q) → ∃ t, Answers (.clipCqHead m q v) s t ∧
      if s.fld (F.CLIP_Q_STATUS_resetting q) = 1 then OnlyRegs [] s t
      else t.rd (R.CLIP_Q_CQ_HEAD q) = v.toNat % 65536 ∧ OnlyRegs [R.CLIP_Q_CQ_HEAD q] s t)
    ∧ (Admitted s m (R.CLIP_Q_CTRL q) →
      (∃ t, Answers (.clipQueueEnable m q v) s t ∧
        if s.fld (F.CLIP_Q_CTRL_enable q) = 1 then OnlyRegs [] s t
        else if s.fld (F.CLIP_Q_STATUS_resetting q) = 0 ∧ s.clipQueueOk q = true then
          t.fld (F.CLIP_Q_CTRL_enable q) = 1 ∧ OnlyRegs [R.CLIP_Q_CTRL q] s t
        else t.fld (F.CLIP_Q_STATUS_bad_cfg q) = 1 ∧ OnlyRegs [R.CLIP_Q_STATUS q] s t)
      ∧ ∃ t, Answers (.clipQueueReset m q v) s t ∧
        if s.fld (F.CLIP_Q_STATUS_resetting q) = 1 then OnlyRegs [] s t
        else if ∀ c ∈ s.clip.cmds, c.q = q → c.aborts s.mbox.fwact.isSome = true then
          t.fld (F.CLIP_Q_CTRL_enable q) = 0 ∧ t.fld (F.CLIP_Q_STATUS_resetting q) = 0 ∧ t.rd (R.CLIP_Q_SQ_HEAD q) = 0
            ∧ t.rd (R.CLIP_Q_SQ_TAIL q) = 0 ∧ t.rd (R.CLIP_Q_CQ_HEAD q) = 0 ∧ t.rd (R.CLIP_Q_CQ_TAIL q) = 0
            ∧ t.rd (R.CLIP_Q_NEXT_SEQ q) = 0 ∧ (∀ c ∈ t.clip.cmds, c.q ≠ q)
            ∧ (s.clip.cmds = [] → s.sqPending q = 0 → SameMemory s t)
        else t.fld (F.CLIP_Q_STATUS_resetting q) = 1))
  ∧ (∀ (c : Instr) (op : Nat) (s : State),
    ((c = .write ∧ op = 1) ∨ (c = .read ∧ op = 2) ∨ (c = .flush ∧ op = 3) ∨ (c = .deallocate ∧ op = 4) ∨ (c = .identify ∧ op = 5)
      ∨ (c = .getLog ∧ op = 6)) →
    (s.storeTakes = false ∨ s.nextQueue = none → ∃ t, Answers c s t ∧ OnlyRegs [] s t)
    ∧ ∀ q, s.storeTakes = true → s.nextQueue = some q →
      let b := (s.headEntry q).1
      let k := leAt b 0 1
      let st := s.entryStatus q b
      let head := s.rd (R.CLIP_Q_SQ_HEAD q)
      let tail := s.rd (R.CLIP_Q_CQ_TAIL q)
      let a := s.ringBase (R.CLIP_Q_CQ_LO q) (R.CLIP_Q_CQ_HI q) + 32 * (tail % s.ringEntries q)
      let durable := k = 3 ∧ st = 0 ∧ ∀ e ∈ s.clip.staged, e.id ∉ s.coverage q (leAt b 1 1)
      (k ≠ op → 1 ≤ k → k ≤ 6 → ∃ t, Answers c s t ∧ OnlyRegs [] s t)
      ∧ (k = op ∨ k = 0 ∨ 6 < k → ∃ t, Answers c s t ∧ t.rd (R.CLIP_Q_SQ_HEAD q) = (head + 1) % 65536 ∧ t.clip.round = (q + 1) % 64
        ∧ t.clip.lastTake = s.real
        ∧ t.fld F.CLIP_PWR_STATUS_cs = (if durable then s.fld F.CLIP_PWR_STATUS_cs else 0) ∧
        if st = 0 then t.rd (R.CLIP_Q_CQ_TAIL q) = tail ∧ (DramIdle s → SameMemory s t)
          ∧ ((∀ x ∈ s.clip.cmds, x.id ≠ s.clip.nextId) → ∃ x ∈ t.clip.cmds, x.id = s.clip.nextId ∧ x.q = q ∧ x.op = k
            ∧ x.flags = leAt b 1 1 ∧ x.cid = leAt b 2 2 ∧ x.slba = leAt b 8 8 ∧ x.nlb = leAt b 16 4 ∧ x.addr = leAt b 24 8)
        else t.rd (R.CLIP_Q_CQ_TAIL q) = (tail + 1) % 65536 ∧ t.clip.cmds = s.clip.cmds
          ∧ leAt (memRead t.dram a 32) 0 4 = s.rd (R.CLIP_Q_NEXT_SEQ q) ∧ leAt (memRead t.dram a 32) 4 2 = leAt b 2 2
          ∧ leAt (memRead t.dram a 32) 6 1 = st ∧ leAt (memRead t.dram a 32) 7 1 = k
          ∧ (DramIdle s → ∀ i, i < a ∨ a + 32 ≤ i → memGet t.dram i = memGet s.dram i)))
  ∧ (∀ (k : Nat) (errs : List (Nat × Nat)) (c : ClipCmd) (s : State), s.clip.cmds[k]? = some c → c.q < 64 →
    let tail := s.rd (R.CLIP_Q_CQ_TAIL c.q)
    let a := s.ringBase (R.CLIP_Q_CQ_LO c.q) (R.CLIP_Q_CQ_HI c.q) + 32 * (tail % s.ringEntries c.q)
    (s.canFinish c errs = false → ∃ t, Answers (.commandComplete k errs) s t ∧ SameMemory s t ∧ t.clip = s.clip)
    ∧ (s.canFinish c errs = true → s.fld (F.CLIP_Q_STATUS_resetting c.q) = 0 → s.cqUsed c.q < s.ringEntries c.q →
      ∃ t, Answers (.commandComplete k errs) s t ∧ (∀ x ∈ t.clip.cmds, x.id ≠ c.id)
        ∧ t.rd (R.CLIP_Q_CQ_TAIL c.q) = (tail + 1) % 65536
        ∧ leAt (memRead t.dram a 32) 4 2 = c.cid % 65536 ∧ leAt (memRead t.dram a 32) 7 1 = c.op % 256
        ∧ (c.fail ≠ 0 → leAt (memRead t.dram a 32) 6 1 = c.fail % 256)
        ∧ (c.fail = 0 → c.op = 1 ∨ c.op = 4 ∨ c.op = 5 ∨ c.op = 6 → leAt (memRead t.dram a 32) 6 1 = 0)
        ∧ (c.fail = 0 → c.op = 3 → leAt (memRead t.dram a 32) 6 1
          = if s.clip.errs.any (fun e => c.covered.contains e.id) then 5 else 0)))
end

