-- ==== Sys2Proof/Laws/State.lean ====
section
/-! SUPPORT. What each named update of the state leaves alone, one lemma for each field. -/
namespace Sys2Proof.Machine

/-! ## State.wr -/

@[simp] theorem State.wr_dram (s : State) (off v : Nat) : (s.wr off v).dram = s.dram := rfl
@[simp] theorem State.wr_pool (s : State) (off v : Nat) : (s.wr off v).pool = s.pool := rfl
@[simp] theorem State.wr_sram (s : State) (off v : Nat) : (s.wr off v).sram = s.sram := rfl
@[simp] theorem State.wr_flash (s : State) (off v : Nat) : (s.wr off v).flash = s.flash := rfl
@[simp] theorem State.wr_real (s : State) (off v : Nat) : (s.wr off v).real = s.real := rfl
@[simp] theorem State.wr_anchorT (s : State) (off v : Nat) : (s.wr off v).anchorT = s.anchorT := rfl
@[simp] theorem State.wr_sys (s : State) (off v : Nat) : (s.wr off v).sys = s.sys := rfl
@[simp] theorem State.wr_isl (s : State) (off v : Nat) : (s.wr off v).isl = s.isl := rfl
@[simp] theorem State.wr_rig (s : State) (off v : Nat) : (s.wr off v).rig = s.rig := rfl
@[simp] theorem State.wr_jnl (s : State) (off v : Nat) : (s.wr off v).jnl = s.jnl := rfl
@[simp] theorem State.wr_memc (s : State) (off v : Nat) : (s.wr off v).memc = s.memc := rfl
@[simp] theorem State.wr_poolSt (s : State) (off v : Nat) : (s.wr off v).poolSt = s.poolSt := rfl
@[simp] theorem State.wr_host (s : State) (off v : Nat) : (s.wr off v).host = s.host := rfl
@[simp] theorem State.wr_mbox (s : State) (off v : Nat) : (s.wr off v).mbox = s.mbox := rfl
@[simp] theorem State.wr_jtag (s : State) (off v : Nat) : (s.wr off v).jtag = s.jtag := rfl
@[simp] theorem State.wr_cam (s : State) (off v : Nat) : (s.wr off v).cam = s.cam := rfl
@[simp] theorem State.wr_raw (s : State) (off v : Nat) : (s.wr off v).raw = s.raw := rfl
@[simp] theorem State.wr_hevc (s : State) (off v : Nat) : (s.wr off v).hevc = s.hevc := rfl
@[simp] theorem State.wr_wall (s : State) (off v : Nat) : (s.wr off v).wall = s.wall := rfl
@[simp] theorem State.wr_fclk (s : State) (off v : Nat) : (s.wr off v).fclk = s.fclk := rfl
@[simp] theorem State.wr_fen (s : State) (off v : Nat) : (s.wr off v).fen = s.fen := rfl
@[simp] theorem State.wr_aud (s : State) (off v : Nat) : (s.wr off v).aud = s.aud := rfl
@[simp] theorem State.wr_media (s : State) (off v : Nat) : (s.wr off v).media = s.media := rfl
@[simp] theorem State.wr_anchor (s : State) (off v : Nat) : (s.wr off v).anchor = s.anchor := rfl
@[simp] theorem State.wr_clip (s : State) (off v : Nat) : (s.wr off v).clip = s.clip := rfl
@[simp] theorem State.wr_out (s : State) (off v : Nat) : (s.wr off v).out = s.out := rfl
@[simp] theorem State.wr_freeCtr (s : State) (off v : Nat) : (s.wr off v).freeCtr = s.freeCtr := rfl
@[simp] theorem State.wr_pending (s : State) (off v : Nat) : (s.wr off v).pending = s.pending := rfl

/-! ## State.put -/

@[simp] theorem State.put_dram (s : State) (f : Fld) (v : Nat) : (s.put f v).dram = s.dram := rfl
@[simp] theorem State.put_pool (s : State) (f : Fld) (v : Nat) : (s.put f v).pool = s.pool := rfl
@[simp] theorem State.put_sram (s : State) (f : Fld) (v : Nat) : (s.put f v).sram = s.sram := rfl
@[simp] theorem State.put_flash (s : State) (f : Fld) (v : Nat) : (s.put f v).flash = s.flash := rfl
@[simp] theorem State.put_real (s : State) (f : Fld) (v : Nat) : (s.put f v).real = s.real := rfl
@[simp] theorem State.put_anchorT (s : State) (f : Fld) (v : Nat) : (s.put f v).anchorT = s.anchorT := rfl
@[simp] theorem State.put_sys (s : State) (f : Fld) (v : Nat) : (s.put f v).sys = s.sys := rfl
@[simp] theorem State.put_isl (s : State) (f : Fld) (v : Nat) : (s.put f v).isl = s.isl := rfl
@[simp] theorem State.put_rig (s : State) (f : Fld) (v : Nat) : (s.put f v).rig = s.rig := rfl
@[simp] theorem State.put_jnl (s : State) (f : Fld) (v : Nat) : (s.put f v).jnl = s.jnl := rfl
@[simp] theorem State.put_memc (s : State) (f : Fld) (v : Nat) : (s.put f v).memc = s.memc := rfl
@[simp] theorem State.put_poolSt (s : State) (f : Fld) (v : Nat) : (s.put f v).poolSt = s.poolSt := rfl
@[simp] theorem State.put_host (s : State) (f : Fld) (v : Nat) : (s.put f v).host = s.host := rfl
@[simp] theorem State.put_mbox (s : State) (f : Fld) (v : Nat) : (s.put f v).mbox = s.mbox := rfl
@[simp] theorem State.put_jtag (s : State) (f : Fld) (v : Nat) : (s.put f v).jtag = s.jtag := rfl
@[simp] theorem State.put_cam (s : State) (f : Fld) (v : Nat) : (s.put f v).cam = s.cam := rfl
@[simp] theorem State.put_raw (s : State) (f : Fld) (v : Nat) : (s.put f v).raw = s.raw := rfl
@[simp] theorem State.put_hevc (s : State) (f : Fld) (v : Nat) : (s.put f v).hevc = s.hevc := rfl
@[simp] theorem State.put_wall (s : State) (f : Fld) (v : Nat) : (s.put f v).wall = s.wall := rfl
@[simp] theorem State.put_fclk (s : State) (f : Fld) (v : Nat) : (s.put f v).fclk = s.fclk := rfl
@[simp] theorem State.put_fen (s : State) (f : Fld) (v : Nat) : (s.put f v).fen = s.fen := rfl
@[simp] theorem State.put_aud (s : State) (f : Fld) (v : Nat) : (s.put f v).aud = s.aud := rfl
@[simp] theorem State.put_media (s : State) (f : Fld) (v : Nat) : (s.put f v).media = s.media := rfl
@[simp] theorem State.put_anchor (s : State) (f : Fld) (v : Nat) : (s.put f v).anchor = s.anchor := rfl
@[simp] theorem State.put_clip (s : State) (f : Fld) (v : Nat) : (s.put f v).clip = s.clip := rfl
@[simp] theorem State.put_out (s : State) (f : Fld) (v : Nat) : (s.put f v).out = s.out := rfl
@[simp] theorem State.put_freeCtr (s : State) (f : Fld) (v : Nat) : (s.put f v).freeCtr = s.freeCtr := rfl
@[simp] theorem State.put_pending (s : State) (f : Fld) (v : Nat) : (s.put f v).pending = s.pending := rfl

/-! ## State.bump -/

@[simp] theorem State.bump_dram (s : State) (f : Fld) (n : Nat) : (s.bump f n).dram = s.dram := rfl
@[simp] theorem State.bump_pool (s : State) (f : Fld) (n : Nat) : (s.bump f n).pool = s.pool := rfl
@[simp] theorem State.bump_sram (s : State) (f : Fld) (n : Nat) : (s.bump f n).sram = s.sram := rfl
@[simp] theorem State.bump_flash (s : State) (f : Fld) (n : Nat) : (s.bump f n).flash = s.flash := rfl
@[simp] theorem State.bump_real (s : State) (f : Fld) (n : Nat) : (s.bump f n).real = s.real := rfl
@[simp] theorem State.bump_anchorT (s : State) (f : Fld) (n : Nat) : (s.bump f n).anchorT = s.anchorT := rfl
@[simp] theorem State.bump_sys (s : State) (f : Fld) (n : Nat) : (s.bump f n).sys = s.sys := rfl
@[simp] theorem State.bump_isl (s : State) (f : Fld) (n : Nat) : (s.bump f n).isl = s.isl := rfl
@[simp] theorem State.bump_rig (s : State) (f : Fld) (n : Nat) : (s.bump f n).rig = s.rig := rfl
@[simp] theorem State.bump_jnl (s : State) (f : Fld) (n : Nat) : (s.bump f n).jnl = s.jnl := rfl
@[simp] theorem State.bump_memc (s : State) (f : Fld) (n : Nat) : (s.bump f n).memc = s.memc := rfl
@[simp] theorem State.bump_poolSt (s : State) (f : Fld) (n : Nat) : (s.bump f n).poolSt = s.poolSt := rfl
@[simp] theorem State.bump_host (s : State) (f : Fld) (n : Nat) : (s.bump f n).host = s.host := rfl
@[simp] theorem State.bump_mbox (s : State) (f : Fld) (n : Nat) : (s.bump f n).mbox = s.mbox := rfl
@[simp] theorem State.bump_jtag (s : State) (f : Fld) (n : Nat) : (s.bump f n).jtag = s.jtag := rfl
@[simp] theorem State.bump_cam (s : State) (f : Fld) (n : Nat) : (s.bump f n).cam = s.cam := rfl
@[simp] theorem State.bump_raw (s : State) (f : Fld) (n : Nat) : (s.bump f n).raw = s.raw := rfl
@[simp] theorem State.bump_hevc (s : State) (f : Fld) (n : Nat) : (s.bump f n).hevc = s.hevc := rfl
@[simp] theorem State.bump_wall (s : State) (f : Fld) (n : Nat) : (s.bump f n).wall = s.wall := rfl
@[simp] theorem State.bump_fclk (s : State) (f : Fld) (n : Nat) : (s.bump f n).fclk = s.fclk := rfl
@[simp] theorem State.bump_fen (s : State) (f : Fld) (n : Nat) : (s.bump f n).fen = s.fen := rfl
@[simp] theorem State.bump_aud (s : State) (f : Fld) (n : Nat) : (s.bump f n).aud = s.aud := rfl
@[simp] theorem State.bump_media (s : State) (f : Fld) (n : Nat) : (s.bump f n).media = s.media := rfl
@[simp] theorem State.bump_anchor (s : State) (f : Fld) (n : Nat) : (s.bump f n).anchor = s.anchor := rfl
@[simp] theorem State.bump_clip (s : State) (f : Fld) (n : Nat) : (s.bump f n).clip = s.clip := rfl
@[simp] theorem State.bump_out (s : State) (f : Fld) (n : Nat) : (s.bump f n).out = s.out := rfl
@[simp] theorem State.bump_freeCtr (s : State) (f : Fld) (n : Nat) : (s.bump f n).freeCtr = s.freeCtr := rfl
@[simp] theorem State.bump_pending (s : State) (f : Fld) (n : Nat) : (s.bump f n).pending = s.pending := rfl

/-! ## State.flag -/

@[simp] theorem State.flag_dram (s : State) (f : Fld) (b : Bool) : (s.flag f b).dram = s.dram := rfl
@[simp] theorem State.flag_pool (s : State) (f : Fld) (b : Bool) : (s.flag f b).pool = s.pool := rfl
@[simp] theorem State.flag_sram (s : State) (f : Fld) (b : Bool) : (s.flag f b).sram = s.sram := rfl
@[simp] theorem State.flag_flash (s : State) (f : Fld) (b : Bool) : (s.flag f b).flash = s.flash := rfl
@[simp] theorem State.flag_real (s : State) (f : Fld) (b : Bool) : (s.flag f b).real = s.real := rfl
@[simp] theorem State.flag_anchorT (s : State) (f : Fld) (b : Bool) : (s.flag f b).anchorT = s.anchorT := rfl
@[simp] theorem State.flag_sys (s : State) (f : Fld) (b : Bool) : (s.flag f b).sys = s.sys := rfl
@[simp] theorem State.flag_isl (s : State) (f : Fld) (b : Bool) : (s.flag f b).isl = s.isl := rfl
@[simp] theorem State.flag_rig (s : State) (f : Fld) (b : Bool) : (s.flag f b).rig = s.rig := rfl
@[simp] theorem State.flag_jnl (s : State) (f : Fld) (b : Bool) : (s.flag f b).jnl = s.jnl := rfl
@[simp] theorem State.flag_memc (s : State) (f : Fld) (b : Bool) : (s.flag f b).memc = s.memc := rfl
@[simp] theorem State.flag_poolSt (s : State) (f : Fld) (b : Bool) : (s.flag f b).poolSt = s.poolSt := rfl
@[simp] theorem State.flag_host (s : State) (f : Fld) (b : Bool) : (s.flag f b).host = s.host := rfl
@[simp] theorem State.flag_mbox (s : State) (f : Fld) (b : Bool) : (s.flag f b).mbox = s.mbox := rfl
@[simp] theorem State.flag_jtag (s : State) (f : Fld) (b : Bool) : (s.flag f b).jtag = s.jtag := rfl
@[simp] theorem State.flag_cam (s : State) (f : Fld) (b : Bool) : (s.flag f b).cam = s.cam := rfl
@[simp] theorem State.flag_raw (s : State) (f : Fld) (b : Bool) : (s.flag f b).raw = s.raw := rfl
@[simp] theorem State.flag_hevc (s : State) (f : Fld) (b : Bool) : (s.flag f b).hevc = s.hevc := rfl
@[simp] theorem State.flag_wall (s : State) (f : Fld) (b : Bool) : (s.flag f b).wall = s.wall := rfl
@[simp] theorem State.flag_fclk (s : State) (f : Fld) (b : Bool) : (s.flag f b).fclk = s.fclk := rfl
@[simp] theorem State.flag_fen (s : State) (f : Fld) (b : Bool) : (s.flag f b).fen = s.fen := rfl
@[simp] theorem State.flag_aud (s : State) (f : Fld) (b : Bool) : (s.flag f b).aud = s.aud := rfl
@[simp] theorem State.flag_media (s : State) (f : Fld) (b : Bool) : (s.flag f b).media = s.media := rfl
@[simp] theorem State.flag_anchor (s : State) (f : Fld) (b : Bool) : (s.flag f b).anchor = s.anchor := rfl
@[simp] theorem State.flag_clip (s : State) (f : Fld) (b : Bool) : (s.flag f b).clip = s.clip := rfl
@[simp] theorem State.flag_out (s : State) (f : Fld) (b : Bool) : (s.flag f b).out = s.out := rfl
@[simp] theorem State.flag_freeCtr (s : State) (f : Fld) (b : Bool) : (s.flag f b).freeCtr = s.freeCtr := rfl
@[simp] theorem State.flag_pending (s : State) (f : Fld) (b : Bool) : (s.flag f b).pending = s.pending := rfl

/-! ## State.emit -/

@[simp] theorem State.emit_regs (s : State) (o : Output) : (s.emit o).regs = s.regs := rfl
@[simp] theorem State.emit_dram (s : State) (o : Output) : (s.emit o).dram = s.dram := rfl
@[simp] theorem State.emit_pool (s : State) (o : Output) : (s.emit o).pool = s.pool := rfl
@[simp] theorem State.emit_sram (s : State) (o : Output) : (s.emit o).sram = s.sram := rfl
@[simp] theorem State.emit_flash (s : State) (o : Output) : (s.emit o).flash = s.flash := rfl
@[simp] theorem State.emit_real (s : State) (o : Output) : (s.emit o).real = s.real := rfl
@[simp] theorem State.emit_anchorT (s : State) (o : Output) : (s.emit o).anchorT = s.anchorT := rfl
@[simp] theorem State.emit_sys (s : State) (o : Output) : (s.emit o).sys = s.sys := rfl
@[simp] theorem State.emit_isl (s : State) (o : Output) : (s.emit o).isl = s.isl := rfl
@[simp] theorem State.emit_rig (s : State) (o : Output) : (s.emit o).rig = s.rig := rfl
@[simp] theorem State.emit_jnl (s : State) (o : Output) : (s.emit o).jnl = s.jnl := rfl
@[simp] theorem State.emit_memc (s : State) (o : Output) : (s.emit o).memc = s.memc := rfl
@[simp] theorem State.emit_poolSt (s : State) (o : Output) : (s.emit o).poolSt = s.poolSt := rfl
@[simp] theorem State.emit_host (s : State) (o : Output) : (s.emit o).host = s.host := rfl
@[simp] theorem State.emit_mbox (s : State) (o : Output) : (s.emit o).mbox = s.mbox := rfl
@[simp] theorem State.emit_jtag (s : State) (o : Output) : (s.emit o).jtag = s.jtag := rfl
@[simp] theorem State.emit_cam (s : State) (o : Output) : (s.emit o).cam = s.cam := rfl
@[simp] theorem State.emit_raw (s : State) (o : Output) : (s.emit o).raw = s.raw := rfl
@[simp] theorem State.emit_hevc (s : State) (o : Output) : (s.emit o).hevc = s.hevc := rfl
@[simp] theorem State.emit_wall (s : State) (o : Output) : (s.emit o).wall = s.wall := rfl
@[simp] theorem State.emit_fclk (s : State) (o : Output) : (s.emit o).fclk = s.fclk := rfl
@[simp] theorem State.emit_fen (s : State) (o : Output) : (s.emit o).fen = s.fen := rfl
@[simp] theorem State.emit_aud (s : State) (o : Output) : (s.emit o).aud = s.aud := rfl
@[simp] theorem State.emit_media (s : State) (o : Output) : (s.emit o).media = s.media := rfl
@[simp] theorem State.emit_anchor (s : State) (o : Output) : (s.emit o).anchor = s.anchor := rfl
@[simp] theorem State.emit_clip (s : State) (o : Output) : (s.emit o).clip = s.clip := rfl
@[simp] theorem State.emit_freeCtr (s : State) (o : Output) : (s.emit o).freeCtr = s.freeCtr := rfl
@[simp] theorem State.emit_pending (s : State) (o : Output) : (s.emit o).pending = s.pending := rfl

/-! ## State.setIsland -/

@[simp] theorem State.setIsland_regs (s : State) (i : Island) (x : IslState) : (s.setIsland i x).regs = s.regs := rfl
@[simp] theorem State.setIsland_dram (s : State) (i : Island) (x : IslState) : (s.setIsland i x).dram = s.dram := rfl
@[simp] theorem State.setIsland_pool (s : State) (i : Island) (x : IslState) : (s.setIsland i x).pool = s.pool := rfl
@[simp] theorem State.setIsland_sram (s : State) (i : Island) (x : IslState) : (s.setIsland i x).sram = s.sram := rfl
@[simp] theorem State.setIsland_flash (s : State) (i : Island) (x : IslState) : (s.setIsland i x).flash = s.flash := rfl
@[simp] theorem State.setIsland_real (s : State) (i : Island) (x : IslState) : (s.setIsland i x).real = s.real := rfl
@[simp] theorem State.setIsland_anchorT (s : State) (i : Island) (x : IslState) : (s.setIsland i x).anchorT = s.anchorT := rfl
@[simp] theorem State.setIsland_sys (s : State) (i : Island) (x : IslState) : (s.setIsland i x).sys = s.sys := rfl
@[simp] theorem State.setIsland_rig (s : State) (i : Island) (x : IslState) : (s.setIsland i x).rig = s.rig := rfl
@[simp] theorem State.setIsland_jnl (s : State) (i : Island) (x : IslState) : (s.setIsland i x).jnl = s.jnl := rfl
@[simp] theorem State.setIsland_memc (s : State) (i : Island) (x : IslState) : (s.setIsland i x).memc = s.memc := rfl
@[simp] theorem State.setIsland_poolSt (s : State) (i : Island) (x : IslState) : (s.setIsland i x).poolSt = s.poolSt := rfl
@[simp] theorem State.setIsland_host (s : State) (i : Island) (x : IslState) : (s.setIsland i x).host = s.host := rfl
@[simp] theorem State.setIsland_mbox (s : State) (i : Island) (x : IslState) : (s.setIsland i x).mbox = s.mbox := rfl
@[simp] theorem State.setIsland_jtag (s : State) (i : Island) (x : IslState) : (s.setIsland i x).jtag = s.jtag := rfl
@[simp] theorem State.setIsland_cam (s : State) (i : Island) (x : IslState) : (s.setIsland i x).cam = s.cam := rfl
@[simp] theorem State.setIsland_raw (s : State) (i : Island) (x : IslState) : (s.setIsland i x).raw = s.raw := rfl
@[simp] theorem State.setIsland_hevc (s : State) (i : Island) (x : IslState) : (s.setIsland i x).hevc = s.hevc := rfl
@[simp] theorem State.setIsland_wall (s : State) (i : Island) (x : IslState) : (s.setIsland i x).wall = s.wall := rfl
@[simp] theorem State.setIsland_fclk (s : State) (i : Island) (x : IslState) : (s.setIsland i x).fclk = s.fclk := rfl
@[simp] theorem State.setIsland_fen (s : State) (i : Island) (x : IslState) : (s.setIsland i x).fen = s.fen := rfl
@[simp] theorem State.setIsland_aud (s : State) (i : Island) (x : IslState) : (s.setIsland i x).aud = s.aud := rfl
@[simp] theorem State.setIsland_media (s : State) (i : Island) (x : IslState) : (s.setIsland i x).media = s.media := rfl
@[simp] theorem State.setIsland_anchor (s : State) (i : Island) (x : IslState) : (s.setIsland i x).anchor = s.anchor := rfl
@[simp] theorem State.setIsland_clip (s : State) (i : Island) (x : IslState) : (s.setIsland i x).clip = s.clip := rfl
@[simp] theorem State.setIsland_out (s : State) (i : Island) (x : IslState) : (s.setIsland i x).out = s.out := rfl
@[simp] theorem State.setIsland_freeCtr (s : State) (i : Island) (x : IslState) : (s.setIsland i x).freeCtr = s.freeCtr := rfl
@[simp] theorem State.setIsland_pending (s : State) (i : Island) (x : IslState) : (s.setIsland i x).pending = s.pending := rfl

/-! ## State.setPcie -/

@[simp] theorem State.setPcie_regs (s : State) (fn : Nat) (p : PcieFn) : (s.setPcie fn p).regs = s.regs := rfl
@[simp] theorem State.setPcie_dram (s : State) (fn : Nat) (p : PcieFn) : (s.setPcie fn p).dram = s.dram := rfl
@[simp] theorem State.setPcie_pool (s : State) (fn : Nat) (p : PcieFn) : (s.setPcie fn p).pool = s.pool := rfl
@[simp] theorem State.setPcie_sram (s : State) (fn : Nat) (p : PcieFn) : (s.setPcie fn p).sram = s.sram := rfl
@[simp] theorem State.setPcie_flash (s : State) (fn : Nat) (p : PcieFn) : (s.setPcie fn p).flash = s.flash := rfl
@[simp] theorem State.setPcie_real (s : State) (fn : Nat) (p : PcieFn) : (s.setPcie fn p).real = s.real := rfl
@[simp] theorem State.setPcie_anchorT (s : State) (fn : Nat) (p : PcieFn) : (s.setPcie fn p).anchorT = s.anchorT := rfl
@[simp] theorem State.setPcie_sys (s : State) (fn : Nat) (p : PcieFn) : (s.setPcie fn p).sys = s.sys := rfl
@[simp] theorem State.setPcie_isl (s : State) (fn : Nat) (p : PcieFn) : (s.setPcie fn p).isl = s.isl := rfl
@[simp] theorem State.setPcie_rig (s : State) (fn : Nat) (p : PcieFn) : (s.setPcie fn p).rig = s.rig := rfl
@[simp] theorem State.setPcie_jnl (s : State) (fn : Nat) (p : PcieFn) : (s.setPcie fn p).jnl = s.jnl := rfl
@[simp] theorem State.setPcie_memc (s : State) (fn : Nat) (p : PcieFn) : (s.setPcie fn p).memc = s.memc := rfl
@[simp] theorem State.setPcie_poolSt (s : State) (fn : Nat) (p : PcieFn) : (s.setPcie fn p).poolSt = s.poolSt := rfl
@[simp] theorem State.setPcie_mbox (s : State) (fn : Nat) (p : PcieFn) : (s.setPcie fn p).mbox = s.mbox := rfl
@[simp] theorem State.setPcie_jtag (s : State) (fn : Nat) (p : PcieFn) : (s.setPcie fn p).jtag = s.jtag := rfl
@[simp] theorem State.setPcie_cam (s : State) (fn : Nat) (p : PcieFn) : (s.setPcie fn p).cam = s.cam := rfl
@[simp] theorem State.setPcie_raw (s : State) (fn : Nat) (p : PcieFn) : (s.setPcie fn p).raw = s.raw := rfl
@[simp] theorem State.setPcie_hevc (s : State) (fn : Nat) (p : PcieFn) : (s.setPcie fn p).hevc = s.hevc := rfl
@[simp] theorem State.setPcie_wall (s : State) (fn : Nat) (p : PcieFn) : (s.setPcie fn p).wall = s.wall := rfl
@[simp] theorem State.setPcie_fclk (s : State) (fn : Nat) (p : PcieFn) : (s.setPcie fn p).fclk = s.fclk := rfl
@[simp] theorem State.setPcie_fen (s : State) (fn : Nat) (p : PcieFn) : (s.setPcie fn p).fen = s.fen := rfl
@[simp] theorem State.setPcie_aud (s : State) (fn : Nat) (p : PcieFn) : (s.setPcie fn p).aud = s.aud := rfl
@[simp] theorem State.setPcie_media (s : State) (fn : Nat) (p : PcieFn) : (s.setPcie fn p).media = s.media := rfl
@[simp] theorem State.setPcie_anchor (s : State) (fn : Nat) (p : PcieFn) : (s.setPcie fn p).anchor = s.anchor := rfl
@[simp] theorem State.setPcie_clip (s : State) (fn : Nat) (p : PcieFn) : (s.setPcie fn p).clip = s.clip := rfl
@[simp] theorem State.setPcie_out (s : State) (fn : Nat) (p : PcieFn) : (s.setPcie fn p).out = s.out := rfl
@[simp] theorem State.setPcie_freeCtr (s : State) (fn : Nat) (p : PcieFn) : (s.setPcie fn p).freeCtr = s.freeCtr := rfl
@[simp] theorem State.setPcie_pending (s : State) (fn : Nat) (p : PcieFn) : (s.setPcie fn p).pending = s.pending := rfl

end Sys2Proof.Machine
end

