-- ==== Sys2Proof/Laws/Tables.lean ====
section
/-! SUPPORT. Reading and writing of sparse tables, and the canonical form of memories. -/
namespace Sys2Proof.Machine

/-! ## Sparse tables -/

/-- A table read at the key just set. -/
@[simp] theorem mapFind_mapSet_same {α : Type} (m : SMap α) (j : Nat) (x : α) : mapFind (mapSet m j x) j = some x := by
  induction m with
  | nil => simp [mapSet, mapFind]
  | cons e r ih =>
    obtain ⟨k, v⟩ := e
    rcases lt_trichotomy j k with h | h | h
    · simp [mapSet, mapFind, h]
    · simp [mapSet, mapFind, h]
    · simp [mapSet, mapFind, Nat.not_lt_of_gt h, h.ne', h.ne, ih]

/-- A table read at any other key. -/
theorem mapFind_mapSet_ne {α : Type} (m : SMap α) {j k : Nat} (x : α) (h : k ≠ j) :
    mapFind (mapSet m j x) k = mapFind m k := by
  induction m with
  | nil => simp [mapSet, mapFind, h.symm]
  | cons e r ih =>
    obtain ⟨i, v⟩ := e
    rcases lt_trichotomy j i with h1 | h1 | h1
    · simp [mapSet, mapFind, h1, h.symm]
    · subst h1; simp [mapSet, mapFind, h.symm]
    · simp [mapSet, mapFind, Nat.not_lt_of_gt h1, h1.ne', ih]

@[simp] theorem mapGet_mapSet_same {α : Type} (d : α) (m : SMap α) (j : Nat) (x : α) : mapGet d (mapSet m j x) j = x := by
  simp [mapGet]

theorem mapGet_mapSet_ne {α : Type} (d : α) (m : SMap α) {j k : Nat} (x : α) (h : k ≠ j) :
    mapGet d (mapSet m j x) k = mapGet d m k := by
  simp [mapGet, mapFind_mapSet_ne m x h]

/-! ## Memories -/

/-- The canonical form, said of the cells. -/
theorem memWfAbove_iff (m : Memory) (lo : Option Nat) :
    memWfAbove lo m = true ↔
      (∀ l, lo = some l → ∀ c ∈ m, l < c.1) ∧ m.Pairwise (fun a b => a.1 < b.1) ∧ ∀ c ∈ m, c.2 ≠ 0 := by
  induction m generalizing lo with
  | nil => simp [memWfAbove]
  | cons e r ih =>
    obtain ⟨k, v⟩ := e
    cases lo with
    | none =>
      simp only [memWfAbove, Bool.true_and, Bool.and_eq_true, bne_iff_ne, ih, List.pairwise_cons, List.mem_cons]
      constructor
      · rintro ⟨hv, h1, h2, h3⟩
        refine ⟨by simp, ⟨fun c hc => h1 k rfl c hc, h2⟩, ?_⟩
        rintro c (rfl | hc)
        · exact hv
        · exact h3 c hc
      · rintro ⟨-, ⟨h1, h2⟩, h3⟩
        exact ⟨h3 (k, v) (.inl rfl), by rintro l ⟨⟩ c hc; exact h1 c hc, h2, fun c hc => h3 c (.inr hc)⟩
    | some l =>
      simp only [memWfAbove, Bool.and_eq_true, decide_eq_true_eq, bne_iff_ne, ih, List.pairwise_cons, List.mem_cons]
      constructor
      · rintro ⟨⟨hl, hv⟩, h1, h2, h3⟩
        refine ⟨?_, ⟨fun c hc => h1 k rfl c hc, h2⟩, ?_⟩
        · rintro _ ⟨⟩ c (rfl | hc)
          · exact hl
          · exact hl.trans (h1 k rfl c hc)
        · rintro c (rfl | hc)
          · exact hv
          · exact h3 c hc
      · rintro ⟨h0, ⟨h1, h2⟩, h3⟩
        exact ⟨⟨h0 l rfl (k, v) (.inl rfl), h3 (k, v) (.inl rfl)⟩, by rintro l ⟨⟩ c hc; exact h1 c hc, h2,
          fun c hc => h3 c (.inr hc)⟩

theorem memWf_iff (m : Memory) : memWf m = true ↔ m.Pairwise (fun a b => a.1 < b.1) ∧ ∀ c ∈ m, c.2 ≠ 0 := by
  simp [memWf, memWfAbove_iff]

/-- Removing cells keeps the canonical form. -/
theorem memWf_filter (m : Memory) (p : Host.Cell → Bool) (h : memWf m = true) : memWf (m.filter p) = true := by
  rw [memWf_iff] at *
  exact ⟨h.1.filter _, fun c hc => h.2 c (List.mem_filter.mp hc).1⟩

theorem memWf_memZero (m : Memory) (a n : Nat) (h : memWf m = true) : memWf (memZero m a n) = true :=
  memWf_filter m _ h

theorem memCells_mem (a : Nat) (d : List Byte) : ∀ c ∈ memCells a d, a ≤ c.1 ∧ c.1 < a + d.length ∧ c.2 ≠ 0 := by
  induction d generalizing a with
  | nil => simp [memCells]
  | cons b r ih =>
    intro c hc
    have key : c ∈ memCells (a + 1) r → a ≤ c.1 ∧ c.1 < a + (b :: r).length ∧ c.2 ≠ 0 := fun h => by
      obtain ⟨h1, h2, h3⟩ := ih (a + 1) c h
      exact ⟨by omega, by simp only [List.length_cons]; omega, h3⟩
    by_cases hb : b = 0
    · simp only [memCells, hb, if_true] at hc
      exact key hc
    · simp only [memCells, hb, if_false, List.mem_cons] at hc
      rcases hc with rfl | hc
      · exact ⟨le_rfl, by simp, hb⟩
      · exact key hc

theorem memCells_pairwise (a : Nat) (d : List Byte) : (memCells a d).Pairwise (fun x y => x.1 < y.1) := by
  induction d generalizing a with
  | nil => simp [memCells]
  | cons b r ih =>
    by_cases hb : b = 0
    · simp only [memCells, hb, if_true]; exact ih _
    · simp only [memCells, hb, if_false, List.pairwise_cons]
      exact ⟨fun c hc => by have := (memCells_mem (a + 1) r c hc).1; simpa using by omega, ih _⟩

/-- A write keeps the canonical form. -/
theorem memWf_memWrite (m : Memory) (a : Nat) (d : List Byte) (h : memWf m = true) : memWf (memWrite m a d) = true := by
  rw [memWf_iff] at *
  obtain ⟨h1, h2⟩ := h
  have hb : ∀ c ∈ memBelow m a, c.1 < a := fun c hc => by simpa using (List.mem_filter.mp hc).2
  have hf : ∀ c ∈ memFrom m (a + d.length), a + d.length ≤ c.1 := fun c hc => by simpa using (List.mem_filter.mp hc).2
  refine ⟨?_, ?_⟩
  · refine List.pairwise_append.mpr ⟨h1.filter _, List.pairwise_append.mpr ⟨memCells_pairwise a d, h1.filter _, ?_⟩, ?_⟩
    · intro x hx y hy
      have := (memCells_mem a d x hx).2.1
      have := hf y hy
      omega
    · intro x hx y hy
      have := hb x hx
      rcases List.mem_append.mp hy with hy | hy
      · have := (memCells_mem a d y hy).1
        omega
      · have := hf y hy
        omega
  · intro c hc
    rcases List.mem_append.mp hc with hc | hc
    · exact h2 c (List.mem_filter.mp hc).1
    · rcases List.mem_append.mp hc with hc | hc
      · exact (memCells_mem a d c hc).2.2
      · exact h2 c (List.mem_filter.mp hc).1

theorem memGet_filter (m : Memory) (p : Host.Cell → Bool) (j : Nat) (h : ∀ v, p (j, v) = true) :
    memGet (m.filter p) j = memGet m j := by
  induction m with
  | nil => rfl
  | cons e r ih =>
    obtain ⟨k, v⟩ := e
    by_cases hk : k = j
    · subst hk; simp [h, memGet]
    · by_cases hp : p (k, v) = true
      · simp [hp, memGet, hk, ih]
      · simp [hp, memGet, hk, ih]

theorem memGet_none (m : Memory) (j : Nat) (h : ∀ c ∈ m, c.1 ≠ j) : memGet m j = 0 := by
  induction m with
  | nil => rfl
  | cons e r ih =>
    obtain ⟨k, v⟩ := e
    have hk : k ≠ j := h (k, v) (by simp)
    simp only [memGet, hk, if_false]
    exact ih fun c hc => h c (by simp [hc])

theorem memGet_append_left (m n : Memory) (j : Nat) (h : ∀ c ∈ n, c.1 ≠ j) : memGet (m ++ n) j = memGet m j := by
  induction m with
  | nil => simpa [memGet] using memGet_none n j h
  | cons e r ih =>
    obtain ⟨k, v⟩ := e
    by_cases hk : k = j
    · simp [memGet, hk]
    · simp [memGet, hk, ih]

theorem memGet_append_right (m n : Memory) (j : Nat) (h : ∀ c ∈ m, c.1 ≠ j) : memGet (m ++ n) j = memGet n j := by
  induction m with
  | nil => rfl
  | cons e r ih =>
    obtain ⟨k, v⟩ := e
    have hk : k ≠ j := h (k, v) (by simp)
    simpa [memGet, hk] using ih fun c hc => h c (by simp [hc])

theorem memCells_cons (a : Nat) (b : Byte) (r : List Byte) (h : b ≠ 0) :
    memCells a (b :: r) = (a, b) :: memCells (a + 1) r := if_neg h

theorem memGet_memCells (a : Nat) (d : List Byte) (i : Nat) (h : i < d.length) : memGet (memCells a d) (a + i) = d[i] := by
  induction d generalizing a i with
  | nil => simp at h
  | cons b r ih =>
    cases i with
    | zero =>
      by_cases hb : b = 0
      · subst hb
        simp only [memCells, if_true, Nat.add_zero, List.getElem_cons_zero]
        exact memGet_none _ _ fun c hc => by have := (memCells_mem (a + 1) r c hc).1; omega
      · rw [memCells_cons a b r hb]; simp [memGet]
    | succ i =>
      have h' : i < r.length := by simpa using h
      have e : a + (i + 1) = a + 1 + i := by omega
      by_cases hb : b = 0
      · have : memCells a (b :: r) = memCells (a + 1) r := if_pos hb
        rw [this, e, ih (a + 1) i h']; simp
      · have hne : a ≠ a + 1 + i := by omega
        rw [memCells_cons a b r hb, e]
        simp only [memGet, hne, if_false, List.getElem_cons_succ]
        exact ih (a + 1) i h'

/-- A byte just written. -/
theorem memGet_memWrite_in (m : Memory) (a : Nat) (d : List Byte) (i : Nat) (h : i < d.length) :
    memGet (memWrite m a d) (a + i) = d[i] := by
  have hb : ∀ c ∈ memBelow m a, c.1 ≠ a + i := fun c hc => by
    have : c.1 < a := by simpa using (List.mem_filter.mp hc).2
    omega
  have hf : ∀ c ∈ memFrom m (a + d.length), c.1 ≠ a + i := fun c hc => by
    have : a + d.length ≤ c.1 := by simpa using (List.mem_filter.mp hc).2
    omega
  rw [memWrite, memGet_append_right _ _ _ hb, memGet_append_left _ _ _ hf, memGet_memCells a d i h]

/-- A byte outside the bytes written. -/
theorem memGet_memWrite_out (m : Memory) (a : Nat) (d : List Byte) (j : Nat) (h : j < a ∨ a + d.length ≤ j) :
    memGet (memWrite m a d) j = memGet m j := by
  have hc : ∀ c ∈ memCells a d, c.1 ≠ j := fun c hc => by
    obtain ⟨h1, h2, -⟩ := memCells_mem a d c hc
    omega
  rcases h with h | h
  · have hf : ∀ c ∈ memCells a d ++ memFrom m (a + d.length), c.1 ≠ j := fun c hc' => by
      rcases List.mem_append.mp hc' with hc' | hc'
      · exact hc c hc'
      · have : a + d.length ≤ c.1 := by simpa using (List.mem_filter.mp hc').2
        omega
    rw [memWrite, memGet_append_left _ _ _ hf]
    exact memGet_filter m _ j fun v => by simpa using h
  · have hb : ∀ c ∈ memBelow m a, c.1 ≠ j := fun c hc => by
      have : c.1 < a := by simpa using (List.mem_filter.mp hc).2
      omega
    rw [memWrite, memGet_append_right _ _ _ hb, memGet_append_right _ _ _ hc]
    exact memGet_filter m _ j fun v => by simpa using h

/-- A byte outside a range set to zero, and one within it. -/
theorem memGet_memZero (m : Memory) (a n j : Nat) :
    memGet (memZero m a n) j = if a ≤ j ∧ j < a + n then 0 else memGet m j := by
  split
  · next h =>
    refine memGet_none _ _ fun c hc => ?_
    have := (List.mem_filter.mp hc).2
    simp only [Bool.or_eq_true, decide_eq_true_eq] at this
    omega
  · next h =>
    refine memGet_filter m _ j fun v => ?_
    simp only [Bool.or_eq_true, decide_eq_true_eq]
    omega

end Sys2Proof.Machine
end

