-- ==== Sys2Proof/Laws/Registers.lean ====
section
/-! SUPPORT. Bit fields of numbers, and reading registers and fields after they are stored. -/
namespace Sys2Proof.Machine

/-! ## Bit fields -/

theorem bitsOf_testBit (n hi lo i : Nat) : (bitsOf n hi lo).testBit i = (decide (i < hi + 1 - lo) && n.testBit (lo + i)) := by
  simp [bitsOf, Nat.testBit_mod_two_pow, Nat.testBit_shiftRight]

theorem bitsOf_lt (n hi lo : Nat) : bitsOf n hi lo < 2 ^ (hi + 1 - lo) := Nat.mod_lt _ (Nat.two_pow_pos _)

/-- A field replaced, as what lies above it, the field, and what lies below it. -/
theorem putBits_eq (n hi lo v : Nat) :
    putBits n hi lo v =
      2 ^ lo * (2 ^ (hi + 1 - lo) * (n / 2 ^ lo / 2 ^ (hi + 1 - lo)) + v % 2 ^ (hi + 1 - lo)) + n % 2 ^ lo := by
  have h1 : n = 2 ^ lo * (n / 2 ^ lo) + n % 2 ^ lo := (Nat.div_add_mod _ _).symm
  have h2 : n / 2 ^ lo = 2 ^ (hi + 1 - lo) * (n / 2 ^ lo / 2 ^ (hi + 1 - lo)) + n / 2 ^ lo % 2 ^ (hi + 1 - lo) :=
    (Nat.div_add_mod _ _).symm
  simp only [putBits, bitsOf, Nat.shiftRight_eq_div_pow, Nat.shiftLeft_eq]
  generalize n / 2 ^ lo % 2 ^ (hi + 1 - lo) = b at *
  generalize hq : n / 2 ^ lo / 2 ^ (hi + 1 - lo) = q at *
  have h3 : n = 2 ^ lo * (2 ^ (hi + 1 - lo) * q) + 2 ^ lo * b + n % 2 ^ lo := by
    rw [← Nat.mul_add, ← h2]; exact h1
  have h4 : b * 2 ^ lo = 2 ^ lo * b := Nat.mul_comm _ _
  rw [h4, Nat.mul_add, Nat.mul_comm (v % _) (2 ^ lo)]
  omega

theorem putBits_testBit (n hi lo v i : Nat) :
    (putBits n hi lo v).testBit i =
      if i < lo then n.testBit i else if i < lo + (hi + 1 - lo) then v.testBit (i - lo) else n.testBit i := by
  rw [putBits_eq, Nat.testBit_two_pow_mul_add _ (Nat.mod_lt _ (Nat.two_pow_pos _))]
  by_cases h : i < lo
  · simp [h, Nat.testBit_mod_two_pow]
  · rw [if_neg h, if_neg h, Nat.testBit_two_pow_mul_add _ (Nat.mod_lt _ (Nat.two_pow_pos _))]
    by_cases h2 : i < lo + (hi + 1 - lo)
    · have : i - lo < hi + 1 - lo := by omega
      simp [h2, this, Nat.testBit_mod_two_pow]
    · have h3 : ¬ i - lo < hi + 1 - lo := by omega
      rw [if_neg h2, if_neg h3, ← Nat.shiftRight_eq_div_pow, ← Nat.shiftRight_eq_div_pow, Nat.testBit_shiftRight,
        Nat.testBit_shiftRight]
      congr 1; omega

/-- A field just replaced. -/
@[simp] theorem bitsOf_putBits_same (n hi lo v : Nat) : bitsOf (putBits n hi lo v) hi lo = v % 2 ^ (hi + 1 - lo) := by
  refine Nat.eq_of_testBit_eq fun i => ?_
  rw [bitsOf_testBit, putBits_testBit, Nat.testBit_mod_two_pow]
  by_cases h : i < hi + 1 - lo
  · have : lo + i < lo + (hi + 1 - lo) := by omega
    simp [h]
  · simp [h]

/-- A field apart from the one replaced. -/
theorem bitsOf_putBits_ne (n v : Nat) {hi lo hi' lo' : Nat} (h : hi' < lo ∨ hi < lo') :
    bitsOf (putBits n hi lo v) hi' lo' = bitsOf n hi' lo' := by
  refine Nat.eq_of_testBit_eq fun i => ?_
  rw [bitsOf_testBit, bitsOf_testBit, putBits_testBit]
  by_cases hi2 : i < hi' + 1 - lo'
  · rcases h with h | h
    · have : lo' + i < lo := by omega
      simp [hi2, this]
    · by_cases h3 : lo' + i < lo
      · simp [h3]
      · have : ¬ lo' + i < lo + (hi + 1 - lo) := by omega
        simp [hi2, this]
  · simp [hi2]

theorem putBits_lt (n hi lo v : Nat) (hn : n < 2 ^ 32) (hh : hi < 32) (hl : lo ≤ 32) : putBits n hi lo v < 2 ^ 32 := by
  refine Nat.lt_pow_two_of_testBit _ fun i hi32 => ?_
  rw [putBits_testBit]
  have : n.testBit i = false := Nat.testBit_lt_two_pow (lt_of_lt_of_le hn (Nat.pow_le_pow_right (by decide) hi32))
  have h1 : ¬ i < lo := by omega
  have h2 : ¬ i < lo + (hi + 1 - lo) := by omega
  simp [h1, h2, this]

/-! ## Registers -/

/-- A register just stored. -/
@[simp] theorem State.rd_wr_same (s : State) (off v : Nat) : (s.wr off v).rd off = v % 2 ^ 32 := by
  simp [State.rd, State.wr]

/-- Any other register. -/
theorem State.rd_wr_ne (s : State) {off o : Nat} (v : Nat) (h : o ≠ off) : (s.wr off v).rd o = s.rd o := by
  simp [State.rd, State.wr, mapFind_mapSet_ne _ _ h]

/-- The registers are read from `regs` alone. -/
theorem State.rd_congr {s t : State} (h : t.regs = s.regs) (o : Nat) : t.rd o = s.rd o := by
  simp [State.rd, h]

theorem State.fld_congr {s t : State} (h : t.regs = s.regs) (f : Fld) : t.fld f = s.fld f := by
  simp [State.fld, State.rd_congr h]

/-- A register that no field update names stands. -/
theorem State.rd_put_ne (s : State) (f : Fld) (v : Nat) {o : Nat} (h : o ≠ f.off) : (s.put f v).rd o = s.rd o :=
  s.rd_wr_ne _ h

theorem State.rd_bump_ne (s : State) (f : Fld) (n : Nat) {o : Nat} (h : o ≠ f.off) : (s.bump f n).rd o = s.rd o :=
  s.rd_put_ne _ _ h

theorem State.fld_put_off (s : State) (f g : Fld) (v : Nat) (h : g.off ≠ f.off) : (s.put f v).fld g = s.fld g := by
  simp [State.fld, s.rd_put_ne f v h]

/-- A field just stored, where it lies in the 32 bits of its register. -/
theorem State.fld_put_same (s : State) (f : Fld) (v : Nat) (hh : f.hi < 32) :
    (s.put f v).fld f = v % 2 ^ (f.hi + 1 - f.lo) := by
  simp only [State.fld, State.put, State.rd_wr_same]
  refine Nat.eq_of_testBit_eq fun i => ?_
  rw [bitsOf_testBit, Nat.testBit_mod_two_pow, putBits_testBit, Nat.testBit_mod_two_pow]
  by_cases h : i < f.hi + 1 - f.lo
  · have h1 : f.lo + i < f.lo + (f.hi + 1 - f.lo) := by omega
    have h2 : f.lo + i < 32 := by omega
    simp [h, h2]
  · simp [h]

/-- A field of the same register apart from the one stored. -/
theorem State.fld_put_ne (s : State) (f g : Fld) (v : Nat) (ho : g.off = f.off) (hg : g.hi < 32)
    (h : g.hi < f.lo ∨ f.hi < g.lo) : (s.put f v).fld g = s.fld g := by
  simp only [State.fld, State.put, ho, State.rd_wr_same]
  refine Nat.eq_of_testBit_eq fun i => ?_
  rw [bitsOf_testBit, bitsOf_testBit, Nat.testBit_mod_two_pow, putBits_testBit]
  by_cases h1 : i < g.hi + 1 - g.lo
  · have h2 : g.lo + i < 32 := by omega
    rcases h with h | h
    · have : g.lo + i < f.lo := by omega
      simp [h1, h2, this]
    · by_cases h3 : g.lo + i < f.lo
      · simp [h1, h2, h3]
      · have : ¬ g.lo + i < f.lo + (f.hi + 1 - f.lo) := by omega
        simp [h1, h2, h3, this]
  · simp [h1]

/-- A counter just increased. -/
theorem State.fld_bump_same (s : State) (f : Fld) (n : Nat) (hh : f.hi < 32) :
    (s.bump f n).fld f = min (s.fld f + n) (2 ^ (f.hi + 1 - f.lo) - 1) := by
  have hp := Nat.two_pow_pos (f.hi + 1 - f.lo)
  rw [State.bump, State.fld_put_same _ _ _ hh, Nat.mod_eq_of_lt]
  omega

end Sys2Proof.Machine
end

