-- ==== Sys2Proof/Laws/Dram.lean ====
section
/-! SUPPORT. What an access of an engine or of the host to DRAM can do, while requests wait there and while none does. -/
namespace Sys2Proof.Machine

@[simp] theorem State.chan_setChan_same (s : State) (c : Nat) (x : Channel) : (s.setChan c x).chan c = x := by
  simp [State.chan, State.setChan, mapGet]

theorem State.chan_setChan_ne (s : State) {c k : Nat} (x : Channel) (h : k ≠ c) : (s.setChan c x).chan k = s.chan k := by
  simp [State.chan, State.setChan, mapGet, mapFind_mapSet_ne _ _ h]

/-- A channel set to one with nothing queued keeps every queue empty. -/
theorem DramIdle.setChan {s : State} (h : DramIdle s) (c : Nat) (x : Channel) (hx : x.queue = []) : DramIdle (s.setChan c x) := by
  intro k
  by_cases e : k = c
  · subst e; simpa using hx
  · rw [s.chan_setChan_ne x e]; exact h k

/-- While no request waits, an access only wakes the channels of its range (R476, R479). -/
theorem State.dramTurn_idle (s : State) (a n : Nat) (h : DramIdle s) :
    DramIdle (s.dramTurn a n) ∧ ∃ l, s.dramTurn a n = { s with memc := { s.memc with chans := l } } := by
  unfold State.dramTurn
  generalize s.chansOf a n = cs
  induction cs generalizing s with
  | nil => exact ⟨h, s.memc.chans, rfl⟩
  | cons c cs ih =>
    have h1 : DramIdle (s.wakeChan c) := h.setChan c _ (h c)
    simp only [List.foldl_cons, h1 c, List.filter_nil, List.foldl_nil]
    obtain ⟨hi, l, hl⟩ := ih ((s.wakeChan c).setChan c { (s.wakeChan c).chan c with queue := [] }) (h1.setChan c _ rfl)
    exact ⟨hi, l, hl.trans rfl⟩

/-- The channel of an address is one of eight (R468). -/
theorem State.channelOf_lt (s : State) (a : Nat) : s.channelOf a < 8 := by
  have h : s.fld F.MEMC_CFG_channels < 2 ^ 2 := bitsOf_lt _ 1 0
  have h2 : s.channels ≤ 2 ^ 3 := Nat.pow_le_pow_right (by decide) (by omega)
  exact Nat.lt_of_lt_of_le (Nat.mod_lt _ (Nat.two_pow_pos _)) h2

/-- What recording an uncorrectable error changes: the error registers and the poison marks (R481). -/
theorem State.dramUncorrectable_frame (s : State) (a : Nat) (scrub : Bool) :
    RegsBut dramErrRegs s (s.dramUncorrectable a scrub)
      ∧ ∃ r p, s.dramUncorrectable a scrub = { s with regs := r, memc := { s.memc with poison := p } } := by
  refine ⟨fun o ho _ => ?_, _, _, rfl⟩
  simp only [dramErrRegs, List.mem_cons, List.mem_flatMap, List.mem_range, not_or, not_exists, not_and, List.not_mem_nil,
    not_false_eq_true, and_true] at ho
  have hu := ho.2 _ (s.channelOf_lt a)
  have he := ho.2 _ ((s.bump (F.MEMC_x_UE_count (s.channelOf a)) 1).channelOf_lt a)
  refine (State.rd_congr rfl o).trans ((State.rd_put_ne _ _ _ ho.1).trans ?_)
  exact (State.rd_wr_ne _ _ he.2.2).trans ((State.rd_wr_ne _ _ he.2.1).trans
    (s.rd_bump_ne (F.MEMC_x_UE_count (s.channelOf a)) 1 hu.1))

/-- What reading poisoned lines changes: the error registers and the poison marks (R481). -/
theorem State.meetPoison_frame (s : State) (lines : List Nat) :
    RegsBut dramErrRegs s (s.meetPoison lines)
      ∧ ∃ r p, s.meetPoison lines = { s with regs := r, memc := { s.memc with poison := p } } := by
  unfold State.meetPoison
  generalize lines.filter _ = l
  induction l generalizing s with
  | nil => exact ⟨fun _ _ _ => rfl, s.regs, s.memc.poison, rfl⟩
  | cons x l ih =>
    obtain ⟨h1, r1, p1, e1⟩ := s.dramUncorrectable_frame (64 * x) false
    obtain ⟨h2, r2, p2, e2⟩ := ih (s.dramUncorrectable (64 * x) false)
    refine ⟨fun o ho hs => (h2 o ho hs).trans (h1 o ho hs), r2, p2, ?_⟩
    rw [List.foldl_cons, e2, e1]

/-- What requests that reach DRAM can change: the error registers, the DRAM controllers and bytes, and what is answered. -/
def DramServed (s t : State) : Prop :=
  RegsBut dramErrRegs s t ∧ ∃ r m d o, t = { s with regs := r, memc := m, dram := d, out := o }

theorem DramServed.refl (s : State) : DramServed s s := ⟨fun _ _ _ => rfl, s.regs, s.memc, s.dram, s.out, rfl⟩

theorem DramServed.trans {s t u : State} (h : DramServed s t) (k : DramServed t u) : DramServed s u := by
  obtain ⟨h1, r, m, d, o, rfl⟩ := h
  obtain ⟨k1, r', m', d', o', rfl⟩ := k
  exact ⟨fun x hx hs => (k1 x hx hs).trans (h1 x hx hs), r', m', d', o', rfl⟩

theorem DramServed.foldl {α : Type} {f : State → α → State} (hf : ∀ s x, DramServed s (f s x)) (l : List α) (s : State) :
    DramServed s (l.foldl f s) := by
  induction l generalizing s with
  | nil => exact .refl s
  | cons x l ih => exact (hf s x).trans (ih _)

theorem State.dramServed_setChan (s : State) (c : Nat) (x : Channel) : DramServed s (s.setChan c x) :=
  ⟨fun o _ _ => State.rd_congr rfl o, s.regs, _, s.dram, s.out, rfl⟩

theorem State.dramServed_check (s : State) (a : Nat) : DramServed s (s.dramCheck a .clean) := by
  unfold State.dramCheck
  split
  · obtain ⟨h, r, p, e⟩ := s.dramUncorrectable_frame a false
    exact ⟨h, r, { s.memc with poison := p }, s.dram, s.out, e⟩
  · exact .refl s

/-- A queued request issues with its line found clean. -/
theorem State.dramServed_issue (s : State) (r : DramReq) : DramServed s (s.dramIssue r .clean) := by
  unfold State.dramIssue
  split
  · rename_i d _
    refine DramServed.trans (t := if mergedLines r.addr d.length = [] then s else s.dramCheck r.addr .clean) ?_ ?_
    · split
      · exact .refl s
      · exact s.dramServed_check r.addr
    · exact ⟨fun o _ _ => State.rd_congr rfl o, _, _, _, _, rfl⟩
  · exact (s.dramServed_check r.addr).trans ⟨fun o _ _ => State.rd_congr rfl o, _, _, _, _, rfl⟩

/-- The turn that an access takes at its channels serves what waits there for its lines, and does nothing else (R476). -/
theorem State.dramTurn_served (s : State) (a n : Nat) : DramServed s (s.dramTurn a n) :=
  DramServed.foldl (fun s c => ((s.dramServed_setChan c _).trans ((s.wakeChan c).dramServed_setChan c _)).trans
    (DramServed.foldl (fun u r => u.dramServed_issue r) _ _)) _ s

/-- While no request waits, an engine's write stores its bytes, and beside them changes the error registers and what the
channels and lines carry (R476, R481). -/
theorem State.dramWrite_idle (s : State) (a : Nat) (d : List Byte) (h : DramIdle s) :
    RegsBut dramErrRegs s (s.dramWrite a d)
      ∧ ∃ r m, s.dramWrite a d = { s with regs := r, memc := m, dram := memWrite s.dram a d } := by
  obtain ⟨-, l, hl⟩ := s.dramTurn_idle a d.length h
  obtain ⟨hr, r, p, hp⟩ := (s.dramTurn a d.length).meetPoison_frame (mergedLines a d.length)
  have e : s.dramWrite a d = ((s.dramTurn a d.length).meetPoison (mergedLines a d.length)).dramStore a d := rfl
  refine ⟨fun o ho hs => ?_, r, _, by rw [e, hp, hl]; rfl⟩
  rw [e]
  exact (State.rd_congr rfl o).trans ((hr o ho hs).trans (State.rd_congr (by rw [hl]) o))

/-- While no request waits, an engine's read answers the bytes that DRAM holds, and changes only the error registers and what
the channels and lines carry (R476, R481). -/
theorem State.dramFetch_idle (s : State) (a n : Nat) (h : DramIdle s) :
    (s.dramFetch a n).1 = s.dramRead a n ∧ (s.dramFetch a n).2.1 = s.dramPoisoned a n
      ∧ RegsBut dramErrRegs s (s.dramFetch a n).2.2 ∧ ∃ r m, (s.dramFetch a n).2.2 = { s with regs := r, memc := m } := by
  obtain ⟨-, l, hl⟩ := s.dramTurn_idle a n h
  obtain ⟨hr, r, p, hp⟩ := (s.dramTurn a n).meetPoison_frame (linesOf a n)
  rw [hl] at hr hp
  simp only [State.dramFetch, hl]
  exact ⟨rfl, rfl, hr, r, _, hp⟩

end Sys2Proof.Machine
end

