-- ==== Sys2Proof/Laws/PerInstr.lean ====
section
/-! SUPPORT. What is said of every command, one lemma for each. -/
namespace Sys2Proof.Laws

/-- The operation table gives the row no bits, so no word spells the command. -/
def NoWord.Statement (i : Instr) : Prop := ∀ nbits w, decodeTableWord nbits w ≠ some i

/-- What holds of every command alike. -/
theorem noWord_all (i : Instr) : NoWord.Statement i := by
  intro nbits w h
  cases h

theorem NoWord.rigLoad (m : Master) (v : Word) : NoWord.Statement (.rigLoad m v) := noWord_all _
theorem NoWord.loadCopyComplete : NoWord.Statement .loadCopyComplete := noWord_all _
theorem NoWord.switch (m : Master) (v : Word) : NoWord.Statement (.switch m v) := noWord_all _
theorem NoWord.reRig (m : Master) (v : Word) : NoWord.Statement (.reRig m v) := noWord_all _
theorem NoWord.cancel (m : Master) (v : Word) : NoWord.Statement (.cancel m v) := noWord_all _
theorem NoWord.changeDone : NoWord.Statement .changeDone := noWord_all _
theorem NoWord.bankZeroComplete (bank : Nat) : NoWord.Statement (.bankZeroComplete bank) := noWord_all _
theorem NoWord.claim (m : Master) (v : Word) : NoWord.Statement (.claim m v) := noWord_all _
theorem NoWord.claimRelease (m : Master) (v : Word) : NoWord.Statement (.claimRelease m v) := noWord_all _
theorem NoWord.token (strand : Nat) : NoWord.Statement (.token strand) := noWord_all _
theorem NoWord.pitch (engine : Nat) : NoWord.Statement (.pitch engine) := noWord_all _
theorem NoWord.jnlEnable (m : Master) (v : Word) : NoWord.Statement (.jnlEnable m v) := noWord_all _
theorem NoWord.jnlInject (m : Master) (v : Word) : NoWord.Statement (.jnlInject m v) := noWord_all _
theorem NoWord.jnlHoldExpire (k : Nat) : NoWord.Statement (.jnlHoldExpire k) := noWord_all _
theorem NoWord.digFrameRead (m : Master) : NoWord.Statement (.digFrameRead m) := noWord_all _
theorem NoWord.portEnable (m : Master) (port : Nat) (v : Word) : NoWord.Statement (.portEnable m port v) := noWord_all _
theorem NoWord.portDisable (m : Master) (port : Nat) (v : Word) : NoWord.Statement (.portDisable m port v) := noWord_all _
theorem NoWord.headCfgReconfigure (m : Master) (port : Nat) (v : Word) : NoWord.Statement (.headCfgReconfigure m port v) := noWord_all _
theorem NoWord.blockLock (port lane : Nat) : NoWord.Statement (.blockLock port lane) := noWord_all _
theorem NoWord.align (port lane pos skew : Nat) (block : List Byte) : NoWord.Statement (.align port lane pos skew block) := noWord_all _
theorem NoWord.capability (port t : Nat) (rest : List Byte) : NoWord.Statement (.capability port t rest) := noWord_all _
theorem NoWord.capRequestTimeout (port : Nat) : NoWord.Statement (.capRequestTimeout port) := noWord_all _
theorem NoWord.trainTimeout (port : Nat) : NoWord.Statement (.trainTimeout port) := noWord_all _
theorem NoWord.lockLoss (port t : Nat) : NoWord.Statement (.lockLoss port t) := noWord_all _
theorem NoWord.frameStart (port t : Nat) (rest : List Byte) : NoWord.Statement (.frameStart port t rest) := noWord_all _
theorem NoWord.line (port t : Nat) (rest : List Byte) : NoWord.Statement (.line port t rest) := noWord_all _
theorem NoWord.frameEnd (port t : Nat) (rest : List Byte) : NoWord.Statement (.frameEnd port t rest) := noWord_all _
theorem NoWord.ingressDeadline (ctx tag also : Nat) : NoWord.Statement (.ingressDeadline ctx tag also) := noWord_all _
theorem NoWord.exposure (m : Master) (port vs : Nat) (v : Word) : NoWord.Statement (.exposure m port vs v) := noWord_all _
theorem NoWord.ack (port t : Nat) (rest : List Byte) : NoWord.Statement (.ack port t rest) := noWord_all _
theorem NoWord.ackTimeout (port : Nat) : NoWord.Statement (.ackTimeout port) := noWord_all _
theorem NoWord.controlStart (m : Master) (port vs : Nat) (v : Word) : NoWord.Statement (.controlStart m port vs v) := noWord_all _
theorem NoWord.controlStop (m : Master) (port vs : Nat) (v : Word) : NoWord.Statement (.controlStop m port vs v) := noWord_all _
theorem NoWord.devCommit (m : Master) (ctx : Nat) (v : Word) : NoWord.Statement (.devCommit m ctx v) := noWord_all _
theorem NoWord.stripe (ctx : Nat) : NoWord.Statement (.stripe ctx) := noWord_all _
theorem NoWord.contactSheetRecord (ctx : Nat) : NoWord.Statement (.contactSheetRecord ctx) := noWord_all _
theorem NoWord.outputFrameComplete (stream : Nat) : NoWord.Statement (.outputFrameComplete stream) := noWord_all _
theorem NoWord.rawcSqTail (m : Master) (q : Nat) (v : Word) : NoWord.Statement (.rawcSqTail m q v) := noWord_all _
theorem NoWord.rawcCqHead (m : Master) (q : Nat) (v : Word) : NoWord.Statement (.rawcCqHead m q v) := noWord_all _
theorem NoWord.compress (q : Nat) : NoWord.Statement (.compress q) := noWord_all _
theorem NoWord.decompress (q : Nat) : NoWord.Statement (.decompress q) := noWord_all _
theorem NoWord.tapFrame (q : Nat) : NoWord.Statement (.tapFrame q) := noWord_all _
theorem NoWord.negativeBlock (q : Nat) : NoWord.Statement (.negativeBlock q) := noWord_all _
theorem NoWord.rawcCompletion (q : Nat) : NoWord.Statement (.rawcCompletion q) := noWord_all _
theorem NoWord.rawcQueueEnable (m : Master) (q : Nat) (v : Word) : NoWord.Statement (.rawcQueueEnable m q v) := noWord_all _
theorem NoWord.rawcQueueReset (m : Master) (q : Nat) (v : Word) : NoWord.Statement (.rawcQueueReset m q v) := noWord_all _
theorem NoWord.hevcCommit (m : Master) (k : Nat) (v : Word) : NoWord.Statement (.hevcCommit m k v) := noWord_all _
theorem NoWord.hevcSessionReset (m : Master) (k : Nat) (v : Word) : NoWord.Statement (.hevcSessionReset m k v) := noWord_all _
theorem NoWord.hevcPoolEnable (m : Master) (v : Word) : NoWord.Statement (.hevcPoolEnable m v) := noWord_all _
theorem NoWord.quotaWrite (m : Master) (k : Nat) (v : Word) : NoWord.Statement (.quotaWrite m k v) := noWord_all _
theorem NoWord.hevcSqTail (m : Master) (k : Nat) (v : Word) : NoWord.Statement (.hevcSqTail m k v) := noWord_all _
theorem NoWord.picture (k : Nat) : NoWord.Statement (.picture k) := noWord_all _
theorem NoWord.au (k : Nat) : NoWord.Statement (.au k) := noWord_all _
theorem NoWord.encodeInput (k : Nat) : NoWord.Statement (.encodeInput k) := noWord_all _
theorem NoWord.ctuRow (k : Nat) : NoWord.Statement (.ctuRow k) := noWord_all _
theorem NoWord.hevcRecord (k : Nat) : NoWord.Statement (.hevcRecord k) := noWord_all _
theorem NoWord.wallEnable (m : Master) : NoWord.Statement (.wallEnable m) := noWord_all _
theorem NoWord.wallDisable (m : Master) : NoWord.Statement (.wallDisable m) := noWord_all _
theorem NoWord.modeCommit (m : Master) : NoWord.Statement (.modeCommit m) := noWord_all _
theorem NoWord.modeChangeEffect : NoWord.Statement .modeChangeEffect := noWord_all _
theorem NoWord.surfaceEnable (m : Master) (surf : Nat) (v : Word) : NoWord.Statement (.surfaceEnable m surf v) := noWord_all _
theorem NoWord.surfaceDisable (m : Master) (surf : Nat) (v : Word) : NoWord.Statement (.surfaceDisable m surf v) := noWord_all _
theorem NoWord.surfaceCommit (m : Master) (surf buf : Nat) : NoWord.Statement (.surfaceCommit m surf buf) := noWord_all _
theorem NoWord.surfaceDone (port t : Nat) : NoWord.Statement (.surfaceDone port t) := noWord_all _
theorem NoWord.pictureDone (k t : Nat) : NoWord.Statement (.pictureDone k t) := noWord_all _
theorem NoWord.rxDone (t : Nat) : NoWord.Statement (.rxDone t) := noWord_all _
theorem NoWord.directFrameStart (port t : Nat) : NoWord.Statement (.directFrameStart port t) := noWord_all _
theorem NoWord.latchPoint : NoWord.Statement .latchPoint := noWord_all _
theorem NoWord.pushDeadline (fetched : List (Nat × Nat × Nat)) : NoWord.Statement (.pushDeadline fetched) := noWord_all _
theorem NoWord.presentTime : NoWord.Statement .presentTime := noWord_all _
theorem NoWord.pushPass (ctx : Nat) : NoWord.Statement (.pushPass ctx) := noWord_all _
theorem NoWord.wallCommit (m : Master) (layers : Bool) : NoWord.Statement (.wallCommit m layers) := noWord_all _
theorem NoWord.present : NoWord.Statement .present := noWord_all _
theorem NoWord.fenmasEnable (m : Master) (v : Word) : NoWord.Statement (.fenmasEnable m v) := noWord_all _
theorem NoWord.beacon (port t : Nat) (frame : List Byte) : NoWord.Statement (.beacon port t frame) := noWord_all _
theorem NoWord.forceLead (m : Master) : NoWord.Statement (.forceLead m) := noWord_all _
theorem NoWord.forceSecond (m : Master) : NoWord.Statement (.forceSecond m) := noWord_all _
theorem NoWord.digest (port t : Nat) (frame : List Byte) : NoWord.Statement (.digest port t frame) := noWord_all _
theorem NoWord.journal (port t : Nat) (frame : List Byte) : NoWord.Statement (.journal port t frame) := noWord_all _
theorem NoWord.journalSendTimer : NoWord.Statement .journalSendTimer := noWord_all _
theorem NoWord.calSubmit (m : Master) (v : Word) : NoWord.Statement (.calSubmit m v) := noWord_all _
theorem NoWord.ethernetLinkChange (port : Nat) (up : Bool) : NoWord.Statement (.ethernetLinkChange port up) := noWord_all _
theorem NoWord.rxStreamEnable (m : Master) (r : Nat) (v : Word) : NoWord.Statement (.rxStreamEnable m r v) := noWord_all _
theorem NoWord.txStreamEnable (m : Master) (t : Nat) (v : Word) : NoWord.Statement (.txStreamEnable m t v) := noWord_all _
theorem NoWord.mediaFrame (port t : Nat) (frame : List Byte) : NoWord.Statement (.mediaFrame port t frame) := noWord_all _
theorem NoWord.rxFrameDeadline (r : Nat) : NoWord.Statement (.rxFrameDeadline r) := noWord_all _
theorem NoWord.auDeadline (r : Nat) : NoWord.Statement (.auDeadline r) := noWord_all _
theorem NoWord.audioBlockDecision (r : Nat) : NoWord.Statement (.audioBlockDecision r) := noWord_all _
theorem NoWord.txVideoFrame (v : Nat) : NoWord.Statement (.txVideoFrame v) := noWord_all _
theorem NoWord.txAccessUnit (k : Nat) : NoWord.Statement (.txAccessUnit k) := noWord_all _
theorem NoWord.txAudioPacket (j : Nat) : NoWord.Statement (.txAudioPacket j) := noWord_all _
theorem NoWord.ptpSync (port t frac : Nat) (frame : List Byte) : NoWord.Statement (.ptpSync port t frac frame) := noWord_all _
theorem NoWord.ptpFollowUp (port t frac : Nat) (frame : List Byte) : NoWord.Statement (.ptpFollowUp port t frac frame) := noWord_all _
theorem NoWord.ptpDelayReq (port t frac : Nat) (frame : List Byte) : NoWord.Statement (.ptpDelayReq port t frac frame) := noWord_all _
theorem NoWord.ptpDelayResp (port t frac : Nat) (frame : List Byte) : NoWord.Statement (.ptpDelayResp port t frac frame) := noWord_all _
theorem NoWord.ptpAnnounce (port t frac : Nat) (frame : List Byte) : NoWord.Statement (.ptpAnnounce port t frac frame) := noWord_all _
theorem NoWord.ptpIgnoredMessage (port t frac : Nat) (frame : List Byte) : NoWord.Statement (.ptpIgnoredMessage port t frac frame) := noWord_all _
theorem NoWord.ptpSyncInterval (port t frac : Nat) : NoWord.Statement (.ptpSyncInterval port t frac) := noWord_all _
theorem NoWord.ptpAnnounceInterval (port t : Nat) : NoWord.Statement (.ptpAnnounceInterval port t) := noWord_all _
theorem NoWord.ptpDelayReqInterval (port t frac : Nat) : NoWord.Statement (.ptpDelayReqInterval port t frac) := noWord_all _
theorem NoWord.ptpSyncLoss : NoWord.Statement .ptpSyncLoss := noWord_all _
theorem NoWord.announceReceiptTimeout (port : Nat) : NoWord.Statement (.announceReceiptTimeout port) := noWord_all _
theorem NoWord.ptpCfgWrite (m : Master) (reg : Nat) (v : Word) : NoWord.Statement (.ptpCfgWrite m reg v) := noWord_all _
theorem NoWord.anchorSrcWrite (m : Master) (v : Word) : NoWord.Statement (.anchorSrcWrite m v) := noWord_all _
theorem NoWord.anchorNsRead (m : Master) : NoWord.Statement (.anchorNsRead m) := noWord_all _
theorem NoWord.ppsEdge (t frac : Nat) : NoWord.Statement (.ppsEdge t frac) := noWord_all _
theorem NoWord.ppsLoss : NoWord.Statement .ppsLoss := noWord_all _
theorem NoWord.ref10Loss : NoWord.Statement .ref10Loss := noWord_all _
theorem NoWord.ref10Restore : NoWord.Statement .ref10Restore := noWord_all _
theorem NoWord.setTime (m : Master) : NoWord.Statement (.setTime m) := noWord_all _
theorem NoWord.tsqPop (m : Master) (q : Nat) : NoWord.Statement (.tsqPop m q) := noWord_all _
theorem NoWord.txiGo (m : Master) (v : Word) : NoWord.Statement (.txiGo m v) := noWord_all _
theorem NoWord.txiSent (t frac : Nat) : NoWord.Statement (.txiSent t frac) := noWord_all _
theorem NoWord.timerEnable (m : Master) (t : Nat) (v : Word) : NoWord.Statement (.timerEnable m t v) := noWord_all _
theorem NoWord.timerFire (t : Nat) : NoWord.Statement (.timerFire t) := noWord_all _
theorem NoWord.pulseEnd (t : Nat) : NoWord.Statement (.pulseEnd t) := noWord_all _
theorem NoWord.sampleFrame (port t frac : Nat) (line : List SapPeriod) : NoWord.Statement (.sampleFrame port t frac line) := noWord_all _
theorem NoWord.clockLost (port : Nat) : NoWord.Statement (.clockLost port) := noWord_all _
theorem NoWord.rateWindow (port dur : Nat) : NoWord.Statement (.rateWindow port dur) := noWord_all _
theorem NoWord.groupEnable (m : Master) (g : Nat) (v : Word) : NoWord.Statement (.groupEnable m g v) := noWord_all _
theorem NoWord.groupDisable (m : Master) (g : Nat) (v : Word) : NoWord.Statement (.groupDisable m g v) := noWord_all _
theorem NoWord.groupOrigin (g : Nat) : NoWord.Statement (.groupOrigin g) := noWord_all _
theorem NoWord.groupBoundary (g : Nat) : NoWord.Statement (.groupBoundary g) := noWord_all _
theorem NoWord.outputBlockLeave (g t : Nat) : NoWord.Statement (.outputBlockLeave g t) := noWord_all _
theorem NoWord.storeEnable (m : Master) (v : Word) (ssds : List Ssd) (lost : List (Nat × Nat)) :
    NoWord.Statement (.storeEnable m v ssds lost) := noWord_all _
theorem NoWord.storeFormat (m : Master) (v : Word) (ssds : List Ssd) (lost : List (Nat × Nat)) :
    NoWord.Statement (.storeFormat m v ssds lost) := noWord_all _
theorem NoWord.storeDisable (m : Master) (v : Word) : NoWord.Statement (.storeDisable m v) := noWord_all _
theorem NoWord.memberLost (slot : Nat) : NoWord.Statement (.memberLost slot) := noWord_all _
theorem NoWord.clipSqTail (m : Master) (q : Nat) (v : Word) : NoWord.Statement (.clipSqTail m q v) := noWord_all _
theorem NoWord.clipCqHead (m : Master) (q : Nat) (v : Word) : NoWord.Statement (.clipCqHead m q v) := noWord_all _
theorem NoWord.write : NoWord.Statement .write := noWord_all _
theorem NoWord.read : NoWord.Statement .read := noWord_all _
theorem NoWord.flush : NoWord.Statement .flush := noWord_all _
theorem NoWord.deallocate : NoWord.Statement .deallocate := noWord_all _
theorem NoWord.identify : NoWord.Statement .identify := noWord_all _
theorem NoWord.getLog : NoWord.Statement .getLog := noWord_all _
theorem NoWord.commandComplete (k : Nat) (errs : List (Nat × Nat)) : NoWord.Statement (.commandComplete k errs) := noWord_all _
theorem NoWord.stagingDrain (count : Nat) : NoWord.Statement (.stagingDrain count) := noWord_all _
theorem NoWord.deferredError (lba count status : Nat) : NoWord.Statement (.deferredError lba count status) := noWord_all _
theorem NoWord.clipQueueEnable (m : Master) (q : Nat) (v : Word) : NoWord.Statement (.clipQueueEnable m q v) := noWord_all _
theorem NoWord.clipQueueReset (m : Master) (q : Nat) (v : Word) : NoWord.Statement (.clipQueueReset m q v) := noWord_all _
theorem NoWord.cs1Entry (t : Nat) : NoWord.Statement (.cs1Entry t) := noWord_all _
theorem NoWord.cs2Entry (t : Nat) : NoWord.Statement (.cs2Entry t) := noWord_all _
theorem NoWord.dramRequest (arrivals : List DramReq) (ch sub : Nat) (notAllowed : List Nat) (ecc : EccResult) (row : Option (Nat × Nat)) : NoWord.Statement (.dramRequest arrivals ch sub notAllowed ecc row) := noWord_all _
theorem NoWord.agePromotion (ch id : Nat) : NoWord.Statement (.agePromotion ch id) := noWord_all _
theorem NoWord.eccWriteBack (line : Nat) : NoWord.Statement (.eccWriteBack line) := noWord_all _
theorem NoWord.refresh (ch : Nat) : NoWord.Statement (.refresh ch) := noWord_all _
theorem NoWord.mr4Read (ch : Nat) (hot : Bool) : NoWord.Statement (.mr4Read ch hot) := noWord_all _
theorem NoWord.trackerClear : NoWord.Statement .trackerClear := noWord_all _
theorem NoWord.zqCalibration (ch : Nat) : NoWord.Statement (.zqCalibration ch) := noWord_all _
theorem NoWord.dqsDrift (ch : Nat) : NoWord.Statement (.dqsDrift ch) := noWord_all _
theorem NoWord.selfRefreshEntry (ch : Nat) : NoWord.Statement (.selfRefreshEntry ch) := noWord_all _
theorem NoWord.patrolScrub (ch : Nat) (found : List (Nat × EccResult)) : NoWord.Statement (.patrolScrub ch found) := noWord_all _
theorem NoWord.poolAccess (reqs : List PoolReq) : NoWord.Statement (.poolAccess reqs) := noWord_all _
theorem NoWord.poolWriteBack (word : Nat) : NoWord.Statement (.poolWriteBack word) := noWord_all _
theorem NoWord.marchGo (m : Master) (v : Word) : NoWord.Statement (.marchGo m v) := noWord_all _
theorem NoWord.marchStop (m : Master) (v : Word) : NoWord.Statement (.marchStop m v) := noWord_all _
theorem NoWord.marchSegment (failRows : List Nat) : NoWord.Statement (.marchSegment failRows) := noWord_all _
theorem NoWord.repairFuse (m : Master) (v : Word) : NoWord.Statement (.repairFuse m v) := noWord_all _
theorem NoWord.regionEnable (m : Master) (mst rgn : Nat) (v : Word) : NoWord.Statement (.regionEnable m mst rgn v) := noWord_all _
theorem NoWord.registerWrite (m : Master) (off : Nat) (be : Nat) (v : Word) : NoWord.Statement (.registerWrite m off be v) := noWord_all _
theorem NoWord.counterRead (m : Master) (off : Nat) : NoWord.Statement (.counterRead m off) := noWord_all _
theorem NoWord.apertureAccess (fn : Nat) (off : Nat) (acc : MemAccess) : NoWord.Statement (.apertureAccess fn off acc) := noWord_all _
theorem NoWord.configRequest (fn : Nat) (item : CfgItem) (write : Option Nat) : NoWord.Statement (.configRequest fn item write) := noWord_all _
theorem NoWord.linkTraining (speed width : Nat) : NoWord.Statement (.linkTraining speed width) := noWord_all _
theorem NoWord.functionLevelReset (fn : Nat) : NoWord.Statement (.functionLevelReset fn) := noWord_all _
theorem NoWord.d3hotExit (fn : Nat) : NoWord.Statement (.d3hotExit fn) := noWord_all _
theorem NoWord.mboxClaim (m : Master) (mb : Nat) : NoWord.Statement (.mboxClaim m mb) := noWord_all _
theorem NoWord.mboxRelease (m : Master) (mb : Nat) : NoWord.Statement (.mboxRelease m mb) := noWord_all _
theorem NoWord.mboxSend (m : Master) (mb : Nat) (v : Word) : NoWord.Statement (.mboxSend m mb v) := noWord_all _
theorem NoWord.mboxWordRead (m : Master) (mb n : Nat) : NoWord.Statement (.mboxWordRead m mb n) := noWord_all _
theorem NoWord.doorbellRing (m : Master) (hi : Bool) (v : Word) : NoWord.Statement (.doorbellRing m hi v) := noWord_all _
theorem NoWord.fwact (m : Master) : NoWord.Statement (.fwact m) := noWord_all _
theorem NoWord.fwReady (ms : Nat) : NoWord.Statement (.fwReady ms) := noWord_all _
theorem NoWord.fwactTakingResume : NoWord.Statement .fwactTakingResume := noWord_all _
theorem NoWord.fwactFallback : NoWord.Statement .fwactFallback := noWord_all _
theorem NoWord.powerOnDetect (below : Bool) : NoWord.Statement (.powerOnDetect below) := noWord_all _
theorem NoWord.pwrOkBall (level : Bool) (lowNs : Nat) : NoWord.Statement (.pwrOkBall level lowNs) := noWord_all _
theorem NoWord.sysRstN (level : Bool) (lowNs : Nat) : NoWord.Statement (.sysRstN level lowNs) := noWord_all _
theorem NoWord.pciePerstN (level : Bool) (lowNs : Nat) : NoWord.Statement (.pciePerstN level lowNs) := noWord_all _
theorem NoWord.hotReset (active : Bool) : NoWord.Statement (.hotReset active) := noWord_all _
theorem NoWord.wdtKick (m : Master) (v : Word) : NoWord.Statement (.wdtKick m v) := noWord_all _
theorem NoWord.wdtTimeout : NoWord.Statement .wdtTimeout := noWord_all _
theorem NoWord.softwareReset (m : Master) (v : Word) : NoWord.Statement (.softwareReset m v) := noWord_all _
theorem NoWord.episodeRelease : NoWord.Statement .episodeRelease := noWord_all _
theorem NoWord.islandRelease (island : Nat) (b : BootIn) : NoWord.Statement (.islandRelease island b) := noWord_all _
theorem NoWord.releaseGap : NoWord.Statement .releaseGap := noWord_all _
theorem NoWord.releaseStall (island : Nat) : NoWord.Statement (.releaseStall island) := noWord_all _
theorem NoWord.refLost : NoWord.Statement .refLost := noWord_all _
theorem NoWord.refResume : NoWord.Statement .refResume := noWord_all _
theorem NoWord.refStop : NoWord.Statement .refStop := noWord_all _
theorem NoWord.thermSample (diodes : List Int) (rings : List Int) : NoWord.Statement (.thermSample diodes rings) := noWord_all _
theorem NoWord.thermalTrip : NoWord.Statement .thermalTrip := noWord_all _
theorem NoWord.fusePulseEnd : NoWord.Statement .fusePulseEnd := noWord_all _
theorem NoWord.lcAscent (m : Master) : NoWord.Statement (.lcAscent m) := noWord_all _
theorem NoWord.lcRescue (m : Master) : NoWord.Statement (.lcRescue m) := noWord_all _
theorem NoWord.lcDescent (m : Master) : NoWord.Statement (.lcDescent m) := noWord_all _
theorem NoWord.keyProvision (m : Master) (slot : Nat) : NoWord.Statement (.keyProvision m slot) := noWord_all _
theorem NoWord.keyRevoke (m : Master) (slot : Nat) : NoWord.Statement (.keyRevoke m slot) := noWord_all _
theorem NoWord.cskExport (m : Master) : NoWord.Statement (.cskExport m) := noWord_all _
theorem NoWord.cskImport (m : Master) : NoWord.Statement (.cskImport m) := noWord_all _
theorem NoWord.extest (cells : List Bool) (pins : List Bool) : NoWord.Statement (.extest cells pins) := noWord_all _
theorem NoWord.samplePreload (cells : List Bool) (pins : List Bool) : NoWord.Statement (.samplePreload cells pins) := noWord_all _
theorem NoWord.idcode : NoWord.Statement .idcode := noWord_all _
theorem NoWord.clamp : NoWord.Statement .clamp := noWord_all _
theorem NoWord.highz : NoWord.Statement .highz := noWord_all _
theorem NoWord.bypass (tdi : Bool) : NoWord.Statement (.bypass tdi) := noWord_all _
theorem NoWord.trstN (level : Bool) : NoWord.Statement (.trstN level) := noWord_all _
theorem NoWord.smbSysId : NoWord.Statement .smbSysId := noWord_all _
theorem NoWord.smbThermStatus : NoWord.Statement .smbThermStatus := noWord_all _
theorem NoWord.smbStatus : NoWord.Statement .smbStatus := noWord_all _
theorem NoWord.smbRstCause : NoWord.Statement .smbRstCause := noWord_all _
theorem NoWord.smbOtherCommand (code : Nat) : NoWord.Statement (.smbOtherCommand code) := noWord_all _
theorem NoWord.badHeadPacket (port t : Nat) (pkt : List Byte) (framed : Bool) : NoWord.Statement (.badHeadPacket port t pkt framed) := noWord_all _
theorem NoWord.invalidFenmasPacket (port t : Nat) (frame : List Byte) : NoWord.Statement (.invalidFenmasPacket port t frame) := noWord_all _
theorem NoWord.refusedRegisterRead (m : Master) (off : Nat) : NoWord.Statement (.refusedRegisterRead m off) := noWord_all _
theorem NoWord.fwactHandover (area : List Byte) : NoWord.Statement (.fwactHandover area) := noWord_all _

end Sys2Proof.Laws
end

