-- ==== Sys2Proof/Laws/Settle.lean ====
section
/-! SUPPORT. What the closing step of every command does: it sends, and touches nothing but what sending needs. -/
namespace Sys2Proof.Machine

/-- What `settle` and the operations it is made of may change from `s` to `t`: the counters of packets sent, what
`Undisturbed` names, and outputs, to which they only add. -/
structure Settles (s t : State) : Prop where
  quiet : Undisturbed s t
  rd : RegsBut [] s t
  out : ∃ l, t.out = l ++ s.out

theorem Settles.refl (s : State) : Settles s s := ⟨rfl, fun _ _ _ => rfl, [], rfl⟩

theorem Undisturbed.trans {s t u : State} (h : Undisturbed s t) (k : Undisturbed t u) : Undisturbed s u := by
  unfold Undisturbed at *
  rw [k, h]

theorem Settles.trans {s t u : State} (h : Settles s t) (k : Settles t u) : Settles s u := by
  refine ⟨h.quiet.trans k.quiet, fun o ho hc => (k.rd o ho hc).trans (h.rd o ho hc), ?_⟩
  obtain ⟨l, hl⟩ := h.out
  obtain ⟨m, hm⟩ := k.out
  exact ⟨m ++ l, by rw [hm, hl, List.append_assoc]⟩

theorem Settles.emit (s : State) (o : Output) : Settles s (s.emit o) := ⟨rfl, fun _ _ _ => rfl, [o], rfl⟩

theorem Settles.foldl {α : Type} (f : State → α → State) (hf : ∀ s a, Settles s (f s a)) (l : List α) (s : State) :
    Settles s (l.foldl f s) := by
  induction l generalizing s with
  | nil => exact .refl s
  | cons a r ih => exact (hf s a).trans (ih (f s a))

theorem Settles.emitAll (s : State) (l : List Output) : Settles s (s.emitAll l) := .foldl _ .emit l s

theorem Settles.put (s : State) (f : Fld) (v : Nat) (h : SendCounter f.off) : Settles s (s.put f v) :=
  ⟨rfl, fun _ _ ho => s.rd_put_ne f v (fun e => ho (e ▸ h)), [], rfl⟩

theorem Settles.bump (s : State) (f : Fld) (n : Nat) (h : SendCounter f.off) : Settles s (s.bump f n) := .put s f _ h

theorem Settles.retireStrands (s : State) : Settles s s.retireStrands := by
  unfold State.retireStrands
  split
  · exact .refl s
  · exact ⟨rfl, fun _ _ _ => rfl, [], rfl⟩

theorem Settles.deliverFn (s : State) (fn : Nat) : Settles s (s.deliverFn fn) := by
  unfold State.deliverFn
  dsimp only
  refine Settles.trans ?_ (.emitAll _ _)
  by_cases h : fn = 1
  · subst h; exact ⟨rfl, fun _ _ _ => rfl, [], rfl⟩
  · simp only [State.setPcie, State.pcie, if_neg h]
    exact ⟨rfl, fun _ _ _ => rfl, [], rfl⟩

theorem Settles.deliverMgt (s : State) : Settles s s.deliverMgt := by
  unfold State.deliverMgt
  dsimp only
  refine Settles.trans ?_ (.emitAll _ _)
  exact ⟨rfl, fun _ _ _ => rfl, [], rfl⟩

theorem Settles.fenLeave (s : State) (k : FenPkt) (hp : k.port < 8) (ht : k.ftype ≠ 1) : Settles s (s.fenLeave k) := by
  unfold State.fenLeave
  split
  · simp only
    refine Settles.trans ?_ (.emit _ _)
    have hf : Settles s { s with fen := { s.fen with
        seq := mapSet s.fen.seq k.port ((mapGet 0 s.fen.seq k.port + 1) % 65536) } } := ⟨rfl, fun _ _ _ => rfl, [], rfl⟩
    refine hf.trans ?_
    split
    · exact .bump _ (F.FEN_P_PRESENT_count k.port) 1 (.inr ⟨by change 0xE8100 ≤ 0xE8104 + 0x10 * k.port; omega, by change 0xE8104 + 0x10 * k.port < 0xE8180; omega⟩)
    · exact .bump _ (F.FEN_P_CTRL_count k.port) 1 (.inr ⟨by change 0xE8100 ≤ 0xE8108 + 0x10 * k.port; omega, by change 0xE8108 + 0x10 * k.port < 0xE8180; omega⟩)
  · exact .bump _ (F.FEN_P_DOWN_count k.port) 1 (.inr ⟨by change 0xE8100 ≤ 0xE810C + 0x10 * k.port; omega, by change 0xE810C + 0x10 * k.port < 0xE8180; omega⟩)

theorem Settles.fenSend (s : State) (frame port ftype : Nat) (body : List Byte) (hp : port < 8) (ht : ftype ≠ 1) :
    Settles s (s.fenSend frame port ftype body) := by
  unfold State.fenSend
  split
  · dsimp only
    split
    · exact ⟨rfl, fun _ _ _ => rfl, [], rfl⟩
    · exact .fenLeave _ _ hp ht
  · exact .refl s

theorem Settles.foldl_mem {α : Type} (f : State → α → State) (l : List α) (hf : ∀ s, ∀ a ∈ l, Settles s (f s a)) (s : State) :
    Settles s (l.foldl f s) := by
  induction l generalizing s with
  | nil => exact .refl s
  | cons a r ih => exact (hf s a (by simp)).trans (ih (fun s a h => hf s a (by simp [h])) (f s a))

theorem portsOf_lt (mask p : Nat) (h : p ∈ portsOf mask) : p < 8 := by
  simpa using (List.mem_filter.mp h).1

theorem Settles.jnlPacket (s : State) : Settles s s.jnlPacket := by
  unfold State.jnlPacket
  dsimp only
  have hj : Settles s { s with jnl := { s.jnl with
      forwardQ := s.jnl.forwardQ.drop s.jnlNew.length, recent := s.jnlNew } } := ⟨rfl, fun _ _ _ => rfl, [], rfl⟩
  refine hj.trans ?_
  split
  · apply Settles.foldl_mem
    intro s p hp
    refine Settles.trans ?_ (.fenSend _ _ _ _ _ (portsOf_lt _ _ hp) (by decide))
    split
    · exact .bump _ F.FEN_JNL_TX_count 1 (.inl rfl)
    · exact .refl _
  · exact .refl _

theorem Settles.jnlPump (n : Nat) (s : State) : Settles s (State.jnlPump n s) := by
  induction n generalizing s with
  | zero => exact .refl s
  | succ n ih =>
    unfold State.jnlPump
    split
    · exact (Settles.jnlPacket s).trans (ih _)
    · exact .refl s

/-- Everything the closing step of a command can change. -/
theorem settles_settle (s : State) : Settles s (settle s) :=
  (Settles.retireStrands s).trans <| (Settles.jnlPump _ _).trans <|
    (Settles.deliverFn _ 0).trans <| (Settles.deliverFn _ 1).trans (.deliverMgt _)

/-! ## Its consequences, field by field -/

@[simp] theorem settle_dram (s : State) : (settle s).dram = s.dram := by rw [(settles_settle s).quiet]
@[simp] theorem settle_pool (s : State) : (settle s).pool = s.pool := by rw [(settles_settle s).quiet]
@[simp] theorem settle_sram (s : State) : (settle s).sram = s.sram := by rw [(settles_settle s).quiet]
@[simp] theorem settle_flash (s : State) : (settle s).flash = s.flash := by rw [(settles_settle s).quiet]
@[simp] theorem settle_real (s : State) : (settle s).real = s.real := by rw [(settles_settle s).quiet]
@[simp] theorem settle_anchorT (s : State) : (settle s).anchorT = s.anchorT := by rw [(settles_settle s).quiet]
@[simp] theorem settle_sys (s : State) : (settle s).sys = s.sys := by rw [(settles_settle s).quiet]
@[simp] theorem settle_isl (s : State) : (settle s).isl = s.isl := by rw [(settles_settle s).quiet]
@[simp] theorem settle_memc (s : State) : (settle s).memc = s.memc := by rw [(settles_settle s).quiet]
@[simp] theorem settle_poolSt (s : State) : (settle s).poolSt = s.poolSt := by rw [(settles_settle s).quiet]
@[simp] theorem settle_mbox (s : State) : (settle s).mbox = s.mbox := by rw [(settles_settle s).quiet]
@[simp] theorem settle_jtag (s : State) : (settle s).jtag = s.jtag := by rw [(settles_settle s).quiet]
@[simp] theorem settle_cam (s : State) : (settle s).cam = s.cam := by rw [(settles_settle s).quiet]
@[simp] theorem settle_raw (s : State) : (settle s).raw = s.raw := by rw [(settles_settle s).quiet]
@[simp] theorem settle_hevc (s : State) : (settle s).hevc = s.hevc := by rw [(settles_settle s).quiet]
@[simp] theorem settle_wall (s : State) : (settle s).wall = s.wall := by rw [(settles_settle s).quiet]
@[simp] theorem settle_fclk (s : State) : (settle s).fclk = s.fclk := by rw [(settles_settle s).quiet]
@[simp] theorem settle_aud (s : State) : (settle s).aud = s.aud := by rw [(settles_settle s).quiet]
@[simp] theorem settle_media (s : State) : (settle s).media = s.media := by rw [(settles_settle s).quiet]
@[simp] theorem settle_anchor (s : State) : (settle s).anchor = s.anchor := by rw [(settles_settle s).quiet]
@[simp] theorem settle_clip (s : State) : (settle s).clip = s.clip := by rw [(settles_settle s).quiet]
@[simp] theorem settle_freeCtr (s : State) : (settle s).freeCtr = s.freeCtr := by rw [(settles_settle s).quiet]
@[simp] theorem settle_pending (s : State) : (settle s).pending = s.pending := by rw [(settles_settle s).quiet]

/-- A register other than a counter of packets sent reads the same after the closing step. -/
theorem settle_rd (s : State) (o : Nat) (h : ¬ SendCounter o) : (settle s).rd o = s.rd o := (settles_settle s).rd o (by simp) h

theorem settle_fld (s : State) (f : Fld) (h : ¬ SendCounter f.off) : (settle s).fld f = s.fld f := by
  simp only [State.fld, settle_rd s f.off h]

/-- What had left the device has left it. -/
theorem mem_settle_out (s : State) (o : Output) (h : o ∈ s.out) : o ∈ (settle s).out := by
  obtain ⟨l, hl⟩ := (settles_settle s).out
  rw [hl]; exact List.mem_append_right _ h

end Sys2Proof.Machine
end

