-- ==== Sys2Proof/WellFormed.lean ====
section
/-! DEFINITION. Which commands are well formed: every number of a port, context, queue, session, stream, slot or register
lies in the range that the spec gives it, and lists of fixed length have it. The operands are the model's (assumption 1), and
the meanings reduce a number outside its range to one within. -/
namespace Sys2Proof

/-- Whether a command's operands lie in their ranges. [assumption 1, DESIGN CHOICE] -/
def Instr.wf (i : Instr) : Bool :=
  match i with
  | .registerWrite _ off be _ => decide (off < 16777216) && decide (be < 16)
  | .counterRead _ off => decide (off < 16777216)
  | .refusedRegisterRead _ off => decide (off < 16777216)
  | .apertureAccess fn off _ => decide (fn < 2) && decide (off < 68719476736)
  | .configRequest fn _ _ => decide (fn < 2)
  | .linkTraining speed width => decide (speed < 6) && decide (width < 9)
  | .functionLevelReset fn => decide (fn < 2)
  | .d3hotExit fn => decide (fn < 2)
  | .mboxClaim _ mb => decide (mb < 32)
  | .mboxRelease _ mb => decide (mb < 32)
  | .mboxSend _ mb _ => decide (mb < 32)
  | .mboxWordRead _ mb n => decide (mb < 32) && decide (n < 16)
  | .doorbellRing _ _ _ => true
  | .fwact _ => true
  | .fwReady _ => true
  | .fwactTakingResume => true
  | .fwactFallback => true
  | .fwactHandover area => decide (area.length = 65536)
  | .powerOnDetect _ => true
  | .pwrOkBall _ _ => true
  | .sysRstN _ _ => true
  | .pciePerstN _ _ => true
  | .hotReset _ => true
  | .wdtKick _ _ => true
  | .wdtTimeout => true
  | .softwareReset _ _ => true
  | .episodeRelease => true
  | .islandRelease island _ => decide (island < 14)
  | .releaseGap => true
  | .releaseStall island => decide (island < 14)
  | .refLost => true
  | .refResume => true
  | .refStop => true
  | .thermSample diodes rings => decide (diodes.length = 16) && decide (rings.length = 4)
  | .thermalTrip => true
  | .fusePulseEnd => true
  | .lcAscent _ => true
  | .lcRescue _ => true
  | .lcDescent _ => true
  | .keyProvision _ slot => decide (slot < 4)
  | .keyRevoke _ slot => decide (slot < 4)
  | .cskExport _ => true
  | .cskImport _ => true
  | .extest cells pins => decide (cells.length = 3561) && decide (pins.length = 3561)
  | .samplePreload cells pins => decide (cells.length = 3561) && decide (pins.length = 3561)
  | .idcode => true
  | .clamp => true
  | .highz => true
  | .bypass _ => true
  | .trstN _ => true
  | .smbSysId => true
  | .smbThermStatus => true
  | .smbStatus => true
  | .smbRstCause => true
  | .smbOtherCommand code => decide (code < 256)
  | .dramRequest _ ch sub _ _ _ => decide (ch < 8) && decide (sub < 2)
  | .agePromotion ch _ => decide (ch < 8)
  | .eccWriteBack _ => true
  | .refresh ch => decide (ch < 8)
  | .mr4Read ch _ => decide (ch < 8)
  | .trackerClear => true
  | .zqCalibration ch => decide (ch < 8)
  | .dqsDrift ch => decide (ch < 8)
  | .selfRefreshEntry ch => decide (ch < 8)
  | .patrolScrub ch _ => decide (ch < 8)
  | .poolAccess _ => true
  | .poolWriteBack _ => true
  | .marchGo _ _ => true
  | .marchStop _ _ => true
  | .marchSegment _ => true
  | .repairFuse _ _ => true
  | .regionEnable _ mst rgn _ => decide (mst < 7) && decide (rgn < 64)
  | .rigLoad _ _ => true
  | .loadCopyComplete => true
  | .switch _ _ => true
  | .reRig _ _ => true
  | .cancel _ _ => true
  | .changeDone => true
  | .bankZeroComplete bank => decide (bank < 992)
  | .claim _ _ => true
  | .claimRelease _ _ => true
  | .token _ => true
  | .pitch engine => decide (engine < 28)
  | .portEnable _ port _ => decide (port < 8)
  | .portDisable _ port _ => decide (port < 8)
  | .headCfgReconfigure _ port _ => decide (port < 8)
  | .blockLock port lane => decide (port < 8) && decide (lane < 2)
  | .align port lane _ _ block => decide (port < 8) && decide (lane < 2) && decide (block.length = 8)
  | .capability port _ _ => decide (port < 8)
  | .capRequestTimeout port => decide (port < 8)
  | .trainTimeout port => decide (port < 8)
  | .lockLoss port _ => decide (port < 8)
  | .frameStart port _ _ => decide (port < 8)
  | .line port _ _ => decide (port < 8)
  | .frameEnd port _ _ => decide (port < 8)
  | .ingressDeadline ctx _ _ => decide (ctx < 16)
  | .exposure _ port vs _ => decide (port < 8) && decide (vs < 4)
  | .ack port _ _ => decide (port < 8)
  | .ackTimeout port => decide (port < 8)
  | .controlStart _ port vs _ => decide (port < 8) && decide (vs < 4)
  | .controlStop _ port vs _ => decide (port < 8) && decide (vs < 4)
  | .badHeadPacket port _ _ _ => decide (port < 8)
  | .devCommit _ ctx _ => decide (ctx < 16)
  | .stripe ctx => decide (ctx < 16)
  | .contactSheetRecord ctx => decide (ctx < 16)
  | .outputFrameComplete stream => decide (stream < 8)
  | .rawcSqTail _ q _ => decide (q < 32)
  | .rawcCqHead _ q _ => decide (q < 32)
  | .compress q => decide (q < 32)
  | .decompress q => decide (q < 32)
  | .tapFrame q => decide (q < 32)
  | .negativeBlock q => decide (q < 32)
  | .rawcCompletion q => decide (q < 32)
  | .rawcQueueEnable _ q _ => decide (q < 32)
  | .rawcQueueReset _ q _ => decide (q < 32)
  | .hevcCommit _ k _ => decide (k < 64)
  | .hevcSessionReset _ k _ => decide (k < 64)
  | .hevcPoolEnable _ _ => true
  | .quotaWrite _ k _ => decide (k < 64)
  | .hevcSqTail _ k _ => decide (k < 64)
  | .picture k => decide (k < 64)
  | .au k => decide (k < 64)
  | .encodeInput k => decide (k < 64)
  | .ctuRow k => decide (k < 64)
  | .hevcRecord k => decide (k < 64)
  | .wallEnable _ => true
  | .wallDisable _ => true
  | .modeCommit _ => true
  | .modeChangeEffect => true
  | .surfaceEnable _ surf _ => decide (surf < 256)
  | .surfaceDisable _ surf _ => decide (surf < 256)
  | .surfaceCommit _ surf buf => decide (surf < 256) && decide (buf < 4)
  | .surfaceDone port _ => decide (port < 8)
  | .pictureDone k _ => decide (k < 64)
  | .rxDone _ => true
  | .directFrameStart port _ => decide (port < 8)
  | .latchPoint => true
  | .pushDeadline _ => true
  | .presentTime => true
  | .pushPass ctx => decide (ctx < 16384)
  | .wallCommit _ _ => true
  | .present => true
  | .fenmasEnable _ _ => true
  | .beacon port _ _ => decide (port < 8)
  | .forceLead _ => true
  | .forceSecond _ => true
  | .digest port _ _ => decide (port < 8)
  | .journal port _ _ => decide (port < 8)
  | .invalidFenmasPacket port _ _ => decide (port < 8)
  | .journalSendTimer => true
  | .calSubmit _ _ => true
  | .ethernetLinkChange port _ => decide (port < 8)
  | .groupEnable _ g _ => decide (g < 8)
  | .groupDisable _ g _ => decide (g < 8)
  | .groupOrigin g => decide (g < 8)
  | .groupBoundary g => decide (g < 8)
  | .sampleFrame port _ frac _ => decide (port < 8) && decide (frac < 65536)
  | .clockLost port => decide (port < 8)
  | .rateWindow port _ => decide (port < 8)
  | .outputBlockLeave g _ => decide (g < 8)
  | .audioBlockDecision r => decide (r < 8)
  | .rxStreamEnable _ r _ => decide (r < 64)
  | .txStreamEnable _ t _ => decide (t < 80)
  | .mediaFrame port _ _ => decide (port < 8)
  | .rxFrameDeadline r => decide (r < 64)
  | .auDeadline r => decide (r < 64)
  | .txVideoFrame v => decide (v < 8)
  | .txAccessUnit k => decide (k < 64)
  | .txAudioPacket j => decide (j < 8)
  | .ptpSync port _ _ _ => decide (port < 8)
  | .ptpFollowUp port _ _ _ => decide (port < 8)
  | .ptpDelayReq port _ _ _ => decide (port < 8)
  | .ptpDelayResp port _ _ _ => decide (port < 8)
  | .ptpAnnounce port _ _ _ => decide (port < 8)
  | .ptpIgnoredMessage port _ _ _ => decide (port < 8)
  | .ptpSyncInterval port _ _ => decide (port < 8)
  | .ptpAnnounceInterval port _ => decide (port < 8)
  | .ptpDelayReqInterval port _ _ => decide (port < 8)
  | .ptpSyncLoss => true
  | .announceReceiptTimeout port => decide (port < 8)
  | .ptpCfgWrite _ _ _ => true
  | .anchorSrcWrite _ _ => true
  | .anchorNsRead _ => true
  | .ppsEdge _ _ => true
  | .ppsLoss => true
  | .ref10Loss => true
  | .ref10Restore => true
  | .setTime _ => true
  | .tsqPop _ q => decide (q < 8)
  | .txiGo _ _ => true
  | .txiSent _ _ => true
  | .timerEnable _ t _ => decide (t < 32)
  | .timerFire t => decide (t < 32)
  | .pulseEnd t => decide (t < 32)
  | .storeEnable _ _ _ lost => lost.all (fun x => decide (x.2 = 6) || decide (x.2 = 7))
  | .storeFormat _ _ _ lost => lost.all (fun x => decide (x.2 = 6) || decide (x.2 = 7))
  | .storeDisable _ _ => true
  | .memberLost slot => decide (slot < 4)
  | .clipSqTail _ q _ => decide (q < 64)
  | .clipCqHead _ q _ => decide (q < 64)
  | .write => true
  | .read => true
  | .flush => true
  | .deallocate => true
  | .identify => true
  | .getLog => true
  | .commandComplete _ _ => true
  | .stagingDrain _ => true
  | .deferredError _ _ _ => true
  | .clipQueueEnable _ q _ => decide (q < 64)
  | .clipQueueReset _ q _ => decide (q < 64)
  | .cs1Entry _ => true
  | .cs2Entry _ => true
  | .jnlEnable _ _ => true
  | .jnlInject _ _ => true
  | .jnlHoldExpire _ => true
  | .digFrameRead _ => true

end Sys2Proof
end

