-- ==== Sys2Proof/Tests/Slice0.lean ====
section
/-! SUPPORT. Small tests: ill-formed operands that `Instr.wf` refuses, for each statement of the obligations a state and
operands that meet its hypotheses together, and results that the spec gives. -/
namespace Sys2Proof.Tests
open Sys2Proof Sys2Proof.Machine
set_option Elab.async false

/-! ## Well-formedness -/

/-- Every check on operands refuses a term just outside its range. -/
theorem test_wf_refuses : [
    Instr.registerWrite .pf0 16777216 15 0, .registerWrite .pf0 0 16 0, .counterRead .pf0 16777216, .refusedRegisterRead .pf1 16777216,
    .apertureAccess 2 0 (.read 1), .apertureAccess 0 68719476736 (.read 1), .configRequest 2 .vendorId none, .linkTraining 6 8,
    .linkTraining 4 9, .functionLevelReset 2, .d3hotExit 2, .mboxClaim .pf0 32, .mboxRelease .pf0 32, .mboxSend .pf0 32 0,
    .mboxWordRead .pf0 32 0, .mboxWordRead .pf0 0 16, .fwactHandover [], .islandRelease 14 ⟨0, 0, 0, [], 0⟩, .releaseStall 14,
    .thermSample [] [0, 0, 0, 0], .thermSample (List.replicate 16 0) [], .keyProvision .mgt 4, .keyRevoke .mgt 4,
    .extest [] [], .samplePreload [] [], .smbOtherCommand 256, .dramRequest [] 8 0 [] .clean none, .dramRequest [] 0 2 [] .clean none,
    .agePromotion 8 0, .refresh 8, .mr4Read 8 true, .zqCalibration 8, .dqsDrift 8, .selfRefreshEntry 8, .patrolScrub 8 [],
    .regionEnable .pf0 7 0 0, .regionEnable .pf0 0 64 0, .bankZeroComplete 992, .pitch 28, .portEnable .pf0 8 0,
    .portDisable .pf0 8 0, .headCfgReconfigure .pf0 8 0, .blockLock 8 0, .blockLock 0 2].all (fun i => !i.wf) = true := by decide +kernel

/-- Every check on operands refuses a term just outside its range, continued. -/
theorem test_wf_refuses_more : [
    Instr.align 8 0 0 0 (zeroBytes 8), .align 0 2 0 0 (zeroBytes 8), .align 0 0 0 0 [], .capability 8 0 [], .capRequestTimeout 8,
    .trainTimeout 8, .lockLoss 8 0, .frameStart 8 0 [], .line 8 0 [], .frameEnd 8 0 [], .ingressDeadline 16 0 0, .exposure .pf0 8 0 0,
    .exposure .pf0 0 4 0, .ack 8 0 [], .ackTimeout 8, .controlStart .pf0 8 0 0, .controlStart .pf0 0 4 0, .controlStop .pf0 8 0 0,
    .controlStop .pf0 0 4 0, .badHeadPacket 8 0 [] true, .devCommit .pf0 16 0, .stripe 16, .contactSheetRecord 16,
    .outputFrameComplete 8, .rawcSqTail .pf0 32 0, .rawcCqHead .pf0 32 0, .compress 32, .decompress 32, .tapFrame 32,
    .negativeBlock 32, .rawcCompletion 32, .rawcQueueEnable .pf0 32 0, .rawcQueueReset .pf0 32 0, .hevcCommit .pf0 64 0,
    .hevcSessionReset .pf0 64 0, .quotaWrite .pf0 64 0, .hevcSqTail .pf0 64 0, .picture 64, .au 64, .encodeInput 64, .ctuRow 64,
    .hevcRecord 64, .surfaceEnable .pf0 256 0, .surfaceDisable .pf0 256 0, .surfaceCommit .pf0 256 0, .surfaceCommit .pf0 0 4,
    .surfaceDone 8 0, .pictureDone 64 0, .directFrameStart 8 0, .pushPass 16384, .beacon 8 0 [], .digest 8 0 [], .journal 8 0 [],
    .invalidFenmasPacket 8 0 [], .ethernetLinkChange 8 true, .groupEnable .pf0 8 0, .groupDisable .pf0 8 0, .groupOrigin 8,
    .groupBoundary 8, .sampleFrame 8 0 0 [], .clockLost 8, .rateWindow 8 0, .outputBlockLeave 8 0, .storeEnable .pf0 0 [] [(3, 8)], .storeFormat .pf0 0 [] [(3, 5)], .audioBlockDecision 8,
    .rxStreamEnable .pf0 64 0, .txStreamEnable .pf0 80 0, .mediaFrame 8 0 [], .rxFrameDeadline 64, .auDeadline 64, .txVideoFrame 8,
    .txAccessUnit 64, .txAudioPacket 8, .ptpSync 8 0 0 [], .ptpFollowUp 8 0 0 [], .ptpDelayReq 8 0 0 [], .ptpDelayResp 8 0 0 [],
    .ptpAnnounce 8 0 0 [], .ptpIgnoredMessage 8 0 0 [], .ptpSyncInterval 8 0 0, .ptpAnnounceInterval 8 0, .ptpDelayReqInterval 8 0 0,
    .announceReceiptTimeout 8, .tsqPop .pf0 8, .timerEnable .pf0 32 0, .timerFire 32, .pulseEnd 32, .memberLost 4,
    .clipSqTail .pf0 64 0, .clipCqHead .pf0 64 0, .clipQueueEnable .pf0 64 0, .clipQueueReset .pf0 64 0].all (fun i => !i.wf) = true := by
  decide +kernel

/-- The largest operands that the checks allow pass them. -/
theorem test_wf_allows : [Instr.registerWrite .pf0 16777215 15 0, .mboxWordRead .pf1 31 15, .linkTraining 5 8, .regionEnable .mgt 6 63 0,
    .align 7 1 0 0 (zeroBytes 8), .pushPass 16383, .bankZeroComplete 991].all Instr.wf = true := by decide +kernel

/-! ## States -/

/-- Every island out of reset and no reset episode. -/
def up : State :=
  { State.reset with
    isl := (List.range 13).map (fun k => (k + 1, ⟨false, true, false, 0, 0, 0, true⟩))
    sys := { State.reset.sys with episode := none } }

/-- Fields of registers set. -/
def fields (s : State) (l : List (Fld × Nat)) : State := l.foldl (fun s e => s.put e.1 e.2) s

/-- The state with an active image of some records. -/
def image (s : State) (l : List RecBody) : State :=
  { s with rig := { s.rig with active := some ⟨true, 0, 0, l.map (fun b => ⟨0, 0, b⟩)⟩ } }

/-- In `up` the masters are served and the blocks answer. -/
theorem test_up_admits : [(Master.pf0, R.HOST_ACC_BAD), (.pf1, R.MBOX_W 31 15), (.mgt, R.WALL_CTRL), (.pf0, R.CLIP_Q_SQ_TAIL 63)].all
    (fun e => up.served e.1 && (up.access e.1 e.2 == .allowed)) = true := by decide +kernel

/-! ## Hypotheses that can be met

Each theorem gives, clause by clause, values that meet the hypotheses of the statement it is named after. -/

theorem witness_IdleStep : State.reset.pending = [] := by decide

/-- A step answers a next state: the hypothesis of StepMovesQueue, MemoriesCanonicalKept and FusesOnlyGrow. -/
theorem witness_steps : MemoriesCanonical up ∧ ∃ t, step { up with pending := [.wdtTimeout] } = .next t := by
  refine ⟨?_, _, rfl⟩
  unfold MemoriesCanonical; decide +kernel

theorem witness_Mailboxes : (31 < 32 ∧ Admitted up .pf1 (R.MBOX_CLAIM 31) ∧ Admitted up .pf0 (R.MBOX_CTRL 0) ∧ 15 < 16
      ∧ Admitted up .mgt (R.MBOX_W 31 15))
    ∧ up.rd (dbPend true) < 2 ^ 32 ∧ Admitted up .pf1 (R.MBOX_DB_RING 1) ∧ Admitted up .pf0 (dbPend true) := by
  unfold Admitted; decide +kernel

theorem witness_RegisterAccess : (0x3C0000 ≤ 0x3C0008 ∧ 0x3C0008 < 0x3E0000 ∧ 0x3C0008 % 4 = 0 ∧ Admitted up .pf0 0x3C0008
      ∧ (regRow 0x3C0008).isSome = true)
    ∧ (up.served .pf1 = true ∧ 14 < 15) ∧ Admitted up .mgt R.HOST_ACC_BAD := by
  unfold Admitted; decide +kernel

theorem witness_RefusedAccesses : Violates up .pf1 R.SYS_RST_CTRL ∧ Admitted up .pf0 R.HOST_VIOL_COUNT
    ∧ (up.setIsland .vault .held).served .pf0 = true ∧ (up.setIsland .vault .held).access .pf0 0x208000 = .dead .vault := by
  unfold Violates Admitted; decide +kernel

theorem witness_ApertureAccess : 1 < 2 ∧ up.served .pf1 = true ∧ (fields up [(F.MEMC_STATUS_ready, 1)]).served .pf0 = true
    ∧ (fields up [(F.MEMC_STATUS_ready, 1)]).fld F.MEMC_STATUS_ready = 1 ∧ Admitted up .pf1 R.HOST_AP1_BASE := by
  unfold Admitted; decide +kernel

theorem witness_FunctionReset : up.runs .host = true ∧ up.runs .mgt = true
    ∧ ({ up with host := { up.host with fn1 := { up.host.fn1 with d3hot := true } } }.pcie 1).d3hot = true
    ∧ (31 < 32 ∧ mboxReceiver 16 = .pf0) ∧ doorbellTarget 63 = .pf1 := by decide +kernel

theorem witness_ConfigurationAndLink : State.reset.held .host = true ∧ up.held .host = false
    ∧ up.sys.perstN = true ∧ up.sys.tripped = false ∧ 8 ∈ [1, 2, 4, 8] := by decide +kernel

/-- A firmware activation in its hold, and in its restart. -/
def activating (starting : Bool) : State := { up with mbox := { up.mbox with fwact := some ⟨0, starting, true⟩ } }

theorem witness_FirmwareActivation : (Admitted up .pf0 R.MBOX_FWACT_CTRL ∧ up.fld F.MBOX_FWACT_STATUS_state = 0)
    ∧ ((zeroBytes 65536).length = 65536 ∧ (activating false).mbox.fwact = some ⟨0, false, true⟩)
    ∧ (activating true).mbox.fwact = some ⟨0, true, true⟩ := by
  unfold Admitted zeroBytes; exact ⟨by decide +kernel, ⟨List.length_replicate, rfl⟩, rfl⟩

theorem witness_SourceAsserts : up.sys.fuseSeqs = [] ∧ up.held .host = false ∧ up.sys.episode = none
    ∧ (fields up [(F.SYS_WDT_CTRL_enable, 1)]).fld F.SYS_WDT_CTRL_enable = 1 ∧ up.runs .mgt = true ∧ up.mbox.fwact = none
    ∧ Admitted up .pf0 R.SYS_RST_CTRL ∧ up.group 1 ≠ [] := by
  unfold Admitted; decide +kernel

theorem witness_WideResetWipes : up.sys.fuseSeqs = [] ∧ up.sys.episode = none ∧ 3000 ≤ 3000 := by decide

/-- A source in an episode of its own. -/
def episode (code : Nat) (release : Option (List Island)) : Episode := ⟨[⟨code, 5, 0, Island.releaseOrder, false, 0⟩], release⟩

/-- The state with an episode open. -/
def inEpisode (s : State) (e : Episode) : State := { s with sys := { s.sys with episode := some e } }

theorem witness_SourcesEnd : (inEpisode up (episode 3 none)).sys.linkHold = false ∧ (inEpisode up (episode 3 none)).sys.hotReset = false
    ∧ ∃ s : State, s.sys.episode = some (episode 3 none) ∧ s.sys.hotReset = true ∧ s.sys.perstN = true :=
  ⟨rfl, rfl, inEpisode { up with sys := { up.sys with hotReset := true } } (episode 3 none), rfl, rfl, rfl⟩

theorem witness_EpisodeRelease : (∀ x ∈ (episode 0 none).sources, x.asserted = false) ∧ (inEpisode State.reset (episode 0 none)).sys.tripped = false := by
  decide

theorem witness_IslandRelease : (inEpisode State.reset (episode 0 (some [.anchor]))).releaseDue [.anchor] .anchor = true
    ∧ State.reset.rig.presets = [] ∧ State.reset.startsNow .anchor = false ∧ islandOf 1 = some .anchor
    ∧ State.reset.sys.strap = false ∧ (State.reset.island .anchor).gapDone = false := by decide +kernel

theorem witness_BoardEvents : Admitted up .pf0 R.SYS_WDT_KICK
    ∧ (up.sysDown = false ∧ up.fld F.SYS_STATUS_ref_lost = 0)
    ∧ (fields up [(F.SYS_STATUS_ref_lost, 1)]).fld F.SYS_STATUS_ref_lost = 1 := by
  unfold Admitted; decide +kernel

theorem witness_ThermalSample : (List.replicate 16 (150 : Int)).length = 16 ∧ (∀ x ∈ List.replicate 16 (150 : Int), -55 ≤ x ∧ x ≤ 150)
    ∧ (150 : Int) ∈ List.replicate 16 (150 : Int) ∧ (∀ x ∈ List.replicate 16 (150 : Int), x ≤ 150) ∧ up.sysDown = false
    ∧ 60 ≤ up.fld F.SYS_THERM_CFG_warn ∧ up.fld F.SYS_THERM_CFG_warn ≤ 100
    ∧ 80 ≤ up.fld F.SYS_THERM_CFG_thr ∧ up.fld F.SYS_THERM_CFG_thr ≤ 110 := by decide +kernel

theorem witness_FusePulses : ∃ s : State, s.sys.fuseSeqs = [([.epoch, .lcState 1], .lifeCycle)] ∧ s.sys.heldOff = [] :=
  ⟨{ up with sys := { up.sys with fuseSeqs := [([.epoch, .lcState 1], .lifeCycle)] } }, rfl, rfl⟩

theorem witness_LifeCycleRequests : Admitted up .mgt R.SYS_LC_CTRL ∧ up.fld F.SYS_LC_STATUS_state ≠ 1
    ∧ (up.regWrite R.SYS_LC_CTRL (2 ^ 31 + 1)).lcRefusal 1 ≠ none
    ∧ ({ up with sys := { up.sys with lcConfirm := true } }.regWrite R.SYS_LC_CTRL (2 ^ 31 + 3)).lcRefusal 3 = none := by
  unfold Admitted; decide +kernel

theorem witness_KeySlots : 3 < 4 ∧ Admitted up .mgt R.SYS_KEY_CTRL ∧ up.fld F.SYS_KEY_CTRL_state ≠ 1 ∧ (up.sys.fuses.keys[3]?).isSome = true
    ∧ ∃ s : State, (∃ k y, k < 4 ∧ k ≠ 3 ∧ s.sys.fuses.keys[k]? = some y ∧ y.st = 1) := by
  unfold Admitted
  exact ⟨by decide, by decide +kernel, by decide +kernel, by decide +kernel,
    { up with sys := { up.sys with fuses := { up.sys.fuses with keys := [⟨1, []⟩] } } }, 0, ⟨1, []⟩, by decide, by decide, rfl, rfl⟩

theorem witness_StoreKeyExchange : Admitted up .mgt R.SYS_CSK_CTRL ∧ up.fld F.SYS_CSK_CTRL_state ≠ 1 := by
  unfold Admitted; decide +kernel

theorem witness_ManagementPorts : up.jtag.trstN = true ∧ (List.replicate 3561 false).length = 3561 ∧ 255 < 256 :=
  ⟨by decide +kernel, List.length_replicate, by decide⟩

theorem witness_DramMaintenance : 7 < 8 ∧ up.runs .memc = true := by decide +kernel

/-- A request of a class at a channel, and a state in which it waits. -/
def request (data : Option (List Byte)) (cls : Nat) : DramReq := ⟨1, 64, 64, data, cls, 0⟩
@[inherit_doc request] def waiting (r : DramReq) : State :=
  (fields up [(F.MEMC_STATUS_ready, 1)]).setChan 7 { Channel.idle with queue := [r] }

theorem witness_DramRequests : (waiting (request (some (zeroBytes 64)) 3)).runs .memc = true
    ∧ (waiting (request none 3)).fld F.MEMC_STATUS_ready = 1 ∧ (waiting (request none 3)).jnl.ringQ = []
    ∧ pickReq ((waiting (request none 3)).chan 7).queue (subchannelOf 64) [] = some (request none 3)
    ∧ pickReq ((waiting (request (some (zeroBytes 64)) 3)).chan 7).queue (subchannelOf 64) [] = some (request (some (zeroBytes 64)) 3)
    ∧ ((request (some (zeroBytes 64)) 3).addr % 64 = 0 ∧ (zeroBytes 64).length % 64 = 0)
    ∧ (1 ≤ (request none 3).len ∧ (waiting (request none 3)).memc.poison = [])
    ∧ ((waiting (request none 3)).chan 7).queue.find? (fun q => q.id = 1) = some (request none 3) ∧ up.ageLimit 3 ≠ none := by
  decide +kernel

/-- DRAM of 8 channels and 64 GiB, ready, with self-refresh and scrubbing on. -/
def refreshing : State := fields up [(F.MEMC_CFG_channels, 3), (F.MEMC_CFG_enable, 1), (F.MEMC_STATUS_ready, 1), (F.MEMC_SR_idle_us, 1),
  (F.MEMC_SCRUB_hours, 24), (F.MEMC_CAPACITY_gib, 64)]

theorem witness_SelfRefreshAndScrub : (7 < refreshing.channels ∧ refreshing.runs .memc = true ∧ refreshing.fld F.MEMC_CFG_enable = 1
      ∧ refreshing.fld F.MEMC_SR_idle_us ≠ 0 ∧ (refreshing.chan 7).queue = [] ∧ (refreshing.chan 7).clockStopped = false)
    ∧ refreshing.fld F.MEMC_STATUS_ready = 1 ∧ refreshing.fld F.MEMC_SCRUB_hours ≠ 0 ∧ refreshing.rd R.MEMC_SCRUB_POS < 2 ^ 31
    ∧ (8191 < refreshing.chanMib ∧ mapGet 0 [(7, 8191)] 7 = 8191) ∧ (refreshing.memc.poison = [] ∧ DramIdle refreshing) := by
  refine ⟨by decide +kernel, by decide +kernel, by decide +kernel, by decide +kernel, by decide +kernel, by decide +kernel, ?_⟩
  intro c; simp [State.chan, refreshing, fields, up, State.reset, State.put, State.wr, mapGet, mapFind, Channel.idle]

/-- The last byte of the pool is readable by host-side master 6. -/
def granted : State := fields up [(F.POOL_RGN_SIZE_size 6 63, 1), (⟨R.POOL_RGN_BASE 6 63, 31, 0⟩, 0x7FFF000 + 7)]

theorem witness_PoolAccesses : (6 < 7 ∧ 134217727 < 134217728 ∧ up.held .pool = false
      ∧ up.poolReaches ⟨.hostSide 6, 134217727, .read 0, .clean⟩ = true ∧ up.poolSt.losers = [] ∧ up.poolSt.march = none
      ∧ up.rig.zeroing = [] ∧ up.rig.zeroWait = [])
    ∧ (134217720 % 8 = 0 ∧ (zeroBytes 8).length % 8 = 0)
    ∧ (∀ k, k < 1 → granted.regionGrants 6 (134217727 + k) false = true) ∧ 134217727 + 1 ≤ 134217728
    ∧ granted.poolPoisoned 134217727 1 = false ∧ granted.poolSt.poison.contains (134217727 / 8) = false := by decide +kernel

/-- A march run with borrowed segments. -/
def marching (l : List (Nat × Nat)) : MarchRun := ⟨false, 0, 0, false, 0, 1, [], l, []⟩

theorem witness_PoolTests : (Admitted up .pf0 R.POOL_MARCH_CTRL ∧ up.poolSt.march = none
      ∧ (let s := fields up [(F.POOL_MARCH_RANGE_first, 1023), (F.POOL_MARCH_RANGE_count, 1)]
        1 ≤ s.fld F.POOL_MARCH_RANGE_count ∧ s.fld F.POOL_MARCH_RANGE_first + s.fld F.POOL_MARCH_RANGE_count ≤ 1024))
    ∧ ({ up with poolSt := { up.poolSt with march := some (marching [(0, 1)]) } } : State).poolSt.march = some (marching [(0, 1)])
    ∧ ((marching [(0, 1)]).borrowed = [(0, 1)] ∧ (marching [(0, 1)]).todo = [] ∧ (marching [(0, 1), (0, 2)]).borrowed = [(0, 1), (0, 2)])
    ∧ (Admitted up .pf0 R.POOL_REPAIR_CTRL ∧ up.sys.fuses.lcState ≠ 3 ∧ up.fld F.POOL_REPAIR_STATUS_state ≠ 1
      ∧ (repairsOf [(0, [(5, 1)])] 0).filter (fun e => !(repairsOf up.sys.fuses.repairs 0).contains e) ≠ []) := by
  unfold Admitted; decide +kernel

theorem witness_RegionEnable : 6 < 7 ∧ 63 < 64 ∧ Admitted up .pf0 (R.POOL_RGN_BASE 6 63)
    ∧ granted.fld (F.POOL_RGN_BASE_enable 6 63) = 1 := by
  unfold Admitted; decide +kernel

theorem witness_ImageLoads : (Admitted up .pf0 R.RIG_LOAD_CTRL ∧ up.rig.load = none ∧ up.sys.fuses.lcState ≠ 3)
    ∧ (let s := fields up [(⟨R.RIG_LOAD_LEN, 31, 0⟩, 2097152)]
      s.rd R.RIG_LOAD_LEN % 8 = 0 ∧ 176 ≤ s.rd R.RIG_LOAD_LEN ∧ s.rd R.RIG_LOAD_LEN ≤ 2097152 ∧ s.rd R.RIG_LOAD_SRC % 8 = 0
        ∧ s.rd R.RIG_LOAD_SRC + s.rd R.RIG_LOAD_LEN ≤ 992 * bankBytes ∧ (s.slot 1).st ≠ .active ∧ (s.rig.change.map (fun c => c.slot)) ≠ some 1)
    ∧ ((⟨1, 0, 2097152⟩ : Load).src + (⟨1, 0, 2097152⟩ : Load).len ≤ 992 * bankBytes ∧ (⟨1, 0, 2097152⟩ : Load).slot < 2
      ∧ (⟨1, 0, 2097152⟩ : Load).len ≤ 2097152) := by
  unfold Admitted; decide +kernel

theorem witness_ChangeRequests : Admitted up .pf0 R.RIG_CHANGE_CTRL ∧ up.rig.change = none
    ∧ (4#32).toNat.testBit 1 = false ∧ (2#32).toNat.testBit 0 = false ∧ up.rig.busyLater = false := by
  unfold Admitted; decide +kernel

/-- A change that is applying. -/
def changing : State := { up with rig := { up.rig with change := some ⟨false, 0, 0, 0, true, 0⟩ } }

theorem witness_ChangeCompletes : (changing.rig.change = some ⟨false, 0, 0, 0, true, 0⟩ ∧ changing.oldWork 0 = false
      ∧ changing.rig.zeroing = [] ∧ changing.rig.zeroWait = [] ∧ changing.rig.stopping = [])
    ∧ (1023 < 1024 ∧ 1023 ∈ ({ changing.rig with zeroing := [1023] } : Rig).zeroing ∧ 1023 ∉ changing.rig.zeroWait ∧ changing.rig.stalled = []
      ∧ up.rig.change = none) := by
  decide +kernel

theorem witness_RunTimeClaims : Admitted up .pf0 R.RIG_CLAIM_CTRL ∧ claimNames 3 991 = true ∧ claimNames 2 31 = true
    ∧ (∀ c ∈ up.rig.claims, c.res ≠ 3 ∨ c.index ≠ 991) ∧ up.imageHolds 3 991 = false
    ∧ (image up [.pool 991 1 9 0 false]).imageHolds 3 991 = true
    ∧ (∀ c ∈ [(⟨3, 991, false⟩ : RtClaim)], c.res = 3 → c.index = 991 → c = ⟨3, 991, false⟩) := by
  unfold Admitted; decide +kernel

/-- A strand of number 5 from `src` to `dst` at port `p` that holds a token, or tokens. -/
def strandedAll (src dst p : Nat) (l : List RecBody) (toks : List Token) : State :=
  let s := image up (.strand 5 src 0 dst p 16 0 :: l)
  { s with rig := { s.rig with strands := [(5, ⟨toks, [], []⟩)] } }
@[inherit_doc strandedAll] def stranded (src dst p : Nat) (l : List RecBody) (tok : Token) : State := strandedAll src dst p l [tok]

/-- A state in which no channel holds a request has none waiting. -/
theorem dramIdle_of (s : State) (h : s.memc.chans = []) : DramIdle s := by
  intro c; simp [State.chan, h, mapGet, mapFind, Channel.idle]

theorem witness_StrandsAndCalendars : ((stranded 9 12 0 [] 4).strandEnds 5 = some (9, 12) ∧ islandOf 12 = some .wall ∧ up.runs .wall = true)
    ∧ [(9, 9), (10, 10), (26, 10), (11, 11), (27, 11), (12, 12)].all (fun e => decide ((e.1 = e.2 ∧ 9 ≤ e.2 ∧ e.2 ≤ 12) ∨ (e.1 = 26 ∧ e.2 = 10)
        ∨ (e.1 = 27 ∧ e.2 = 11)) && (calendarOf (image up [.calendar e.2 [⟨0, 1, 1⟩]]).bodies e.2)[0]? == some ⟨0, 1, 1⟩) = true := by
  decide +kernel

/-- An exposure command, and a state in which its default target waits for its entry on sensor 31. -/
def expCmd : ExpCmd := ⟨3, 0, 7, true, 0, 0, 0, 0⟩
@[inherit_doc expCmd] def expWaiting : State :=
  { (fields up [(F.HEAD_STATE_state 7, 4)]).setPort 7 { HeadPort.clear with expWaits := [(65535, expCmd)] } with
    jnl := { up.jnl with mode := 2, mask := 0x40, waits := [⟨7, 4, 31, 65535, 0⟩] } }

theorem witness_JournalControl : (Admitted up .pf0 R.RIG_JNL_CTRL ∧ up.fld F.RIG_JNL_CTRL_enable = 0 ∧ bitsOf 8 3 2 ≠ 3)
    ∧ (Admitted up .pf0 (R.RIG_JNL_INJ 7) ∧ expWaiting.jnl.mode = 2 ∧ up.jnl.waits = [] ∧ expWaiting.jnl.held.length < 4096)
    ∧ (Admitted up .pf0 R.RIG_DIG_FRAME ∧ (mapFind [(0, (⟨9, 1, false, false, false⟩ : DigestVal))]
        (256 * up.fld F.RIG_DIG_SEL_scope + up.fld F.RIG_DIG_SEL_index)).isSome = true)
    ∧ (expCmd.vs = 31 % 4 ∧ expWaiting.jnl.waits[0]? = some ⟨7, 4, 31, 65535, 0⟩ ∧ expWaiting.pointTime 7 4 31 65535 = 0
      ∧ (expWaiting.port (31 / 4)).expWaits.find? (fun w => w.1 = 65535 && w.2.vs = 31 % 4) = some (65535, expCmd)
      ∧ expWaiting.jnl.leadFrom = none ∧ expWaiting.heldEntry 7 4 31 65535 = none
      ∧ expWaiting.follows 7 0 = true ∧ expWaiting.fld (F.HEAD_STATE_state 7) = 4 ∧ expWaiting.expFull 7 = false) := by
  unfold Admitted; decide +kernel

/-- A Gypol packet (R128): type, sensor byte, tag, line, first, count and payload. -/
def headPkt (pt vs tag line first count : Nat) (payload : List Byte) : List Byte :=
  let h := leBytes 1 pt ++ leBytes 1 vs ++ beBytes 2 tag ++ beBytes 2 line ++ beBytes 2 first ++ beBytes 2 count
    ++ beBytes 2 payload.length ++ zeroBytes 3
  h ++ leBytes 1 (crc8 h) ++ payload ++ beBytes 4 (crc32c payload) ++ zeroBytes 4

/-- Port 7 in a state. -/
def port7 (st : Nat) : State := fields up [(F.HEAD_CFG_enable 7, 1), (F.HEAD_STATE_state 7, st)]

theorem witness_HeadTraining : ((Admitted up .pf0 (R.HEAD_CFG 7) ∧ up.fld (F.HEAD_CFG_enable 7) = 0)
      ∧ (port7 4).fld (F.HEAD_CFG_enable 7) = 1 ∧ (∀ v, v < 4 → (port7 4).sensorFrames ((port7 4).primary 7) v = []))
    ∧ (up.runs .head = true ∧ (port7 1).fld (F.HEAD_STATE_state 7) = 1 ∧ (port7 2).fld (F.HEAD_STATE_state 7) = 2
      ∧ alignValid 1 [0x4B, 0x10, 0, 1, 0xB4, 0xEF, 0xFF, 0xFE] = true ∧ (16384 ≤ 16384 ∧ 128 ≤ 128)
      ∧ (leAt [0x4B, 0x10, 0, 1, 0xB4, 0xEF, 0xFF, 0xFE] 2 1 = (port7 2).fld (F.HEAD_CFG_member 7)
        ∧ leAt [0x4B, 0x10, 0, 1, 0xB4, 0xEF, 0xFF, 0xFE] 3 1 = (port7 2).fld (F.HEAD_CFG_members 7) + 1)
      ∧ (port7 3).fld (F.HEAD_STATE_state 7) = 3 ∧ ((port7 3).port 7).cap = none
      ∧ (port7 5).fld (F.HEAD_STATE_state 7) ∈ [1, 2, 3, 5] ∧ (port7 4).fld (F.HEAD_STATE_state 7) ∈ [2, 3, 4, 5]
      ∧ (let s := fields (port7 1) [(F.HEAD_STATE_lock1 7, 1)]
        s.fld (F.HEAD_STATE_state 7) = 1 ∧ s.fld (F.HEAD_STATE_lock1 7) = 1 ∧ s.sensorFrames (s.primary 7) 3 = []))
    ∧ ((port7 3).sensorPorts 7 = [7] ∧ Received (port7 3) 7 4 (headPkt 4 0 0 0 0 0 (zeroBytes 192)) (zeroBytes 192))
    ∧ crc8 ((zeroBytes 16).take 15) = beAt (zeroBytes 16) 15 1 ∧ crc8 ((1#8 :: zeroBytes 15).take 15) ≠ beAt (1#8 :: zeroBytes 15) 15 1 := by
  unfold Admitted Received; decide +kernel

/-- A generation of context 0 with lines of 4 photosites, 2 lines and `run`. -/
def gen0 : DevGen := ⟨1, [(R.DEV_CTX_SIZE 0, BitVec.ofNat 32 (putBits (putBits 0 (F.DEV_CTX_SIZE_width 0).hi (F.DEV_CTX_SIZE_width 0).lo 4)
    (F.DEV_CTX_SIZE_height 0).hi (F.DEV_CTX_SIZE_height 0).lo 2)),
  (R.DEV_CTX_FMT 0, BitVec.ofNat 32 (putBits 0 (F.DEV_CTX_FMT_run 0).hi (F.DEV_CTX_FMT_run 0).lo 1))], []⟩

/-- A frame of context 0 on port 7 with some lines received. -/
def camFrame (got : SMap Nat) (isOpen : Bool) : CamFrame := {
  tag := 9, port := 7, vs := 0, ports := [7], sof := 0, fs := ⟨4, 2, 10, 0, false, 0, 0, 0, []⟩, intake := gen0, gen := gen0
  bound := true, taken := true, allPad := false, link := some (5, 16), flags := 0, got := got, ended := [], linesSent := none
  stopped := 0, isOpen := isOpen, lines := 0, banks := [3], stride := 64, cap := 2048, base := 0, held := got.map (fun e => e.1)
  setTag := 9, predicted := true, excluded := false, replayed := false, override := false, stripes := 0, grid := none, dmap := []
  dodge := none, tone := none, lut := none, gPrev := [], devLines := [], fusedLines := [], stats := none, tapLink := none
  outs := [], finished := false, recorded := false }

/-- Port 7 READY and sensor 0 of it mapped to context 0, with frames. -/
def filming (l : List CamFrame) : State :=
  (fields (image (port7 4) [.boundary 1 0 1000, .shape 9 0 1 64 64 0 0]) [(F.HEAD_VS_MAP_enable 7 0, 1)]).setCtx 0 { DevCtx.clear with active := gen0, frames := l }

theorem witness_HeadFrames_start : Leads (filming []) ∧ Received (filming []) 7 1 (headPkt 1 0 9 0 0 0 (zeroBytes 32)) (zeroBytes 32)
    ∧ (filming []).fld (F.HEAD_STATE_state 7) = 4 ∧ (filming []).primary 7 = 7 ∧ (filming []).sensorOn 7 0 = true
    ∧ (filming []).sensorFrames 7 0 = [] ∧ (filming []).openFrame 0 9 = none ∧ ((filming []).ctx 0).frames = []
    ∧ ((filming []).ctx 0).pend = [] ∧ declRun ((filming []).ctx 0).active 0 = true ∧ 9 ∉ ((filming []).sensor 7 0).dropped
    ∧ ((filming []).shape 9 0).isSome = true ∧ .head ∉ (filming []).rig.stopping := by
  unfold Leads Received; decide +kernel

/-- A frame with its first line, with both lines. -/
def oneLine : CamFrame := camFrame [(0, 4)] true
@[inherit_doc oneLine] def twoLines : CamFrame := camFrame [(0, 4), (1, 4)] true

theorem witness_HeadFrames_line : Leads (filming [oneLine])
    ∧ Received (filming [oneLine]) 7 2 (headPkt 2 0 9 1 0 4 (zeroBytes 8)) (zeroBytes 8)
    ∧ ((filming [oneLine]).packetFrame 7 0 9 = some (0, oneLine) ∧ (filming [oneLine]).openFrame 0 9 = some oneLine)
    ∧ (declW oneLine.intake 0 = 4 ∧ 1 < declH oneLine.intake 0 ∧ (∀ l, l < 1 → oneLine.count l = 4) ∧ oneLine.count 1 = 0)
    ∧ (7 ∈ oneLine.ports ∧ oneLine.stopped = 0 ∧ oneLine.linesSent = none)
    ∧ (oneLine.link ≠ none ∧ 1 ∉ oneLine.held ∧ (filming [oneLine]).slotBusy 0 oneLine 1 = false ∧ oneLine.flags.testBit 6 = false
      ∧ oneLine.slotPos 1 % bankBytes + 2 * 4 ≤ bankBytes ∧ (filming [oneLine]).rig.zeroing = [] ∧ (filming [oneLine]).rig.zeroWait = []) := by
  unfold Leads Received; decide +kernel

theorem witness_HeadFrames_end : Leads (filming [twoLines])
    ∧ Received (filming [twoLines]) 7 3 (headPkt 3 0 9 0 0 0 (0#8 :: 2#8 :: zeroBytes 6)) (0#8 :: 2#8 :: zeroBytes 6)
    ∧ ((filming [twoLines]).packetFrame 7 0 9 = some (0, twoLines) ∧ twoLines.accepted 0 = declH twoLines.intake 0
      ∧ ((filming [twoLines]).ctx 0).frames.filter (fun g => g.isOpen && g.tag = 9) = [twoLines]
      ∧ twoLines.linesSent.getD (beAt (0#8 :: 2#8 :: zeroBytes 6) 0 2) = declH twoLines.intake 0
      ∧ (∀ q ∈ twoLines.ports, q = 7 ∨ q ∈ twoLines.ended) ∧ twoLines.stopped = 0)
    ∧ ((filming [camFrame [] true]).boundary 1 0 = some 1000
      ∧ ((filming [camFrame [] true]).ctx 0).frames.filter (fun g => g.isOpen && g.tag = 9) = [camFrame [] true]) := by
  unfold Leads Received; decide +kernel

/-- Port 7 with its last command sent. -/
def sentOn7 : State := (port7 4).setPort 7 { HeadPort.clear with
  sent := some (⟨3, 5, 0, false, 0, 0, 0, 0⟩, 4), latest := [(3, ⟨3, 5, 0, false, 0, 0, 0, 0⟩)] }

theorem witness_HeadCommands : (3 < 4 ∧ Admitted (port7 4) .pf0 (R.HEAD_VS_EXP_CTRL 7 3) ∧ (port7 4).sensorUnused 7 3 = false
      ∧ (0x10000#32).toNat.testBit 16 = true ∧ (port7 4).expFull 7 = false ∧ ((port7 4).port 7).sent = none ∧ ((port7 4).port 7).queue = []
      ∧ up.fld (F.HEAD_STATE_state 7) ≠ 4 ∧ up.sensorUnused 7 3 = false)
    ∧ (Received sentOn7 7 5 (headPkt 5 0 0 0 0 0 ([0, 5, 2] ++ zeroBytes 5)) ([0, 5, 2] ++ zeroBytes 5)
      ∧ sentOn7.fld (F.HEAD_STATE_state 7) = 4 ∧ (sentOn7.port 7).sent ≠ none ∧ sentOn7.expFull 7 = false
      ∧ mapFind (sentOn7.port 7).latest 3 = some ⟨3, 5, 0, false, 0, 0, 0, 0⟩
      ∧ (sentOn7.port 7).queue = [] ∧ beAt ([0, 5, 2] ++ zeroBytes 5) 0 2 = 5 ∧ beAt ([0, 5, 2] ++ zeroBytes 5) 2 1 ≤ 2)
    ∧ sentOn7.held .head = false ∧ Admitted (port7 4) .pf0 (R.HEAD_VS_MAP 7 3) := by
  unfold Admitted Received; decide +kernel

theorem witness_DeveloperCommits : 15 < 16 ∧ Admitted up .pf0 (R.DEV_CTX_CTRL 15) ∧ (image up [.shape 9 15 1 64 64 0 0]).shape 9 15 ≠ none
    ∧ (up.ctx 15).frames = [] ∧ (∀ f ∈ ((filming [oneLine]).ctx 0).frames, f.bound = true) := by
  unfold Admitted; decide +kernel

theorem witness_DeveloperWork : (let f := camFrame [(0, 4), (1, 4)] false
      (filming [f]).runs .dev = true ∧ ((filming [f]).ctx 0).frames = [] ++ f :: [] ∧ f.link.isSome = true ∧ f.developed 0 = false
        ∧ (filming [f]).stripeReady 0 f = true ∧ (filming [f]).senderBlocked .dev (fun _ => true) = false ∧ 0 < declH f.gen 0)
    ∧ (let f : CamFrame := { camFrame [] false with finished := true, stats := some Contact.clear, outs := [⟨7, 0, [], [], none, 0, [], 0, false⟩] }
      ((filming [f]).ctx 0).frames.find? (fun f => f.stats.isSome && !f.recorded) = some f ∧ f.finished = true
        ∧ (List.range 16).findSome? (fun i => (((filming [f]).ctx i).frames.find? (fun g => g.finished && g.outs.any (fun o =>
            o.stream = 7 && !o.complete))).map (fun g => (i, g))) = some (0, f)
        ∧ (f.outs.find? (fun o => o.stream = 7)).isSome = true ∧ DramIdle (filming [])) := by
  refine ⟨by decide +kernel, by decide +kernel, by decide +kernel, by decide +kernel, by decide +kernel, ?_⟩
  intro c; simp [State.chan, filming, port7, image, fields, up, State.setCtx, State.reset, State.put, State.wr, mapGet, mapFind, Channel.idle]

/-- RAWC queue 31 enabled with one descriptor submitted. -/
def rawQueued : State := fields (image up [.shape 10 31 1 64 64 1 0]) [(F.RAWC_Q_CTRL_enable 31, 1), (F.RAWC_Q_SQ_TAIL_index 31, 1)]

/-- A job of a queue with one block. -/
def rawJob (status : Option Nat) (decode : Bool) : RawJob := {
  decode := decode, tap := false, irq := true, id := 1, width := 8, height := 8, bits := 10, cfa := 0, tag := 0, gen := 0, fflags := 0
  lines := 8, src := 0, srcPitch := 16, dst := 0, limit := 4096, dstPitch := 0, first := 0, count := 1, slot := 0, next := 0
  written := [], place := 0, entries := [], consumed := 0, firstBad := 0, bad := 0, status := status, ended := true, cut := false
  marks := ⟨false, false, false⟩ }

/-- Queue 31 with that job. -/
def rawWorking (status : Option Nat) (decode : Bool) : State := rawQueued.setRawq 31 ⟨some (rawJob status decode), 0, false, []⟩

theorem witness_RawQueues : (31 < 32 ∧ Admitted rawQueued .pf1 (R.RAWC_Q_SQ_TAIL 31) ∧ rawQueued.fld (F.RAWC_Q_STATUS_resetting 31) = 0
      ∧ Admitted rawQueued .pf1 (R.RAWC_Q_CQ_HEAD 31) ∧ Admitted rawQueued .pf1 (R.RAWC_Q_CTRL 31) ∧ (rawQueued.rawShape 31).isSome = true
      ∧ (rawQueued.rawq 31).job = none)
    ∧ (Admitted (rawWorking none false) .pf1 (R.RAWC_Q_CTRL 31) ∧ ((rawWorking none false).rawq 31).job ≠ none) := by
  unfold Admitted; decide +kernel

theorem witness_RawJobs : ((rawQueued.rawShape 31).map (fun h => h.tap) = some false ∧ rawQueued.rawTakes 31 = true ∧ DramIdle rawQueued)
    ∧ (let s := stranded 9 10 0 [.shape 10 31 1 64 64 128 0] 1
      s.tapStrand 31 = some 5 ∧ s.strandStream 5 = [1] ∧ s.runs .rawc = true ∧ (s.rawq 31).job = none ∧ (s.rawq 31).ignoring = false
        ∧ tokenField 1 7 0 = 1)
    ∧ [false, true].all (fun d =>
        let s1 := (rawWorking none d).rawIntake 31
        (s1.rawq 31).job == some (rawJob none d) && s1.rawReady 31 d) = true
    ∧ [0, 3, 6].all (fun st =>
        let s := rawWorking (some st) false
        ((s.rawIntake 31).rawq 31).job == some (rawJob (some st) false) && (rawJob (some st) false).ended && s.runs .rawc
          && s.fld (F.RAWC_Q_STATUS_resetting 31) == 0) = true := by
  exact ⟨⟨by decide +kernel, by decide +kernel, dramIdle_of _ (by decide +kernel)⟩, by decide +kernel, by decide +kernel, by decide +kernel⟩

theorem witness_CodingSessions : (let s := image up [.shape 11 63 1 64 64 0 0]
      63 < 64 ∧ (s.shape 11 63).isSome = true ∧ Admitted s .pf0 (R.HEVC_SES_CTRL 63) ∧ bitsOf (1#32).toNat 1 1 = 0
        ∧ bitsOf (2#32).toNat 0 0 = 0 ∧ (s.ses 63).hold = none ∧ (s.ses 63).busy = false ∧ Admitted s .pf0 R.HEVC_POOL_CTRL
        ∧ Admitted s .pf0 (R.HEVC_SES_QUOTA 63) ∧ Admitted s .pf1 (R.HEVC_SES_SQ_TAIL 63) ∧ s.fld (F.HEVC_SES_STATUS_resetting 63) = 0)
    ∧ up.anyRuns = false := by
  unfold Admitted; decide +kernel

/-- A generation of session 63 that runs. -/
def runningGen : HevcGen := ⟨1, [(R.HEVC_SES_MODE 63, BitVec.ofNat 32 (putBits 0 (F.HEVC_SES_MODE_run 63).hi (F.HEVC_SES_MODE_run 63).lo 1))]⟩

/-- Session 63 running with one descriptor submitted. -/
def coding (s : State) : State :=
  (fields s [(F.HEVC_POOL_CTRL_enable, 1), (F.HEVC_SES_SQ_TAIL_index 63, 1)]).setSes 63 { HevcSes.clear with active := runningGen }

/-- A frame from memory, a picture of it in progress, and a record. -/
def picture0 : HevcPic := {
  inp := ⟨false, 4, 8, 8, 0, 1, true, 0, 4096, [], 0, false, 0, false, ⟨false, false, false⟩⟩, gen := runningGen, num := 0, idr := true
  lines := [], ended := true, buf := none, done := 0, rows := [], qp := 30, used := 0, filling := false, raised := false
  missing := false, marks := ⟨false, false, false⟩ }
@[inherit_doc picture0] def record0 : HevcRec := ⟨1, 0, 1, 0, 0, 30, runningGen, true, 0, 0, none, none, ⟨false, false, false⟩⟩

/-- Session 63 with a picture in progress and a buffer for it, or with records. -/
def coding2 (p : Option HevcPic) (l : List HevcRec) : State :=
  (fields (coding (image up [.shape 11 63 1 64 64 0 0])) [(F.HEVC_POOL_COUNT_count, 1), (F.HEVC_SES_QUOTA_quota 63, 1)]).setSes 63
    { HevcSes.clear with active := runningGen, pic := p, recs := l }

theorem witness_PicturesAndUnits : (let s := coding (image up [.shape 11 63 1 64 64 0 0])
      (s.sesShape 63).map (fun h => (h.byStrand, h.decodes)) = some (false, false) ∧ s.sesDescriptor 63 = true ∧ Leads s
        ∧ genRuns (s.ses 63).nextBank 63 = true ∧ DramIdle s)
    ∧ (let s := coding (stranded 9 11 63 [.shape 11 63 1 64 64 8 0] 1)
      (s.sesShape 63).isSome = true ∧ s.sesStrand 63 false = some 5 ∧ s.strandStream 5 = [1] ∧ s.sesTakes 63 = true ∧ tokenField 1 7 0 = 1
        ∧ s.fld (F.HEVC_SES_STATUS_resetting 63) = 0 ∧ Leads s)
    ∧ (let s1 := (coding2 (some picture0) []).hevcIntake 63
      (s1.sesShape 63).map (fun h => h.decodes) = some false ∧ (s1.ses 63).pic = some picture0 ∧ s1.rowReady 63 false = true)
    ∧ (let s := coding2 none [record0]
      (s.ses 63).recs = record0 :: [] ∧ s.runs .hevc = true ∧ s.senderBlocked .hevc (fun p => p = 63) = false
        ∧ s.fld (F.HEVC_SES_STATUS_resetting 63) = 0 ∧ DramIdle s) := by
  unfold Leads
  exact ⟨⟨by decide +kernel, by decide +kernel, by decide +kernel, by decide +kernel, dramIdle_of _ (by decide +kernel)⟩, by decide +kernel,
    by decide +kernel, by decide +kernel, by decide +kernel, by decide +kernel, by decide +kernel, dramIdle_of _ (by decide +kernel)⟩

/-- A mode of the wall with an origin. -/
def wallMode : WallMode := { WallMode.ref with gen := 1, orgSec := 1 }

theorem witness_WallControl : (Admitted up .pf0 R.WALL_CTRL ∧ Admitted changing .pf0 R.WALL_CTRL ∧ changing.rig.change ≠ none
      ∧ up.rig.change = none ∧ up.fld F.WALL_CTRL_enable = 0
      ∧ (fields up [(F.WALL_CTRL_enable, 1)]).fld F.WALL_CTRL_enable = 1) ∧ Admitted up .pf0 R.WALL_MODE_CTRL
    ∧ (let c : FrameClock := { up.fclk with change := some wallMode, wall := true, decided := true, next := 120000 }
      wallMode.orgSec * 1000000000 ≤ c.mode.present c.next ∧ wallMode ≠ c.mode)
    ∧ (Admitted up .pf0 R.WALL_COMMIT_CTRL ∧ WallSettled up ∧ up.wall.commits.length < 4
      ∧ (let s := fields (image up [.shape 12 16383 1 64 64 0 0]) [(F.WALL_COMMIT_RANGE_first, 16383), (F.WALL_COMMIT_RANGE_count, 1)]
        1 ≤ s.fld F.WALL_COMMIT_RANGE_count ∧ s.fld F.WALL_COMMIT_RANGE_first + s.fld F.WALL_COMMIT_RANGE_count ≤ 16384
          ∧ s.shape 12 16383 ≠ none ∧ ∀ l, l < 64 → s.layerOk (layerOf (s.snap 0xC8000 0xC8400) l) = true)) := by
  unfold Admitted WallSettled; decide +kernel

/-- Surface 255 enabled with a feed and a source. -/
def surfaced (s : State) (feed src : Nat) : State :=
  { fields s [(F.WALL_SURF_CFG_enable 255, 1), (F.WALL_SURF_CFG_feed 255, feed), (F.WALL_SURF_CFG_src 255, src), (F.WALL_SURF_STATUS_idle 255, 0)] with
    wall := { s.wall with surfs := [(255, Surface.clear)] } }

/-- A token that arrives at WALL's port `p` for surface 255. -/
def arriving (feed src p : Nat) (tok : Token) : State := surfaced (stranded 9 12 p [] tok) feed src

theorem witness_SurfaceGenerations : (Admitted up .pf0 (R.WALL_SURF_CFG 255) ∧ (fields up [(F.WALL_SURF_STATUS_idle 255, 1)]).surfLive 255 = false
      ∧ (surfaced up 0 0).surfLive 255 = true ∧ (surfaced up 0 0).rd (R.WALL_SURF_CFG 255) % 2 = 1 ∧ WallSettled (surfaced up 0 0))
    ∧ (Admitted up .pf0 (R.WALL_SURF_COMMIT 255) ∧ (surfaced up 0 0).fld (F.WALL_SURF_CFG_enable 255) = 1 ∧ (surfaced up 0 0).feed 255 = 0)
    ∧ ((arriving 1 7 7 4).directOf 7 = [] ∧ (arriving 4 7 7 1).directOf 7 = [255])
    ∧ [(1, 7, 7, 4), (2, 63, 71, 8), (3, 63, 72, 9 + 63 * 256), (4, 7, 7, 1)].all (fun e =>
        let s := arriving e.1 e.2.1 e.2.2.1 (BitVec.ofNat 256 e.2.2.2)
        s.runs .wall && s.strandTo .wall e.2.2.1 == some (5, 16) && s.strandStream 5 == [BitVec.ofNat 256 e.2.2.2]
          && s.fld (F.WALL_SURF_CFG_enable 255) == 1 && (e.1 == 4 || (s.surfsOf e.1 e.2.1).count 255 == 1)
          && (e.1 != 4 || (s.directOf e.2.2.1).count 255 == 1) && s.fclk.frames == []) = true
    ∧ (tokenField (BitVec.ofNat 256 (9 + 63 * 256)) 15 8 = 63 ∧ tokenField 8 7 0 = 8) := by
  unfold Admitted WallSettled; decide +kernel

/-- A pass of context 16383 with one block fetched, and a wall frame. -/
def pass0 : Pass := ⟨16383, some ⟨1, [], []⟩, 0, [], false, some [⟨63, [], false⟩]⟩
@[inherit_doc pass0] def wallFrame (passes : List Pass) (due : Bool) : WallFrame := {
  num := 0, latch := 0, deadline := 1, present := 2, modeGen := 0, wall := true, sends := true, binds := [], fresh := [], openSurf := []
  openTile := [], sealed := true, passes := passes, count := 0, digest := 0, pushed := 0, marks := ⟨false, false, false⟩, due := due
  lit := false, complete := false, presented := false, pkts := [] }

/-- A state with outstanding wall frames. -/
def walled (l : List WallFrame) : State := { up with fclk := { up.fclk with frames := l } }

theorem witness_WallFrames : (up.held .anchor = false ∧ up.rig.change = none ∧ up.fclk.change = none
      ∧ up.modeWaits up.nextFrame up.nextLatch = false ∧ Leads up ∧ up.jnl.waits = [] ∧ DramIdle up)
    ∧ ((walled [wallFrame [pass0] false]).fclk.frames.find? (fun g => !g.due) = some (wallFrame [pass0] false)
      ∧ (walled [wallFrame [pass0] false]).fclk.frames.find? (fun g => g.latch = 0) = some (wallFrame [pass0] false)
      ∧ Leads (walled [wallFrame [pass0] false]) ∧ DramIdle (walled [wallFrame [pass0] false]))
    ∧ (walled [wallFrame [] true]).fclk.frames.find? (fun g => g.due && !g.lit) = some (wallFrame [] true)
    ∧ (16383 < 16384 ∧ (walled [wallFrame [pass0] true]).runs .wall = true
      ∧ (walled [wallFrame [pass0] true]).nextPass 16383 = some (wallFrame [pass0] true, pass0) ∧ pass0.gen = some ⟨1, [], []⟩
      ∧ passBound (wallFrame [pass0] true) ⟨1, [], []⟩ = true ∧ pass0.pix.isSome = true ∧ pass0.fillOf 63 = none
      ∧ (wallFrame [pass0] true).wall = true ∧ (wallFrame [pass0] true).complete = false ∧ (∀ q ∈ (wallFrame [pass0] true).passes, q.ctx = 16383)
      ∧ (walled [wallFrame [pass0] true]).fclk.frames.find? (fun h => h.latch = 0) = some (wallFrame [pass0] true))
    ∧ ((walled [wallFrame [] true]).fclk.frames.find? (fun g => g.wall && !g.presented) = some (wallFrame [] true)
      ∧ (wallFrame [] true).due = true ∧ (wallFrame [] true).passes = [] ∧ (wallFrame [] true).sends = true) := by
  unfold Leads
  exact ⟨⟨by decide +kernel, by decide +kernel, by decide +kernel, by decide +kernel, by decide +kernel, by decide +kernel,
      dramIdle_of _ (by decide +kernel)⟩, ⟨by decide +kernel, by decide +kernel, by decide +kernel, dramIdle_of _ (by decide +kernel)⟩,
    by decide +kernel, by decide +kernel, by decide +kernel⟩

/-- Fenmas on, as second, on port 0 whose link is up, following a journal. -/
def fenmas : State := fields { up with jnl := { up.jnl with mode := 1 } } [(F.FEN_CFG_enable, 1), (F.FEN_BELAY_STATUS_role, 2), (F.FEN_PORTS_rx_ports, 1), (F.NET_PHY_CFG_enable 0, 1),
  (F.NET_PHY_CFG_link_a 0, 1), (F.FEN_ETYPE_etype, 0x88B5), (F.FEN_ADDR_unit, 1),
  (F.FEN_BELAY_MAC_LO_mac_lo, 0), (F.FEN_BELAY_MAC_HI_mac_hi, 0), (F.FEN_FOLLOW_src_unit, 0)]

/-- An Ethernet frame with its check sequence. -/
def ether (etype : Nat) (payload : List Byte) : List Byte :=
  let l := zeroBytes 12 ++ beBytes 2 etype ++ payload
  l ++ frameCheck l

/-- A Fenmas packet (R353): type, unit and pair, and the bytes after its header. -/
def fenPkt (ty unit pair : Nat) (body : List Byte) : List Byte :=
  [1] ++ leBytes 1 ty ++ zeroBytes 10 ++ leBytes 1 unit ++ leBytes 1 pair ++ zeroBytes 2 ++ body

/-- What a frame is to `fenmas` in a role: a packet of a type, unit and pair, of its wall, that `q` holds of. -/
def seenAs (role ty unit pair : Nat) (body : List Byte) (q : State → FenRx → Bool) : Bool :=
  let s := fields fenmas [(F.FEN_BELAY_STATUS_role, role)]
  match s.fenSeen 0 (ether 0x88B5 (fenPkt ty unit pair body)) with
  | .packet p => p.ftype = ty && p.unit = unit && p.pair = pair && p.wall = s.fld F.FEN_ADDR_wall_id && s.fenRole = role && q s p
  | _ => false

theorem witness_FenmasCommands : (Admitted fenmas .pf0 R.FEN_CFG ∧ fenmas.fld F.FEN_CFG_enable = 1)
    ∧ (Admitted up .pf0 R.FEN_CFG ∧ up.fld F.FEN_CFG_enable = 0) ∧ Admitted up .pf0 R.FEN_BELAY_CTRL
    ∧ (Admitted up .pf0 R.FEN_CAL_CTRL ∧ bitsOf (0x80000000#32).toNat 31 31 = 1)
    ∧ (fenmas.fld F.FEN_ADDR_unit = 1 ∧ fenmas.fld F.FEN_ADDR_pair = 0
      ∧ seenAs 2 5 0 0 (1#8 :: zeroBytes 47) (fun s p => beAt p.bytes 16 1 = 1 && !laterThan 32 s.fenEpoch p.epoch)
      ∧ seenAs 1 5 0 0 (1#8 :: zeroBytes 47) (fun s p => beats (p.epoch, 0) (s.fenEpoch, 1) && s.fen.demote.isNone)
      ∧ seenAs 1 5 2 0 (1#8 :: zeroBytes 47) (fun s p => beats (s.fenEpoch, 1) (p.epoch, 2) && !beats (p.epoch, 2) (s.fenEpoch, 1))
      ∧ seenAs 2 5 0 255 (1#8 :: zeroBytes 47) (fun s _ => s.fen.claims == []) ∧ seenAs 2 5 1 0 (2#8 :: zeroBytes 47) (fun _ _ => true))
    ∧ (seenAs 2 6 0 0 (zeroBytes 48) (fun s p => beAt p.bytes 24 1 % 2 = 0 && s.fen.digs == [] && s.fen.peerDigs == [])
      ∧ ([⟨0, 0, false⟩] : List WallDig).find? (fun d => d.frame = 0) = some ⟨0, 0, false⟩)
    ∧ (seenAs 2 7 0 0 (1#8 :: zeroBytes 47) (fun s p => beAt p.bytes 16 1 = 1 && s.jnl.mode = 1 && s.followSource == some (0, 0)
        && !laterThan 32 s.fenEpoch p.epoch && s.jnl.waits == [] && s.sourceCheck.fen.lastSeq == none))
    ∧ fenmas.fenSeen 0 (ether 0x88B5 (zeroBytes 48)) = .invalid ∧ up.jnl.forwardQ.length < 16 := by
  unfold Admitted; decide +kernel

/-- Receive stream 63 enabled on port 0 for a payload type, with surface 255 of 8 by 1 pixels fed by it. -/
def streaming : State :=
  fields (surfaced (image up [.boundary 4 63 1000, .boundary 3 0 1000]) 3 63) [(F.NET_PHY_CFG_enable 0, 1), (F.NET_PHY_CFG_link_a 0, 1), (F.NET_RX_CFG_enable 63, 1),
    (F.NET_RX_CFG_udp_port 63, 5000), (F.NET_RX_CFG_pt 63, 96), (F.NET_RX_CFG_type 63, 1), (⟨R.NET_RX_DST_IP 63, 31, 0⟩, 0x0A000001),
    (F.WALL_SURF_SIZE_width 255, 8), (F.WALL_SURF_SIZE_height 255, 1)]

/-- An RTP packet of video (R394, R396) to address 10.0.0.1, port 5000: one pgroup at the start of line 0. -/
def rtpFrame (first : Nat) : List Byte :=
  let data := beBytes 2 0 ++ beBytes 2 15 ++ beBytes 2 0 ++ beBytes 2 0 ++ zeroBytes 15
  let rtp := [0x80] ++ leBytes 1 96 ++ beBytes 2 1 ++ beBytes 4 77 ++ zeroBytes 4 ++ data
  let udp := beBytes 2 4000 ++ beBytes 2 5000 ++ beBytes 2 (8 + rtp.length) ++ zeroBytes 2 ++ rtp
  ether 0x0800 (leBytes 1 first ++ [0] ++ beBytes 2 (20 + udp.length) ++ zeroBytes 4 ++ [64, 17, 0, 0] ++ beBytes 4 0x0A000002 ++ beBytes 4 0x0A000001 ++ udp)

theorem witness_MediaStreams : (63 < 64 ∧ Admitted up .pf0 (R.NET_RX_CFG 63)) ∧ (79 < 80 ∧ Admitted up .pf0 (R.NET_TX_CFG 79))
    ∧ (streaming.runs .net = true ∧ streaming.portUp 0 = true ∧ Leads streaming)
    ∧ [ether 0x0806 (zeroBytes 46), rtpFrame 0x46, rtpFrame 0x45].all (fun f => decide (18 ≤ f.length)
        && f.drop (f.length - 4) == frameCheck (f.take (f.length - 4)) && streaming.fenSeen 0 f == .ignored && !streaming.ptpTakes 0 f) = true := by
  unfold Admitted Leads; decide +kernel

theorem witness_MediaStreams_video :
    let ip := ((rtpFrame 0x45).take ((rtpFrame 0x45).length - 4)).drop 14
    let seg := slice ip 20 (beAt ip 2 2 - 20)
    (beAt (rtpFrame 0x45) 12 2 = 0x0800 ∧ beAt ip 0 1 = 0x45 ∧ beAt ip 6 2 % 0x4000 = 0 ∧ beAt ip 2 2 ≤ ip.length ∧ beAt ip 9 1 = 17
      ∧ 40 ≤ beAt ip 2 2 ∧ beAt seg 4 2 = seg.length ∧ beAt seg 6 2 = 0 ∧ beAt seg 8 1 = 0x80)
    ∧ (streaming.fld (F.NET_RX_CFG_enable 63) = 1 ∧ streaming.fld (F.NET_RX_CFG_port 63) = 0 ∧ streaming.rd (R.NET_RX_DST_IP 63) = beAt ip 16 4
      ∧ streaming.fld (F.NET_RX_CFG_udp_port 63) = beAt seg 2 2 ∧ streaming.rd (R.NET_RX_SRC_IP 63) = 0
      ∧ ∀ q, q < 63 → streaming.fld (F.NET_RX_CFG_enable q) = 0)
    ∧ (beAt seg 9 1 = streaming.fld (F.NET_RX_CFG_pt 63) ∧ streaming.fld (F.NET_RX_CFG_type 63) = 1 ∧ streaming.surfsOf 3 63 = [255]
      ∧ (streaming.rx 63).vids = [] ∧ beAt seg 12 4 ∉ (streaming.rx 63).closed
      ∧ (videoPieces (streaming.fld (F.WALL_SURF_CFG_fmt 255)) (streaming.surfW 255) (streaming.surfH 255) (seg.drop 20)).isSome = true) := by
  decide +kernel

/-- A group of one serial audio port or of receive stream 63, at its first block. -/
def audGroup (net : Bool) (members : List Nat) (output : Bool := false) : AudGroup :=
  ⟨net, output, 48000, 1000000, members, [2], 1000000000, 1, 1, false, 0, [], [⟨0, 0, 0⟩], []⟩

/-- Group 7 running, with serial port 7 or receive stream 63 in it. -/
def playing (x : AudGroup) : State := (fields up [(F.AUD_SAP_CFG_group 7, 7), (F.AUD_SAP_CFG_slots 7, 1), (F.NET_RX_CFG_enable 63, 1),
  (F.NET_RX_CFG_type 63, 3), (F.NET_RX_CFG_member 63, 1), (F.NET_RX_MEDIA_group 63, 7), (F.NET_TX_CFG_enable 79, 1),
  (F.NET_TX_MEDIA_A_group 7, 7)]).setGrp 7 x

/-- A whole frame of two slots of 32 bits in format 0 (R421). -/
def sapLine : List SapPeriod := List.replicate 32 ⟨false, true, false, true⟩ ++ List.replicate 32 ⟨true, false, true, false⟩
  ++ [⟨false, false, false, false⟩]

/-- Receive stream 63 with open video frames and access units. -/
def receiving (vids : List VidFrame) (units : List RtpUnit) : State := streaming.setRx 63 ⟨1, vids, units, []⟩

theorem witness_MediaDecisions : (let f : VidFrame := ⟨0, 77, 5, [], false, false, false⟩
      let s := receiving [f] []
      Leads s ∧ s.surfsOf 3 63 = 255 :: [] ∧ (s.rx 63).vids.find? (fun g => !g.due) = some f ∧ (∀ g ∈ (s.rx 63).vids, g.num = f.num → g = f))
    ∧ (let u : RtpUnit := ⟨77, 5, 3, 0, [], false, none, ⟨false, false, false⟩⟩
      let s := receiving [] [u]
      Leads s ∧ (s.rx 63).units.filter (fun v => v.closed.isNone && !v.due) = [] ++ u :: [] ∧ (∀ v ∈ (s.rx 63).units, v.ts = u.ts → v = u)
        ∧ (s.rx 63).units = u :: [])
    ∧ (let x := audGroup true [63]
      Leads (playing x) ∧ (playing x).rxGroup 63 = some x ∧ x.stopping = false ∧ x.reached ≤ x.next
        ∧ ((playing x).audRx 63).reached = ((playing x).audRx 63).next)
    ∧ (let s := fields (strandedAll 9 7 15 [] [1, 3]) [(F.NET_TX_CFG_enable 7, 1)]
      s.runs .net = true ∧ s.strandTo .net 15 = some (5, 16) ∧ s.strandStream 5 = 1 :: [3] ∧ s.fld (F.NET_TX_CFG_enable 7) = 1
        ∧ tokenField 1 7 0 = 1 ∧ (frontFrame 1 [3]).isSome = true)
    ∧ (let s := fields (strandedAll 11 7 79 [] [5, 6]) [(F.NET_TX_CFG_enable 71, 1)]
      s.runs .net = true ∧ s.strandTo .net 79 = some (5, 16) ∧ s.fld (F.NET_TX_CFG_enable 71) = 1 ∧ (frontUnit (s.strandStream 5)).isSome = true)
    ∧ (let x := audGroup false [7]
      let s := playing x
      s.runs .net = true ∧ s.fld (F.NET_TX_CFG_enable 79) = 1 ∧ s.grp (s.fld (F.NET_TX_MEDIA_A_group 7)) = some x ∧ (s.tx 79).origin ≠ x.origin
        ∧ (0 + 1) * packetFrames x.fs (s.bit (F.NET_TX_MEDIA_A_short 7)) ≤ 64 * x.next) := by
  unfold Leads; decide +kernel

theorem witness_AudioGroups : (7 < 8 ∧ Admitted up .pf0 (R.AUD_GRP_CFG 7))
    ∧ ((playing (audGroup false [7])).grp 7 = some (audGroup false [7]) ∧ Leads (playing (audGroup false [7]))
      ∧ (audGroup false [7]).stopping = false ∧ (audGroup false [7]).net = false ∧ (audGroup false [7]).next ≤ (audGroup false [7]).reached
      ∧ (playing { audGroup false [7] with stopping := true }).grp 7 = some { audGroup false [7] with stopping := true })
    ∧ (let s := fields up [(F.AUD_SAP_CFG_member 7, 1), (F.AUD_SAP_CFG_dir 7, 1)]
      s.runs .aud = true ∧ s.sapGroup 7 = none ∧ s.fld (F.AUD_SAP_CFG_member 7) = 1 ∧ s.fld (F.AUD_SAP_CFG_dir 7) = 1)
    ∧ [false, true].all (fun o =>
        let x := audGroup false [7] o
        let s := (playing x).setSap 7 { AudPort.clear with buf := [⟨1000000000 * 65536, [0, 0], false, 1⟩] }
        let levels := sapLine.map (s.sapLevel 7)
        s.runs .aud && s.sapGroup 7 == some (7, x) && x.output == o && decide (x.reached ≤ x.next) && !s.silent 7
          && s.fld (F.AUD_SAP_STATUS_clock_lost 7) == 0 && s.frameWhole 7 ((levels.take (levels.length - s.sapDelay 7)).map Prod.fst)) = true
    ∧ 0 < 1 ∧ ((audGroup false [7]).outs = [⟨0, 0, 0⟩] ∧ DramIdle (playing (audGroup false [7]))) := by
  unfold Admitted Leads
  exact ⟨by decide +kernel, by decide +kernel, by decide +kernel, by decide +kernel, by decide, rfl, dramIdle_of _ (by decide +kernel)⟩

theorem witness_AnchorDiscipline : Admitted up .pf0 R.ANCHOR_CTRL ∧ Admitted up .pf0 R.ANCHOR_SET_CTRL ∧ Admitted up .pf0 R.ANCHOR_NS
    ∧ (fields up [(F.ANCHOR_CTRL_src, 2)]).fld F.ANCHOR_CTRL_src = 2 ∧ (fields up [(F.ANCHOR_CTRL_src, 4)]).fld F.ANCHOR_CTRL_src = 4
    ∧ up.runs .anchor = true ∧ up.fclk.frames = [] ∧ 65535 < 65536 := by
  unfold Admitted; decide +kernel

/-- PTP on port 0 in a state, following master 77. -/
def ptp (st : Nat) : State :=
  let s := fields up [(F.NET_PHY_CFG_enable 0, 1), (F.NET_PHY_CFG_link_a 0, 1), (F.ANCHOR_PTP_CFG_enable, 1), (F.ANCHOR_PTP_PORTS_ports, 1)]
  { s.setPtpState 0 st with anchor := { s.anchor with
      parent := some (0, ⟨128, 6, 0, 0, 128, 1, 0, 0, 0, 0, 77⟩), diff := some 0
      ptp := [(0, ⟨0, 0, 0, some (5, 0, 0), some (5, 0)⟩)] } }

/-- A PTP message of a type and domain from master 77, on Ethernet. -/
def ptpFrame (ty domain : Nat) : List Byte :=
  let b := leBytes 1 ty ++ [2] ++ beBytes 2 64 ++ leBytes 1 domain ++ zeroBytes 15 ++ beBytes 10 77 ++ beBytes 2 5 ++ zeroBytes 12
    ++ beBytes 10 1 ++ zeroBytes 10
  let l := beBytes 6 0x011B19000000 ++ zeroBytes 6 ++ beBytes 2 0x88F7 ++ b
  l ++ frameCheck l

theorem witness_PtpMessages_received :
    (([(3, 0, 1), (3, 11, 0), (3, 0, 0), (3, 8, 0), (4, 1, 0), (3, 9, 0)] : List (Nat × Nat × Nat)).all (fun e =>
      match (ptp e.1).ptpMessage 0 (ptpFrame e.2.1 e.2.2) with
      | some b => (ptp e.1).runs .anchor && (ptp e.1).runs .net && decide (beAt b 0 1 % 16 = e.2.1) && decide (beAt b 0 1 / 16 = 0) && decide (b.length = 64)
          && (decide (e.2.2 = 1) || decide (beAt b 4 1 = (ptp e.1).fld F.ANCHOR_PTP_CFG_domain))
          && (e.1 = 4 || (ptp e.1).fromParent 0 b) && decide ((ptp e.1).ptpState 0 = e.1)
          && decide (((ptp e.1).ptpPort 0).sync.map (fun x => x.1) = some (beAt b 30 2)) && decide ((announceOf b).sender / 65536 ≠ 1)
      | none => false)) = true
    ∧ ((ptp 3).ptpPort 0).req = some (5, 0) ∧ (ptp 3).anchor.diff = some 0 ∧ up.clockId = up.rd (R.ANCHOR_PTP_ID 0) := by
  decide +kernel

theorem witness_PtpMessages_sent : (ptp 4).portUp 0 = true ∧ (ptp 4).ptpState 0 = 4 ∧ (ptp 2).ptpState 0 = 2
    ∧ up.anchor.parent = none ∧ (6 < 7 ∧ Admitted up .pf0 (ptpOffset 6)) := by
  unfold Admitted; decide +kernel

/-- Timer 31 owned by HOST. -/
def timed : State := fields (image up [.timer 31 5 0]) [(F.ANCHOR_TMR_STATUS_armed 31, 1), (F.ANCHOR_TMR_CTRL_periodic 31, 1)]

theorem witness_TimersAndInjection : (Admitted timed .pf0 (R.ANCHOR_TMR_CTRL 31) ∧ timed.rd (R.ANCHOR_TMR_CTRL 31) % 2 = 0 ∧ (1#32).toNat % 2 = 1
      ∧ timed.timerWritable 31 = true)
    ∧ (timed.runs .anchor = true ∧ timed.fld (F.ANCHOR_TMR_STATUS_armed 31) = 1 ∧ timed.fld (F.ANCHOR_TMR_CTRL_periodic 31) = 1
      ∧ timed.fld (F.ANCHOR_TMR_CTRL_src 31) = 0 ∧ timed.tmrTarget 31 + timed.tmrPeriod 31 < 2 ^ 64 * 1000000000 * 65536)
    ∧ [(31, 100)].find? (fun p : Nat × Nat => p.1 = 31) = some (31, 100)
    ∧ Admitted up .pf0 R.ANCHOR_TXI_CTRL ∧ ((⟨7, true, 1, []⟩ : Inject).port < 8) ∧ Admitted up .pf0 (R.ANCHOR_TSQ_ID 7) := by
  unfold Admitted; decide +kernel

/-- The clip store in a state, with member slot 3, whose controller offers power state 3. -/
def storing (st : Nat) : State :=
  let s := fields up [(F.CLIP_STORE_STATUS_state, st), (F.CLIP_PWR_idle1, 1), (F.CLIP_PWR_idle2, 1)]
  let ctl : NvmeCtl := ⟨0x10400, 1023, 8, true, [1], 4096, 0, 1, [0, 1, 2], [], [], [2], [6, 7, 12], [(3, 1500)]⟩
  { s with real := 10000000000, clip := { s.clip with order := [3], ssds := [⟨3, 4, 4, 262400, ctl, true, 0, none⟩] } }

/-- A block of command 7 in staging, of an atomic unit or alone, and the store with such blocks. -/
def block7 (atomic : Bool) (lba : Nat) : Staged := ⟨7, 63, 1, lba, none, atomic, false, true, false⟩
@[inherit_doc block7] def staging (l : List Staged) (atoms : List AtomRec) : State :=
  { storing 2 with clip := { (storing 2).clip with staged := l, atoms := atoms } }

theorem witness_ClipStoreStates : (Admitted up .pf0 R.CLIP_STORE_CTRL ∧ up.storeState = 0 ∧ Admitted (storing 3) .pf0 R.CLIP_STORE_CTRL
      ∧ (storing 3).storeState = 3 ∧ (storing 2).storeState = 2 ∧ Admitted (storing 2) .pf0 R.CLIP_STORE_CTRL)
    ∧ (3 < 4 ∧ (storing 2).memberLeaves 3 = true ∧ (storing 3).memberLeaves 3 = true ∧ (storing 2).mbox.fwact = none
      ∧ ({ storing 2 with mbox := { up.mbox with fwact := some ⟨0, false, true⟩ } } : State).memberLeaves 3 = true)
    ∧ ((storing 2).fld F.CLIP_PWR_STATUS_cs = 0 ∧ (storing 2).fld F.CLIP_PWR_idle1 ≠ 0 ∧ (storing 2).clip.cmds = []
      ∧ (storing 2).clip.lastTake + (storing 2).fld F.CLIP_PWR_idle1 * 1000000 ≤ ((storing 2).reach 0).real ∧ (storing 2).cs1Members = [(3, 3)])
    ∧ (let s := fields (image (storing 2) [.ball 0 0 0x402 0]) [(F.CLIP_PWR_STATUS_cs, 1), (F.CLIP_PWR_STATUS_bivouac_ok, 1)]
      s.storeState = 2 ∧ s.fld F.CLIP_PWR_STATUS_cs = 1 ∧ s.fld F.CLIP_PWR_idle2 ≠ 0 ∧ s.ballClaimed 0x402 = true
        ∧ s.fld F.CLIP_PWR_STATUS_bivouac_ok = 1 ∧ s.clip.cs1Since + s.fld F.CLIP_PWR_idle2 * 1000000000 ≤ (s.reach 0).real) := by
  unfold Admitted; decide +kernel

theorem witness_ClipStoreStates_drain : [(staging [block7 false 9] [], false), (staging [block7 true 9, block7 true 10] [], true),
      (staging [block7 true 9] [⟨7, 63, 1, 9, 1, true, [(9, [])]⟩], true)].all (fun e =>
        e.1.storeState == 2 && e.1.clip.order != [] && e.1.clip.cmds == [] && e.1.clip.staged.find? e.1.canDrain == some (block7 e.2 9)
          && (block7 e.2 9).data == none) = true
    ∧ (zeroBytes blockBytes).length = blockBytes
    ∧ ((staging [block7 true 9] [⟨7, 63, 1, 9, 1, true, [(9, [])]⟩]).atomOf 7).map (fun a => a.whole) = some true
    ∧ (((staging [block7 true 9, block7 true 10] []).atomOf 7).map (fun a => a.whole)) ≠ some true :=
  ⟨by decide +kernel, List.length_replicate, by decide +kernel, by decide +kernel⟩

/-- Queue 63 of the clip store enabled, with one command submitted whose opcode is `op`. -/
def clipQueued (op : Nat) : State :=
  let s := fields (storing 2) [(F.CLIP_Q_CTRL_enable 63, 1), (⟨R.CLIP_Q_SQ_TAIL 63, 15, 0⟩, 1)]
  { s with dram := memWrite s.dram 0 (leBytes 1 op) }

/-- A WRITE of queue 63 with some of its one block staged, and the store with it in progress. -/
def clipWrite (staged : Nat) (started : Bool) : ClipCmd := ⟨0, 63, 1, 0, 0, 0, 1, 0, started, staged, 0, []⟩
@[inherit_doc clipWrite] def writing (c : ClipCmd) : State := { clipQueued 1 with clip := { (clipQueued 1).clip with cmds := [c] } }

theorem witness_ClipCommands : (63 < 64 ∧ Admitted up .pf1 (R.CLIP_Q_SQ_TAIL 63) ∧ Admitted up .pf1 (R.CLIP_Q_CQ_HEAD 63)
      ∧ Admitted up .pf1 (R.CLIP_Q_CTRL 63))
    ∧ ((fields up [(F.CLIP_Q_STATUS_resetting 63, 1)]).fld (F.CLIP_Q_STATUS_resetting 63) = 1 ∧ up.fld (F.CLIP_Q_STATUS_resetting 63) = 0
      ∧ up.clip.cmds = [] ∧ up.sqPending 63 = 0)
    ∧ ([0, 1, 2, 3, 4, 5, 6, 255].all (fun op => (clipQueued op).storeTakes && (clipQueued op).nextQueue == some 63
        && leAt ((clipQueued op).headEntry 63).1 0 1 == op) = true ∧ up.storeTakes = false ∧ (storing 2).nextQueue = none)
    ∧ ((writing (clipWrite 1 true)).clip.cmds[0]? = some (clipWrite 1 true) ∧ (writing (clipWrite 1 true)).canFinish (clipWrite 1 true) [] = true
      ∧ (writing (clipWrite 0 true)).canFinish (clipWrite 0 true) [] = false
      ∧ (writing (clipWrite 1 true)).fld (F.CLIP_Q_STATUS_resetting 63) = 0
      ∧ (writing (clipWrite 1 true)).cqUsed 63 < (writing (clipWrite 1 true)).ringEntries 63) := by
  unfold Admitted; decide +kernel

theorem witness_DramIdle : DramIdle (clipQueued 1) := dramIdle_of _ (by decide +kernel)

/-! ## Examples and check values of the spec

The expected values stand in the spec at the place that each test names. -/

/-- The ASCII bytes "123456789". -/
def digits9 : List Byte := [0x31, 0x32, 0x33, 0x34, 0x35, 0x36, 0x37, 0x38, 0x39]

/-- R26, R129 and R101. -/
theorem test_crcs : crc32c digits9 = 0xE3069283 ∧ crc8 digits9 = 0xF4 ∧ crc64 digits9 = 0x995DC9BBDF1939FA := by decide +kernel

/-- Chapter 00, reading SYS_ID on a replacement card. -/
theorem test_sysId : ({ up with sys := { up.sys with fuses := { up.sys.fuses with stepLetter := 1, stepDigit := 0, imgMinor := 2 } } } : State).view
    R.SYS_ID = 0x96001012 := by decide +kernel

/-- Chapter 04, one photosite of CTX0 on HH-1. -/
theorem test_photosite : normalise 32000 4096 279693 = 476352
    ∧ shade (fun _ j i => if j = 3 then (if i = 7 then 0x5000 else 0x5200) else if i = 7 then 0x4C00 else 0x4E00) 4096 2160 0 1000 500 476352
      = 586572 ∧ binOf 586572 = 152 := by decide +kernel

/-- Chapter 05, HH-1 CTX0 to the encoder. -/
theorem test_enlarger : scalePos 4096 1920 1000 = (2133, 57) ∧ filterTap 1 (fun _ _ => 0) 57 3 = 112 ∧ filterTap 1 (fun _ _ => 0) 57 4 = 912
    ∧ scalePos 2160 1080 30 = (60, 32) ∧ toYcc 1 40000 30000 20000 = (31404, 26622, 38227)
    ∧ quantise 10 true false 31404 = 484 ∧ quantise 10 true true 26622 = 428 ∧ quantise 10 true true 38227 = 587 := by decide +kernel

/-- Chapter 06, decoding one edge block. -/
theorem test_edge_block : blockPlace 4100 2162 679 = ⟨4, 135, 4, 2⟩ ∧ blockCount 4100 2162 = 680 ∧ indexLen 680 = 5504
    ∧ (let b := codeBlock 12 0 0x0A3C ⟨4, 135, 4, 2⟩ (fun x y =>
          (([[2040, 2070, 2046, 2066], [2055, 2030, 2059, 2031]].getD y []).getD x 0))
      b.drop 32 = [0x7B, 0x00, 0xD8, 0x38, 0x72, 0x00, 0xC6, 0x10] ∧ b.length = 40
        ∧ decodeBlock 12 0 0x0A3C ⟨4, 135, 4, 2⟩ b = some [[2040, 2070, 2046, 2066], [2055, 2030, 2059, 2031]]) := by decide +kernel

/-- Chapter 07, a capped picture on HH-1's OS0 stream. -/
theorem test_rate_control : (let e : EncBank := { encBank [] 0 with width := 1920, height := 1080, qpMax := 40, cap := 100000 }
      e.rows = 17 ∧ fillBound e.width = 128
        ∧ [(28, 7496, 0), (32, 12596, 1), (33, 17196, 2), (33, 30696, 4), (40, 98096, 14)].map (fun r => nextQp e 96 r.2.1 r.2.2 r.1)
          = [32, 33, 33, 34, 40]
        ∧ becomesFill e 98096 9000 15 = true) := by decide +kernel

/-- Chapter 08, the north wall: frame 7200. -/
theorem test_north_wall : (let m : WallMode := ⟨120000, 1001, 2000000, 2000, 150, 1000000, 0, 1⟩
      m.ok = true ∧ m.present 7200 = 1000060062000000 ∧ m.latch 7200 = 1000060060000000 ∧ m.deadline 7200 = 1000060061850000) := by
  decide +kernel

/-- Chapter 02, the digest of two contexts. -/
theorem test_wall_digest : 0x0123456789ABCDEF ^^^ (1 * 0x9E3779B97F4A7C15 % 2 ^ 64) = 0x9F143CDEF6E1B1FA
    ∧ digestTerm 0 digits9 = 0x995DC9BBDF1939FA ∧ digestTerm 1 digits9 = 0x995DC9BBDF1939FA ^^^ 0x9E3779B97F4A7C15 := by decide +kernel

/-- Chapter 10, a slip in a two-port group: G of block 91,250. -/
theorem test_audio_block : ({ audGroup false [7] with origin := 0 } : AudGroup).time 91250 = 121666666666 := by decide +kernel

/-- Chapter 11: block 1,023 lies on member 3 and block 1,024 on member 0 of four members. -/
theorem test_clip_home : (let s : State := { up with clip := { up.clip with order := [0, 1, 2, 3] } }
      s.homeOf 768 = (3, 262144) ∧ s.homeOf 1000 = (3, 262376) ∧ s.homeOf 1024 = (0, 262400)) := by decide +kernel

/-- Chapter 14, the host reboots while the board resets the card: the cause of the episode. -/
theorem test_episode_cause :
    (match exec (.pciePerstN false 40000) up with
      | .next s => (match exec (.sysRstN false 460000) s with
        | .next t => (t.fld F.SYS_RST_CAUSE_reach, t.fld F.SYS_RST_CAUSE_source, t.fld F.SYS_RST_CAUSE_sources, s.held .host && s.held .vault && !s.held .wall,
            t.held .wall)
        | _ => (0, 0, 0, false, false))
      | _ => (0, 0, 0, false, false)) = (4, 2, 0x0C, true, true) := by decide +kernel

/-- Chapter 15: the balls that R557 and R559 give as examples. -/
theorem test_balls : ballAt 23 13 = .ddr 2 1 67 ∧ ballAt 13 18 = .multi (.gp 5) ∧ ballAt 15 19 = .multi (.audio 10) := by decide +kernel

/-- R12: order of wrapping numbers. -/
theorem test_serial_order : laterThan 32 1 0xFFFFFFFF = true ∧ laterThan 32 0xFFFFFFFF 1 = false ∧ laterThan 16 5 5 = false := by decide +kernel

/-- Chapter 13, a recorder asks the firmware for a flash write: PF1 claims mailbox 3. -/
theorem test_mailbox_claim : (match exec (.mboxClaim .pf1 3) up with
    | .next s => s.fld (F.MBOX_STATUS_holder 3)
    | _ => 0) = 2 ∧ mboxReceiver 24 = .pf1 := by decide +kernel

end Sys2Proof.Tests
end

section
/-! Every command completes: its effect is followed by the closing step, and nothing else comes out of `exec`. -/
namespace Sys2Proof.Machine

/-- A command whose meaning closes with `done` on a state answers the closing step of that state. -/
theorem answers_settle_of_exec_eq_done {c : Instr} {s u : State} (h : exec c s = done u) : Answers c s (settle u) := h

/-- Every arm of the dispatch closes with `done` on the state that its effect leaves: each condition of a command (who may
access, which island runs, what is waiting) selects the effect, and none selects the outcome. So one witness, the argument
of the arm's `done`, serves each command. -/
theorem exec_eq_done (c : Instr) (s : State) : ∃ u, exec c s = done u := by
  cases c <;> exact ⟨_, rfl⟩

/-- Settles O3: every command closes with `done`, which always answers a next state. -/
theorem commandsNeverStop : Obligations.CommandsNeverStop := by
  unfold Obligations.CommandsNeverStop
  intro c s
  obtain ⟨u, hu⟩ := exec_eq_done c s
  exact ⟨u, answers_settle_of_exec_eq_done hu⟩

end Sys2Proof.Machine
end

section
/-! What the proofs about one command share: an admitted write, the frames seen through the closing step, and the registers
of the rigging block, which a plain write stores and nothing else. -/
namespace Sys2Proof.Machine

/-! ## Admitted writes -/

theorem State.guardedWrite_admitted {s : State} {m : Master} {off : Nat} (h : Admitted s m off) (f : State → State) :
    s.guardedWrite m off f = f s := by
  obtain ⟨hs, ha⟩ := h
  simp [State.guardedWrite, hs, ha]

/-- A command that is an admitted register write answers the closing step of what the write does. -/
theorem answers_of_admitted {c : Instr} {s : State} {m : Master} {off : Nat} {f : State → State} (h : Admitted s m off)
    (he : exec c s = done (s.guardedWrite m off f)) : Answers c s (settle (f s)) := by
  rw [State.guardedWrite_admitted h] at he
  exact answers_settle_of_exec_eq_done he

/-! ## Frames -/

theorem not_sendCounter {o : Nat} (h : o < 0xE8000 ∨ 0xE8180 ≤ o) : ¬ SendCounter o := by
  simp only [SendCounter, R.FEN_JNL_TX]
  omega

theorem RegsBut.refl (l : List Nat) (s : State) : RegsBut l s s := fun _ _ _ => rfl

theorem RegsBut.wr {l : List Nat} {s t : State} (h : RegsBut l s t) {off : Nat} (v : Nat) (ho : off ∈ l) :
    RegsBut l s (t.wr off v) := fun o hl hc =>
  (t.rd_wr_ne v (ne_of_mem_of_not_mem ho hl).symm).trans (h o hl hc)

theorem RegsBut.put {l : List Nat} {s t : State} (h : RegsBut l s t) {f : Fld} (v : Nat) (ho : f.off ∈ l) :
    RegsBut l s (t.put f v) := h.wr _ ho

/-- A state with the same registers meets the same frame. -/
theorem RegsBut.of_regs {l : List Nat} {s t u : State} (h : RegsBut l s t) (e : u.regs = t.regs) : RegsBut l s u :=
  fun o hl hc => (State.rd_congr e o).trans (h o hl hc)

theorem RegsBut.settle {l : List Nat} {s t : State} (h : RegsBut l s t) : RegsBut l s (settle t) :=
  fun o hl hc => (settle_rd t o hc).trans (h o hl hc)

theorem Undisturbed.settle {s t : State} (h : Undisturbed s t) : Undisturbed s (settle t) := h.trans (settles_settle t).quiet

theorem SameMemory.of_eq {s t : State} (hd : t.dram = s.dram) (hp : t.pool = s.pool) (hs : t.sram = s.sram)
    (hf : t.flash = s.flash) : SameMemory s t := fun a => by
  rw [hd, hp, hs, hf]
  exact ⟨rfl, rfl, rfl, rfl⟩

theorem SameMemory.settle {s t : State} (h : SameMemory s t) : SameMemory s (settle t) := by
  simpa [SameMemory] using h

/-! ## Rigging and islands through the closing step -/

theorem Undisturbed.rig {s t : State} (h : Undisturbed s t) : t.rig = { s.rig with retiring := t.rig.retiring } :=
  congrArg State.rig h

/-- Of the rigging state the closing step moves the replaced strands alone. -/
theorem settle_rig (s : State) : (settle s).rig = { s.rig with retiring := (settle s).rig.retiring } :=
  (settles_settle s).quiet.rig

@[simp] theorem settle_rig_slotA (s : State) : (settle s).rig.slotA = s.rig.slotA := by rw [settle_rig]
@[simp] theorem settle_rig_slotB (s : State) : (settle s).rig.slotB = s.rig.slotB := by rw [settle_rig]
@[simp] theorem settle_rig_active (s : State) : (settle s).rig.active = s.rig.active := by rw [settle_rig]
@[simp] theorem settle_rig_change (s : State) : (settle s).rig.change = s.rig.change := by rw [settle_rig]
@[simp] theorem settle_rig_load (s : State) : (settle s).rig.load = s.rig.load := by rw [settle_rig]
@[simp] theorem settle_rig_claims (s : State) : (settle s).rig.claims = s.rig.claims := by rw [settle_rig]
@[simp] theorem settle_rig_strands (s : State) : (settle s).rig.strands = s.rig.strands := by rw [settle_rig]
@[simp] theorem settle_rig_zeroing (s : State) : (settle s).rig.zeroing = s.rig.zeroing := by rw [settle_rig]
@[simp] theorem settle_rig_stopping (s : State) : (settle s).rig.stopping = s.rig.stopping := by rw [settle_rig]
@[simp] theorem settle_rig_before (s : State) : (settle s).rig.before = s.rig.before := by rw [settle_rig]

@[simp] theorem settle_slot (s : State) (k : Nat) : (settle s).slot k = s.slot k := by simp [State.slot]

/-- Whether an island is held depends on the islands' states alone. -/
theorem State.held_congr {s t : State} (h : t.isl = s.isl) (i : Island) : t.held i = s.held i := by
  simp [State.held, State.island, h]

@[simp] theorem settle_held (s : State) (i : Island) : (settle s).held i = s.held i := State.held_congr (by simp) i

/-! ## Plain writes -/

/-- Below the registers of the clip queues and mailboxes, a register that the table of event registers does not name rearms no
interrupt vector (R508, R509). -/
theorem State.rearmAt_of_not_event (s : State) {off : Nat}
    (h : eventRegs.find? (fun e => e.2.1 == off || e.2.2 == off) = none) (hlt : off < 0x208030) : s.rearmAt off = s := by
  have h1 : off ≠ 0x208030 := by omega
  have h2 : off ≠ 0x208034 := by omega
  have h3 : ¬ 0x380000 ≤ off := by omega
  simp [State.rearmAt, h, h1, h2, h3]

/-- A write of a register that is no interrupt source stores the value that the access codes leave, and nothing else. -/
theorem State.regWrite_eq_wr (s : State) {off : Nat} {r : RegRow} (v : Nat) (hr : regRow off = some r)
    (h : eventRegs.find? (fun e => e.2.1 == off || e.2.2 == off) = none) (hlt : off < 0x208030) :
    s.regWrite off v = s.wr off (writeValue r (s.rd off) v) := by
  simp only [State.regWrite, hr, State.rearmAt_of_not_event _ h hlt]

theorem State.regWrite_changeCtrl (s : State) (v : Nat) :
    ∃ x, s.regWrite R.RIG_CHANGE_CTRL v = s.wr R.RIG_CHANGE_CTRL x :=
  ⟨_, s.regWrite_eq_wr v rfl rfl (by decide)⟩

theorem State.regWrite_claimCtrl (s : State) (v : Nat) :
    ∃ x, s.regWrite R.RIG_CLAIM_CTRL v = s.wr R.RIG_CLAIM_CTRL x :=
  ⟨_, s.regWrite_eq_wr v rfl rfl (by decide)⟩

/-- A bit of a word with a field replaced, outside the field. -/
theorem testBit_putBits_ne (n v : Nat) {hi lo i : Nat} (h : i < lo ∨ hi < i) :
    (putBits n hi lo v).testBit i = n.testBit i := by
  rw [putBits_testBit]
  by_cases h1 : i < lo
  · simp [h1]
  · rw [if_neg h1, if_neg (by omega)]

end Sys2Proof.Machine
end

section
/-! Pool banks: what zeroing a bank and giving it an owner leave. -/
namespace Sys2Proof.Machine

/-- A field that lies in 32 bits reads the same from a word cut to them. -/
theorem bitsOf_mod_word (n : Nat) {hi lo : Nat} (h : hi < 32) : bitsOf (n % 2 ^ 32) hi lo = bitsOf n hi lo := by
  refine Nat.eq_of_testBit_eq fun i => ?_
  rw [bitsOf_testBit, bitsOf_testBit, Nat.testBit_mod_two_pow]
  by_cases h1 : i < hi + 1 - lo
  · have : lo + i < 32 := by omega
    simp [this]
  · simp [h1]

/-- A zeroed bank holds zeros, and every byte of another bank stands. -/
theorem State.memGet_zeroBank (s : State) (b a : Nat) :
    memGet (s.zeroBank b).pool a = if a / bankBytes = b then 0 else memGet s.pool a := by
  have h : (b * bankBytes ≤ a ∧ a < b * bankBytes + bankBytes) ↔ a / bankBytes = b := by
    simp only [bankBytes]; omega
  simp only [State.zeroBank, memGet_memZero, h]

theorem bank_of_byte (b : Nat) {i : Nat} (h : i < bankBytes) : (b * bankBytes + i) / bankBytes = b := by
  simp only [bankBytes] at *; omega

theorem State.marchDropBank_of_none {s : State} (h : s.poolSt.march = none) (b : Nat) : s.marchDropBank b = s := by
  simp only [State.marchDropBank, h]

/-- A bank just given an owner has it. -/
theorem State.bankOwner_setBankOwner (s : State) (b owner unit : Nat) (exempt : Bool) :
    (s.setBankOwner b owner unit exempt).bankOwner b = owner % 256 := by
  simp only [State.bankOwner, State.setBankOwner, State.rd_wr_same]
  rw [bitsOf_mod_word _ (by decide), bitsOf_putBits_ne _ _ (.inl (by decide)), bitsOf_putBits_ne _ _ (.inl (by decide)),
    bitsOf_putBits_same]
  rfl

theorem State.bankOwner_put (s : State) (f : Fld) (v b : Nat) (h : R.POOL_BANK b ≠ f.off) :
    (s.put f v).bankOwner b = s.bankOwner b :=
  congrArg (bitsOf · 7 0) (s.rd_put_ne f v h)

/-- The owner of a bank is not among the counters of packets sent. -/
theorem settle_bankOwner (s : State) (b : Nat) : (settle s).bankOwner b = s.bankOwner b :=
  congrArg (bitsOf · 7 0) (settle_rd s (R.POOL_BANK b) (not_sendCounter (.inr (by simp only [R.POOL_BANK]; omega))))

theorem RegsBut.setBankOwner {l : List Nat} {s t : State} (h : RegsBut l s t) {b : Nat} (owner unit : Nat) (exempt : Bool)
    (hb : R.POOL_BANK b ∈ l) : RegsBut l s (t.setBankOwner b owner unit exempt) := h.wr _ hb

end Sys2Proof.Machine
end

section
/-! Run-time claims of resources (R78, R86): what a write of RIG_CLAIM_CTRL does, by the operation and by who holds the
resource. -/
namespace Sys2Proof.Machine

/-- The claim that holds a resource. -/
def State.claimOn (s : State) (res index : Nat) : Option RtClaim :=
  s.rig.claims.find? (fun c => c.res = res && c.index = index)

theorem State.claimOn_eq_none (s : State) (res index : Nat) :
    s.claimOn res index = none ↔ ∀ c ∈ s.rig.claims, c.res ≠ res ∨ c.index ≠ index := by
  simp [State.claimOn, imp_iff_not_or]

theorem State.claimOn_isSome (s : State) (res index : Nat) :
    (s.claimOn res index).isSome = true ↔ ∃ c ∈ s.rig.claims, c.res = res ∧ c.index = index := by
  simp [State.claimOn]

/-- The only claim on its resource is the one that is found. -/
theorem State.claimOn_eq_some {s : State} {x : RtClaim} (hx : x ∈ s.rig.claims)
    (h : ∀ c ∈ s.rig.claims, c.res = x.res → c.index = x.index → c = x) : s.claimOn x.res x.index = some x := by
  obtain ⟨y, hy⟩ := Option.isSome_iff_exists.mp ((s.claimOn_isSome _ _).mpr ⟨x, hx, rfl, rfl⟩)
  have hp := List.find?_some hy
  simp only [Bool.and_eq_true, decide_eq_true_eq] at hp
  rw [hy, h y (List.mem_of_find?_eq_some hy) hp.1 hp.2]

/-- A claim of a free resource is recorded; a claimed bank is zeroed and owned by the claimer. -/
theorem State.claimWrite_take (s : State) (m : Master) (v : Nat) (hn : claimNames (bitsOf v 19 16) (bitsOf v 15 0) = true)
    (hop : v.testBit 20 = false) (hm : s.poolSt.march = none) (hf : s.claimOn (bitsOf v 19 16) (bitsOf v 15 0) = none)
    (hi : s.imageHolds (bitsOf v 19 16) (bitsOf v 15 0) = false) :
    ∃ x, let u : State := { s.wr R.RIG_CLAIM_CTRL x with
        rig := { s.rig with claims := s.rig.claims ++ [⟨bitsOf v 19 16, bitsOf v 15 0, decide (m = .mgt)⟩] } }
      s.claimWrite m v = (if bitsOf v 19 16 = 3
        then (u.zeroBank (bitsOf v 15 0)).setBankOwner (bitsOf v 15 0) (if m = .mgt then 2 else 5) 0 false
        else u).put F.RIG_CLAIM_STATUS_code 0 := by
  obtain ⟨x, hx⟩ := s.regWrite_claimCtrl v
  have hf' : (s.rig.claims.find? (fun c => c.res = bitsOf v 19 16 && c.index = bitsOf v 15 0)).isSome = false := by
    rw [← State.claimOn, hf]; rfl
  have hi' : (s.wr R.RIG_CLAIM_CTRL x).imageHolds (bitsOf v 19 16) (bitsOf v 15 0) = false := hi
  refine ⟨x, ?_⟩
  simp only [State.claimWrite, hx, hn, hop, State.wr_rig, hf', hi', Bool.not_true, Bool.false_eq_true, if_false, Bool.or_false]
  rw [State.marchDropBank_of_none (by exact hm)]
  simp only [decide_eq_true_eq]

/-- A claim of a resource that a claim or the image holds is refused. -/
theorem State.claimWrite_held (s : State) (m : Master) (v : Nat) (hn : claimNames (bitsOf v 19 16) (bitsOf v 15 0) = true)
    (hop : v.testBit 20 = false) (hh : (s.claimOn (bitsOf v 19 16) (bitsOf v 15 0)).isSome = true
      ∨ s.imageHolds (bitsOf v 19 16) (bitsOf v 15 0) = true) :
    ∃ x, s.claimWrite m v = (s.wr R.RIG_CLAIM_CTRL x).put F.RIG_CLAIM_STATUS_code 1 := by
  obtain ⟨x, hx⟩ := s.regWrite_claimCtrl v
  have hh' : ((s.rig.claims.find? (fun c => c.res = bitsOf v 19 16 && c.index = bitsOf v 15 0)).isSome
      || (s.wr R.RIG_CLAIM_CTRL x).imageHolds (bitsOf v 19 16) (bitsOf v 15 0)) = true := by
    rw [Bool.or_eq_true]; exact hh
  refine ⟨x, ?_⟩
  simp only [State.claimWrite, hx, hn, hop, State.wr_rig, hh', Bool.not_true, Bool.false_eq_true, if_false, if_true]

/-- The holder's release takes the claim away, and a bank's owner with it. -/
theorem State.claimWrite_release (s : State) (m : Master) (v : Nat) (hn : claimNames (bitsOf v 19 16) (bitsOf v 15 0) = true)
    (hop : v.testBit 20 = true)
    (hh : s.claimOn (bitsOf v 19 16) (bitsOf v 15 0) = some ⟨bitsOf v 19 16, bitsOf v 15 0, decide (m = .mgt)⟩) :
    ∃ x, let u : State := { s.wr R.RIG_CLAIM_CTRL x with rig := { s.rig with
        claims := s.rig.claims.filter (fun c => !(c.res = bitsOf v 19 16 && c.index = bitsOf v 15 0)) } }
      s.claimWrite m v = (if bitsOf v 19 16 = 3 then u.setBankOwner (bitsOf v 15 0) 0xFF 0 false else u).put
        F.RIG_CLAIM_STATUS_code 0 := by
  obtain ⟨x, hx⟩ := s.regWrite_claimCtrl v
  rw [State.claimOn] at hh
  refine ⟨x, ?_⟩
  simp only [State.claimWrite, hx, hn, hop, State.wr_rig, hh, Bool.not_true, Bool.false_eq_true, if_false, if_true]

/-- Where one claim alone names its resource, taking away what names the resource takes away that claim. -/
theorem filter_claim_ne {l : List RtClaim} {x : RtClaim} (h : ∀ c ∈ l, c.res = x.res → c.index = x.index → c = x) :
    l.filter (fun c => !(c.res = x.res && c.index = x.index)) = l.filter (fun c => c != x) := by
  refine List.filter_congr fun c hc => ?_
  by_cases he : c = x
  · simp [he]
  · have : ¬ (c.res = x.res ∧ c.index = x.index) := fun hr => he (h c hc hr.1 hr.2)
    rw [bne_iff_ne.mpr he, Bool.not_eq_true', ← Bool.not_eq_true, Bool.and_eq_true, decide_eq_true_eq, decide_eq_true_eq]
    exact this

theorem State.fld_claimStatus (s : State) (v : Nat) : (s.put F.RIG_CLAIM_STATUS_code v).fld F.RIG_CLAIM_STATUS_code = v % 4 :=
  s.fld_put_same _ v (by decide)

/-- What a claim of a free resource leaves. -/
theorem State.claimWrite_free {s : State} {m : Master} {v : Nat} (hn : claimNames (bitsOf v 19 16) (bitsOf v 15 0) = true)
    (hop : v.testBit 20 = false) (hm : s.poolSt.march = none) (hf : s.claimOn (bitsOf v 19 16) (bitsOf v 15 0) = none)
    (hi : s.imageHolds (bitsOf v 19 16) (bitsOf v 15 0) = false) :
    let u := s.claimWrite m v
    u.dram = s.dram ∧ u.fld F.RIG_CLAIM_STATUS_code = 0
      ∧ u.rig.claims = s.rig.claims ++ [⟨bitsOf v 19 16, bitsOf v 15 0, decide (m = .mgt)⟩]
      ∧ (bitsOf v 19 16 ≠ 3 → RegsBut [R.RIG_CLAIM_CTRL, R.RIG_CLAIM_STATUS] s u ∧ SameMemory s u)
      ∧ (bitsOf v 19 16 = 3 →
        RegsBut [R.RIG_CLAIM_CTRL, R.RIG_CLAIM_STATUS, R.POOL_BANK (bitsOf v 15 0)] s u
          ∧ u.bankOwner (bitsOf v 15 0) = (if m = .mgt then 2 else 5)
          ∧ ∀ a, memGet u.pool a = if a / bankBytes = bitsOf v 15 0 then 0 else memGet s.pool a) := by
  obtain ⟨x, hw⟩ := s.claimWrite_take m v hn hop hm hf hi
  generalize bitsOf v 19 16 = res at *
  generalize bitsOf v 15 0 = index at *
  simp only at hw
  rw [hw]
  dsimp only
  by_cases h3 : res = 3
  · have hb : R.POOL_BANK index ≠ R.RIG_CLAIM_STATUS := by simp only [R.POOL_BANK, R.RIG_CLAIM_STATUS]; omega
    simp only [h3, if_true]
    refine ⟨rfl, State.fld_claimStatus _ _, rfl, fun h => absurd rfl h, fun _ => ⟨?_, ?_, fun a => ?_⟩⟩
    · refine RegsBut.put (RegsBut.setBankOwner ?_ _ _ _ (by simp)) _ (by simp [F.RIG_CLAIM_STATUS_code, R.RIG_CLAIM_STATUS])
      exact ((RegsBut.refl _ s).wr x (by simp)).of_regs rfl
    · rw [State.bankOwner_put _ _ _ _ hb, State.bankOwner_setBankOwner]
      split <;> rfl
    · exact State.memGet_zeroBank _ index a
  · simp only [h3, if_false]
    refine ⟨rfl, State.fld_claimStatus _ _, rfl, fun _ => ⟨?_, .of_eq rfl rfl rfl rfl⟩, fun h => absurd h id⟩
    refine RegsBut.put ?_ _ (by simp [F.RIG_CLAIM_STATUS_code, R.RIG_CLAIM_STATUS])
    exact ((RegsBut.refl _ s).wr x (by simp)).of_regs rfl

theorem exec_claim (m : Master) (v : Word) (s : State) : exec (.claim m v) s =
    done (s.guardedWrite m R.RIG_CLAIM_CTRL (fun s => s.claimWrite m (putBits v.toNat 20 20 0))) := rfl

theorem exec_claimRelease (m : Master) (v : Word) (s : State) : exec (.claimRelease m v) s =
    done (s.guardedWrite m R.RIG_CLAIM_CTRL (fun s => s.claimWrite m (putBits v.toNat 20 20 1))) := rfl

/-- The operation bit of RIG_CLAIM_CTRL lies apart from the resource that it names. -/
theorem claimOperands (v op : Nat) : bitsOf (putBits v 20 20 op) 19 16 = bitsOf v 19 16
    ∧ bitsOf (putBits v 20 20 op) 15 0 = bitsOf v 15 0 ∧ (putBits v 20 20 op).testBit 20 = op.testBit 0 :=
  ⟨bitsOf_putBits_ne _ _ (.inl (by decide)), bitsOf_putBits_ne _ _ (.inl (by decide)), by rw [putBits_testBit]; rfl⟩

/-- The answer to a claim shows in RIG_CLAIM_STATUS through the closing step. -/
theorem settle_claimStatus (s : State) : (settle s).fld F.RIG_CLAIM_STATUS_code = s.fld F.RIG_CLAIM_STATUS_code :=
  settle_fld s _ (not_sendCounter (.inl (by decide)))

/-- A claim: of a free resource, or of one that a claim or the image holds. -/
theorem claim_answers {m : Master} {v : Word} {s : State} (ha : Admitted s m R.RIG_CLAIM_CTRL) (hm : s.poolSt.march = none)
    {res index : Nat} (hr : bitsOf v.toNat 19 16 = res) (hx : bitsOf v.toNat 15 0 = index) (hn : claimNames res index = true) :
    ∃ t, Answers (.claim m v) s t ∧ t.dram = s.dram
      ∧ ((∀ c ∈ s.rig.claims, c.res ≠ res ∨ c.index ≠ index) → s.imageHolds res index = false →
        t.fld F.RIG_CLAIM_STATUS_code = 0 ∧ t.rig.claims = s.rig.claims ++ [⟨res, index, decide (m = .mgt)⟩]
          ∧ (res ≠ 3 → RegsBut [R.RIG_CLAIM_CTRL, R.RIG_CLAIM_STATUS] s t ∧ SameMemory s t)
          ∧ (res = 3 → RegsBut [R.RIG_CLAIM_CTRL, R.RIG_CLAIM_STATUS, R.POOL_BANK index] s t
            ∧ t.bankOwner index = (if m = .mgt then 2 else 5)
            ∧ (∀ i, i < bankBytes → memGet t.pool (index * bankBytes + i) = 0)
            ∧ ∀ a, a / bankBytes ≠ index → memGet t.pool a = memGet s.pool a))
      ∧ ((∃ c ∈ s.rig.claims, c.res = res ∧ c.index = index) ∨ s.imageHolds res index = true →
        t.fld F.RIG_CLAIM_STATUS_code = 1 ∧ OnlyRegs [R.RIG_CLAIM_CTRL, R.RIG_CLAIM_STATUS] s t) := by
  obtain ⟨hres, hidx, hop⟩ := claimOperands v.toNat 0
  have hans := answers_of_admitted ha (exec_claim m v s)
  rw [hr] at hres
  rw [hx] at hidx
  by_cases hh : (s.claimOn res index).isSome = true ∨ s.imageHolds res index = true
  · have hw := s.claimWrite_held m (putBits v.toNat 20 20 0)
    rw [hres, hidx] at hw
    obtain ⟨x, hw⟩ := hw hn hop hh
    rw [hw] at hans
    refine ⟨_, hans, by simp, fun hc hi => ?_, fun _ => ⟨?_, ?_, ?_⟩⟩
    · rw [(s.claimOn_eq_none _ _).mpr hc, hi] at hh
      simp at hh
    · rw [settle_claimStatus, State.fld_claimStatus]
    · refine RegsBut.settle (RegsBut.put ?_ _ (by simp [F.RIG_CLAIM_STATUS_code, R.RIG_CLAIM_STATUS]))
      exact (RegsBut.refl _ s).wr x (by simp)
    · exact Undisturbed.settle rfl
  · obtain ⟨hfree, hi⟩ := not_or.mp hh
    have hf := State.claimWrite_free (s := s) (m := m) (v := putBits v.toNat 20 20 0)
    rw [hres, hidx] at hf
    obtain ⟨hd, hcode, hclaims, hother, hbank⟩ := hf hn hop hm (by simpa using hfree) (by simpa using hi)
    generalize s.claimWrite m (putBits v.toNat 20 20 0) = u at *
    refine ⟨settle u, hans, by simp [hd], fun _ _ => ⟨?_, by simp [hclaims], fun h => ?_, fun h => ?_⟩, fun h => ?_⟩
    · rw [settle_claimStatus, hcode]
    · exact ⟨(hother h).1.settle, (hother h).2.settle⟩
    · obtain ⟨hregs, how, hpool⟩ := hbank h
      refine ⟨hregs.settle, by rw [settle_bankOwner, how], fun i hb => ?_, fun a ha => ?_⟩
      · rw [settle_pool, hpool, if_pos (bank_of_byte index hb)]
      · rw [settle_pool, hpool, if_neg ha]
    · rw [← s.claimOn_isSome] at h
      exact absurd h hh

/-- A release by the holder. -/
theorem claimRelease_answers {m : Master} {v : Word} {s : State} (ha : Admitted s m R.RIG_CLAIM_CTRL) {x : RtClaim}
    (hr : bitsOf v.toNat 19 16 = x.res) (hx : bitsOf v.toNat 15 0 = x.index) (hmgt : decide (m = .mgt) = x.mgt)
    (hn : claimNames x.res x.index = true) (hmem : x ∈ s.rig.claims)
    (hone : ∀ c ∈ s.rig.claims, c.res = x.res → c.index = x.index → c = x) :
    ∃ t, Answers (.claimRelease m v) s t ∧ t.fld F.RIG_CLAIM_STATUS_code = 0 ∧ SameMemory s t
      ∧ t.rig.claims = s.rig.claims.filter (fun c => c != x) ∧ (x.res = 3 → t.bankOwner x.index = 0xFF)
      ∧ RegsBut [R.RIG_CLAIM_CTRL, R.RIG_CLAIM_STATUS, R.POOL_BANK x.index] s t := by
  obtain ⟨hres, hidx, hop⟩ := claimOperands v.toNat 1
  have hans := answers_of_admitted ha (exec_claimRelease m v s)
  have hw := s.claimWrite_release m (putBits v.toNat 20 20 1)
  rw [hres, hidx, hr, hx, hmgt, filter_claim_ne hone] at hw
  obtain ⟨y, hw⟩ := hw hn hop (State.claimOn_eq_some hmem hone)
  rw [hw] at hans
  have hb : R.POOL_BANK x.index ≠ R.RIG_CLAIM_STATUS := by simp only [R.POOL_BANK, R.RIG_CLAIM_STATUS]; omega
  have hstat : F.RIG_CLAIM_STATUS_code.off ∈ [R.RIG_CLAIM_CTRL, R.RIG_CLAIM_STATUS, R.POOL_BANK x.index] := by
    simp [F.RIG_CLAIM_STATUS_code, R.RIG_CLAIM_STATUS]
  refine ⟨_, hans, by rw [settle_claimStatus, State.fld_claimStatus], SameMemory.settle ?_, ?_, fun h3 => ?_,
    RegsBut.settle (RegsBut.put ?_ _ hstat)⟩
  · split <;> exact .of_eq rfl rfl rfl rfl
  · rw [settle_rig_claims]
    split <;> rfl
  · rw [settle_bankOwner, State.bankOwner_put _ _ _ _ hb, if_pos h3, State.bankOwner_setBankOwner]
  · have hu : RegsBut [R.RIG_CLAIM_CTRL, R.RIG_CLAIM_STATUS, R.POOL_BANK x.index] s (s.wr R.RIG_CLAIM_CTRL y) :=
      (RegsBut.refl _ s).wr y (by simp)
    split
    · exact (hu.of_regs rfl).setBankOwner _ _ _ (by simp)
    · exact hu.of_regs rfl

/-- Settles O36: by the operation of the write and by who holds the resource. -/
theorem runTimeClaims : Obligations.RunTimeClaims := by
  unfold Obligations.RunTimeClaims
  intro m v s ha hm index res mine hn
  exact ⟨claim_answers ha hm rfl rfl hn, claimRelease_answers (x := mine) ha rfl rfl rfl hn⟩

end Sys2Proof.Machine
end

section
/-! The state after power-on reset. -/
namespace Sys2Proof.Machine

/-- Power-on reset holds every island but SYS, which always runs (R88, R533). -/
theorem reset_held {i : Island} (h : i ≠ .sys) : State.reset.held i = true := by
  cases i with
  | sys => exact absurd rfl h
  | _ => rfl

/-- Empty memories are in canonical form. -/
theorem memoriesCanonical_reset : MemoriesCanonical State.reset := ⟨rfl, rfl, rfl, rfl⟩

/-- The one episode after power-on reset is the power-on detector's, and holds every island that is released in order (R525,
R533). -/
theorem reset_episode : ∃ e, State.reset.sys.episode = some e ∧ e.islands = Island.releaseOrder
    ∧ e.sources.map (fun x => x.code) = [0] :=
  ⟨⟨[⟨0, 5, 0, Island.releaseOrder, false, 0⟩], none⟩, rfl, by decide, rfl⟩

/-- Settles O7: clause by clause from the state that reset leaves. -/
theorem resetState : Obligations.ResetState := by
  unfold Obligations.ResetState
  have hcount : State.reset.fld F.SYS_RST_COUNT_episodes = 1 := by decide
  have hjnl : State.reset.fld F.RIG_JNL_CTRL_mode = 0 := by decide
  have hclip : State.reset.fld F.CLIP_STORE_STATUS_state = 0 := by decide
  exact ⟨memoriesCanonical_reset, rfl, rfl, rfl, fun _ => reset_held, rfl, rfl, rfl, rfl, hcount, hjnl, reset_episode, rfl, hclip⟩

end Sys2Proof.Machine
end

section
/-! Strands (R69) and calendars (R74): what a delivery and a visit do before the closing step. -/
namespace Sys2Proof.Machine

/-! ## The delivery of a token -/

/-- A strand whose oldest token its receiver has taken: a waiting token takes the place (R69). -/
def Strand.delivered (x : Strand) (depth : Nat) (tok : Token) (rest : List Token) : Strand :=
  ⟨rest.take depth, rest.drop depth, x.taken ++ [tok]⟩

/-- The oldest token of a strand goes to a receiver that runs, and nothing else changes. -/
theorem exec_token_of_runs {k : Nat} {x : Strand} {tok : Token} {r : List Token} {ends : Nat × Nat} {i : Island} {s : State}
    (hx : mapFind s.rig.strands k = some x) (hf : x.fifo = tok :: r) (he : s.strandEnds k = some ends)
    (hi : islandOf ends.2 = some i) (hr : s.runs i = true) :
    exec (.token k) s = done (({ s with rig := { s.rig with
      strands := mapSet s.rig.strands k (x.delivered (s.strandDepth k) tok (r ++ x.waiting)) } } : State).emit (.tokenTaken k tok)) := by
  have hb : (s.strandEnds k).bind (fun e => islandOf e.2) = some i := by rw [he]; exact hi
  show execToken k s = _
  simp only [execToken, hx, hb, hf, List.cons_append, hr, if_true]
  rfl

theorem token_answers {k : Nat} {x : Strand} {tok : Token} {r : List Token} {ends : Nat × Nat} {i : Island} {s : State}
    (hx : mapFind s.rig.strands k = some x) (hf : x.fifo = tok :: r) (he : s.strandEnds k = some ends)
    (hi : islandOf ends.2 = some i) (hr : s.runs i = true) :
    ∃ t y, Answers (.token k) s t ∧ mapFind t.rig.strands k = some y ∧ y.taken = x.taken ++ [tok]
      ∧ y.fifo ++ y.waiting = r ++ x.waiting ∧ y.fifo = (r ++ x.waiting).take (s.strandDepth k) ∧ .tokenTaken k tok ∈ t.out
      ∧ (∀ j, j ≠ k → mapFind t.rig.strands j = mapFind s.rig.strands j) ∧ RegsBut [] s t ∧ SameMemory s t := by
  refine ⟨_, x.delivered (s.strandDepth k) tok (r ++ x.waiting),
    answers_settle_of_exec_eq_done (exec_token_of_runs hx hf he hi hr), by simp, rfl, List.take_append_drop _ _, rfl,
    mem_settle_out _ _ (List.mem_cons_self ..), fun j hj => ?_, RegsBut.settle (RegsBut.of_regs (.refl _ s) rfl),
    SameMemory.settle (.of_eq rfl rfl rfl rfl)⟩
  simp [mapFind_mapSet_ne _ _ hj]

/-! ## The visit of an engine -/

/-- The engine walks whose calendar is the one of island code `e`: the engine's own, and those of RAWC's decompressor half and
HEVC's decode pipe. -/
def Walks (engine e : Nat) : Prop := (engine = e ∧ 9 ≤ e ∧ e ≤ 12) ∨ (engine = 26 ∧ e = 10) ∨ (engine = 27 ∧ e = 11)

theorem Walks.code {engine e : Nat} (h : Walks engine e) :
    (if engine = 26 then 10 else if engine = 27 then 11 else engine) = e ∧ 9 ≤ e ∧ e ≤ 12 := by
  rcases h with ⟨rfl, h9, h12⟩ | ⟨rfl, rfl⟩ | ⟨rfl, rfl⟩
  · rw [if_neg (by omega), if_neg (by omega)]
    exact ⟨rfl, h9, h12⟩
  · decide
  · decide

/-- The position of a walk moved to the next entry, and shown where the walk is the engine's own (R74). -/
def State.moveOn (s : State) (engine e n len : Nat) : State :=
  let s := if engine = e then s.put (F.RIG_CAL_POS_entry (e - 9)) n else s
  { s with rig := { s.rig with calNext := mapSet s.rig.calNext engine ((n + 1) % len) } }

/-- The contexts of an entry, each offered its work units in order (R74). -/
def State.offer (s : State) (engine : Nat) (cal : List PitchEntry) (p : PitchEntry) : State :=
  p.contexts.foldl (fun (u : State) k => (List.range p.units).foldl (fun (u : State) _ => u.workUnit engine cal k) u) s

/-- A visit moves the position on, then offers the entry's work. -/
theorem State.pitchOp_of_entry {s : State} {engine e : Nat} {i : Island} {p : PitchEntry} (hw : Walks engine e)
    (hi : islandOf e = some i) (hr : s.runs i = true)
    (hp : (s.engineCal e)[mapGet 0 s.rig.calNext engine % (s.engineCal e).length]? = some p) :
    s.pitchOp engine = (s.moveOn engine e (mapGet 0 s.rig.calNext engine % (s.engineCal e).length)
      (s.engineCal e).length).offer engine (s.engineCal e) p := by
  obtain ⟨hcode, h9, h12⟩ := hw.code
  have hne : s.engineCal e ≠ [] := fun h => by simp [h] at hp
  have hgo : 9 ≤ e ∧ e ≤ 12 ∧ s.runs i = true ∧ s.engineCal e ≠ [] := ⟨h9, h12, hr, hne⟩
  simp only [State.pitchOp, hcode, hi, if_pos hgo, hp]
  rfl

/-- The next entry, the first after the last. -/
theorem State.moveOn_calNext (s : State) (engine e : Nat) {n len : Nat} (h : n < len) :
    mapGet 0 (s.moveOn engine e n len).rig.calNext engine = if n + 1 = len then 0 else n + 1 := by
  simp only [State.moveOn, mapGet_mapSet_same]
  split
  · next he => rw [he, Nat.mod_self]
  · exact Nat.mod_eq_of_lt (by omega)

theorem State.moveOn_regs (s : State) (engine e n len : Nat) : RegsBut [R.RIG_CAL_POS (e - 9)] s (s.moveOn engine e n len) := by
  refine RegsBut.of_regs (t := if engine = e then s.put (F.RIG_CAL_POS_entry (e - 9)) n else s) ?_ rfl
  split
  · exact (RegsBut.refl _ s).put _ (List.mem_singleton_self _)
  · exact .refl _ s

theorem State.moveOn_entry (s : State) (e n len : Nat) : (s.moveOn e e n len).fld (F.RIG_CAL_POS_entry (e - 9)) = n % 4096 := by
  have h : (s.moveOn e e n len).regs = (s.put (F.RIG_CAL_POS_entry (e - 9)) n).regs := by simp only [State.moveOn, if_true]
  rw [State.fld_congr h, State.fld_put_same _ _ _ (by decide : (11 : Nat) < 32)]
  rfl

/-- Moving on touches neither an engine's work nor a memory nor what has left the device. -/
theorem State.moveOn_frame (s : State) (engine e n len : Nat) :
    (s.moveOn engine e n len).cam = s.cam ∧ (s.moveOn engine e n len).hevc = s.hevc ∧ (s.moveOn engine e n len).out = s.out
      ∧ SameMemory s (s.moveOn engine e n len) := by
  simp only [State.moveOn]
  split <;> exact ⟨rfl, rfl, rfl, .of_eq rfl rfl rfl rfl⟩

/-- Settles O37: a delivery, and a visit of an engine. -/
theorem strandsAndCalendars : Obligations.StrandsAndCalendars := by
  unfold Obligations.StrandsAndCalendars
  refine ⟨fun k x tok r ends i s hx hf he hi hr => token_answers hx hf he hi hr, ?_⟩
  intro engine e i p s hw hi hr cal n hp
  have hn : n < cal.length := by
    refine Nat.mod_lt _ (List.length_pos_of_ne_nil fun h => ?_)
    simp [h] at hp
  obtain ⟨hcam, hhevc, hout, hmem⟩ := s.moveOn_frame engine e n cal.length
  refine ⟨s.moveOn engine e n cal.length, s.moveOn_calNext engine e hn, hcam, hhevc, hout, s.moveOn_regs engine e n cal.length,
    hmem, ?_, ?_⟩
  · rintro rfl
    exact s.moveOn_entry engine n cal.length
  · exact answers_settle_of_exec_eq_done (congrArg done (State.pitchOp_of_entry hw hi hr hp))

end Sys2Proof.Machine
end

section
/-! Loads (R56, R57, R83): slots, the 16 banks of a slot, what the checks of a loaded image find, what RIG_LOAD begins, and what
the end of the copy leaves. -/
namespace Sys2Proof.Machine

/-! ## Slots -/

@[simp] theorem State.slot_setSlot_same (s : State) (k : Nat) (x : Slot) : (s.setSlot k x).slot k = x := by
  by_cases h : k = 0 <;> simp [State.setSlot, State.slot, h]

/-- The other slot stands. -/
theorem State.slot_setSlot_other (s : State) {k : Nat} (x : Slot) (h : k < 2) : (s.setSlot k x).slot (1 - k) = s.slot (1 - k) := by
  obtain rfl | rfl : k = 0 ∨ k = 1 := by omega
  · simp [State.setSlot, State.slot]
  · simp [State.setSlot, State.slot]

@[simp] theorem State.setSlot_rig_active (s : State) (k : Nat) (x : Slot) : (s.setSlot k x).rig.active = s.rig.active := by
  by_cases h : k = 0 <;> simp [State.setSlot, h]

@[simp] theorem State.setSlot_rig_load (s : State) (k : Nat) (x : Slot) : (s.setSlot k x).rig.load = s.rig.load := by
  by_cases h : k = 0 <;> simp [State.setSlot, h]

@[simp] theorem State.setSlot_pool (s : State) (k : Nat) (x : Slot) : (s.setSlot k x).pool = s.pool := rfl
@[simp] theorem State.setSlot_dram (s : State) (k : Nat) (x : Slot) : (s.setSlot k x).dram = s.dram := rfl

theorem RegsBut.setSlot {l : List Nat} {s t : State} (h : RegsBut l s t) (k : Nat) (x : Slot)
    (hs : R.RIG_SLOT_STATE ∈ l) (hr : R.RIG_STATUS ∈ l) : RegsBut l s (t.setSlot k x) :=
  (((h.of_regs rfl).put _ hs).put _ hs).put _ hr

theorem State.rd_setSlot (s : State) (k : Nat) (x : Slot) {o : Nat} (hs : o ≠ R.RIG_SLOT_STATE) (hr : o ≠ R.RIG_STATUS) :
    (s.setSlot k x).rd o = s.rd o :=
  (State.rd_put_ne _ _ _ hr).trans <| (State.rd_put_ne _ _ _ hs).trans <| (State.rd_put_ne _ _ _ hs).trans (State.rd_congr rfl o)

theorem State.fld_setSlot (s : State) (k : Nat) (x : Slot) (f : Fld) (hs : f.off ≠ R.RIG_SLOT_STATE) (hr : f.off ≠ R.RIG_STATUS) :
    (s.setSlot k x).fld f = s.fld f := by
  rw [State.fld, State.fld, State.rd_setSlot _ _ _ hs hr]

/-! ## The banks of a slot -/

/-- Banks from `b` on, `n` of them, zeroed one after another. -/
def State.zeroBanks (s : State) (b n : Nat) : State := (List.range n).foldl (fun (s : State) i => s.zeroBank (b + i)) s

theorem State.zeroBanks_succ (s : State) (b n : Nat) : s.zeroBanks b (n + 1) = (s.zeroBanks b n).zeroBank (b + n) := by
  simp [State.zeroBanks, List.range_succ]

/-- Zeroing banks changes the pool alone. -/
theorem State.zeroBanks_frame (s : State) (b n : Nat) : ∃ p q, s.zeroBanks b n = { s with pool := p, poolSt := q } := by
  induction n with
  | zero => exact ⟨_, _, rfl⟩
  | succ n ih =>
    obtain ⟨p, q, h⟩ := ih
    exact ⟨_, _, by rw [State.zeroBanks_succ, h]; rfl⟩

theorem State.memGet_zeroBanks (s : State) (b n a : Nat) :
    memGet (s.zeroBanks b n).pool a = if b ≤ a / bankBytes ∧ a / bankBytes < b + n then 0 else memGet s.pool a := by
  induction n with
  | zero => rw [if_neg (by omega)]; rfl
  | succ n ih =>
    rw [State.zeroBanks_succ, State.memGet_zeroBank, ih]
    by_cases h : a / bankBytes = b + n
    · rw [if_pos h, if_pos (by omega)]
    · rw [if_neg h]
      exact if_congr (by omega) rfl rfl

theorem State.emptySlot_eq (s : State) (k : Nat) : s.emptySlot k = (s.zeroBanks (992 + 16 * k) 16).setSlot k ⟨.empty, none⟩ := rfl

/-- The 2 MiB of a slot are its 16 banks (R21). -/
theorem mem_slot_iff (k a : Nat) : (992 + 16 * k ≤ a / bankBytes ∧ a / bankBytes < 992 + 16 * k + 16) ↔
    (slotBase k ≤ a ∧ a < slotBase k + 2097152) := by
  simp only [slotBase, bankBytes]
  omega

/-- A slot made EMPTY holds only zeros, and every byte outside it stands. -/
theorem State.memGet_emptySlot (s : State) (k a : Nat) :
    memGet (s.emptySlot k).pool a = if slotBase k ≤ a ∧ a < slotBase k + 2097152 then 0 else memGet s.pool a := by
  rw [State.emptySlot_eq, State.setSlot_pool, State.memGet_zeroBanks]
  exact if_congr (mem_slot_iff k a) rfl rfl

/-! ## The checks (R57, R83) -/

theorem LoadResult.fail_num {c d : LoadCode} {o p : Nat} (h : LoadResult.fail d p = .fail c o) (hd : 3 ≤ d.num) : 3 ≤ c.num :=
  (LoadResult.fail.inj h).1 ▸ hd

/-- Every check of steps 4 to 9 that fails has a code from 3 on. -/
theorem checkImage_fail {s : State} {l : List Byte} {full : Bool} {key : Nat → Option (List Byte)} {c : LoadCode} {o : Nat}
    (h : checkImage s l full key = .fail c o) : 3 ≤ c.num := by
  unfold checkImage at h
  extract_lets at h
  split_ifs at h
  · exact LoadResult.fail_num h (by decide : 3 ≤ LoadCode.magic.num)
  · exact LoadResult.fail_num h (by decide : 3 ≤ LoadCode.magic.num)
  · exact LoadResult.fail_num h (by decide : 3 ≤ LoadCode.version.num)
  · exact LoadResult.fail_num h (by decide : 3 ≤ LoadCode.lengthRange.num)
  · exact LoadResult.fail_num h (by decide : 3 ≤ LoadCode.crc.num)
  · exact LoadResult.fail_num h (by decide : 3 ≤ LoadCode.signature.num)
  · split at h
    · exact LoadResult.fail_num h (by decide : 3 ≤ LoadCode.record.num)
    · cases h

/-- What a verdict may be: an image with the code OK, or no image and a code from 3 on. -/
def Judged (r : LoadCode × Nat × Option Image) : Prop := (r.2.2 = none ∧ 3 ≤ r.1.num) ∨ (r.2.2 ≠ none ∧ r.1 = .ok)

theorem State.verdict_judged (s : State) (l : List Byte) (boot : Bool) : Judged (s.verdict l boot) := by
  unfold State.verdict
  extract_lets
  split
  · next c o hc => exact .inl ⟨rfl, checkImage_fail hc⟩
  · extract_lets
    split_ifs
    · exact .inl ⟨rfl, (by decide : 3 ≤ LoadCode.region.num)⟩
    · exact .inl ⟨rfl, (by decide : 3 ≤ LoadCode.admission.num)⟩
    · exact .inl ⟨rfl, (by decide : 3 ≤ LoadCode.busy.num)⟩
    · exact .inr ⟨Option.some_ne_none _, rfl⟩

theorem LoadCode.num_lt (c : LoadCode) : c.num < 16 := by
  cases c <;> decide

/-! ## Bytes read -/

theorem memRead_length (m : Memory) (a n : Nat) : (memRead m a n).length = n := by simp [memRead]

/-- A byte read from a range is the memory's. -/
theorem getElem_memRead (m : Memory) (a n i : Nat) (h : i < (memRead m a n).length) : (memRead m a n)[i] = memGet m (a + i) := by
  have hi : i < n := by simpa [memRead_length] using h
  simp only [memRead, List.getElem_map, List.getElem_range, memBelow, memFrom]
  rw [memGet_filter _ _ _ fun v => by simpa using hi, memGet_filter _ _ _ fun v => by simp]

/-! ## The beginning of a load -/

/-- A load has begun: its slot is LOADING and empty of an image, the code is RUNNING and no record is at fault (R56). -/
def State.loadBegun (s : State) (k src len : Nat) : State :=
  let u := (((s.put F.RIG_LOAD_CTRL_slot k).wr R.RIG_LOAD_ERR_OFS 0xFFFFFFFF).setSlot k ⟨.loading, none⟩).put
    F.RIG_LOAD_STATUS_code LoadCode.running.num
  { u with rig := { u.rig with load := some ⟨k, src, len⟩ } }

/-- A load with a good source and a slot that is free for it begins. -/
theorem State.rigLoad_begins {s : State} {v : Nat} (hgo : v.testBit 0 = true) (hl : s.rig.load = none)
    (hlc : s.sys.fuses.lcState ≠ 3) (hlen : s.rd R.RIG_LOAD_LEN % 8 = 0) (hmin : 176 ≤ s.rd R.RIG_LOAD_LEN)
    (hmax : s.rd R.RIG_LOAD_LEN ≤ 2097152) (hsrc : s.rd R.RIG_LOAD_SRC % 8 = 0)
    (hend : s.rd R.RIG_LOAD_SRC + s.rd R.RIG_LOAD_LEN ≤ 992 * bankBytes) (hact : (s.slot (bitsOf v 1 1)).st ≠ .active)
    (hch : s.rig.change.map (fun c => c.slot) ≠ some (bitsOf v 1 1)) :
    s.rigLoad v = s.loadBegun (bitsOf v 1 1) (s.rd R.RIG_LOAD_SRC) (s.rd R.RIG_LOAD_LEN) := by
  have hS : (s.put F.RIG_LOAD_CTRL_slot (bitsOf v 1 1)).rd R.RIG_LOAD_SRC = s.rd R.RIG_LOAD_SRC := s.rd_put_ne _ _ (by decide)
  have hL : (s.put F.RIG_LOAD_CTRL_slot (bitsOf v 1 1)).rd R.RIG_LOAD_LEN = s.rd R.RIG_LOAD_LEN := s.rd_put_ne _ _ (by decide)
  have hrange : ¬ (s.rd R.RIG_LOAD_LEN % 8 ≠ 0 ∨ s.rd R.RIG_LOAD_LEN < 176 ∨ 2097152 < s.rd R.RIG_LOAD_LEN
      ∨ s.rd R.RIG_LOAD_SRC % 8 ≠ 0 ∨ 992 * bankBytes < s.rd R.RIG_LOAD_SRC + s.rd R.RIG_LOAD_LEN) := by omega
  simp only [State.rigLoad, hgo, State.put_rig, hl, hS, hL, if_neg hrange, State.wr_sys, State.put_sys, if_neg hlc,
    State.wr_rig, Bool.not_true, Bool.false_eq_true, if_false, Option.isSome_none]
  rw [if_neg]
  · rfl
  · exact not_or.mpr ⟨hact, hch⟩

/-- Where a load that has begun stands. -/
theorem State.loadBegun_state (s : State) {k : Nat} (src len : Nat) (hk : k < 2) :
    let u := s.loadBegun k src len
    u.rig.load = some ⟨k, src, len⟩ ∧ u.slot k = ⟨.loading, none⟩ ∧ u.slot (1 - k) = s.slot (1 - k)
      ∧ u.fld F.RIG_LOAD_STATUS_code = 1 ∧ u.rd R.RIG_LOAD_ERR_OFS = 0xFFFFFFFF ∧ u.rig.active = s.rig.active ∧ SameMemory s u
      ∧ RegsBut [R.RIG_LOAD_CTRL, R.RIG_LOAD_STATUS, R.RIG_LOAD_ERR_OFS, R.RIG_SLOT_STATE, R.RIG_STATUS] s u := by
  dsimp only [State.loadBegun]
  refine ⟨rfl, State.slot_setSlot_same _ k _, (State.slot_setSlot_other _ _ hk).trans rfl, ?_, ?_, ?_, .of_eq rfl rfl rfl rfl, ?_⟩
  · exact (State.fld_congr rfl _).trans (State.fld_put_same _ _ _ (by decide))
  · refine (State.rd_congr rfl _).trans ((State.rd_put_ne _ _ _ (by decide)).trans ?_)
    exact (State.rd_setSlot _ _ _ (by decide) (by decide)).trans (State.rd_wr_same _ _ _)
  · exact State.setSlot_rig_active _ k _
  · refine RegsBut.of_regs (RegsBut.put (RegsBut.setSlot (RegsBut.wr (RegsBut.put (.refl _ s) _ ?_) _ ?_) _ _ ?_ ?_) _ ?_) rfl
    all_goals decide

theorem exec_rigLoad (m : Master) (v : Word) (s : State) : exec (.rigLoad m v) s =
    done (s.guardedWrite m R.RIG_LOAD_CTRL (fun s => s.rigLoad (putBits v.toNat 0 0 1))) := rfl

/-! ## The end of the copy -/

/-- The source's bytes stand in the slot, and no load runs (R57). -/
def State.copied (s : State) (ld : Load) : State :=
  let u := s.poolWrite (slotBase ld.slot) (s.poolRead ld.src ld.len)
  { u with rig := { u.rig with load := none } }

/-- A verdict on the copied bytes is shown (R83). -/
def State.judged (s : State) (c : LoadCode) : State := (s.put F.RIG_LOAD_STATUS_code c.num).put F.HOST_EVT_rig_load 1

/-- An image that passes is the slot's. -/
theorem State.loadCopied_of_image {s : State} {ld : Load} {im : Image} (hl : s.rig.load = some ld)
    (h : ((s.copied ld).verdict (s.poolRead ld.src ld.len) false).2.2 = some im) :
    s.loadCopied = ((s.copied ld).judged ((s.copied ld).verdict (s.poolRead ld.src ld.len) false).1).setSlot ld.slot
      ⟨if im.full then .validFull else .validFragment, some im⟩ := by
  unfold State.copied at h
  simp only [State.loadCopied, hl, h]
  rfl

/-- An image that fails leaves the slot empty. -/
theorem State.loadCopied_of_fail {s : State} {ld : Load} (hl : s.rig.load = some ld)
    (h : ((s.copied ld).verdict (s.poolRead ld.src ld.len) false).2.2 = none) :
    s.loadCopied = (((s.copied ld).judged ((s.copied ld).verdict (s.poolRead ld.src ld.len) false).1).wr R.RIG_LOAD_ERR_OFS
      ((s.copied ld).verdict (s.poolRead ld.src ld.len) false).2.1).emptySlot ld.slot := by
  unfold State.copied at h
  simp only [State.loadCopied, hl, h]
  rfl

/-- The bytes copied: in the slot the source's, elsewhere what stood. -/
theorem State.memGet_copied (s : State) (ld : Load) (a : Nat) :
    (∀ i, i < ld.len → memGet (s.copied ld).pool (slotBase ld.slot + i) = memGet s.pool (ld.src + i))
      ∧ (a < slotBase ld.slot ∨ slotBase ld.slot + ld.len ≤ a → memGet (s.copied ld).pool a = memGet s.pool a) := by
  have hlen : (s.poolRead ld.src ld.len).length = ld.len := memRead_length ..
  refine ⟨fun i hi => ?_, fun ha => memGet_memWrite_out _ _ _ _ (by rwa [hlen])⟩
  exact (memGet_memWrite_in _ _ _ i (by rwa [hlen])).trans (getElem_memRead ..)

/-- A slot made EMPTY: the other slot, the records in force, the load, DRAM and every register but RIG_SLOT_STATE and RIG_STATUS
stand. -/
theorem State.emptySlot_frame (s : State) {k : Nat} (hk : k < 2) :
    (s.emptySlot k).slot k = ⟨.empty, none⟩ ∧ (s.emptySlot k).slot (1 - k) = s.slot (1 - k)
      ∧ (s.emptySlot k).rig.active = s.rig.active ∧ (s.emptySlot k).rig.load = s.rig.load ∧ (s.emptySlot k).dram = s.dram
      ∧ ∀ o, o ≠ R.RIG_SLOT_STATE → o ≠ R.RIG_STATUS → (s.emptySlot k).rd o = s.rd o := by
  obtain ⟨p, q, h⟩ := s.zeroBanks_frame (992 + 16 * k) 16
  rw [State.emptySlot_eq, h]
  exact ⟨State.slot_setSlot_same _ _ _, State.slot_setSlot_other _ _ hk, State.setSlot_rig_active _ _ _,
    State.setSlot_rig_load _ _ _, rfl, fun o hs hr => State.rd_setSlot _ _ _ hs hr⟩

/-- The code of a verdict, and the event that reports it. -/
theorem State.judged_regs (s : State) (c : LoadCode) :
    (s.judged c).fld F.RIG_LOAD_STATUS_code = c.num ∧ (s.judged c).fld F.HOST_EVT_rig_load = 1
      ∧ (s.judged c).rd R.RIG_LOAD_ERR_OFS = s.rd R.RIG_LOAD_ERR_OFS := by
  refine ⟨?_, State.fld_put_same _ _ _ (by decide), ?_⟩
  · exact ((State.fld_put_off _ _ _ _ (by decide)).trans (State.fld_put_same _ _ _ (by decide))).trans
      (Nat.mod_eq_of_lt c.num_lt)
  · exact (State.rd_put_ne _ _ _ (by decide)).trans (State.rd_put_ne _ _ _ (by decide))

/-- What a load leaves when its image passes. -/
theorem State.loadCopied_passes {s : State} {ld : Load} {im : Image} (hl : s.rig.load = some ld) (hk : ld.slot < 2)
    (h : ((s.copied ld).verdict (s.poolRead ld.src ld.len) false).2.2 = some im) :
    let u := s.loadCopied
    u.rig.load = none ∧ u.rig.active = s.rig.active ∧ u.fld F.HOST_EVT_rig_load = 1 ∧ u.slot (1 - ld.slot) = s.slot (1 - ld.slot)
      ∧ u.dram = s.dram ∧ u.pool = (s.copied ld).pool ∧ u.slot ld.slot = ⟨if im.full then .validFull else .validFragment, some im⟩
      ∧ u.fld F.RIG_LOAD_STATUS_code = 2 ∧ u.rd R.RIG_LOAD_ERR_OFS = s.rd R.RIG_LOAD_ERR_OFS := by
  have hok : ((s.copied ld).verdict (s.poolRead ld.src ld.len) false).1 = .ok := by
    rcases (s.copied ld).verdict_judged (s.poolRead ld.src ld.len) false with ⟨hn, -⟩ | ⟨-, hc⟩
    · rw [h] at hn
      cases hn
    · exact hc
  obtain ⟨hcode, hevt, hofs⟩ := (s.copied ld).judged_regs .ok
  rw [State.loadCopied_of_image hl h, hok]
  exact ⟨State.setSlot_rig_load _ _ _, State.setSlot_rig_active _ _ _,
    (State.fld_setSlot _ _ _ _ (by decide) (by decide)).trans hevt, (State.slot_setSlot_other _ _ hk).trans rfl, rfl, rfl,
    State.slot_setSlot_same _ _ _, (State.fld_setSlot _ _ _ _ (by decide) (by decide)).trans hcode,
    (State.rd_setSlot _ _ _ (by decide) (by decide)).trans hofs⟩

/-- What a load leaves when its image fails. -/
theorem State.loadCopied_fails {s : State} {ld : Load} (hl : s.rig.load = some ld) (hk : ld.slot < 2)
    (h : ((s.copied ld).verdict (s.poolRead ld.src ld.len) false).2.2 = none) :
    let r := (s.copied ld).verdict (s.poolRead ld.src ld.len) false
    let u := s.loadCopied
    u.rig.load = none ∧ u.rig.active = s.rig.active ∧ u.fld F.HOST_EVT_rig_load = 1 ∧ u.slot (1 - ld.slot) = s.slot (1 - ld.slot)
      ∧ u.dram = s.dram
      ∧ (∀ a, memGet u.pool a = if slotBase ld.slot ≤ a ∧ a < slotBase ld.slot + 2097152 then 0 else memGet (s.copied ld).pool a)
      ∧ u.slot ld.slot = ⟨.empty, none⟩ ∧ u.fld F.RIG_LOAD_STATUS_code = r.1.num ∧ 3 ≤ r.1.num
      ∧ u.rd R.RIG_LOAD_ERR_OFS = r.2.1 % 2 ^ 32 := by
  have hnum : 3 ≤ ((s.copied ld).verdict (s.poolRead ld.src ld.len) false).1.num := by
    rcases (s.copied ld).verdict_judged (s.poolRead ld.src ld.len) false with ⟨-, hc⟩ | ⟨hn, -⟩
    · exact hc
    · exact absurd h hn
  rw [State.loadCopied_of_fail hl h]
  generalize (s.copied ld).verdict (s.poolRead ld.src ld.len) false = r at *
  obtain ⟨hcode, hevt, -⟩ := (s.copied ld).judged_regs r.1
  obtain ⟨hslot, hother, hact, hload, hdram, hrd⟩ := (((s.copied ld).judged r.1).wr R.RIG_LOAD_ERR_OFS r.2.1).emptySlot_frame hk
  refine ⟨hload.trans rfl, hact.trans rfl, ?_, hother.trans rfl, hdram.trans rfl, fun a => State.memGet_emptySlot _ _ a, hslot,
    ?_, hnum, (hrd _ (by decide) (by decide)).trans (State.rd_wr_same _ _ _)⟩
  · rw [← hevt]
    exact congrArg (bitsOf · 3 3) ((hrd _ (by decide) (by decide)).trans (State.rd_wr_ne _ _ (by decide)))
  · rw [← hcode]
    exact congrArg (bitsOf · 3 0) ((hrd _ (by decide) (by decide)).trans (State.rd_wr_ne _ _ (by decide)))

/-- A load with a good source begins. -/
theorem rigLoad_answers {m : Master} {v : Word} {s : State} (ha : Admitted s m R.RIG_LOAD_CTRL) (hl : s.rig.load = none)
    (hlc : s.sys.fuses.lcState ≠ 3) (hlen : s.rd R.RIG_LOAD_LEN % 8 = 0) (hmin : 176 ≤ s.rd R.RIG_LOAD_LEN)
    (hmax : s.rd R.RIG_LOAD_LEN ≤ 2097152) (hsrc : s.rd R.RIG_LOAD_SRC % 8 = 0)
    (hend : s.rd R.RIG_LOAD_SRC + s.rd R.RIG_LOAD_LEN ≤ 992 * bankBytes)
    (hact : (s.slot (bitsOf v.toNat 1 1)).st ≠ .active)
    (hch : s.rig.change.map (fun c => c.slot) ≠ some (bitsOf v.toNat 1 1)) :
    Answers (.rigLoad m v) s (settle (s.loadBegun (bitsOf v.toNat 1 1) (s.rd R.RIG_LOAD_SRC) (s.rd R.RIG_LOAD_LEN))) := by
  have hk : bitsOf (putBits v.toNat 0 0 1) 1 1 = bitsOf v.toNat 1 1 := bitsOf_putBits_ne _ _ (.inr (by decide))
  have hgo : (putBits v.toNat 0 0 1).testBit 0 = true := by rw [putBits_testBit]; rfl
  have hans := answers_of_admitted ha (exec_rigLoad m v s)
  rw [← hk] at hact hch
  rw [State.rigLoad_begins hgo hl hlc hlen hmin hmax hsrc hend hact hch, hk] at hans
  exact hans

/-- Settles O33: a load begins; its copy passes the checks or fails them. -/
theorem imageLoads : Obligations.ImageLoads := by
  unfold Obligations.ImageLoads
  constructor
  · intro m v s ha hl hlc src len k hlen hmin hmax hsrc hend hact hch
    have hk : k < 2 := bitsOf_lt _ 1 1
    have hans := rigLoad_answers ha hl hlc hlen hmin hmax hsrc hend hact hch
    obtain ⟨hload, hslot, hother, hcode, hofs, hactive, hmem, hregs⟩ := s.loadBegun_state src len hk
    generalize s.loadBegun k src len = u at *
    refine ⟨settle u, hans, by simp [hload], by simp [hslot], by simp [hother], ?_, ?_, by simp [hactive], hmem.settle, hregs.settle⟩
    · rw [settle_fld _ _ (not_sendCounter (.inl (by decide))), hcode]
    · rw [settle_rd _ _ (not_sendCounter (.inl (by decide))), hofs]
  · intro ld s hl hk hsrc hlen b s1 r
    have hans : Answers .loadCopyComplete s (settle s.loadCopied) := rfl
    have hpool := s.memGet_copied ld
    rcases hr : r.2.2 with _ | im
    · obtain ⟨hload, hact, hevt, hother, hdram, hmem, hslot, hcode, hnum, hofs⟩ := State.loadCopied_fails hl hk hr
      generalize s.loadCopied = u at *
      refine ⟨settle u, hans, by simp [hload], by simp [hact], ?_, by simp [hother], by simp [hdram], fun a ha => ?_,
        (by rintro _ ⟨⟩), fun _ => ⟨by simp [hslot], ?_, hnum, ?_, fun i hi => ?_⟩⟩
      · rw [settle_fld _ _ (not_sendCounter (.inr (by decide))), hevt]
      · rw [settle_pool, hmem, if_neg (by omega), (hpool a).2 (by omega)]
      · rw [settle_fld _ _ (not_sendCounter (.inl (by decide))), hcode]; rfl
      · rw [settle_rd _ _ (not_sendCounter (.inl (by decide))), hofs]; rfl
      · rw [settle_pool, hmem, if_pos (by omega)]
    · obtain ⟨hload, hact, hevt, hother, hdram, hmem, hslot, hcode, hofs⟩ := State.loadCopied_passes hl hk hr
      generalize s.loadCopied = u at *
      refine ⟨settle u, hans, by simp [hload], by simp [hact], ?_, by simp [hother], by simp [hdram], fun a ha => ?_,
        fun im' him => ⟨?_, ?_, ?_, fun i hi => ?_⟩, (by rintro ⟨⟩)⟩
      · rw [settle_fld _ _ (not_sendCounter (.inr (by decide))), hevt]
      · rw [settle_pool, hmem, (hpool a).2 (by omega)]
      · obtain rfl := Option.some.inj him
        rw [settle_slot, hslot]
      · rw [settle_fld _ _ (not_sendCounter (.inl (by decide))), hcode]
      · rw [settle_rd _ _ (not_sendCounter (.inl (by decide))), hofs]
      · rw [settle_pool, hmem, (hpool 0).1 i hi]

end Sys2Proof.Machine
end

section
/-! Requests for a change of structure (R60 to R62, R67, R85). -/
namespace Sys2Proof.Machine

/-- A request ends at once with a code (R60, R61, R67). -/
def State.refuseChange (s : State) (code : Nat) : State := (s.put F.RIG_CHANGE_STATUS_state code).put F.HOST_EVT_rig_change 1

/-- A request becomes the pending change (R61). -/
def State.pendChange (s : State) (c : Change) : State :=
  (({ s with rig := { s.rig with change := some c } } : State).put F.RIG_CHANGE_STATUS_state 1).put F.RIG_STATUS_change_pending 1

/-- With no change under way a request is refused INVALID, LATE or BUSY, in that order, or becomes pending. -/
theorem State.changeGo_eq {s : State} (h : s.rig.change = none) (v : Nat) :
    s.changeGo v =
      if s.changeValid v = false then s.refuseChange 6
      else if s.latchOfFrame (s.rd R.RIG_CHANGE_FRAME) < s.nowNs + 20000000 then s.refuseChange 4
      else if (s.resultOf (bitsOf v 3 2 = 2) (s.changeSlot v)).map (fun im => s.usersOk im.bodies) = some false then s.refuseChange 5
      else s.pendChange ⟨bitsOf v 3 2 = 2, bitsOf v 23 16, s.rd R.RIG_CHANGE_FRAME, s.changeSlot v, false, 0⟩ := by
  simp only [State.changeGo, h, Option.isSome_none, Bool.false_eq_true, if_false, Bool.not_eq_true']
  rfl

/-- The conditions of R61 do not look at RIG_CHANGE_CTRL, so they hold after its write as before it. -/
theorem State.changeValid_wr (s : State) (x v : Nat) : (s.wr R.RIG_CHANGE_CTRL x).changeValid v = s.changeValid v := by
  have h1 : (s.wr R.RIG_CHANGE_CTRL x).rd R.RIG_CHANGE_FRAME = s.rd R.RIG_CHANGE_FRAME := s.rd_wr_ne _ (by decide)
  have h2 : (s.wr R.RIG_CHANGE_CTRL x).rd R.ANCHOR_FC_FRAME = s.rd R.ANCHOR_FC_FRAME := s.rd_wr_ne _ (by decide)
  simp only [State.changeValid, h1, h2]
  rfl

/-- A request is judged by the state before its write, but for the running users, whom it meets after it. -/
theorem State.changeGo_wr_eq {s : State} (h : s.rig.change = none) (x v : Nat) :
    (s.wr R.RIG_CHANGE_CTRL x).changeGo v =
      if s.changeValid v = false then (s.wr R.RIG_CHANGE_CTRL x).refuseChange 6
      else if s.latchOfFrame (s.rd R.RIG_CHANGE_FRAME) < s.nowNs + 20000000 then (s.wr R.RIG_CHANGE_CTRL x).refuseChange 4
      else if ((s.wr R.RIG_CHANGE_CTRL x).resultOf (bitsOf v 3 2 = 2) (s.changeSlot v)).map
          (fun im => (s.wr R.RIG_CHANGE_CTRL x).usersOk im.bodies) = some false then (s.wr R.RIG_CHANGE_CTRL x).refuseChange 5
      else (s.wr R.RIG_CHANGE_CTRL x).pendChange
        ⟨bitsOf v 3 2 = 2, bitsOf v 23 16, s.rd R.RIG_CHANGE_FRAME, s.changeSlot v, false, 0⟩ := by
  have hf : (s.wr R.RIG_CHANGE_CTRL x).rd R.RIG_CHANGE_FRAME = s.rd R.RIG_CHANGE_FRAME := s.rd_wr_ne _ (by decide)
  have hn : (s.wr R.RIG_CHANGE_CTRL x).rig.change = none := h
  rw [State.changeGo_eq hn, State.changeValid_wr, hf]
  rfl

/-- The registers that a request or its cancelling writes. -/
def changeRegs : List Nat := [R.RIG_CHANGE_CTRL, R.RIG_CHANGE_STATUS, R.RIG_STATUS, R.HOST_EVT]

theorem State.refuseChange_leaves (s : State) (code : Nat) :
    (s.refuseChange code).rig = s.rig ∧ (s.refuseChange code).fld F.RIG_CHANGE_STATUS_state = code % 8
      ∧ (s.refuseChange code).fld F.HOST_EVT_rig_change = 1 :=
  ⟨rfl, (State.fld_put_off _ _ _ _ (by decide)).trans (State.fld_put_same _ _ _ (by decide)), State.fld_put_same _ _ _ (by decide)⟩

theorem State.pendChange_leaves (s : State) (c : Change) :
    (s.pendChange c).rig.change = some c ∧ (s.pendChange c).fld F.RIG_CHANGE_STATUS_state = 1
      ∧ (s.pendChange c).fld F.RIG_STATUS_change_pending = 1 :=
  ⟨rfl, (State.fld_put_off _ _ _ _ (by decide)).trans (State.fld_put_same _ _ _ (by decide)), State.fld_put_same _ _ _ (by decide)⟩

theorem RegsBut.refuseChange {s t : State} (h : RegsBut changeRegs s t) (code : Nat) : RegsBut changeRegs s (t.refuseChange code) :=
  (h.put _ (by decide)).put _ (by decide)

theorem RegsBut.pendChange {s t : State} (h : RegsBut changeRegs s t) (c : Change) : RegsBut changeRegs s (t.pendChange c) :=
  ((h.of_regs rfl).put _ (by decide)).put _ (by decide)

/-- A request writes its own registers and no memory. -/
theorem State.changeGo_frame {s t : State} (h : t.rig.change = none) (hr : RegsBut changeRegs s t) (hm : SameMemory s t) (v : Nat) :
    RegsBut changeRegs s (t.changeGo v) ∧ SameMemory s (t.changeGo v) := by
  rw [State.changeGo_eq h]
  split_ifs
  · exact ⟨hr.refuseChange _, hm⟩
  · exact ⟨hr.refuseChange _, hm⟩
  · exact ⟨hr.refuseChange _, hm⟩
  · exact ⟨hr.pendChange _, hm⟩

theorem exec_switch (m : Master) (v : Word) (s : State) : exec (.switch m v) s =
    done (s.guardedWrite m R.RIG_CHANGE_CTRL (fun s => s.changeWrite (putBits (putBits v.toNat 3 2 1) 0 0 1))) := rfl

theorem exec_reRig (m : Master) (v : Word) (s : State) : exec (.reRig m v) s =
    done (s.guardedWrite m R.RIG_CHANGE_CTRL (fun s => s.changeWrite (putBits (putBits v.toNat 3 2 2) 0 0 1))) := rfl

theorem exec_cancel (m : Master) (v : Word) (s : State) : exec (.cancel m v) s =
    done (s.guardedWrite m R.RIG_CHANGE_CTRL (fun s => s.changeWrite (putBits v.toNat 1 1 1))) := rfl

/-- The word that a request writes: its kind, `go`, and the region and cancel bit of the operand. -/
theorem changeOperands (v : Nat) (rerig : Bool) :
    let w := putBits (putBits v 3 2 (if rerig then 2 else 1)) 0 0 1
    decide (bitsOf w 3 2 = 2) = rerig ∧ bitsOf w 23 16 = bitsOf v 23 16 ∧ w.testBit 1 = v.testBit 1 ∧ w.testBit 0 = true := by
  refine ⟨?_, ?_, ?_, by rw [putBits_testBit]; rfl⟩
  · rw [bitsOf_putBits_ne _ _ (.inr (by decide)), bitsOf_putBits_same]
    cases rerig <;> rfl
  · rw [bitsOf_putBits_ne _ _ (.inr (by decide)), bitsOf_putBits_ne _ _ (.inr (by decide))]
  · rw [testBit_putBits_ne _ _ (.inr (by decide)), testBit_putBits_ne _ _ (.inl (by decide))]

/-- A write with `go` and without `cancel` is the request alone. -/
theorem State.changeWrite_go (s : State) {v : Nat} (hc : v.testBit 1 = false) (hg : v.testBit 0 = true) :
    s.changeWrite v = (s.regWrite R.RIG_CHANGE_CTRL v).changeGo v := by
  simp only [State.changeWrite, hc, hg, Bool.false_eq_true, if_false, if_true]

/-- A write with `cancel` and without `go` is the cancelling alone. -/
theorem State.changeWrite_cancel (s : State) {v : Nat} (hc : v.testBit 1 = true) (hg : v.testBit 0 = false) :
    s.changeWrite v = (s.regWrite R.RIG_CHANGE_CTRL v).changeCancel := by
  simp only [State.changeWrite, hc, hg, Bool.false_eq_true, if_false, if_true]

/-- A change not yet applying is withdrawn by a cancel (R62). -/
theorem State.changeCancel_pending {s : State} {c : Change} (h : s.rig.change = some c) (ha : c.applying = false) :
    s.changeCancel = s.changeEnd 7 := by
  simp only [State.changeCancel, h, ha, Bool.false_eq_true, if_false]

/-- The end of a change: what RIG shows, and that nothing but the change is gone (R85). -/
theorem State.changeEnd_leaves (s : State) (code : Nat) :
    (s.changeEnd code).rig = { s.rig with change := none, busyLater := false }
      ∧ (s.changeEnd code).fld F.RIG_CHANGE_STATUS_state = (if s.rig.busyLater then 5 else code) % 8
      ∧ (s.changeEnd code).fld F.RIG_STATUS_change_pending = 0 ∧ (s.changeEnd code).fld F.HOST_EVT_rig_change = 1
      ∧ ∃ r, s.changeEnd code = { s with rig := { s.rig with change := none, busyLater := false }, regs := r } := by
  refine ⟨rfl, ?_, ?_, State.fld_put_same _ _ _ (by decide), _, rfl⟩
  · exact (State.fld_put_off _ _ _ _ (by decide)).trans
      ((State.fld_put_off _ _ _ _ (by decide)).trans (State.fld_put_same _ _ _ (by decide)))
  · exact (State.fld_put_off _ _ _ _ (by decide)).trans (State.fld_put_same _ _ _ (by decide))

theorem RegsBut.changeEnd {l : List Nat} {s t : State} (h : RegsBut l s t) (code : Nat) (h1 : R.RIG_CHANGE_STATUS ∈ l)
    (h2 : R.RIG_STATUS ∈ l) (h3 : R.HOST_EVT ∈ l) : RegsBut l s (t.changeEnd code) :=
  (((h.of_regs rfl).put _ h1).put _ h2).put _ h3

/-- What RIG_CHANGE_STATUS, RIG_STATUS and HOST_EVT show stands through the closing step. -/
theorem settle_changeFields (s : State) :
    (settle s).fld F.RIG_CHANGE_STATUS_state = s.fld F.RIG_CHANGE_STATUS_state
      ∧ (settle s).fld F.RIG_STATUS_change_pending = s.fld F.RIG_STATUS_change_pending
      ∧ (settle s).fld F.HOST_EVT_rig_change = s.fld F.HOST_EVT_rig_change :=
  ⟨settle_fld s _ (not_sendCounter (.inl (by decide))), settle_fld s _ (not_sendCounter (.inl (by decide))),
    settle_fld s _ (not_sendCounter (.inr (by decide)))⟩

/-- A SWITCH or RE_RIG answers the closing step of its write. -/
theorem request_answers {m : Master} {c : Instr} {rerig : Bool} {v : Word} {s : State} (ha : Admitted s m R.RIG_CHANGE_CTRL)
    (h : (c = .switch m v ∧ rerig = false) ∨ (c = .reRig m v ∧ rerig = true)) :
    Answers c s (settle (s.changeWrite (putBits (putBits v.toNat 3 2 (if rerig then 2 else 1)) 0 0 1))) := by
  rcases h with ⟨rfl, rfl⟩ | ⟨rfl, rfl⟩
  · have hans := answers_of_admitted ha (exec_switch m v s)
    exact hans
  · have hans := answers_of_admitted ha (exec_reRig m v s)
    exact hans

/-- A cancel of a change that has not begun to apply withdraws it (R62). -/
theorem cancel_answers {m : Master} {v : Word} {c : Change} {s : State} (ha : Admitted s m R.RIG_CHANGE_CTRL)
    (hch : s.rig.change = some c) (happ : c.applying = false) (hlater : s.rig.busyLater = false)
    (hgo : v.toNat.testBit 0 = false) :
    ∃ t, Answers (.cancel m v) s t ∧ t.rig.change = none ∧ t.fld F.RIG_CHANGE_STATUS_state = 7
      ∧ t.fld F.RIG_STATUS_change_pending = 0 ∧ t.fld F.HOST_EVT_rig_change = 1
      ∧ OnlyRegsAnd changeRegs (fun t s => { s with rig := { s.rig with change := t.rig.change } }) s t := by
  have hans := answers_of_admitted ha (exec_cancel m v s)
  have hbit1 : (putBits v.toNat 1 1 1).testBit 1 = true := by rw [putBits_testBit]; rfl
  have hbit0 : (putBits v.toNat 1 1 1).testBit 0 = false := (testBit_putBits_ne _ _ (.inl (by decide))).trans hgo
  obtain ⟨x, hx⟩ := s.regWrite_changeCtrl (putBits v.toNat 1 1 1)
  rw [State.changeWrite_cancel s hbit1 hbit0, hx, State.changeCancel_pending (by exact hch) happ] at hans
  obtain ⟨hrig, hcode, hpend, hevt, r, hquiet⟩ := (s.wr R.RIG_CHANGE_CTRL x).changeEnd_leaves 7
  have hregs : RegsBut changeRegs s ((s.wr R.RIG_CHANGE_CTRL x).changeEnd 7) :=
    RegsBut.changeEnd ((RegsBut.refl _ s).wr x (by decide)) 7 (by decide) (by decide) (by decide)
  generalize (s.wr R.RIG_CHANGE_CTRL x).changeEnd 7 = u at *
  obtain ⟨hc, hp, he⟩ := settle_changeFields u
  refine ⟨settle u, hans, by simp [hrig], ?_, by rw [hp, hpend], by rw [he, hevt], hregs.settle, ?_⟩
  · rw [hc, hcode, State.wr_rig, hlater]; rfl
  · have hsame : ({ s.rig with change := none, busyLater := false } : Rig) = { s.rig with change := none } := by rw [← hlater]
    beta_reduce
    rw [settle_rig_change, hrig]
    refine Undisturbed.settle ?_
    rw [hquiet, State.wr_rig, hsame]
    rfl

/-- Settles O34: a request by the conditions that it meets, and a cancel. -/
theorem changeRequests : Obligations.ChangeRequests := by
  unfold Obligations.ChangeRequests
  constructor
  · intro m c rerig v s ha hnone hcancel hc w s1 late keeps
    obtain ⟨hkind, hregion, hbit1, hbit0⟩ := changeOperands v.toNat rerig
    have hans := request_answers ha hc
    rw [State.changeWrite_go s (hbit1.trans hcancel) hbit0] at hans
    obtain ⟨x, hx⟩ := s.regWrite_changeCtrl w
    have hgo := State.changeGo_wr_eq hnone x w
    obtain ⟨hregs, hmem⟩ := State.changeGo_frame (s := s) (t := s.wr R.RIG_CHANGE_CTRL x) hnone
      ((RegsBut.refl _ s).wr x (by decide)) (.of_eq rfl rfl rfl rfl) w
    obtain ⟨hst, hpend, hevt⟩ := settle_changeFields ((s.wr R.RIG_CHANGE_CTRL x).changeGo w)
    have hs1 : s1 = s.wr R.RIG_CHANGE_CTRL x := hx
    rw [hx] at hans
    rw [hkind, hregion, ← hs1] at hgo
    rw [← hs1] at hans hregs hmem hst hpend hevt
    refine ⟨_, hans, hmem.settle, hregs.settle, fun hv hlate hkeeps => ?_, fun hv hlate => ?_, fun hv => ?_⟩
    · obtain ⟨h1, h2, h3⟩ := s1.pendChange_leaves
        ⟨rerig, bitsOf v.toNat 23 16, s.rd R.RIG_CHANGE_FRAME, s.changeSlot w, false, 0⟩
      rw [settle_rig_change, hst, hpend, hgo, if_neg (by simp [hv]), if_neg hlate, if_neg hkeeps]
      exact ⟨h1, h2, h3⟩
    · obtain ⟨h1, h2, h3⟩ := s1.refuseChange_leaves 4
      rw [settle_rig_change, hst, hevt, hgo, if_neg (by simp [hv]), if_pos hlate, h1, h2, h3, hs1]
      exact ⟨hnone, rfl, rfl⟩
    · obtain ⟨h1, h2, h3⟩ := s1.refuseChange_leaves 6
      rw [settle_rig_change, hst, hevt, hgo, if_pos hv, h1, h2, h3, hs1]
      exact ⟨hnone, rfl, rfl⟩
  · exact fun m v c s ha hch happ hlater hgo => cancel_answers ha hch happ hlater hgo

end Sys2Proof.Machine
end

section
/-! Islands that enter reset (R73, R524, R537): what they lose is never another island's clock and reset state, nor a BUSY
ending that waits for the change in progress. -/
namespace Sys2Proof.Machine

/-- An operation leaves every island's clock and reset state, and a waiting BUSY ending, as they are. -/
def KeepsIslands (s t : State) : Prop := t.isl = s.isl ∧ t.rig.busyLater = s.rig.busyLater

theorem KeepsIslands.refl (s : State) : KeepsIslands s s := ⟨rfl, rfl⟩

theorem KeepsIslands.trans {s t u : State} (h : KeepsIslands s t) (k : KeepsIslands t u) : KeepsIslands s u :=
  ⟨k.1.trans h.1, k.2.trans h.2⟩

theorem KeepsIslands.foldl {α : Type} {f : State → α → State} (hf : ∀ s x, KeepsIslands s (f s x)) (l : List α) (s : State) :
    KeepsIslands s (l.foldl f s) := by
  induction l generalizing s with
  | nil => exact .refl s
  | cons x l ih => exact (hf s x).trans (ih _)

/-- An operation after an update of other parts of the state. -/
theorem KeepsIslands.after {s t u : State} (k : KeepsIslands t u) (hi : t.isl = s.isl) (hb : t.rig.busyLater = s.rig.busyLater) :
    KeepsIslands s u := ⟨k.1.trans hi, k.2.trans hb⟩

/-- An operation before an update of other parts of the state. -/
theorem KeepsIslands.before {s t u : State} (k : KeepsIslands s t) (hi : u.isl = t.isl) (hb : u.rig.busyLater = t.rig.busyLater) :
    KeepsIslands s u := ⟨hi.trans k.1, hb.trans k.2⟩

/-- An operation between two such updates. -/
theorem KeepsIslands.within {s t u w : State} (k : KeepsIslands t u) (hi : w.isl = u.isl) (hb : w.rig.busyLater = u.rig.busyLater)
    (hi' : t.isl = s.isl) (hb' : t.rig.busyLater = s.rig.busyLater) : KeepsIslands s w :=
  (k.after hi' hb').before hi hb

/-! ## The discarding of tokens (R73) -/

theorem State.keepsIslands_rawCut (s : State) (id : Nat) : KeepsIslands s (s.rawCut id) := by
  refine KeepsIslands.foldl (fun s q => ?_) _ s
  split
  · dsimp only
    split
    · split <;> exact ⟨rfl, rfl⟩
    · exact ⟨rfl, rfl⟩
  · exact .refl s

theorem State.keepsIslands_hevcCut (s : State) (id : Nat) : KeepsIslands s (s.hevcCut id) := by
  refine KeepsIslands.foldl (fun s k => ?_) _ s
  split
  · dsimp only
    split
    · split <;> exact ⟨rfl, rfl⟩
    · exact ⟨rfl, rfl⟩
  · split <;> exact ⟨rfl, rfl⟩

theorem State.keepsIslands_wallCut (s : State) (id : Nat) (lost : Bool) : KeepsIslands s (s.wallCut id lost) := by
  refine KeepsIslands.foldl (fun s n => ?_) _ s
  split
  · dsimp only
    split
    · split <;> exact ⟨rfl, rfl⟩
    · split
      · split <;> exact ⟨rfl, rfl⟩
      · exact .refl s
  · exact .refl s

/-- The engines that a strand feeds learn of its cut (R73, R110). -/
theorem State.keepsIslands_cuts (s : State) (id : Nat) (lost : Bool) :
    KeepsIslands s (((s.rawCut id).hevcCut id).wallCut id lost) :=
  (s.keepsIslands_rawCut id).trans ((State.keepsIslands_hevcCut _ id).trans (State.keepsIslands_wallCut _ id lost))

theorem State.keepsIslands_flushStrand (s : State) (id : Nat) (src dst : Bool) : KeepsIslands s (s.flushStrand id src dst) := by
  unfold State.flushStrand
  dsimp only
  split
  · exact (State.keepsIslands_cuts _ _ _).after rfl rfl
  · exact ⟨rfl, rfl⟩

theorem State.keepsIslands_flushIsland (s : State) (i : Island) : KeepsIslands s (s.flushIsland i) := by
  refine KeepsIslands.foldl (fun s r => ?_) _ s
  split
  · split
    · exact State.keepsIslands_flushStrand ..
    · exact .refl s
  · exact .refl s

/-! ## What the islands lose -/

theorem State.keepsIslands_dropFrames (s : State) : KeepsIslands s s.dropFrames := by
  unfold State.dropFrames
  refine KeepsIslands.after (KeepsIslands.foldl (fun s r => ?_) _ _) rfl rfl
  split
  · split
    · exact State.keepsIslands_cuts ..
    · exact .refl s
  · exact .refl s

theorem State.keepsIslands_clockToRef (s : State) : KeepsIslands s s.clockToRef := by
  unfold State.clockToRef
  dsimp only
  split <;> split <;> exact ⟨rfl, rfl⟩

theorem State.keepsIslands_dropWall (s : State) : KeepsIslands s s.dropWall := by
  unfold State.dropWall
  exact (State.keepsIslands_clockToRef _).within rfl rfl rfl rfl

theorem State.keepsIslands_markAllTiles (s : State) : KeepsIslands s s.markAllTiles := by
  unfold State.markAllTiles
  refine KeepsIslands.before (KeepsIslands.foldl (fun _ _ => ?_) _ s) rfl rfl
  exact ⟨rfl, rfl⟩

theorem State.keepsIslands_pushCut (s : State) : KeepsIslands s s.pushCut := by
  unfold State.pushCut
  split
  · exact s.keepsIslands_markAllTiles.before rfl rfl
  · exact .refl s

theorem State.keepsIslands_settleBank (s : State) (b : Nat) : KeepsIslands s (s.settleBank b) := by
  unfold State.settleBank
  split <;> exact ⟨rfl, rfl⟩

/-- Requests that reach DRAM touch no island. -/
theorem DramServed.keepsIslands {s t : State} (h : DramServed s t) : KeepsIslands s t := by
  obtain ⟨-, _, _, _, _, rfl⟩ := h
  exact ⟨rfl, rfl⟩

theorem State.keepsIslands_drainChannels (s : State) : KeepsIslands s s.drainChannels := by
  unfold State.drainChannels
  exact (DramServed.foldl State.dramServed_issue _ s).keepsIslands.before rfl rfl

/-- What an island's reset clears is its own (R524). -/
theorem State.keepsIslands_clearIsland (s : State) (wide chip : Bool) (i : Island) : KeepsIslands s (s.clearIsland wide chip i) := by
  unfold State.clearIsland
  cases i with
  | sys => exact .refl s
  | anchor => exact (State.keepsIslands_dropWall _).within rfl rfl rfl rfl
  | memc =>
    dsimp only
    split
    · exact ⟨rfl, rfl⟩
    · exact s.keepsIslands_drainChannels.before rfl rfl
  | pool =>
    dsimp only
    split
    · exact ⟨rfl, rfl⟩
    · exact (KeepsIslands.foldl (fun _ _ => State.keepsIslands_settleBank ..) _ _).within rfl rfl rfl rfl
  | net => exact s.keepsIslands_pushCut.before rfl rfl
  | head => exact (State.keepsIslands_dropFrames _).within rfl rfl rfl rfl
  | dev => exact (State.keepsIslands_dropFrames _).within rfl rfl rfl rfl
  | wall => exact (State.keepsIslands_dropWall _).within rfl rfl rfl rfl
  | mgt => exact ⟨rfl, rfl⟩
  | host => exact ⟨rfl, rfl⟩
  | vault => exact ⟨rfl, rfl⟩
  | rawc => exact ⟨rfl, rfl⟩
  | hevc => exact ⟨rfl, rfl⟩
  | aud => exact ⟨rfl, rfl⟩

/-! ## The islands held (R88, R524) -/

theorem islandOf_code (i : Island) : islandOf i.code = some i := by
  cases i <;> rfl

theorem Island.code_injective : Function.Injective Island.code := fun i j h =>
  Option.some.inj ((islandOf_code i).symm.trans (h ▸ islandOf_code j))

theorem State.island_of_ne_sys (s : State) {i : Island} (h : i ≠ .sys) : s.island i = mapGet .held s.isl i.code := by
  cases i with
  | sys => exact absurd rfl h
  | _ => rfl

/-- SYS is never among the islands held. -/
theorem State.held_sys (s : State) : s.held .sys = false := rfl

theorem State.held_holdIsland_same (s : State) {i : Island} (h : i ≠ .sys) : (s.holdIsland i).held i = true := by
  rw [State.held, State.island_of_ne_sys _ h]
  simp [State.holdIsland, State.setIsland, IslState.held]

theorem State.held_holdIsland_ne (s : State) {i j : Island} (h : i ≠ j) : (s.holdIsland j).held i = s.held i := by
  by_cases hi : i = .sys
  · subst hi; rfl
  · rw [State.held, State.held, State.island_of_ne_sys _ hi, State.island_of_ne_sys _ hi]
    simp [State.holdIsland, State.setIsland, mapGet_mapSet_ne _ _ _ (Island.code_injective.ne h)]

/-- An island enters reset: its state is cleared and its clock stops (R88, R524). -/
def State.resetIsland (wide chip : Bool) (s : State) (i : Island) : State := (s.clearIsland wide chip i).holdIsland i

/-- The islands of a list are held after they have entered reset one after another, and every other is as it was. -/
theorem State.held_resetIslands (wide chip : Bool) (l : List Island) (s : State) (i : Island) :
    (i ∈ l → i ≠ .sys → (l.foldl (State.resetIsland wide chip) s).held i = true)
      ∧ (i ∉ l → (l.foldl (State.resetIsland wide chip) s).held i = s.held i) := by
  have hclear : ∀ (s : State) (j : Island), (s.clearIsland wide chip j).held i = s.held i := fun s j =>
    State.held_congr (s.keepsIslands_clearIsland wide chip j).1 i
  induction l generalizing s with
  | nil => exact ⟨fun h => absurd h List.not_mem_nil, fun _ => rfl⟩
  | cons j l ih =>
    obtain ⟨hin, hout⟩ := ih (State.resetIsland wide chip s j)
    refine ⟨fun h hi => ?_, fun h => ?_⟩
    · by_cases hl : i ∈ l
      · exact hin hl hi
      · obtain rfl : i = j := (List.mem_cons.mp h).resolve_right hl
        exact (hout hl).trans (State.held_holdIsland_same _ hi)
    · obtain ⟨hj, hl⟩ := not_or.mp (List.mem_cons.not.mp h)
      exact (hout hl).trans ((State.held_holdIsland_ne _ hj).trans (hclear s j))

theorem State.busyLater_resetIslands (wide chip : Bool) (l : List Island) (s : State) :
    (l.foldl (State.resetIsland wide chip) s).rig.busyLater = s.rig.busyLater := by
  induction l generalizing s with
  | nil => rfl
  | cons j l ih => exact (ih _).trans (s.keepsIslands_clearIsland wide chip j).2

/-- Islands enter reset: those named are held, every other is as it was, and a waiting BUSY ending stands. -/
theorem State.enterReset_leaves (s : State) (wide chip : Bool) (l : List Island) (i : Island) :
    (i ∈ l → i ≠ .sys → (s.enterReset wide chip l).held i = true) ∧ (i ∉ l → (s.enterReset wide chip l).held i = s.held i)
      ∧ (s.enterReset wide chip l).rig.busyLater = s.rig.busyLater := by
  have hf : KeepsIslands s (l.foldl (fun (s : State) i => s.flushIsland i) s) :=
    KeepsIslands.foldl State.keepsIslands_flushIsland l s
  obtain ⟨hin, hout⟩ := State.held_resetIslands wide chip l (l.foldl (fun (s : State) i => s.flushIsland i) s) i
  exact ⟨hin, fun h => (hout h).trans (State.held_congr hf.1 i), (State.busyLater_resetIslands wide chip l _).trans hf.2⟩

end Sys2Proof.Machine
end

section
/-! The end of a change of structure (R63, R64, R66, R85). -/
namespace Sys2Proof.Machine

/-- Islands that a change leaves absent enter reset, and the records that it has replaced are forgotten (R63, R64). -/
def State.changeCleared (s : State) : State :=
  let u := s.enterReset false false (s.rig.stopping.filter s.runs)
  { u with rig := { u.rig with stopping := [], before := none, oldUnits := [] } }

/-- A change whose old work is done and whose banks are zeroed ends DONE. -/
theorem exec_changeDone_of_due {s : State} {c : Change} (hc : s.rig.change = some c) (ha : c.applying = true)
    (ho : s.oldWork c.since = false) (hz : s.rig.zeroing = []) (hw : s.rig.zeroWait = []) :
    exec .changeDone s = done (s.changeCleared.changeEnd 3) := by
  show execChangeDone s = _
  simp only [execChangeDone, hc, ha, ho, hz, hw, Bool.not_false, List.isEmpty_nil, Bool.and_self, if_true]
  rfl

/-- The islands left absent are held, every other island is as it was, and a waiting BUSY ending still waits. -/
theorem State.changeCleared_leaves (s : State) (i : Island) :
    (i ∈ s.rig.stopping → i ≠ .sys → s.changeCleared.held i = true) ∧ (i ∉ s.rig.stopping → s.changeCleared.held i = s.held i)
      ∧ s.changeCleared.rig.busyLater = s.rig.busyLater := by
  obtain ⟨hin, hout, hbusy⟩ := s.enterReset_leaves false false (s.rig.stopping.filter s.runs) i
  refine ⟨fun h hi => ?_, fun h => hout fun hf => h (List.mem_filter.mp hf).1, hbusy⟩
  cases hr : s.runs i with
  | true => exact hin (List.mem_filter.mpr ⟨h, hr⟩) hi
  | false =>
    have hheld : s.held i = true := by simpa [State.runs, State.held] using hr
    exact (hout fun hf => by simp [hr] at hf).trans hheld

theorem State.changeCleared_of_none {s : State} (h : s.rig.stopping = []) :
    s.changeCleared = { s with rig := { s.rig with stopping := [], before := none, oldUnits := [] } } := by
  simp only [State.changeCleared, h, List.filter_nil]
  rfl

/-- The end of a change that is due. -/
theorem changeDone_answers {s : State} {c : Change} (hc : s.rig.change = some c) (ha : c.applying = true)
    (ho : s.oldWork c.since = false) (hz : s.rig.zeroing = []) (hw : s.rig.zeroWait = []) :
    ∃ t, Answers .changeDone s t ∧ t.rig.change = none ∧ t.rig.stopping = [] ∧ t.rig.before = none
      ∧ (∀ i ∈ s.rig.stopping, i ≠ .sys → t.held i = true) ∧ (∀ i, i ∉ s.rig.stopping → t.held i = s.held i)
      ∧ t.fld F.RIG_CHANGE_STATUS_state = (if s.rig.busyLater then 5 else 3)
      ∧ t.fld F.RIG_STATUS_change_pending = 0 ∧ t.fld F.HOST_EVT_rig_change = 1
      ∧ (s.rig.stopping = [] → RegsBut [R.RIG_CHANGE_STATUS, R.RIG_STATUS, R.HOST_EVT] s t ∧ SameMemory s t) := by
  have hans := answers_settle_of_exec_eq_done (exec_changeDone_of_due hc ha ho hz hw)
  have hfree : s.rig.stopping = [] → RegsBut [R.RIG_CHANGE_STATUS, R.RIG_STATUS, R.HOST_EVT] s (s.changeCleared.changeEnd 3)
      ∧ SameMemory s (s.changeCleared.changeEnd 3) := fun h => by
    rw [State.changeCleared_of_none h]
    exact ⟨RegsBut.changeEnd ((RegsBut.refl _ s).of_regs rfl) 3 (by decide) (by decide) (by decide), .of_eq rfl rfl rfl rfl⟩
  obtain ⟨hrig, hcode, hpend, hevt, -⟩ := s.changeCleared.changeEnd_leaves 3
  have hheld : ∀ i, (s.changeCleared.changeEnd 3).held i = s.changeCleared.held i := fun i => State.held_congr rfl i
  have hbusy := (s.changeCleared_leaves .sys).2.2
  have hstop : s.changeCleared.rig.stopping = [] := rfl
  have hbefore : s.changeCleared.rig.before = none := rfl
  generalize s.changeCleared.changeEnd 3 = u at *
  obtain ⟨h1, h2, h3⟩ := settle_changeFields u
  refine ⟨settle u, hans, by simp [hrig], by simp [hrig, hstop], by simp [hrig, hbefore], fun i hi hs => ?_, fun i hi => ?_, ?_,
    by rw [h2, hpend], by rw [h3, hevt], fun h => ⟨(hfree h).1.settle, (hfree h).2.settle⟩⟩
  · rw [settle_held, hheld, (s.changeCleared_leaves i).1 hi hs]
  · rw [settle_held, hheld, (s.changeCleared_leaves i).2.1 hi]
  · rw [h1, hcode, hbusy]
    split <;> rfl

/-! ## Banks that the change has moved (R66) -/

theorem State.fld_zeroing_wr (s : State) (b x : Nat) :
    (s.wr (R.POOL_BANK b) (putBits x 17 17 0)).fld (F.POOL_BANK_zeroing b) = 0 := by
  have h : (s.wr (R.POOL_BANK b) (putBits x 17 17 0)).rd (F.POOL_BANK_zeroing b).off = putBits x 17 17 0 % 2 ^ 32 :=
    State.rd_wr_same _ _ _
  rw [State.fld, h]
  exact (bitsOf_mod_word _ (by decide : 17 < 32)).trans (bitsOf_putBits_same _ _ _ _)

/-- A bank that is being zeroed holds zeros from now on, and is neither being zeroed nor waiting for it. -/
theorem State.settleBank_leaves {s : State} {b : Nat} (h : b ∈ s.rig.zeroing) :
    (s.settleBank b).rig.zeroing = s.rig.zeroing.filter (· != b) ∧ (s.settleBank b).rig.zeroWait = s.rig.zeroWait.filter (· != b)
      ∧ (s.settleBank b).rig.stalled = s.rig.stalled ∧ (s.settleBank b).fld (F.POOL_BANK_zeroing b) = 0
      ∧ (s.settleBank b).dram = s.dram
      ∧ ∀ a, memGet (s.settleBank b).pool a = if a / bankBytes = b then 0 else memGet s.pool a := by
  have hc : (s.rig.zeroing.contains b || s.rig.zeroWait.contains b) = true := by simp [h]
  rw [State.settleBank, if_pos hc]
  exact ⟨rfl, rfl, rfl, State.fld_zeroing_wr _ b _, rfl, fun a => State.memGet_zeroBank _ b a⟩

/-- Marking banks as being zeroed stores their own registers alone. -/
theorem State.markZeroing_leaves (l : List Nat) (s : State) :
    (∃ r, l.foldl (fun (s : State) b => s.put (F.POOL_BANK_zeroing b) 1) s = { s with regs := r })
      ∧ ∀ b, b ∉ l → (l.foldl (fun (s : State) b => s.put (F.POOL_BANK_zeroing b) 1) s).fld (F.POOL_BANK_zeroing b)
        = s.fld (F.POOL_BANK_zeroing b) := by
  induction l generalizing s with
  | nil => exact ⟨⟨_, rfl⟩, fun _ _ => rfl⟩
  | cons x l ih =>
    obtain ⟨⟨r, hr⟩, hf⟩ := ih (s.put (F.POOL_BANK_zeroing x) 1)
    refine ⟨⟨r, hr⟩, fun b hb => ?_⟩
    obtain ⟨hx, hl⟩ := not_or.mp (List.mem_cons.not.mp hb)
    have hoff : (F.POOL_BANK_zeroing b).off ≠ (F.POOL_BANK_zeroing x).off := by simp only [F.POOL_BANK_zeroing]; omega
    exact (hf b hl).trans (s.fld_put_off _ _ _ hoff)

/-- Zeroing begins on waiting banks: a bank that neither was being zeroed nor waited is not concerned. -/
theorem State.zeroStart_leaves (s : State) {b : Nat} (hz : b ∉ s.rig.zeroing) (hw : b ∉ s.rig.zeroWait) :
    b ∉ s.zeroStart.rig.zeroing ∧ s.zeroStart.fld (F.POOL_BANK_zeroing b) = s.fld (F.POOL_BANK_zeroing b)
      ∧ s.zeroStart.dram = s.dram ∧ s.zeroStart.pool = s.pool ∧ s.zeroStart.rig.stalled = s.rig.stalled := by
  have hnow : b ∉ s.rig.zeroWait.take (64 - s.rig.zeroing.length) := fun h => hw (List.mem_of_mem_take h)
  unfold State.zeroStart
  dsimp only
  obtain ⟨⟨r, hr⟩, hf⟩ := State.markZeroing_leaves (s.rig.zeroWait.take (64 - s.rig.zeroing.length)) { s with rig := { s.rig with
    zeroing := s.rig.zeroing ++ s.rig.zeroWait.take (64 - s.rig.zeroing.length)
    zeroWait := s.rig.zeroWait.drop (64 - s.rig.zeroing.length) } }
  refine ⟨?_, hf b hnow, ?_, ?_, ?_⟩
  · rw [hr]
    exact fun h => (List.mem_append.mp h).elim hz hnow
  all_goals rw [hr]

/-- The zeroing of a bank at which no access waits is complete. -/
theorem exec_bankZeroComplete_of_due {b : Nat} {s : State} (hz : b ∈ s.rig.zeroing)
    (ho : ∀ c, s.rig.change = some c → s.oldWork c.since = false)
    (hq : ∀ r ∈ (s.settleBank b).zeroStart.rig.stalled, r.addr / bankBytes ≠ b) :
    exec (.bankZeroComplete b) s = done (s.settleBank b).zeroStart := by
  have hold : (s.rig.change.map (fun c => s.oldWork c.since)).getD false = false := by
    cases hc : s.rig.change with
    | none => rfl
    | some c => exact ho c hc
  have hmine : (s.settleBank b).zeroStart.rig.stalled.filter (fun r => r.addr / bankBytes = b) = [] := by
    simpa [List.filter_eq_nil_iff] using hq
  have hrest : (s.settleBank b).zeroStart.rig.stalled.filter (fun r => r.addr / bankBytes != b)
      = (s.settleBank b).zeroStart.rig.stalled := by
    simpa [List.filter_eq_self] using hq
  show execBankZeroComplete b s = _
  rw [execBankZeroComplete, hold, if_pos (by simp [hz])]
  simp only [hmine, hrest, List.foldl_nil]

theorem bankZeroComplete_answers {b : Nat} {s : State} (hz : b ∈ s.rig.zeroing)
    (ho : ∀ c, s.rig.change = some c → s.oldWork c.since = false) (hq : ∀ r ∈ s.rig.stalled, r.addr / bankBytes ≠ b) :
    ∃ t, Answers (.bankZeroComplete b) s t ∧ b ∉ t.rig.zeroing ∧ t.fld (F.POOL_BANK_zeroing b) = 0 ∧ t.dram = s.dram
      ∧ (∀ i, i < bankBytes → memGet t.pool (b * bankBytes + i) = 0)
      ∧ (∀ a, a / bankBytes ≠ b → memGet t.pool a = memGet s.pool a) := by
  obtain ⟨hz1, hw1, hq1, hf1, hd1, hp1⟩ := State.settleBank_leaves hz
  obtain ⟨hz2, hf2, hd2, hp2, hq2⟩ := (s.settleBank b).zeroStart_leaves (b := b) (by simp [hz1]) (by simp [hw1])
  have hans := answers_settle_of_exec_eq_done (exec_bankZeroComplete_of_due hz ho (by rw [hq2, hq1]; exact hq))
  generalize (s.settleBank b).zeroStart = u at *
  refine ⟨settle u, hans, by simpa using hz2, ?_, by simp [hd2, hd1], fun i hi => ?_, fun a ha => ?_⟩
  · rw [settle_fld _ _ (not_sendCounter (.inr (by simp only [F.POOL_BANK_zeroing]; omega))), hf2, hf1]
  · rw [settle_pool, hp2, hp1, if_pos (bank_of_byte b hi)]
  · rw [settle_pool, hp2, hp1, if_neg ha]

/-- Settles O35: the zeroing of a moved bank, and the end of the change. -/
theorem changeCompletes : Obligations.ChangeCompletes := by
  unfold Obligations.ChangeCompletes
  exact ⟨fun c s hc ha ho hz hw => changeDone_answers hc ha ho hz hw,
    fun b s _ hz _ ho hq => bankZeroComplete_answers hz ho hq⟩

end Sys2Proof.Machine
end

section
/-! NET stream decisions (R295, R397): copies of one access unit, which close and leave together. -/
namespace Sys2Proof.Machine

/-- An open access unit with no packet. -/
def emptyUnit : RtpUnit := ⟨77, 5, 3, 0, [], false, none, ⟨false, false, false⟩⟩

/-- A unit that leads, whose stream 0 lists one open access unit twice. -/
def twoCopies : State := State.reset.setRx 0 ⟨2, [], [emptyUnit, emptyUnit], []⟩

/-- The deadline of the access unit closes both copies, and both go to the session. -/
theorem auDeadline_twoCopies_units (t : State) (h : Answers (.auDeadline 0) twoCopies t) : (t.rx 0).units = [] := by
  have hexec : (match exec (.auDeadline 0) twoCopies with
    | .next u => some (u.rx 0).units
    | _ => none) = some [] := by decide +kernel
  rw [h] at hexec
  exact Option.some.inj hexec

/-- Refutes O53: its clause on access units takes what stands behind the closed one to stay, also where that is a copy of
it, but the model names access units by their RTP timestamps, and a copy closes and leaves with it. -/
theorem not_mediaDecisions : ¬ Obligations.MediaDecisions := by
  unfold Obligations.MediaDecisions
  rintro ⟨-, hau, -⟩
  obtain ⟨t, hans, -, -, -, hout⟩ := hau 0 emptyUnit [] [emptyUnit] twoCopies (by decide) ⟨rfl, rfl⟩ (by decide +kernel)
    (by simp) (by simp) (by decide +kernel)
  have hstays : (t.rx 0).units = [emptyUnit] := (hout [emptyUnit] (by decide +kernel) (by decide)).1
  exact absurd ((auDeadline_twoCopies_units t hans).symm.trans hstays) (by decide)

end Sys2Proof.Machine
end

section
/-! The journal's control, its received entries and its digests (R99, R104, R107, R112). -/
namespace Sys2Proof.Machine

/-! ## Frames that chain -/

theorem RegsBut.trans {l : List Nat} {s t u : State} (h : RegsBut l s t) (k : RegsBut l t u) : RegsBut l s u :=
  fun o hl hc => (k o hl hc).trans (h o hl hc)

theorem RegsBut.bump {l : List Nat} {s t : State} (h : RegsBut l s t) {f : Fld} (n : Nat) (ho : f.off ∈ l) :
    RegsBut l s (t.bump f n) := h.put _ ho

theorem RegsBut.mono {l k : List Nat} {s t : State} (h : RegsBut l s t) (hk : l ⊆ k) : RegsBut k s t :=
  fun o ho hc => h o (fun hl => ho (hk hl)) hc

theorem SameMemory.refl (s : State) : SameMemory s s := .of_eq rfl rfl rfl rfl

theorem SameMemory.trans {s t u : State} (h : SameMemory s t) (k : SameMemory t u) : SameMemory s u := fun a => by
  obtain ⟨h1, h2, h3, h4⟩ := h a
  obtain ⟨k1, k2, k3, k4⟩ := k a
  exact ⟨k1.trans h1, k2.trans h2, k3.trans h3, k4.trans h4⟩

/-- A register of the rigging block reads the same after the closing step. -/
theorem settle_fld_rigging (s : State) (f : Fld) (h : f.off < 0xE8000) : (settle s).fld f = s.fld f :=
  settle_fld s f (not_sendCounter (.inl h))

/-! ## The journal's control (R99, R104) -/

/-- Whether the ring may be enabled does not depend on the control register. -/
theorem State.jnlRingOk_put (s : State) {f : Fld} (v : Nat) (h : f.off = R.RIG_JNL_CTRL) :
    (s.put f v).jnlRingOk = s.jnlRingOk := by
  have hf : ∀ g : Fld, g.off ≠ R.RIG_JNL_CTRL → (s.put f v).fld g = s.fld g := fun g hg => s.fld_put_off f g v (h ▸ hg)
  have hregion : (s.put f v).userRegion = s.userRegion := rfl
  simp only [State.jnlRingOk, State.jnlRing, hregion, hf F.RIG_JNL_SIZE_log_size (by decide),
    hf F.RIG_JNL_BASE_LO_base_lo (by decide), hf F.RIG_JNL_BASE_HI_base_hi (by decide)]

/-- The fields of RIG_JNL_CTRL that a write sets beside `enable`. -/
def State.jnlModeWrite (s : State) (v : Nat) : State :=
  ((s.put F.RIG_JNL_CTRL_mode (bitsOf v 3 2)).put F.RIG_JNL_CTRL_follow_mask (putBits (bitsOf v 23 16) 5 5 0)).put
    F.RIG_JNL_CTRL_forward (bitsOf v 1 1)

theorem State.jnlRingOk_jnlModeWrite (s : State) (v : Nat) : (s.jnlModeWrite v).jnlRingOk = s.jnlRingOk :=
  (State.jnlRingOk_put _ _ rfl).trans ((State.jnlRingOk_put _ _ rfl).trans (s.jnlRingOk_put _ rfl))

theorem State.jnlModeWrite_fields (s : State) (v : Nat) :
    (s.jnlModeWrite v).fld F.RIG_JNL_CTRL_enable = s.fld F.RIG_JNL_CTRL_enable
      ∧ (s.jnlModeWrite v).fld F.RIG_JNL_CTRL_mode = bitsOf v 3 2 ∧ (s.jnlModeWrite v).fld F.RIG_JNL_CTRL_forward = bitsOf v 1 1 := by
  unfold State.jnlModeWrite
  refine ⟨?_, ?_, ?_⟩
  · simp (disch := decide) only [State.fld_put_ne]
  · simp (disch := decide) only [State.fld_put_ne, State.fld_put_same]
    exact Nat.mod_eq_of_lt (bitsOf_lt v 3 2)
  · simp (disch := decide) only [State.fld_put_same]
    exact Nat.mod_eq_of_lt (bitsOf_lt v 1 1)

/-- A write that enables a journal which is off, in a mode that exists: the ring is enabled where R99 permits. -/
theorem State.jnlCtrlWrite_enabling {s : State} {v : Nat} (he : s.fld F.RIG_JNL_CTRL_enable = 0) (hm : bitsOf v 3 2 ≠ 3) (hv : v % 2 = 1) :
    s.jnlCtrlWrite v = if s.jnlRingOk then ((s.jnlModeWrite v).put F.RIG_JNL_CTRL_enable 1).put F.RIG_JNL_STATUS_ring_ok 1
      else (s.jnlModeWrite v).put F.RIG_JNL_STATUS_bad_cfg 1 := by
  have hoff : (s.jnlModeWrite v).bit F.RIG_JNL_CTRL_enable = false := by
    rw [State.bit, (s.jnlModeWrite_fields v).1, he]; rfl
  rw [← s.jnlRingOk_jnlModeWrite v]
  rw [State.jnlModeWrite] at hoff ⊢
  simp only [State.jnlCtrlWrite, if_neg hm, hv, Nat.one_ne_zero, if_false, hoff, Bool.false_eq_true]

/-- The mode bits of a written value, in which the command sets `enable`, are those of the operand. -/
theorem jnlEnable_operand (v : Nat) : putBits v 0 0 1 % 2 = 1 ∧ bitsOf (putBits v 0 0 1) 3 2 = bitsOf v 3 2
    ∧ bitsOf (putBits v 0 0 1) 1 1 = bitsOf v 1 1 := by
  have h := bitsOf_putBits_same v 0 0 1
  simp only [bitsOf, Nat.shiftRight_zero] at h
  exact ⟨h, bitsOf_putBits_ne v 1 (.inr (by decide)), bitsOf_putBits_ne v 1 (.inr (by decide))⟩

theorem jnlEnable_answers (m : Master) (v : Word) (s : State) (ha : Admitted s m R.RIG_JNL_CTRL) (he : s.fld F.RIG_JNL_CTRL_enable = 0)
    (hm : bitsOf v.toNat 3 2 ≠ 3) :
    ∃ t, Answers (.jnlEnable m v) s t ∧ OnlyRegs [R.RIG_JNL_CTRL, R.RIG_JNL_STATUS] s t ∧
      t.fld F.RIG_JNL_CTRL_mode = bitsOf v.toNat 3 2 ∧ t.fld F.RIG_JNL_CTRL_forward = bitsOf v.toNat 1 1 ∧
      if s.jnlRingOk then t.fld F.RIG_JNL_CTRL_enable = 1 ∧ t.fld F.RIG_JNL_STATUS_ring_ok = 1
      else t.fld F.RIG_JNL_CTRL_enable = 0 ∧ t.fld F.RIG_JNL_STATUS_bad_cfg = 1 := by
  obtain ⟨hodd, hmode, hfwd⟩ := jnlEnable_operand v.toNat
  refine ⟨_, answers_of_admitted ha rfl, ?_⟩
  rw [State.jnlCtrlWrite_enabling he (by rwa [hmode]) hodd]
  obtain ⟨fe, fm, ff⟩ := s.jnlModeWrite_fields (putBits v.toNat 0 0 1)
  have hregs : RegsBut [R.RIG_JNL_CTRL, R.RIG_JNL_STATUS] s (s.jnlModeWrite (putBits v.toNat 0 0 1)) :=
    (((RegsBut.refl _ s).put _ (by decide)).put _ (by decide)).put _ (by decide)
  have hquiet : Undisturbed s (s.jnlModeWrite (putBits v.toNat 0 0 1)) := rfl
  generalize s.jnlModeWrite (putBits v.toNat 0 0 1) = u at *
  cases hok : s.jnlRingOk with
  | true =>
    simp only [if_true, settle_fld_rigging _ F.RIG_JNL_CTRL_mode (by decide), settle_fld_rigging _ F.RIG_JNL_CTRL_forward (by decide),
      settle_fld_rigging _ F.RIG_JNL_CTRL_enable (by decide), settle_fld_rigging _ F.RIG_JNL_STATUS_ring_ok (by decide)]
    refine ⟨⟨((hregs.put _ (by decide)).put _ (by decide)).settle, Undisturbed.settle (hquiet.trans rfl)⟩, ?_⟩
    simp (disch := decide) only [State.fld_put_off, State.fld_put_ne, State.fld_put_same, fm, ff, hmode, hfwd]
    decide
  | false =>
    simp only [Bool.false_eq_true, if_false, settle_fld_rigging _ F.RIG_JNL_CTRL_mode (by decide),
      settle_fld_rigging _ F.RIG_JNL_CTRL_forward (by decide), settle_fld_rigging _ F.RIG_JNL_CTRL_enable (by decide),
      settle_fld_rigging _ F.RIG_JNL_STATUS_bad_cfg (by decide)]
    refine ⟨⟨(hregs.put _ (by decide)).settle, Undisturbed.settle (hquiet.trans rfl)⟩, ?_⟩
    simp (disch := decide) only [State.fld_put_off, State.fld_put_same, fm, ff, fe, he, hmode, hfwd]
    decide

end Sys2Proof.Machine
end

section
/-! An entry that the RIG_JNL_INJ registers submit (R107), and a captured digest (R112). -/
namespace Sys2Proof.Machine

/-- Nothing is looked at again where no decision waits. -/
theorem State.resumeAll_of_no_waits {s : State} (h : s.jnl.waits = []) : s.resumeAll = s := by
  rw [State.resumeAll, h, List.foldl_nil]

/-- What becomes of an entry depends on the journal and, where its unit is a receive stream, on the stream's type. -/
theorem State.jnlSort_wr (s : State) (e : Entry) {off : Nat} (v : Nat) (h : off < 0xE0000) : (s.wr off v).jnlSort e = s.jnlSort e := by
  have htype : ∀ r, (s.wr off v).fld (F.NET_RX_CFG_type r) = s.fld (F.NET_RX_CFG_type r) := fun r => by
    rw [State.fld, s.rd_wr_ne]
    · rfl
    · simp only [F.NET_RX_CFG_type]; omega
  have htwins : (s.wr off v).videoTwin e = s.videoTwin e := funext fun f => by simp only [State.videoTwin, htype]
  simp only [State.jnlSort, State.wr_jnl, htwins]

theorem leNat_lt (l : List Byte) : leNat l < 256 ^ l.length := by
  induction l with
  | nil => decide
  | cons b r ih =>
    have := b.isLt
    simp only [leNat, List.length_cons, Nat.pow_succ]
    omega

theorem Entry.ofBytes_seq_lt (b : List Byte) : (Entry.ofBytes b).seq < 2 ^ 32 :=
  calc leNat (slice b 4 4) < 256 ^ (slice b 4 4).length := leNat_lt _
    _ ≤ 256 ^ 4 := Nat.pow_le_pow_right (by decide) (List.length_take_le ..)

/-- A number that does not follow the last one is reported as a gap (R107). -/
def State.noteGap (s : State) (q : Nat) : State :=
  match s.fen.lastSeq with
  | some p => if q = (p + 1) % 2 ^ 32 then s else s.put F.RIG_JNL_STATUS_gap 1
  | none => s

/-- An accepted entry joins the receipt, and those held where it is to be kept (R107, R581). -/
def State.takeEntry (s : State) (e : Entry) (keep : Bool) : State :=
  { s with
    fen := { s.fen with lastSeq := some e.seq }
    jnl := { s.jnl with
      wholeFrom := some (s.jnl.wholeFrom.getD e.seq)
      seqs := if s.jnl.seqs.contains e.seq then s.jnl.seqs else e.seq :: s.jnl.seqs
      held := if keep then s.jnl.held ++ [e] else s.jnl.held } }

/-- An entry with a wrong check is counted and nothing else. -/
theorem State.jnlReceive_bad {s : State} {b : List Byte} (h : leAt b 28 4 ≠ crc32c (b.take 28)) :
    (s.jnlReceive b).2 = (s.bump F.RIG_JNL_CRC_BAD_count 1).put F.RIG_JNL_STATUS_crc_bad 1 := by
  rw [State.jnlReceive, if_pos h]

/-- An entry with a right check, for which there is room, is accepted. -/
theorem State.jnlReceive_good {s : State} {b : List Byte} (h : leAt b 28 4 = crc32c (b.take 28)) (hroom : s.jnl.held.length < 4096) :
    let e := Entry.ofBytes b
    let u := ((s.noteGap e.seq).takeEntry e (s.jnlSort e = .keep)).wr R.RIG_JNL_SRC_SEQ e.seq
    (s.jnlReceive b).2 = if s.jnlSort e = .conflict then u.put F.RIG_JNL_STATUS_conflict 1 else u := by
  have hr : ¬ (s.jnlSort (Entry.ofBytes b) = .keep ∧ 4096 ≤ s.jnl.held.length) := by omega
  simp only [State.takeEntry, decide_eq_true_eq]
  rw [State.jnlReceive, if_neg (not_not_intro h), if_neg hr]
  rfl

/-- The registers, the receipt and the gap report of an accepted entry. -/
theorem State.noteGap_frame (s : State) (q : Nat) :
    RegsBut [R.RIG_JNL_STATUS] s (s.noteGap q) ∧ (s.noteGap q).jnl = s.jnl ∧ SameMemory s (s.noteGap q) := by
  have hput : ∀ v, RegsBut [R.RIG_JNL_STATUS] s (s.put F.RIG_JNL_STATUS_gap v) := fun v => (RegsBut.refl _ s).put v (by decide)
  unfold State.noteGap
  split
  · split
    · exact ⟨.refl _ s, rfl, .refl s⟩
    · exact ⟨hput 1, rfl, .of_eq rfl rfl rfl rfl⟩
  · exact ⟨.refl _ s, rfl, .refl s⟩

theorem State.noteGap_gap {s : State} {q p : Nat} (h : s.fen.lastSeq = some p) (hq : q ≠ (p + 1) % 2 ^ 32) :
    (s.noteGap q).fld F.RIG_JNL_STATUS_gap = 1 := by
  simp only [State.noteGap, h, if_neg hq]
  exact s.fld_put_same _ 1 (by decide)

/-- What an accepted entry does: it joins those held where it is to be kept, and RIG_JNL_SRC_SEQ shows its number. -/
structure EntryAccepted (s : State) (e : Entry) (t : State) : Prop where
  held : t.jnl.held = if s.jnlSort e = .keep then s.jnl.held ++ [e] else s.jnl.held
  waits : t.jnl.waits = s.jnl.waits
  lastSeq : t.fen.lastSeq = some e.seq
  srcSeq : t.rd R.RIG_JNL_SRC_SEQ = e.seq
  regs : RegsBut [R.RIG_JNL_SRC_SEQ, R.RIG_JNL_STATUS] s t
  conflict : s.jnlSort e = .conflict → t.fld F.RIG_JNL_STATUS_conflict = 1
  gap : ∀ q, s.fen.lastSeq = some q → e.seq ≠ (q + 1) % 2 ^ 32 → t.fld F.RIG_JNL_STATUS_gap = 1
  memory : SameMemory s t

theorem State.jnlReceive_accepts {s : State} {b : List Byte} (h : leAt b 28 4 = crc32c (b.take 28)) (hroom : s.jnl.held.length < 4096) :
    EntryAccepted s (Entry.ofBytes b) (s.jnlReceive b).2 := by
  rw [State.jnlReceive_good h hroom]
  have hseq := Entry.ofBytes_seq_lt b
  generalize Entry.ofBytes b = e at hseq
  obtain ⟨hregs, hjnl, hmem⟩ := s.noteGap_frame e.seq
  have hgap := fun q => State.noteGap_gap (s := s) (q := e.seq) (p := q)
  generalize s.noteGap e.seq = g at *
  have hwr : RegsBut [R.RIG_JNL_SRC_SEQ, R.RIG_JNL_STATUS] s ((g.takeEntry e (s.jnlSort e = .keep)).wr R.RIG_JNL_SRC_SEQ e.seq) :=
    ((hregs.mono (by decide)).of_regs rfl).wr _ (by decide)
  have hheld : (g.takeEntry e (s.jnlSort e = .keep)).jnl.held = if s.jnlSort e = .keep then s.jnl.held ++ [e] else s.jnl.held := by
    simp only [State.takeEntry, hjnl, decide_eq_true_eq]
  have hwaits : (g.takeEntry e (s.jnlSort e = .keep)).jnl.waits = s.jnl.waits := by simp only [State.takeEntry, hjnl]
  have hlast : (g.takeEntry e (s.jnlSort e = .keep)).fen.lastSeq = some e.seq := rfl
  have hmemory : SameMemory s (g.takeEntry e (s.jnlSort e = .keep)) := hmem.trans (.of_eq rfl rfl rfl rfl)
  have hstatus : (g.takeEntry e (s.jnlSort e = .keep)).fld F.RIG_JNL_STATUS_gap = g.fld F.RIG_JNL_STATUS_gap := rfl
  generalize g.takeEntry e (s.jnlSort e = .keep) = u at *
  have hsrc : (u.wr R.RIG_JNL_SRC_SEQ e.seq).rd R.RIG_JNL_SRC_SEQ = e.seq := (u.rd_wr_same _ _).trans (Nat.mod_eq_of_lt hseq)
  have hstatus : (u.wr R.RIG_JNL_SRC_SEQ e.seq).fld F.RIG_JNL_STATUS_gap = g.fld F.RIG_JNL_STATUS_gap := by
    rw [← hstatus, State.fld, u.rd_wr_ne _ (by decide)]; rfl
  have hmemory : SameMemory s (u.wr R.RIG_JNL_SRC_SEQ e.seq) := hmemory.trans (.of_eq rfl rfl rfl rfl)
  split
  next hc =>
    have hheld : (u.wr R.RIG_JNL_SRC_SEQ e.seq).jnl.held = _ := hheld
    have hwaits : (u.wr R.RIG_JNL_SRC_SEQ e.seq).jnl.waits = _ := hwaits
    have hlast : (u.wr R.RIG_JNL_SRC_SEQ e.seq).fen.lastSeq = _ := hlast
    generalize u.wr R.RIG_JNL_SRC_SEQ e.seq = w at *
    refine ⟨hheld, hwaits, hlast, ?_, hwr.put _ (by decide), fun _ => ?_, fun q hq hne => ?_, hmemory.trans (.of_eq rfl rfl rfl rfl)⟩
    · rw [w.rd_put_ne _ _ (by decide), hsrc]
    · exact w.fld_put_same _ 1 (by decide)
    · rw [w.fld_put_ne F.RIG_JNL_STATUS_conflict F.RIG_JNL_STATUS_gap 1 rfl (by decide) (by decide), hstatus, hgap q hq hne]
  next hno =>
    exact ⟨hheld, hwaits, hlast, hsrc, hwr, fun hc => absurd hc hno, fun q hq hne => hstatus.trans (hgap q hq hne), hmemory⟩

theorem Undisturbed.jnlHeld {s t : State} (h : Undisturbed s t) : t.jnl.held = s.jnl.held := congrArg (fun u => u.jnl.held) h

theorem Undisturbed.fenLastSeq {s t : State} (h : Undisturbed s t) : t.fen.lastSeq = s.fen.lastSeq := congrArg (fun u => u.fen.lastSeq) h

theorem settle_jnlHeld (s : State) : (settle s).jnl.held = s.jnl.held := (settles_settle s).quiet.jnlHeld

theorem settle_fenLastSeq (s : State) : (settle s).fen.lastSeq = s.fen.lastSeq := (settles_settle s).quiet.fenLastSeq

theorem jnlInject_answers (m : Master) (v : Word) (s : State) (ha : Admitted s m (R.RIG_JNL_INJ 7)) (hmode : s.jnl.mode = 2)
    (hwaits : s.jnl.waits = []) (hroom : s.jnl.held.length < 4096) :
    let b := (s.wr (R.RIG_JNL_INJ 7) v.toNat).injected
    let e := Entry.ofBytes b
    ∃ t, Answers (.jnlInject m v) s t ∧ SameMemory s t ∧
      if leAt b 28 4 = crc32c (b.take 28) then
        t.jnl.held = (if s.jnlSort e = .keep then s.jnl.held ++ [e] else s.jnl.held)
          ∧ t.fen.lastSeq = some e.seq ∧ t.rd R.RIG_JNL_SRC_SEQ = e.seq ∧ RegsBut [R.RIG_JNL_INJ 7, R.RIG_JNL_SRC_SEQ, R.RIG_JNL_STATUS] s t
          ∧ (s.jnlSort e = .conflict → t.fld F.RIG_JNL_STATUS_conflict = 1)
          ∧ (∀ q, s.fen.lastSeq = some q → e.seq ≠ (q + 1) % 2 ^ 32 → t.fld F.RIG_JNL_STATUS_gap = 1)
      else t.jnl.held = s.jnl.held ∧ t.fen.lastSeq = s.fen.lastSeq ∧ t.fld F.RIG_JNL_STATUS_crc_bad = 1
        ∧ t.fld F.RIG_JNL_CRC_BAD_count = min (s.fld F.RIG_JNL_CRC_BAD_count + 1) (2 ^ 32 - 1)
        ∧ RegsBut [R.RIG_JNL_INJ 7, R.RIG_JNL_CRC_BAD, R.RIG_JNL_STATUS] s t := by
  intro b e
  refine ⟨_, answers_of_admitted ha rfl, ?_⟩
  have hsort : (s.wr (R.RIG_JNL_INJ 7) v.toNat).jnlSort e = s.jnlSort e := s.jnlSort_wr e _ (by decide)
  have hregs : RegsBut [R.RIG_JNL_INJ 7] s (s.wr (R.RIG_JNL_INJ 7) v.toNat) := (RegsBut.refl _ s).wr _ (by decide)
  have hcount : (s.wr (R.RIG_JNL_INJ 7) v.toNat).fld F.RIG_JNL_CRC_BAD_count = s.fld F.RIG_JNL_CRC_BAD_count := by
    rw [State.fld, s.rd_wr_ne _ (by decide)]; rfl
  have hmem : SameMemory s (s.wr (R.RIG_JNL_INJ 7) v.toNat) := .of_eq rfl rfl rfl rfl
  have hinject : s.jnlInject v.toNat = ((s.wr (R.RIG_JNL_INJ 7) v.toNat).jnlReceive b).2.resumeAll := if_pos hmode
  have hjnl : (s.wr (R.RIG_JNL_INJ 7) v.toNat).jnl = s.jnl := rfl
  have hfen : (s.wr (R.RIG_JNL_INJ 7) v.toNat).fen = s.fen := rfl
  generalize s.wr (R.RIG_JNL_INJ 7) v.toNat = u at hsort hregs hcount hmem hinject hjnl hfen
  rw [hinject]
  split
  next hcrc =>
    have acc : EntryAccepted u e (u.jnlReceive b).2 := State.jnlReceive_accepts hcrc (hjnl ▸ hroom)
    rw [State.resumeAll_of_no_waits (acc.waits.trans (hjnl ▸ hwaits))]
    refine ⟨(hmem.trans acc.memory).settle, ?_, ?_, ?_, ?_, ?_, ?_⟩
    · rw [settle_jnlHeld, acc.held, hsort, hjnl]
    · rw [settle_fenLastSeq, acc.lastSeq]
    · rw [settle_rd _ _ (not_sendCounter (.inl (by decide))), acc.srcSeq]
    · exact ((hregs.mono (by decide)).trans (acc.regs.mono (by decide))).settle
    · exact fun hc => (settle_fld_rigging _ _ (by decide)).trans (acc.conflict (hsort.trans hc))
    · exact fun q hq hne => (settle_fld_rigging _ _ (by decide)).trans (acc.gap q (hfen ▸ hq) hne)
  next hcrc =>
    have hwaits : ((u.bump F.RIG_JNL_CRC_BAD_count 1).put F.RIG_JNL_STATUS_crc_bad 1).jnl.waits = [] := (congrArg Jnl.waits hjnl).trans hwaits
    rw [State.jnlReceive_bad hcrc, State.resumeAll_of_no_waits hwaits]
    have hmem2 : SameMemory u ((u.bump F.RIG_JNL_CRC_BAD_count 1).put F.RIG_JNL_STATUS_crc_bad 1) := .of_eq rfl rfl rfl rfl
    refine ⟨(hmem.trans hmem2).settle, ?_, ?_, ?_, ?_, ?_⟩
    · rw [settle_jnlHeld, State.put_jnl, State.bump_jnl, hjnl]
    · rw [settle_fenLastSeq, State.put_fen, State.bump_fen, hfen]
    · rw [settle_fld_rigging _ _ (by decide)]
      exact State.fld_put_same _ _ 1 (by decide)
    · rw [settle_fld_rigging _ _ (by decide), State.fld_put_off _ _ _ _ (by decide), State.fld_bump_same _ _ _ (by decide), hcount]
      rfl
    · exact (((hregs.mono (by decide)).bump _ (by decide)).put _ (by decide)).settle

/-! ## Captured digests (R112) -/

theorem State.guardedRead_admitted {s : State} {m : Master} {off : Nat} (h : Admitted s m off) (f : State → Nat × State) :
    s.guardedRead m off f = (f s).2.emit (.readData m off (f s).1) := by
  obtain ⟨hs, ha⟩ := h
  simp [State.guardedRead, hs, ha]

theorem State.mem_emit_out (s : State) (o : Output) : o ∈ (s.emit o).out := by
  simp [State.emit]

theorem State.digFrame_eq {s : State} {d : DigestVal}
    (h : mapFind s.jnl.digests (256 * s.fld F.RIG_DIG_SEL_scope + s.fld F.RIG_DIG_SEL_index) = some d) :
    s.digFrame = (d.num, { s with jnl := { s.jnl with captured := d } }) := by
  simp only [State.digFrame, h]

theorem Undisturbed.jnlCaptured {s t : State} (h : Undisturbed s t) : t.jnl.captured = s.jnl.captured :=
  congrArg (fun u => u.jnl.captured) h

theorem settle_jnlCaptured (s : State) : (settle s).jnl.captured = s.jnl.captured := (settles_settle s).quiet.jnlCaptured

theorem digFrameRead_answers (m : Master) (d : DigestVal) (s : State) (ha : Admitted s m R.RIG_DIG_FRAME)
    (hd : mapFind s.jnl.digests (256 * s.fld F.RIG_DIG_SEL_scope + s.fld F.RIG_DIG_SEL_index) = some d) :
    ∃ t, Answers (.digFrameRead m) s t ∧ .readData m R.RIG_DIG_FRAME d.num ∈ t.out ∧ t.jnl.captured = d ∧ RegsBut [] s t ∧ SameMemory s t := by
  have hexec : exec (.digFrameRead m) s
      = done (({ s with jnl := { s.jnl with captured := d } } : State).emit (.readData m R.RIG_DIG_FRAME d.num)) := by
    rw [show exec (.digFrameRead m) s = done (s.guardedRead m R.RIG_DIG_FRAME State.digFrame) from rfl,
      State.guardedRead_admitted ha, State.digFrame_eq hd]
  refine ⟨_, answers_settle_of_exec_eq_done hexec, mem_settle_out _ _ (State.mem_emit_out _ _), settle_jnlCaptured _, RegsBut.settle ?_,
    SameMemory.settle ?_⟩
  · exact (RegsBut.refl _ s).of_regs rfl
  · exact .of_eq rfl rfl rfl rfl

end Sys2Proof.Machine
end

section
/-! What an entry of the journal and an exposure command leave alone, and the end of the hold of a default target (R97, R105, R106,
R151, R152). -/
namespace Sys2Proof.Machine

/-! ## Entries written (R97, R106) -/

/-- The entry that a decision writes. -/
def State.ownEntry (s : State) (kind target unit frame a b c : Nat) (replayed override : Bool) : Entry :=
  ⟨kind, replayed, override, target, unit, s.jnl.nextSeq, frame, a, b, c⟩

/-- What a written entry changes: the journal's queues and lists, and the counter of entries left out of the ring. -/
structure EntryWritten (s : State) (e : Entry) (t : State) : Prop where
  frame : ∃ r q a h l f, t = { s with
    regs := r
    jnl := { s.jnl with nextSeq := (s.jnl.nextSeq + 1) % 2 ^ 32, ringQ := q, applied := a, held := h, seals := l, forwardQ := f } }
  applied : e.kind ≠ 9 → t.jnl.applied = (e :: s.jnl.applied).take 4096
  rd : ∀ o, o ≠ R.RIG_JNL_RING_DROP → t.rd o = s.rd o

/-- An entry joins the ring's queue, or is counted as left out (R100). -/
def State.ringJoin (s : State) (e : Entry) : State :=
  if s.bit F.RIG_JNL_CTRL_enable then
    if s.jnl.ringQ.length < 256 then { s with jnl := { s.jnl with ringQ := s.jnl.ringQ ++ [e] } }
    else s.bump F.RIG_JNL_RING_DROP_count 1
  else s

theorem EntryWritten.ringJoin {s t : State} {e : Entry} (h : EntryWritten s e t) (f : Entry) : EntryWritten s e (t.ringJoin f) := by
  obtain ⟨⟨r, q, a, hd, l, f, ht⟩, happlied, hrd⟩ := h
  unfold State.ringJoin
  split
  · split
    · exact ⟨⟨_, _, _, _, _, _, by rw [ht]⟩, happlied, hrd⟩
    · exact ⟨⟨_, _, _, _, _, _, by rw [ht]; rfl⟩, happlied, fun o ho => (State.rd_bump_ne _ _ _ ho).trans (hrd o ho)⟩
  · exact ⟨⟨_, _, _, _, _, _, ht⟩, happlied, hrd⟩

theorem State.jnlWrite_writes (s : State) (kind target unit frame a b c : Nat) (replayed override : Bool) :
    EntryWritten s (s.ownEntry kind target unit frame a b c replayed override)
      (s.jnlWrite kind target unit frame a b c replayed override) :=
  EntryWritten.ringJoin ⟨⟨_, _, _, _, _, _, rfl⟩, fun he => if_neg he, fun _ _ => rfl⟩ _

theorem EntryWritten.mem_applied {s t : State} {e : Entry} (h : EntryWritten s e t) (he : e.kind ≠ 9) : e ∈ t.jnl.applied := by
  rw [h.applied he, List.take_succ_cons]
  exact List.mem_cons_self

theorem EntryWritten.sameMemory {s t : State} {e : Entry} (h : EntryWritten s e t) : SameMemory s t := by
  obtain ⟨r, q, a, hd, l, f, rfl⟩ := h.frame
  exact .of_eq rfl rfl rfl rfl

/-- An override changes no more than its entry does, beside the report, the held entries and the blocked points. -/
structure Overridden (s : State) (e : Entry) (t : State) : Prop where
  frame : ∃ r j, t = { s with regs := r, jnl := j }
  applied : e ∈ t.jnl.applied
  count : t.fld F.RIG_JNL_OVERRIDES_count = min (s.fld F.RIG_JNL_OVERRIDES_count + 1) (2 ^ 32 - 1)
  status : t.fld F.RIG_JNL_STATUS_override = 1
  settled : t.blocked e.kind e.target e.unit e.frame = false
  rd : ∀ o, o ∉ [R.RIG_JNL_RING_DROP, R.RIG_JNL_OVERRIDES, R.RIG_JNL_STATUS] → t.rd o = s.rd o

/-- A point that is settled is blocked no more. -/
theorem State.unblock_blocked (s : State) (kind target unit frame : Nat) : (s.unblock kind target unit frame).blocked kind target unit frame = false := by
  simp only [State.blocked, State.unblock, List.any_eq_false, List.mem_filter]
  rintro w ⟨-, hw⟩ hpoint
  rw [hpoint] at hw
  exact Bool.noConfusion hw

theorem State.overrideWrite_overrides {s : State} {kind : Nat} (target unit frame a b c : Nat) (hk : kind ≠ 9) :
    Overridden s (s.ownEntry kind target unit frame a b c false true) (s.overrideWrite kind target unit frame a b c) := by
  have hw := s.jnlWrite_writes kind target unit frame a b c false true
  have hmem := hw.mem_applied hk
  obtain ⟨⟨r, q, l, hd, sl, f, ht⟩, -, hrd⟩ := hw
  have hcount : (s.jnlWrite kind target unit frame a b c false true).fld F.RIG_JNL_OVERRIDES_count = s.fld F.RIG_JNL_OVERRIDES_count := by
    rw [State.fld, hrd _ (by decide)]; rfl
  have hframe : s.overrideWrite kind target unit frame a b c
      = (((s.jnlWrite kind target unit frame a b c false true).noteOverride).dropHeld kind target unit frame).unblock kind target unit frame := rfl
  generalize s.jnlWrite kind target unit frame a b c false true = w at *
  have hregs : (s.overrideWrite kind target unit frame a b c).regs = w.noteOverride.regs := by rw [hframe]; rfl
  refine ⟨?_, ?_, ?_, ?_, ?_, ?_⟩
  · rw [hframe, ht]; exact ⟨_, _, rfl⟩
  · rw [hframe]; exact hmem
  · rw [State.fld_congr hregs, State.noteOverride, State.fld_put_off _ _ _ _ (by decide), State.fld_bump_same _ _ _ (by decide), hcount]; rfl
  · rw [State.fld_congr hregs, State.noteOverride]; exact State.fld_put_same _ _ 1 (by decide)
  · rw [hframe]; exact State.unblock_blocked _ _ _ _ _
  · intro o ho
    simp only [List.mem_cons, List.not_mem_nil, or_false, not_or] at ho
    obtain ⟨h1, h2, h3⟩ := ho
    rw [State.rd_congr hregs, State.noteOverride, State.rd_put_ne _ _ _ h3, State.rd_bump_ne _ _ _ h2, hrd o h1]

/-! ## Head operations -/

/-- What an operation of the head links leaves alone: all but camera state, outputs, free values and registers from HEAD's on. -/
structure HeadOnly (s t : State) : Prop where
  frame : ∃ r c o f, t = { s with regs := r, cam := c, out := o, freeCtr := f }
  rd : ∀ o, o < R.HEAD_CFG 0 → t.rd o = s.rd o

theorem HeadOnly.refl (s : State) : HeadOnly s s := ⟨⟨_, _, _, _, rfl⟩, fun _ _ => rfl⟩

theorem HeadOnly.trans {s t u : State} (h : HeadOnly s t) (k : HeadOnly t u) : HeadOnly s u := by
  obtain ⟨⟨r, c, o, f, rfl⟩, hrd⟩ := h
  obtain ⟨⟨r', c', o', f', rfl⟩, krd⟩ := k
  exact ⟨⟨r', c', o', f', rfl⟩, fun a ha => (krd a ha).trans (hrd a ha)⟩

theorem HeadOnly.put {s t : State} (h : HeadOnly s t) {f : Fld} (v : Nat) (hf : R.HEAD_CFG 0 ≤ f.off) : HeadOnly s (t.put f v) :=
  h.trans ⟨⟨_, _, _, _, rfl⟩, fun o ho => t.rd_put_ne f v (by omega)⟩

theorem HeadOnly.emit {s t : State} (h : HeadOnly s t) (o : Output) : HeadOnly s (t.emit o) :=
  h.trans ⟨⟨_, _, _, _, rfl⟩, fun _ _ => rfl⟩

theorem HeadOnly.setPort {s t : State} (h : HeadOnly s t) (n : Nat) (p : HeadPort) : HeadOnly s (t.setPort n p) :=
  h.trans ⟨⟨_, _, _, _, rfl⟩, fun _ _ => rfl⟩

theorem HeadOnly.setSensor {s t : State} (h : HeadOnly s t) (n v : Nat) (x : Sensor) : HeadOnly s (t.setSensor n v x) := h.setPort _ _

theorem HeadOnly.jnl {s t : State} (h : HeadOnly s t) : t.jnl = s.jnl := by
  obtain ⟨r, c, o, f, rfl⟩ := h.frame
  rfl

theorem HeadOnly.anchorT {s t : State} (h : HeadOnly s t) : t.anchorT = s.anchorT := by
  obtain ⟨r, c, o, f, rfl⟩ := h.frame
  rfl

theorem HeadOnly.sameMemory {s t : State} (h : HeadOnly s t) : SameMemory s t := by
  obtain ⟨r, c, o, f, rfl⟩ := h.frame
  exact .of_eq rfl rfl rfl rfl

theorem HeadOnly.fld {s t : State} (h : HeadOnly s t) {f : Fld} (hf : f.off < R.HEAD_CFG 0) : t.fld f = s.fld f := by
  rw [State.fld, h.rd _ hf]; rfl

theorem State.headSend_headOnly (s : State) (n ptype vs tag : Nat) (payload : List Byte) (f : Nat → Output) :
    HeadOnly s (s.headSend n ptype vs tag payload f) :=
  (((HeadOnly.refl s).setPort _ _).emit _).emit _

theorem State.cmdState_headOnly (s : State) (n : Nat) (c : ExpCmd) (st shown : Nat) : HeadOnly s (s.cmdState n c st shown) := by
  have herr : ∀ v, HeadOnly s (s.put (F.HEAD_ERR_no_ack n) v) := fun v => (HeadOnly.refl s).put v (by simp only [F.HEAD_ERR_no_ack, R.HEAD_CFG]; omega)
  have hput : ∀ t : State, HeadOnly t (((t.put (F.HEAD_VS_EXP_STATUS_target n c.vs) shown).put (F.HEAD_VS_EXP_STATUS_state n c.vs) st).put
      (F.HEAD_VS_EXP_STATUS_seq_lo n c.vs) c.seq) := fun t => by
    refine (((HeadOnly.refl t).put _ ?_).put _ ?_).put _ ?_ <;>
      simp only [F.HEAD_VS_EXP_STATUS_target, F.HEAD_VS_EXP_STATUS_state, F.HEAD_VS_EXP_STATUS_seq_lo, R.HEAD_CFG] <;> omega
  have hfirst : HeadOnly s (if st = 6 then s.put (F.HEAD_ERR_no_ack n) 1 else s) := by
    split
    · exact herr 1
    · exact .refl s
  unfold State.cmdState
  generalize (if st = 6 then s.put (F.HEAD_ERR_no_ack n) 1 else s) = t at hfirst
  simp only
  split
  · exact hfirst.trans (hput t)
  · exact hfirst

theorem State.expSend_headOnly (s : State) (n : Nat) (c : ExpCmd) (times : Nat) : HeadOnly s (s.expSend n c times) :=
  (((HeadOnly.refl s).setPort _ _).trans (State.headSend_headOnly _ _ _ _ _ _ _)).trans (State.cmdState_headOnly _ _ _ _ _)

theorem State.expPump_headOnly (s : State) (n : Nat) : HeadOnly s (s.expPump n) := by
  unfold State.expPump
  dsimp only
  split
  · exact ((HeadOnly.refl s).setPort _ _).trans (State.expSend_headOnly _ _ _ _)
  · exact .refl s

/-! ## Ports -/

theorem State.port_setPort_same (s : State) (n : Nat) (p : HeadPort) : (s.setPort n p).port n = p := mapGet_mapSet_same ..

theorem State.port_congr {s t : State} (h : t.cam = s.cam) (n : Nat) : t.port n = s.port n := by rw [State.port, h]; rfl

theorem State.cmdState_cam (s : State) (n : Nat) (c : ExpCmd) (st shown : Nat) : (s.cmdState n c st shown).cam = s.cam := by
  have hfirst : (if st = 6 then s.put (F.HEAD_ERR_no_ack n) 1 else s).cam = s.cam := by split <;> rfl
  unfold State.cmdState
  generalize (if st = 6 then s.put (F.HEAD_ERR_no_ack n) 1 else s) = t at hfirst
  dsimp only
  split
  · exact hfirst
  · exact hfirst

theorem State.port_headSend (s : State) (n ptype vs tag : Nat) (payload : List Byte) (f : Nat → Output) :
    (s.headSend n ptype vs tag payload f).port n = { s.port n with txSeq := ((s.port n).txSeq + 1) % 65536 } :=
  State.port_setPort_same ..

theorem State.port_expSend (s : State) (n : Nat) (c : ExpCmd) (times : Nat) :
    (s.expSend n c times).port n = { s.port n with sent := some (c, times), txSeq := ((s.port n).txSeq + 1) % 65536 } := by
  rw [State.expSend, State.port_congr (State.cmdState_cam _ _ _ _ _), State.port_headSend, State.port_setPort_same]

/-- Sending a command moves neither the number of the next one nor the targets that wait. -/
theorem State.expPump_port (s : State) (n : Nat) :
    ((s.expPump n).port n).nextSeq = (s.port n).nextSeq ∧ ((s.expPump n).port n).expWaits = (s.port n).expWaits := by
  unfold State.expPump
  dsimp only
  split
  · rw [State.port_expSend, State.port_setPort_same]
    exact ⟨rfl, rfl⟩
  · exact ⟨rfl, rfl⟩

/-- A command that is queued: the port's next number, and everything that a head operation leaves alone (R138, R151). -/
theorem State.expSubmit_queued {s : State} {n : Nat} {c : ExpCmd} (hready : s.fld (F.HEAD_STATE_state n) = 4) (hroom : s.expFull n = false) :
    HeadOnly s (s.expSubmit n c) ∧ ((s.expSubmit n c).port n).nextSeq = ((s.port n).nextSeq + 1) % 65536
      ∧ ((s.expSubmit n c).port n).expWaits = (s.port n).expWaits := by
  simp only [State.expSubmit, ne_eq, hready, not_true_eq_false, if_false, hroom, Bool.false_eq_true]
  refine ⟨?_, ?_, ?_⟩
  · exact ((((HeadOnly.refl s).setPort _ _).setSensor _ _ _).trans (State.cmdState_headOnly _ _ _ _ _)).trans (State.expPump_headOnly _ _)
  · rw [(State.expPump_port _ _).1, State.port_congr (State.cmdState_cam _ _ _ _ _)]
    simp only [State.setSensor, State.port_setPort_same]
  · rw [(State.expPump_port _ _).2, State.port_congr (State.cmdState_cam _ _ _ _ _)]
    simp only [State.setSensor, State.port_setPort_same]

/-! ## The end of a hold (R105, R106, R152) -/

theorem State.reach_frame (s : State) (t : Nat) : ∃ a b, s.reach t = { s with anchorT := a, real := b } := by
  unfold State.reach
  split
  · exact ⟨_, _, rfl⟩
  · exact ⟨_, _, rfl⟩

/-- Where ANCHOR runs, time has reached the instant. -/
theorem State.le_nowNs_reach {s : State} (h : s.runs .anchor = true) (t : Nat) : t ≤ (s.reach t).nowNs := by
  by_cases hlt : s.nowNs < t
  · have hreach : (s.reach t).anchorT = t <<< 48 := by rw [State.reach, if_pos (by simp [h, hlt])]
    rw [State.nowNs, hreach, Nat.shiftLeft_shiftRight]
  · rw [State.reach, if_neg (by simp [hlt])]
    exact Nat.le_of_not_lt hlt

/-- A point that waits is decided for the instant at which it blocked, whatever the time. -/
theorem State.pointTime_of_wait {s t : State} {k kind target unit frame since : Nat} (hw : s.jnl.waits[k]? = some ⟨kind, target, unit, frame, since⟩)
    (ht : t.jnl = s.jnl) : t.pointTime kind target unit frame = s.pointTime kind target unit frame := by
  unfold State.pointTime
  rw [ht]
  split
  · rfl
  next hnone =>
    have := List.find?_eq_none.mp hnone _ (List.mem_of_getElem? hw)
    simp at this

/-- A followed decision without an entry and without a seal class waits (R105). -/
theorem State.ruling_waits {s : State} {kind target unit frame t : Nat} {own : Bool} (hf : s.follows kind t = true) (hown : own = false)
    (he : s.heldEntry kind target unit frame = none) : s.ruling kind target unit frame t none own = .wait := by
  simp only [State.ruling, hf, hown, he, Bool.not_false, Bool.and_self, if_true]

/-- A default target whose hold ends without an entry is overridden and its command submitted. -/
theorem State.exposureResume_forced {s : State} {u tag : Nat} {w : Nat × ExpCmd}
    (hw : (s.port (u / 4)).expWaits.find? (fun w => w.1 = tag && w.2.vs = u % 4) = some w)
    (hr : s.ruling 7 4 u tag (s.pointTime 7 4 u tag) none (s.ownCamera s.nowNs) = .wait) :
    s.exposureResume u tag true = (((s.setPort (u / 4) { s.port (u / 4) with expWaits := (s.port (u / 4)).expWaits.erase w }).overrideWrite
      7 4 u tag w.2.target 0 0).expSubmit (u / 4) w.2) := by
  simp only [State.exposureResume, hw, hr, if_true]

theorem settle_jnlApplied (s : State) : (settle s).jnl.applied = s.jnl.applied := congrArg (fun u => u.jnl.applied) (settles_settle s).quiet

theorem settle_jnlWaits (s : State) : (settle s).jnl.waits = s.jnl.waits := congrArg (fun u => u.jnl.waits) (settles_settle s).quiet

theorem settle_nowNs (s : State) : (settle s).nowNs = s.nowNs := by rw [State.nowNs, settle_anchorT]; rfl

theorem settle_port (s : State) (n : Nat) : (settle s).port n = s.port n := State.port_congr (settle_cam s) n

theorem State.blocked_congr {s t : State} (h : t.jnl.waits = s.jnl.waits) (kind target unit frame : Nat) :
    t.blocked kind target unit frame = s.blocked kind target unit frame := by rw [State.blocked, h]; rfl

theorem jnlHoldExpire_answers (k u tag since : Nat) (c : ExpCmd) (s : State) (hwait : s.jnl.waits[k]? = some ⟨7, 4, u, tag, since⟩)
    (hpoint : s.pointTime 7 4 u tag = since)
    (hfind : (s.port (u / 4)).expWaits.find? (fun w => w.1 = tag && w.2.vs = u % 4) = some (tag, c)) (hlead : s.jnl.leadFrom = none)
    (hfollows : s.follows 7 since = true) (hnone : s.heldEntry 7 4 u tag = none) (hready : s.fld (F.HEAD_STATE_state (u / 4)) = 4)
    (hroom : s.expFull (u / 4) = false) :
    ∃ t e, Answers (.jnlHoldExpire k) s t ∧ t.blocked 7 4 u tag = false ∧ e ∈ t.jnl.applied ∧ e.kind = 7 ∧ e.target = 4 ∧ e.unit = u
      ∧ e.frame = tag ∧ e.a = c.target ∧ e.override = true ∧ e.replayed = false
      ∧ t.fld F.RIG_JNL_OVERRIDES_count = min (s.fld F.RIG_JNL_OVERRIDES_count + 1) (2 ^ 32 - 1)
      ∧ t.fld F.RIG_JNL_STATUS_override = 1 ∧ (t.port (u / 4)).expWaits = (s.port (u / 4)).expWaits.erase (tag, c)
      ∧ (t.port (u / 4)).nextSeq = ((s.port (u / 4)).nextSeq + 1) % 65536 ∧ SameMemory s t
      ∧ (s.runs .anchor = true → since + s.holdNs ≤ t.nowNs) := by
  have htime := fun h => State.le_nowNs_reach (s := s) h (since + s.holdNs)
  have hexec : exec (.jnlHoldExpire k) s = done ((s.reach (since + s.holdNs)).exposureResume u tag true) := by
    rw [show exec (.jnlHoldExpire k) s = execJnlHoldExpire k s from rfl, execJnlHoldExpire, hwait]; rfl
  obtain ⟨a, b, hr⟩ := s.reach_frame (since + s.holdNs)
  generalize s.reach (since + s.holdNs) = r at *
  have hport : r.port (u / 4) = s.port (u / 4) := by rw [hr]; rfl
  have hruling : r.ruling 7 4 u tag (r.pointTime 7 4 u tag) none (r.ownCamera r.nowNs) = .wait := by
    refine State.ruling_waits ?_ ?_ ?_
    · rw [State.pointTime_of_wait hwait (by rw [hr]), hpoint, hr]; exact hfollows
    · rw [State.ownCamera, hr]; dsimp only; rw [hlead]
    · rw [hr]; exact hnone
  rw [State.exposureResume_forced (hport ▸ hfind) hruling, hport] at hexec
  dsimp only at hexec
  have hgone : (r.setPort (u / 4) { s.port (u / 4) with expWaits := (s.port (u / 4)).expWaits.erase (tag, c) }).port (u / 4)
      = { s.port (u / 4) with expWaits := (s.port (u / 4)).expWaits.erase (tag, c) } := State.port_setPort_same ..
  have hregs : (r.setPort (u / 4) { s.port (u / 4) with expWaits := (s.port (u / 4)).expWaits.erase (tag, c) }).regs = s.regs := by
    rw [hr]; rfl
  have hmem : SameMemory s (r.setPort (u / 4) { s.port (u / 4) with expWaits := (s.port (u / 4)).expWaits.erase (tag, c) }) := by
    rw [hr]; exact .of_eq rfl rfl rfl rfl
  have hclock : (r.setPort (u / 4) { s.port (u / 4) with expWaits := (s.port (u / 4)).expWaits.erase (tag, c) }).anchorT = r.anchorT := rfl
  generalize r.setPort (u / 4) { s.port (u / 4) with expWaits := (s.port (u / 4)).expWaits.erase (tag, c) } = g at *
  have ho := g.overrideWrite_overrides (kind := 7) 4 u tag c.target 0 0 (by decide)
  generalize g.overrideWrite 7 4 u tag c.target 0 0 = o at *
  obtain ⟨⟨x, j, hframe⟩, happlied, hcount, hstatus, hsettled, hrd⟩ := ho
  have hoport : o.port (u / 4) = g.port (u / 4) := by rw [hframe]; rfl
  have hoready : o.fld (F.HEAD_STATE_state (u / 4)) = 4 := by
    rw [State.fld, hrd, State.rd_congr hregs]
    · exact hready
    · simp only [F.HEAD_STATE_state, R.RIG_JNL_RING_DROP, R.RIG_JNL_OVERRIDES, R.RIG_JNL_STATUS, List.mem_cons, List.not_mem_nil, or_false]
      omega
  have horoom : o.expFull (u / 4) = false := by
    rw [← hroom, State.expFull, hoport, hgone]; rfl
  obtain ⟨hhead, hnext, hwaits⟩ := State.expSubmit_queued (c := c) hoready horoom
  generalize o.expSubmit (u / 4) c = q at *
  rw [hoport, hgone] at hnext hwaits
  refine ⟨_, g.ownEntry 7 4 u tag c.target 0 0 false true, answers_settle_of_exec_eq_done hexec, ?_, ?_, rfl, rfl, rfl, rfl, rfl, rfl, rfl,
    ?_, ?_, ?_, ?_, ?_, fun hrun => ?_⟩
  · rw [State.blocked_congr (settle_jnlWaits q), State.blocked_congr (congrArg Jnl.waits hhead.jnl)]; exact hsettled
  · rw [settle_jnlApplied, hhead.jnl]; exact happlied
  · rw [settle_fld_rigging _ _ (by decide), hhead.fld (by decide), hcount, State.fld_congr hregs]
  · rw [settle_fld_rigging _ _ (by decide), hhead.fld (by decide), hstatus]
  · rw [settle_port, hwaits]
  · rw [settle_port, hnext]
  · have hmem2 : SameMemory g o := by rw [hframe]; exact .of_eq rfl rfl rfl rfl
    exact ((hmem.trans hmem2).trans hhead.sameMemory).settle
  · have hsame : q.nowNs = r.nowNs := by rw [State.nowNs, hhead.anchorT, hframe, hclock]; rfl
    rw [settle_nowNs, hsame]
    exact htime hrun

/-- Settles O38: each clause is the effect of its command, through the closing step. -/
theorem journalControl : Obligations.JournalControl := by
  unfold Obligations.JournalControl
  exact ⟨⟨jnlEnable_answers, jnlInject_answers, digFrameRead_answers⟩,
    fun k u tag since c s _ _ _ hwait hpoint hfind hlead hfollows hnone hready hroom =>
      jnlHoldExpire_answers k u tag since c s hwait hpoint hfind hlead hfollows hnone hready hroom⟩

end Sys2Proof.Machine
end

section
/-! What an operation of the camera path changes, and how a received packet reaches the operation of its type (R131, R141). -/
namespace Sys2Proof.Machine

/-! ## Folds -/

/-- What every step of a fold leaves as it is, the fold leaves as it is. -/
theorem foldl_keeps {σ α β : Type} {f : σ → α → σ} (g : σ → β) (h : ∀ s x, g (f s x) = g s) (l : List α) (s : σ) :
    g (l.foldl f s) = g s := by
  induction l generalizing s with
  | nil => rfl
  | cons x r ih => exact (ih (f s x)).trans (h s x)

/-! ## Camera operations -/

/-- What an operation on contexts, frames and strands leaves alone: all but registers, camera state and strands. -/
def CamStrands (s t : State) : Prop := ∃ r c g, t = { s with regs := r, cam := c, rig := { s.rig with strands := g } }

theorem CamStrands.refl (s : State) : CamStrands s s := ⟨_, _, _, rfl⟩

theorem CamStrands.trans {s t u : State} (h : CamStrands s t) (k : CamStrands t u) : CamStrands s u := by
  obtain ⟨r, c, g, rfl⟩ := h
  obtain ⟨r', c', g', rfl⟩ := k
  exact ⟨r', c', g', rfl⟩

theorem CamStrands.put {s t : State} (h : CamStrands s t) (f : Fld) (v : Nat) : CamStrands s (t.put f v) := h.trans ⟨_, _, _, rfl⟩

theorem CamStrands.bump {s t : State} (h : CamStrands s t) (f : Fld) (n : Nat) : CamStrands s (t.bump f n) := h.put _ _

theorem CamStrands.setCtx {s t : State} (h : CamStrands s t) (c : Nat) (x : DevCtx) : CamStrands s (t.setCtx c x) :=
  h.trans ⟨_, _, _, rfl⟩

theorem CamStrands.setStream {s t : State} (h : CamStrands s t) (k : Nat) (x : DevStream) : CamStrands s (t.setStream k x) :=
  h.trans ⟨_, _, _, rfl⟩

theorem CamStrands.setSensor {s t : State} (h : CamStrands s t) (n v : Nat) (x : Sensor) : CamStrands s (t.setSensor n v x) :=
  h.trans ⟨_, _, _, rfl⟩

theorem CamStrands.strandSend {s t : State} (h : CamStrands s t) (id depth : Nat) (l : List Token) :
    CamStrands s (t.strandSend id depth l) := h.trans ⟨_, _, _, rfl⟩

theorem CamStrands.mark {s t : State} (h : CamStrands s t) (ports : List Nat) (tag : Nat) (k : Marks) :
    CamStrands s (t.mark ports tag k) := h.trans ⟨_, _, _, rfl⟩

theorem CamStrands.foldl {α : Type} {f : State → α → State} (hf : ∀ s x, CamStrands s (f s x)) (l : List α) (s : State) :
    CamStrands s (l.foldl f s) := by
  induction l generalizing s with
  | nil => exact .refl s
  | cons x r ih => exact (hf s x).trans (ih (f s x))

theorem CamStrands.jnl {s t : State} (h : CamStrands s t) : t.jnl = s.jnl := by
  obtain ⟨r, c, g, rfl⟩ := h
  rfl

/-- The same for an operation that also settles a decision of the journal. -/
def CamOnly (s t : State) : Prop := ∃ r c j g, t = { s with regs := r, cam := c, jnl := j, rig := { s.rig with strands := g } }

theorem CamOnly.refl (s : State) : CamOnly s s := ⟨_, _, _, _, rfl⟩

theorem CamOnly.trans {s t u : State} (h : CamOnly s t) (k : CamOnly t u) : CamOnly s u := by
  obtain ⟨r, c, j, g, rfl⟩ := h
  obtain ⟨r', c', j', g', rfl⟩ := k
  exact ⟨r', c', j', g', rfl⟩

theorem CamStrands.camOnly {s t : State} (h : CamStrands s t) : CamOnly s t := by
  obtain ⟨r, c, g, rfl⟩ := h
  exact ⟨r, c, s.jnl, g, rfl⟩

theorem CamOnly.unblock {s t : State} (h : CamOnly s t) (kind target unit frame : Nat) : CamOnly s (t.unblock kind target unit frame) :=
  h.trans ⟨_, _, _, _, rfl⟩

theorem CamOnly.jnlWrite {s t : State} (h : CamOnly s t) (kind target unit frame a b c : Nat) (replayed override : Bool) :
    CamOnly s (t.jnlWrite kind target unit frame a b c replayed override) := by
  obtain ⟨r, q, l, hd, sl, f, hw⟩ := (t.jnlWrite_writes kind target unit frame a b c replayed override).frame
  exact h.trans ⟨_, _, _, _, hw⟩

theorem CamOnly.sameMemory {s t : State} (h : CamOnly s t) : SameMemory s t := by
  obtain ⟨r, c, j, g, rfl⟩ := h
  exact .of_eq rfl rfl rfl rfl

theorem CamOnly.anchorT {s t : State} (h : CamOnly s t) : t.anchorT = s.anchorT := by
  obtain ⟨r, c, j, g, rfl⟩ := h
  rfl

theorem CamStrands.dram {s t : State} (h : CamStrands s t) : t.dram = s.dram := by
  obtain ⟨r, c, g, rfl⟩ := h
  rfl

theorem CamStrands.pool {s t : State} (h : CamStrands s t) : t.pool = s.pool := by
  obtain ⟨r, c, g, rfl⟩ := h
  rfl

/-! ## Contexts and frames -/

theorem State.ctx_setCtx_same (s : State) (c : Nat) (x : DevCtx) : (s.setCtx c x).ctx c = x := mapGet_mapSet_same ..

theorem State.ctx_congr {s t : State} (h : t.cam.ctxs = s.cam.ctxs) (c : Nat) : t.ctx c = s.ctx c := by rw [State.ctx, h]; rfl

theorem State.openFrame_congr {s t : State} (h : t.cam.ctxs = s.cam.ctxs) (c tag : Nat) : t.openFrame c tag = s.openFrame c tag := by
  rw [State.openFrame, State.ctx_congr h]; rfl

/-- An open frame is open and has the tag asked for. -/
theorem State.openFrame_some {s : State} {c tag : Nat} {f : CamFrame} (h : s.openFrame c tag = some f) : f.isOpen = true ∧ f.tag = tag := by
  simpa using List.find?_some h

theorem find?_replaceFirst {α : Type} {p : α → Bool} {x : α} {l : List α} (h : (l.find? p).isSome) (hx : p x = true) :
    (replaceFirst p x l).find? p = some x := by
  induction l with
  | nil => simp at h
  | cons a r ih =>
    by_cases ha : p a = true
    · simp [replaceFirst, ha, hx]
    · simp only [Bool.not_eq_true] at ha
      simp only [List.find?_cons, ha] at h
      simp [replaceFirst, ha, ih h]

/-- An open frame that replaces the open one of its tag is found in its place. -/
theorem State.openFrame_setOpen {s : State} {c tag : Nat} {f g : CamFrame} (h : s.openFrame c tag = some f) (ho : g.isOpen = true)
    (ht : g.tag = tag) : (s.setOpen c tag g).openFrame c tag = some g := by
  rw [State.openFrame, State.setOpen, State.ctx_setCtx_same]
  refine find?_replaceFirst ?_ (by simp [ho, ht])
  rw [← State.openFrame, h]; rfl

/-! ## A received packet (R131, R141) -/

/-- The state in which a received packet is acted on: time has come to its START, and the receiver hunts no more. -/
def State.hearing (s : State) (n t : Nat) : State :=
  (s.reach t).setPort n { (s.reach t).port n with hunting := false }

theorem State.hearing_frame (s : State) (n t : Nat) :
    ∃ a b p, s.hearing n t = { s with anchorT := a, real := b, cam := { s.cam with ports := p } } := by
  obtain ⟨a, b, h⟩ := s.reach_frame t
  rw [State.hearing, h]
  exact ⟨_, _, _, rfl⟩

theorem State.hearing_ctxs (s : State) (n t : Nat) : (s.hearing n t).cam.ctxs = s.cam.ctxs := by
  obtain ⟨a, b, p, h⟩ := s.hearing_frame n t
  rw [h]

theorem State.hearing_sensor (s : State) (n t p v : Nat) : (s.hearing n t).sensor p v = s.sensor p v := by
  obtain ⟨a, b, h⟩ := s.reach_frame t
  have hport : (s.reach t).port = s.port := by rw [h]; rfl
  by_cases hp : p = n
  · rw [State.sensor, State.hearing, hp, State.port_setPort_same, hport]; rfl
  · have hother : (s.hearing n t).port p = s.port p := by
      rw [← hport]; exact mapGet_mapSet_ne _ _ _ hp
    rw [State.sensor, hother]; rfl

theorem State.hearing_packetFits (s : State) (n t pt vsByte tag line first count plen : Nat) (resv : Bool) :
    (s.hearing n t).packetFits n pt vsByte tag line first count plen resv = s.packetFits n pt vsByte tag line first count plen resv := by
  have hdepth : ∀ v, (s.hearing n t).lineDepth n v tag = s.lineDepth n v tag := fun v => by
    have hsensor := fun p => s.hearing_sensor n t p v
    obtain ⟨a, b, p, h⟩ := s.hearing_frame n t
    rw [h] at hsensor ⊢
    unfold State.lineDepth
    dsimp only
    rw [hsensor]
    rfl
  unfold State.packetFits
  simp only [hdepth]

/-- What a packet of a frame does on a READY port, once it has passed R131. -/
def State.headAct (s : State) (n t pt v tag line first count : Nat) (payload : List Byte) : State :=
  if pt = 1 then s.frameStartOp n v tag t (frameStartOf payload)
  else if (s.sensor (s.primary n) v).dropped.contains tag && (s.packetFrame n v tag).isNone then
    (if pt = 3 then s.droppedEnd n v tag else s)
  else match s.packetFrame n v tag with
    | some (c, _) =>
      if pt = 2 then s.lineOp n c tag line first count payload true
      else s.frameEndOp n c tag (beAt payload 0 2)
    | none => (if pt = 2 then s.bump (F.HEAD_LATE_DROP_count n) 1 else s).lateNote n v tag pt

theorem State.headReceive_received {s : State} {n pt : Nat} {pkt payload : List Byte} (t : Nat) (h : Received s n pt pkt payload)
    (hready : s.fld (F.HEAD_STATE_state n) = 4) (hpt : pt < 4) :
    s.headReceive n t pkt true
      = (s.hearing n t).headAct n t pt (beAt pkt 1 1 / 64) (beAt pkt 2 2) (beAt pkt 4 2) (beAt pkt 6 2) (beAt pkt 8 2) payload := by
  obtain ⟨hrun, -, -, hlen, hpayload, htype, hcrc8, hplen, hcrc32, hfits⟩ := h
  have hready' : (s.reach t).fld (F.HEAD_STATE_state n) = 4 := by
    obtain ⟨a, b, hr⟩ := s.reach_frame t; rw [hr]; exact hready
  have hrun' : (s.reach t).runs .head = true := by
    obtain ⟨a, b, hr⟩ := s.reach_frame t; rw [hr]; exact hrun
  have hfits' := (s.hearing_packetFits n t pt (beAt pkt 1 1) (beAt pkt 2 2) (beAt pkt 4 2) (beAt pkt 6 2) (beAt pkt 8 2) payload.length
    (beAt pkt 14 1 = 0 && payloadReserved pt payload)).trans hfits
  have h4 : pt ≠ 4 := by omega
  have h5 : pt ≠ 5 := by omega
  have hlong : pkt.length = 16 + payload.length + 8 := by omega
  unfold State.headReceive
  simp only [hready', hrun', hplen, hpayload, htype, hcrc8, hcrc32, hlong]
  rw [State.hearing] at hfits' ⊢
  generalize State.setPort (s.reach t) n _ = u at hfits' ⊢
  simp only [ne_eq, not_true_eq_false, and_false, or_false, if_false, decide_true, Bool.not_true, Bool.false_or, hfits', Bool.true_eq_false,
    h4, h5, if_true, Nat.reduceLeDiff, Bool.and_true, State.headAct]
  rfl

end Sys2Proof.Machine
end

section
/-! The close of a frame that the device decides itself (R147 to R149). -/
namespace Sys2Proof.Machine

/-! ## Strands and contexts -/

theorem State.frameToken_only (s : State) (f : CamFrame) (tok : Token) :
    CamStrands s (s.frameToken f tok) ∧ (s.frameToken f tok).cam = s.cam := by
  unfold State.frameToken
  split
  · exact ⟨(CamStrands.refl s).strandSend _ _ _, rfl⟩
  · exact ⟨.refl s, rfl⟩

/-- No frame of a context is open under a tag. -/
def State.Closed (s : State) (c tag : Nat) : Prop := ∀ f ∈ (s.ctx c).frames, (f.isOpen && f.tag = tag) = false

theorem State.Closed.openFrame {s : State} {c tag : Nat} (h : s.Closed c tag) : s.openFrame c tag = none :=
  List.find?_eq_none.mpr fun f hf => by rw [h f hf]; exact Bool.false_ne_true

theorem State.Closed.of_ctxs {s t : State} {c tag : Nat} (h : s.Closed c tag) (e : t.cam.ctxs = s.cam.ctxs) : t.Closed c tag := by
  rw [State.Closed, State.ctx_congr e]; exact h

/-- The one open frame of a tag closes. -/
theorem filter_replaceFirst {α : Type} {p : α → Bool} {x a : α} {l : List α} (h : l.filter p = [a]) (hx : p x = false) :
    (replaceFirst p x l).filter p = [] := by
  induction l with
  | nil => rfl
  | cons b r ih =>
    by_cases hb : p b = true
    · rw [List.filter_cons_of_pos hb, List.cons.injEq] at h
      simp [replaceFirst, hb, hx, h.2]
    · rw [List.filter_cons_of_neg hb] at h
      simp [replaceFirst, hb, ih h]

theorem State.setOpen_closed {s : State} {c tag : Nat} {f g : CamFrame}
    (h : (s.ctx c).frames.filter (fun g => g.isOpen && g.tag = tag) = [f]) (hg : g.isOpen = false) : (s.setOpen c tag g).Closed c tag := by
  rw [State.Closed, State.setOpen, State.ctx_setCtx_same]
  intro e he
  have := List.filter_eq_nil_iff.mp (filter_replaceFirst h (x := g) (by simp [hg])) e he
  simpa using this

/-! ## Frames that leave -/

theorem State.dropFrame_only (s : State) (c tag : Nat) : CamStrands s (s.dropFrame c tag) := by
  unfold State.dropFrame
  dsimp only
  split
  · exact (CamStrands.refl s).setCtx _ _
  · exact .refl s

theorem State.Closed.dropFrame {s : State} {c tag : Nat} (h : s.Closed c tag) (k : Nat) : (s.dropFrame c k).Closed c tag := by
  unfold State.dropFrame
  dsimp only
  split
  · rw [State.Closed, State.ctx_setCtx_same]
    exact fun f hf => h f (List.mem_of_mem_erase hf)
  · exact h

/-- The FRAME_END tokens of one frame and its marks. -/
def State.endFrame (s : State) (c : Nat) (f : CamFrame) : State :=
  let e := frameEndToken f.tag f.lines f.flags
  let ports := (if f.tapLink.isSome then [c] else []) ++ (f.outs.filter (fun o => o.link.isSome)).map (fun o => 16 + o.stream)
  let s := s.mark ports f.tag ⟨f.excluded, f.replayed, f.override⟩
  let s := match f.tapLink with
    | some (id, d) => s.strandSend id d [e]
    | none => s
  f.outs.foldl (fun s o => match o.link with
    | some (id, d) => s.strandSend id d [e]
    | none => s) s

theorem State.endFrame_only (s : State) (c : Nat) (f : CamFrame) : CamStrands s (s.endFrame c f) ∧ (s.endFrame c f).cam.ctxs = s.cam.ctxs := by
  unfold State.endFrame
  dsimp only
  refine ⟨CamStrands.trans ?_ (CamStrands.foldl (fun t o => ?_) _ _), (foldl_keeps (fun (t : State) => t.cam.ctxs) (fun t o => ?_) _ _).trans ?_⟩
  · split
    · exact ((CamStrands.refl s).mark _ _ _).strandSend _ _ _
    · exact (CamStrands.refl s).mark _ _ _
  · split
    · exact (CamStrands.refl t).strandSend _ _ _
    · exact .refl t
  · split <;> rfl
  · split <;> rfl

/-- Whether a frame's FRAME_END is due, and the frames after it. -/
theorem State.frameEnds_eq (s : State) (c : Nat) :
    let due := fun (f : CamFrame) => !f.isOpen && f.developed c && !f.finished
    let x := s.ctx c
    let t := (x.frames.filter due).foldl (fun s f => s.endFrame c f)
      (s.setCtx c { x with frames := x.frames.map (fun f => if due f then { f with finished := true } else f) })
    s.frameEnds c = t.setCtx c { t.ctx c with frames := (t.ctx c).frames.filter (fun f => !f.spent) } := rfl

theorem State.frameEnds_only (s : State) (c : Nat) : CamStrands s (s.frameEnds c) := by
  rw [State.frameEnds_eq]
  exact (((CamStrands.refl s).setCtx _ _).trans (CamStrands.foldl (fun t f => (t.endFrame_only c f).1) _ _)).setCtx _ _

theorem State.Closed.frameEnds {s : State} {c tag : Nat} (h : s.Closed c tag) : (s.frameEnds c).Closed c tag := by
  rw [State.frameEnds_eq]
  dsimp only
  rw [State.Closed, State.ctx_setCtx_same]
  intro f hf
  have hf := (List.mem_filter.mp hf).1
  rw [State.ctx_congr (foldl_keeps (fun (t : State) => t.cam.ctxs) (fun t f => (t.endFrame_only c f).2) _ _), State.ctx_setCtx_same] at hf
  obtain ⟨e, he, rfl⟩ := List.mem_map.mp hf
  have := h e he
  split <;> exact this

/-! ## The close -/

/-- What remains of a close once its entry is written: the frame is replaced by the closed one, its registers and its token follow,
and it leaves where nothing is left of it. -/
def State.closeAs (s : State) (c : Nat) (g : CamFrame) (a : Nat) : State :=
  let s := s.setOpen c g.tag g
  let s := (s.put (F.HEAD_VS_FRAME_lines g.port g.vs) a).put (F.HEAD_VS_FRAME_flags g.port g.vs) g.flags
  let s := s.frameToken g (closeToken g.tag a g.flags)
  let s := if g.flags % 2 = 1 ∧ g.link.isSome then s.bump (F.DEV_CTX_TRUNC_COUNT_count c) 1 else s
  (s.dropFrame c g.tag).frameEnds c

theorem State.closeAs_closed {s : State} {c a : Nat} {f g : CamFrame}
    (h : (s.ctx c).frames.filter (fun e => e.isOpen && e.tag = g.tag) = [f]) (hg : g.isOpen = false) :
    CamStrands s (s.closeAs c g a) ∧ (s.closeAs c g a).Closed c g.tag := by
  have hopen : CamStrands s (s.setOpen c g.tag g) := (CamStrands.refl s).setCtx _ _
  have hclosed : (s.setOpen c g.tag g).Closed c g.tag := State.setOpen_closed h hg
  unfold State.closeAs
  dsimp only
  generalize s.setOpen c g.tag g = u at hopen hclosed
  have hput := (hopen.put (F.HEAD_VS_FRAME_lines g.port g.vs) a).put (F.HEAD_VS_FRAME_flags g.port g.vs) g.flags
  have hclosed := hclosed.of_ctxs (t := (u.put (F.HEAD_VS_FRAME_lines g.port g.vs) a).put (F.HEAD_VS_FRAME_flags g.port g.vs) g.flags) rfl
  generalize (u.put (F.HEAD_VS_FRAME_lines g.port g.vs) a).put (F.HEAD_VS_FRAME_flags g.port g.vs) g.flags = v at hput hclosed
  obtain ⟨htok, hcam⟩ := v.frameToken_only g (closeToken g.tag a g.flags)
  have hclosed := hclosed.of_ctxs (by rw [hcam])
  generalize v.frameToken g (closeToken g.tag a g.flags) = w at htok hclosed
  have hw := hput.trans htok
  have hlast : ∀ y, CamStrands s y → y.Closed c g.tag →
      CamStrands s ((y.dropFrame c g.tag).frameEnds c) ∧ ((y.dropFrame c g.tag).frameEnds c).Closed c g.tag :=
    fun y hy hc => ⟨(hy.trans (y.dropFrame_only c g.tag)).trans (State.frameEnds_only _ c), (hc.dropFrame g.tag).frameEnds⟩
  split
  · exact hlast _ (hw.bump _ _) (hclosed.of_ctxs rfl)
  · exact hlast _ hw hclosed

/-- The frame that a close decided by the device itself leaves in the place of the open one. -/
def State.closedFrame (s : State) (f : CamFrame) (a : Nat) : CamFrame :=
  { f with
    isOpen := false
    lines := a
    setTag := if !f.fs.echo then s.predictTag f.port f.vs f.tag else f.fs.echoTag
    predicted := !f.fs.echo
    replayed := f.replayed || false
    override := f.override || false }

/-- A frame closed by the device's own decision: its entry, then the closed frame. -/
theorem State.finishClose_local (s : State) (c : Nat) (f : CamFrame) (a bits : Nat) :
    ∃ g : CamFrame, g.isOpen = false ∧ g.tag = f.tag ∧ s.finishClose c f a bits none false
      = ((s.jnlWrite 1 0 c f.tag (min a (declH f.intake c)) bits 0 false false).unblock 1 0 c f.tag).closeAs c g (min a (declH f.intake c)) := by
  let f1 := if bits ≠ 0 ∧ min a (declH f.intake c) < f.linesSent.getD (declH f.intake c) then addFlag f 0 else f
  have htag : f1.tag = f.tag := by unfold f1; split <;> rfl
  refine ⟨((s.jnlWrite 1 0 c f1.tag (min a (declH f.intake c)) bits 0 false false).unblock 1 0 c f1.tag).closedFrame f1
    (min a (declH f.intake c)), rfl, htag, ?_⟩
  rw [← htag]
  rfl

/-- What a close that the device decides itself leaves: no open frame of the tag, its entry, and everything but the camera path. -/
theorem State.finishClose_closes {s : State} {c : Nat} {f : CamFrame} (a bits : Nat)
    (h : (s.ctx c).frames.filter (fun e => e.isOpen && e.tag = f.tag) = [f]) :
    let t := s.finishClose c f a bits none false
    CamOnly s t ∧ t.openFrame c f.tag = none ∧ ∃ e ∈ t.jnl.applied,
      e.kind = 1 ∧ e.unit = c ∧ e.frame = f.tag ∧ e.a = min a (declH f.intake c) ∧ e.b = bits := by
  intro t
  obtain ⟨g, hopen, htag, ht⟩ := s.finishClose_local c f a bits
  have hw := s.jnlWrite_writes 1 0 c f.tag (min a (declH f.intake c)) bits 0 false false
  have honly := (CamOnly.refl s).jnlWrite 1 0 c f.tag (min a (declH f.intake c)) bits 0 false false
  rw [show t = _ from ht]
  have hcam : (s.jnlWrite 1 0 c f.tag (min a (declH f.intake c)) bits 0 false false).cam = s.cam := by
    obtain ⟨r, q, l, hd, sl, fq, hfr⟩ := hw.frame; rw [hfr]
  have hmem := hw.mem_applied (show (1 : Nat) ≠ 9 by decide)
  generalize s.jnlWrite 1 0 c f.tag (min a (declH f.intake c)) bits 0 false false = w at *
  have happlied : (w.unblock 1 0 c f.tag).jnl.applied = w.jnl.applied := rfl
  have hctx : (w.unblock 1 0 c f.tag).ctx c = s.ctx c := State.ctx_congr (by rw [← hcam]; rfl) c
  have honly := honly.unblock 1 0 c f.tag
  generalize w.unblock 1 0 c f.tag = u at *
  obtain ⟨hstrands, hclosed⟩ := State.closeAs_closed (s := u) (c := c) (a := min a (declH f.intake c)) (f := f) (g := g)
    (by rw [hctx, htag]; exact h) hopen
  refine ⟨honly.trans hstrands.camOnly, htag ▸ hclosed.openFrame, s.ownEntry 1 0 c f.tag (min a (declH f.intake c)) bits 0 false false, ?_, rfl, rfl, rfl, rfl, rfl⟩
  rw [hstrands.jnl, happlied]
  exact hmem

end Sys2Proof.Machine
end

section
/-! The last FRAME_END of a frame and its ingress deadline (R134, R146, R147). -/
namespace Sys2Proof.Machine

/-! ## A unit that leads (R104) -/

theorem Leads.follows {s : State} (h : Leads s) (kind t : Nat) : s.follows kind t = false := by
  obtain ⟨hmode, hwas⟩ := h
  unfold State.follows
  split
  · simp [hwas]
  · simp [hmode]

theorem Leads.of_jnl {s t : State} (h : Leads s) (e : t.jnl = s.jnl) : Leads t := by rw [Leads, e]; exact h

theorem Leads.closeFollowed {s : State} (h : Leads s) (f : CamFrame) : s.closeFollowed f = false := by
  rw [State.closeFollowed, h.follows]; rfl

/-! ## Complete lines -/

theorem completeLines_le (got : SMap Nat) (w n a : Nat) : completeLines got w n a ≤ a + n := by
  induction n generalizing a with
  | zero => exact Nat.le_refl a
  | succ n ih =>
    unfold completeLines
    split
    · have := ih (a + 1); omega
    · omega

theorem CamFrame.accepted_le (f : CamFrame) (c : Nat) : f.accepted c ≤ declH f.intake c := by
  have := completeLines_le f.got (declW f.intake c) (declH f.intake c) 0
  rwa [Nat.zero_add] at this

/-- Where every line counts as complete, each has the full width. -/
theorem mapGet_of_completeLines {got : SMap Nat} {w n a : Nat} (h : completeLines got w n a = a + n) {l : Nat} (ha : a ≤ l) (hl : l < a + n) :
    mapGet 0 got l = w := by
  induction n generalizing a with
  | zero => omega
  | succ n ih =>
    unfold completeLines at h
    split at h
    next hw =>
      by_cases hla : l = a
      · rw [hla]; exact hw
      · exact ih (a := a + 1) (by omega) (by omega) (by omega)
    next => omega

theorem CamFrame.count_of_accepted {f : CamFrame} {c l : Nat} (h : f.accepted c = declH f.intake c) (hl : l < declH f.intake c) :
    f.count l = declW f.intake c :=
  mapGet_of_completeLines (by rw [Nat.zero_add]; exact h) (Nat.zero_le l) (by omega)

/-! ## Frames found -/

theorem State.openFrame_of_filter {s : State} {c tag : Nat} {f : CamFrame}
    (h : (s.ctx c).frames.filter (fun g => g.isOpen && g.tag = tag) = [f]) : s.openFrame c tag = some f := by
  rw [State.openFrame, ← List.head?_filter, h]; rfl

/-- The one open frame of a tag replaced by another of the tag. -/
theorem filter_replaceFirst_open {α : Type} {p : α → Bool} {x a : α} {l : List α} (h : l.filter p = [a]) (hx : p x = true) :
    (replaceFirst p x l).filter p = [x] := by
  induction l with
  | nil => simp at h
  | cons b r ih =>
    by_cases hb : p b = true
    · rw [List.filter_cons_of_pos hb, List.cons.injEq] at h
      simp [replaceFirst, hb, hx, h.2]
    · rw [List.filter_cons_of_neg hb] at h
      simp [replaceFirst, hb, ih h]

theorem State.hearing_packetFrame (s : State) (n t m v tag : Nat) : (s.hearing n t).packetFrame m v tag = s.packetFrame m v tag := by
  obtain ⟨a, b, p, h⟩ := s.hearing_frame n t
  rw [h]; rfl

theorem State.filter_setOpen (s : State) {c tag : Nat} {f g : CamFrame} (h : (s.ctx c).frames.filter (fun e => e.isOpen && e.tag = tag) = [f])
    (ho : g.isOpen = true) (ht : g.tag = tag) : ((s.setOpen c tag g).ctx c).frames.filter (fun e => e.isOpen && e.tag = tag) = [g] := by
  rw [State.setOpen, State.ctx_setCtx_same]
  exact filter_replaceFirst_open h (by simp [ho, ht])

/-- A packet of an open frame after its start is acted on by its type. -/
theorem State.headAct_line {s : State} {n v tag line first count c t : Nat} {f : CamFrame} (payload : List Byte)
    (h : s.packetFrame n v tag = some (c, f)) :
    s.headAct n t 2 v tag line first count payload = s.lineOp n c tag line first count payload true := by
  simp [State.headAct, h]

theorem State.headAct_frameEnd {s : State} {n v tag line first count c t : Nat} {f : CamFrame} (payload : List Byte)
    (h : s.packetFrame n v tag = some (c, f)) :
    s.headAct n t 3 v tag line first count payload = s.frameEndOp n c tag (beAt payload 0 2) := by
  simp [State.headAct, h]

/-- A port's lines below a line are padded only where one is not complete. -/
theorem State.padBelow_complete {s : State} {c tag port top : Nat} {f : CamFrame} (h : s.openFrame c tag = some f)
    (hl : ∀ l, l < top → l % max 1 f.ports.length = f.ports.idxOf port → f.count l = declW f.intake c) : s.padBelow c tag port top = s := by
  have hnone : (List.range top).filter (fun l => l % max 1 f.ports.length = f.ports.idxOf port && f.count l != declW f.intake c) = [] := by
    rw [List.filter_eq_nil_iff]
    intro l hm
    have := hl l (List.mem_range.mp hm)
    simpa using this
  rw [State.padBelow, h]
  dsimp only
  rw [hnone]
  rfl

/-! ## The last FRAME_END -/

/-- A frame to which a port has sent its FRAME_END. -/
def CamFrame.endedBy (f : CamFrame) (n sent : Nat) : CamFrame :=
  { f with linesSent := some (f.linesSent.getD sent), ended := if f.ended.contains n then f.ended else n :: f.ended }

theorem CamFrame.endedBy_whole {f : CamFrame} {n sent c : Nat} (hports : ∀ q ∈ f.ports, q = n ∨ q ∈ f.ended)
    (hall : f.accepted c = declH f.intake c) : (f.endedBy n sent).whole c = true := by
  have hended : f.ports.all (f.endedBy n sent).ended.contains = true := by
    rw [List.all_eq_true]
    intro q hq
    rw [List.contains_iff_mem]
    show q ∈ (if f.ended.contains n then f.ended else n :: f.ended)
    split
    next hn =>
      rcases hports q hq with rfl | h
      · exact List.contains_iff_mem.mp hn
      · exact h
    · rcases hports q hq with rfl | h
      · exact List.mem_cons_self
      · exact List.mem_cons_of_mem _ h
  have hle : min (f.linesSent.getD sent) (declH f.intake c) ≤ f.accepted c := by omega
  show (f.ports.all (f.endedBy n sent).ended.contains && decide (min (f.linesSent.getD sent) (declH f.intake c) ≤ f.accepted c)) = true
  rw [hended, decide_eq_true hle]; rfl

/-- The FRAME_END that makes a frame whole closes it. -/
theorem State.frameEndOp_last {s : State} {n c sent : Nat} {f : CamFrame} (hleads : Leads s)
    (hone : (s.ctx c).frames.filter (fun g => g.isOpen && g.tag = f.tag) = [f]) (hstop : f.stopped = 0)
    (hports : ∀ q ∈ f.ports, q = n ∨ q ∈ f.ended) (hsent : f.linesSent.getD sent = declH f.intake c)
    (hall : f.accepted c = declH f.intake c) :
    s.frameEndOp n c f.tag sent = (s.setOpen c f.tag (f.endedBy n sent)).finishClose c (f.endedBy n sent) (declH f.intake c) 0 none false := by
  have hopen := State.openFrame_of_filter hone
  obtain ⟨hf, -⟩ := State.openFrame_some hopen
  have hnext : (s.setOpen c f.tag (f.endedBy n sent)).openFrame c f.tag = some (f.endedBy n sent) :=
    State.openFrame_setOpen hopen hf rfl
  have hpad := State.padBelow_complete (port := n) (top := declH f.intake c) hnext
    fun l hl _ => (CamFrame.count_of_accepted hall hl : f.count l = _)
  have hlocal : (s.setOpen c f.tag (f.endedBy n sent)).closeFollowed (f.endedBy n sent) = false := (hleads.of_jnl rfl).closeFollowed _
  have hnot : ¬ f.linesSent.getD sent < declH f.intake c := by omega
  have hlines : min (f.linesSent.getD sent) (declH f.intake c) = declH f.intake c := by omega
  have hstep : s.frameEndOp n c f.tag sent
      = ((s.setOpen c f.tag (f.endedBy n sent)).padBelow c f.tag n (declH f.intake c)).closeCheck c f.tag := by
    simp only [State.frameEndOp, hopen, if_neg (not_not_intro hstop), Option.getD_some, if_neg hnot, hlines]
    rfl
  rw [hstep, hpad, State.closeCheck, hnext]
  dsimp only
  rw [hlocal, CamFrame.endedBy_whole hports hall, if_neg Bool.false_ne_true, if_pos rfl, show (f.endedBy n sent).accepted c = _ from hall]

/-! ## The commands -/

theorem frameEnd_answers (n at_ c : Nat) (f : CamFrame) (rest payload : List Byte) (s : State) (hn : n < 8)
    (hready : s.fld (F.HEAD_STATE_state n) = 4) (hleads : Leads s) (hrec : Received s n 3 (0x03#8 :: rest) payload)
    (hframe : s.packetFrame n (beAt rest 0 1 / 64) f.tag = some (c, f))
    (hone : (s.ctx c).frames.filter (fun g => g.isOpen && g.tag = f.tag) = [f]) (htag : beAt rest 1 2 = f.tag) (hstop : f.stopped = 0)
    (hports : ∀ q ∈ f.ports, q = n ∨ q ∈ f.ended) (hsent : f.linesSent.getD (beAt payload 0 2) = declH f.intake c)
    (hall : f.accepted c = declH f.intake c) :
    ∃ t e, Answers (.frameEnd n at_ rest) s t ∧ t.openFrame c f.tag = none ∧ e ∈ t.jnl.applied ∧ e.kind = 1 ∧ e.unit = c
      ∧ e.frame = f.tag ∧ e.a = declH f.intake c ∧ e.b = 0 ∧ SameMemory s t := by
  have hexec : exec (.frameEnd n at_ rest) s = done (s.headReceive n at_ (0x03#8 :: rest) true) := by
    show done (s.headReceive (n % 8) at_ (0x03#8 :: rest) true) = _
    rw [Nat.mod_eq_of_lt hn]
  rw [State.headReceive_received at_ hrec hready (by decide)] at hexec
  have hseen := (s.hearing_packetFrame n at_ n (beAt rest 0 1 / 64) f.tag).trans hframe
  rw [show beAt (0x03#8 :: rest) 2 2 = f.tag from htag, show beAt (0x03#8 :: rest) 1 1 = beAt rest 0 1 from rfl,
    State.headAct_frameEnd payload hseen] at hexec
  have hone' : ((s.hearing n at_).ctx c).frames.filter (fun g => g.isOpen && g.tag = f.tag) = [f] := by
    rw [State.ctx_congr (s.hearing_ctxs n at_)]; exact hone
  obtain ⟨a, b, p, hu⟩ := s.hearing_frame n at_
  have hmem : SameMemory s (s.hearing n at_) := by rw [hu]; exact .of_eq rfl rfl rfl rfl
  have hleads' : Leads (s.hearing n at_) := hleads.of_jnl (by rw [hu])
  generalize s.hearing n at_ = u at *
  rw [State.frameEndOp_last hleads' hone' hstop hports hsent hall] at hexec
  have hgtag : (f.endedBy n (beAt payload 0 2)).tag = f.tag := rfl
  have hgopen : (f.endedBy n (beAt payload 0 2)).isOpen = f.isOpen := rfl
  have hgintake : (f.endedBy n (beAt payload 0 2)).intake = f.intake := rfl
  generalize f.endedBy n (beAt payload 0 2) = g at *
  have hgone := u.filter_setOpen hone' (g := g) (hgopen.trans (State.openFrame_some (State.openFrame_of_filter hone)).1) hgtag
  have hset : CamOnly u (u.setOpen c f.tag g) := ((CamStrands.refl u).setCtx _ _).camOnly
  generalize u.setOpen c f.tag g = w at *
  rw [← hgtag] at hgone
  obtain ⟨honly, hnone, e, he, hkind, hunit, hframe, ha, hb⟩ := State.finishClose_closes (declH f.intake c) 0 hgone
  generalize w.finishClose c g (declH f.intake c) 0 none false = t at *
  refine ⟨_, e, answers_settle_of_exec_eq_done hexec, (State.openFrame_congr (by rw [settle_cam]) c f.tag).trans (hgtag ▸ hnone), ?_, hkind, hunit,
    hframe.trans hgtag, ?_, hb, (hmem.trans (hset.trans honly).sameMemory).settle⟩
  · rw [settle_jnlApplied]; exact he
  · rw [ha, hgintake, Nat.min_self]

/-- The ingress deadline of an open frame closes it with what arrived (R147 event 2). -/
theorem State.ingressDeadline_closes {s : State} {c d also : Nat} {f : CamFrame} (hleads : Leads s)
    (hone : (s.ctx c).frames.filter (fun g => g.isOpen && g.tag = f.tag) = [f]) (hd : s.boundary 1 c = some d) :
    s.ingressDeadline c f.tag also = (s.reach (f.sof + d)).finishClose c f (f.accepted c) (2 ||| (also &&& 5)) none false := by
  have hopen := State.openFrame_of_filter hone
  have hlater : (s.reach (f.sof + d)).openFrame c f.tag = some f ∧ Leads (s.reach (f.sof + d)) := by
    obtain ⟨a, b, h⟩ := s.reach_frame (f.sof + d)
    rw [h]; exact ⟨hopen, hleads⟩
  rw [State.ingressDeadline, hopen, hd]
  dsimp only
  rw [State.closeEvent, hlater.1]
  dsimp only
  rw [hlater.2.closeFollowed, if_neg Bool.false_ne_true]

theorem ingressDeadline_answers (c d also : Nat) (f : CamFrame) (s : State) (hc : c < 16) (hleads : Leads s)
    (hone : (s.ctx c).frames.filter (fun g => g.isOpen && g.tag = f.tag) = [f]) (hd : s.boundary 1 c = some d) :
    ∃ t e, Answers (.ingressDeadline c f.tag also) s t ∧ t.openFrame c f.tag = none ∧ e ∈ t.jnl.applied ∧ e.kind = 1 ∧ e.unit = c
      ∧ e.frame = f.tag ∧ e.a = f.accepted c ∧ e.b = (2 ||| (also &&& 5)) ∧ SameMemory s t
      ∧ (s.runs .anchor = true → f.sof + d ≤ t.nowNs) := by
  have hexec : exec (.ingressDeadline c f.tag also) s = done (s.ingressDeadline c f.tag also) := by
    show done (s.ingressDeadline (c % 16) f.tag also) = _
    rw [Nat.mod_eq_of_lt hc]
  rw [State.ingressDeadline_closes hleads hone hd] at hexec
  have htime := fun h => State.le_nowNs_reach (s := s) h (f.sof + d)
  obtain ⟨a, b, hr⟩ := s.reach_frame (f.sof + d)
  have hmem : SameMemory s (s.reach (f.sof + d)) := by rw [hr]; exact .of_eq rfl rfl rfl rfl
  have hone' : ((s.reach (f.sof + d)).ctx c).frames.filter (fun g => g.isOpen && g.tag = f.tag) = [f] := by rw [hr]; exact hone
  generalize s.reach (f.sof + d) = u at *
  obtain ⟨honly, hnone, e, he, hkind, hunit, hframe, ha, hb⟩ := State.finishClose_closes (f.accepted c) (2 ||| (also &&& 5)) hone'
  have hnow : (u.finishClose c f (f.accepted c) (2 ||| (also &&& 5)) none false).nowNs = u.nowNs := by rw [State.nowNs, honly.anchorT]; rfl
  generalize u.finishClose c f (f.accepted c) (2 ||| (also &&& 5)) none false = t at *
  refine ⟨_, e, answers_settle_of_exec_eq_done hexec, (State.openFrame_congr (by rw [settle_cam]) c f.tag).trans hnone, ?_, hkind, hunit, hframe, ?_, hb,
    (hmem.trans honly.sameMemory).settle, fun hrun => ?_⟩
  · rw [settle_jnlApplied]; exact he
  · exact ha.trans (Nat.min_eq_left (f.accepted_le c))
  · rw [settle_nowNs, hnow]; exact htime hrun

end Sys2Proof.Machine
end

section
/-! A line stored in its ingress slot (R146, R164, R165). -/
namespace Sys2Proof.Machine

/-! ## Bytes of the pool -/

/-- A window of a memory holds its bytes. -/
theorem memRead_eq_map (m : Memory) (a n : Nat) : memRead m a n = (List.range n).map (fun i => memGet m (a + i)) := by
  refine List.map_congr_left fun i hi => ?_
  have hi := List.mem_range.mp hi
  rw [memBelow, memGet_filter _ _ _ (by simpa using by omega), memFrom, memGet_filter _ _ _ (by simp)]

theorem memRead_memWrite (m : Memory) (a : Nat) (d : List Byte) : memRead (memWrite m a d) a d.length = d := by
  rw [memRead_eq_map]
  refine List.ext_getElem (by simp) fun i h1 h2 => ?_
  rw [List.getElem_map, List.getElem_range, memGet_memWrite_in m a d i h2]

/-! ## Slots -/

/-- A range that meets one bank is one span. -/
theorem joinedSpans_one {banks : List Nat} {pos len : Nat} (n : Nat) (h0 : len ≠ 0) (h : pos % bankBytes + len ≤ bankBytes) :
    joinedSpans banks (n + 1) pos len = [(banks.getD (pos / bankBytes) 0 * bankBytes + pos % bankBytes, len)] := by
  have hk : min len (bankBytes - pos % bankBytes) = len := by omega
  cases n with
  | zero => simp only [joinedSpans, if_neg h0, hk]
  | succ n => simp only [joinedSpans, if_neg h0, hk, Nat.sub_self, if_true]

theorem State.settleBank_idle {s : State} (h1 : s.rig.zeroing = []) (h2 : s.rig.zeroWait = []) (b : Nat) : s.settleBank b = s := by
  rw [State.settleBank, h1, h2, if_neg]
  simp

theorem leBytes_flatMap_length (l : List Nat) : (l.flatMap (leBytes 2)).length = 2 * l.length := by
  induction l with
  | nil => rfl
  | cons x r ih =>
    rw [List.flatMap_cons, List.length_append, ih, List.length_cons]
    simp only [leBytes, List.length_cons, List.length_nil]
    omega

theorem State.settleBank_frame (s : State) (b : Nat) :
    (s.settleBank b).cam = s.cam ∧ (s.settleBank b).jnl = s.jnl ∧ (s.settleBank b).dram = s.dram := by
  unfold State.settleBank
  split
  · exact ⟨rfl, rfl, rfl⟩
  · exact ⟨rfl, rfl, rfl⟩

/-- What storing photosites leaves alone: camera state, journal and DRAM. -/
theorem State.slotWrite_frame (s : State) (f : CamFrame) (l x : Nat) (vals : List Nat) :
    (s.slotWrite f l x vals).cam = s.cam ∧ (s.slotWrite f l x vals).jnl = s.jnl ∧ (s.slotWrite f l x vals).dram = s.dram := by
  have hstep : ∀ (t : State) (b : Nat), (if s.oldFrame f then t else t.settleBank b).cam = t.cam
      ∧ (if s.oldFrame f then t else t.settleBank b).jnl = t.jnl ∧ (if s.oldFrame f then t else t.settleBank b).dram = t.dram := fun t b => by
    split
    · exact ⟨rfl, rfl, rfl⟩
    · exact t.settleBank_frame b
  exact ⟨foldl_keeps (fun (a : State × List Byte) => a.1.cam) (fun a sp => (hstep a.1 _).1) _ (s, _),
    foldl_keeps (fun (a : State × List Byte) => a.1.jnl) (fun a sp => (hstep a.1 _).2.1) _ (s, _),
    foldl_keeps (fun (a : State × List Byte) => a.1.dram) (fun a sp => (hstep a.1 _).2.2) _ (s, _)⟩

/-- Photosites stored in one bank that awaits no zeroing stand there. -/
theorem State.slotWrite_read {s : State} {f : CamFrame} {l x : Nat} {vals : List Nat} (h1 : s.rig.zeroing = []) (h2 : s.rig.zeroWait = [])
    (hv : vals.length ≠ 0) (hone : (f.slotPos l + 2 * x) % bankBytes + 2 * vals.length ≤ bankBytes) :
    (s.slotWrite f l x vals).poolRead
      (f.banks.getD ((f.slotPos l + 2 * x) / bankBytes) 0 * bankBytes + (f.slotPos l + 2 * x) % bankBytes) (2 * vals.length)
      = vals.flatMap (leBytes 2) := by
  have hlen := leBytes_flatMap_length vals
  rw [State.slotWrite, joinedSpans_one 2 (by omega) hone, List.foldl_cons, List.foldl_nil]
  dsimp only
  rw [State.settleBank_idle h1 h2, ite_self, List.take_of_length_le (by omega), State.poolRead, ← hlen]
  exact memRead_memWrite _ _ _

/-! ## The line -/

/-- A frame that holds a line from its start up to a count of photosites. -/
def CamFrame.withLine (f : CamFrame) (line now : Nat) : CamFrame :=
  { f with got := mapSet f.got line now, held := if f.link.isSome && !f.held.contains line then line :: f.held else f.held }

theorem CamFrame.withLine_count (f : CamFrame) (line now : Nat) : (f.withLine line now).count line = now := mapGet_mapSet_same ..

theorem CamFrame.mem_held_withLine {f : CamFrame} (h : f.link ≠ none) (line now : Nat) : line ∈ (f.withLine line now).held := by
  show line ∈ (if f.link.isSome && !f.held.contains line then line :: f.held else f.held)
  rw [Option.isSome_iff_ne_none.mpr h, Bool.true_and]
  split
  · exact List.mem_cons_self
  next hc => simpa using hc

/-- A frame without a FRAME_END is not whole, so nothing closes it. -/
theorem State.closeCheck_unsent {s : State} {c tag : Nat} {f : CamFrame} (hleads : Leads s) (hopen : s.openFrame c tag = some f)
    (hsent : f.linesSent = none) : s.closeCheck c tag = s := by
  rw [State.closeCheck, hopen]
  dsimp only
  rw [hleads.closeFollowed, CamFrame.whole, hsent, if_neg Bool.false_ne_true]
  exact if_neg Bool.false_ne_true

/-- A line that follows what the frame holds of it, with a right check, is stored: its photosites go to the slot, and the frame
stays open while no FRAME_END has come. -/
theorem State.lineOp_follows {s : State} {n c line first count : Nat} {f : CamFrame} {payload : List Byte} (hleads : Leads s)
    (hopen : s.openFrame c f.tag = some f) (hgot : f.count line = first) (hcount : 1 ≤ count) (hw : first + count ≤ declW f.intake c)
    (hport : n ∈ f.ports) (hstop : f.stopped = 0) (hline : line < declH f.intake c) (hsent : f.linesSent = none)
    (hbelow : ∀ l, l < line → l % f.ports.length = f.ports.idxOf n → f.count l = declW f.intake c) (hlink : f.link ≠ none)
    (hslot : line ∈ f.held ∨ s.slotBusy c f line = false) (hflag : f.flags.testBit 6 = false) :
    let vals := (unpackSites payload f.fs.bits count).map (· * 2 ^ (16 - f.fs.bits))
    let u := (s.slotWrite f line first vals).setOpen c f.tag (f.withLine line (first + count))
    s.lineOp n c f.tag line first count payload true
      = if first + count = declW f.intake c then u.frameToken (f.withLine line (first + count)) (lineToken f.tag line) else u := by
  intro vals u
  have hsome : f.link.isSome = true := Option.isSome_iff_ne_none.mpr hlink
  have hpos : 0 < f.ports.length := List.length_pos_of_mem hport
  have hpad : s.padBelow c f.tag n line = s := State.padBelow_complete hopen fun l hl hm => hbelow l hl (by rwa [Nat.max_eq_right hpos] at hm)
  have hbusy : (f.link.isSome && !f.held.contains line && s.slotBusy c f line) = false := by
    rcases hslot with h | h
    · simp [h]
    · simp [h]
  have hvals : vals.length = count := by simp [vals, unpackSites]
  have hall : (List.replicate (first - first) (declPad f.intake c) ++ vals).take (declW f.intake c - first) = vals := by
    rw [Nat.sub_self, List.replicate_zero, List.nil_append, List.take_of_length_le (by omega)]
  have hnow : min (declW f.intake c) (first + count) = first + count := Nat.min_eq_right hw
  have hloc : u.openFrame c f.tag = some (f.withLine line (first + count)) :=
    State.openFrame_setOpen ((State.openFrame_congr (by rw [(s.slotWrite_frame f line first vals).1]) c f.tag).trans hopen)
      (State.openFrame_some hopen).1 rfl
  have h1 : ¬ declH f.intake c ≤ line := by omega
  have h2 : ¬ first = declW f.intake c := by omega
  have h3 : ¬ declW f.intake c < first + count := by omega
  simp only [State.lineOp, hopen, if_neg (not_not_intro hstop), if_neg h1, hgot, if_neg h2, Nat.lt_irrefl, if_false, hpad, hbusy, Bool.false_eq_true,
    if_true, if_neg h3, Bool.true_and, hflag, Bool.not_false]
  rw [show _ = vals from hall, hnow, if_pos hsome]
  change State.closeCheck (if first + count = declW f.intake c then u.frameToken (f.withLine line (first + count)) (lineToken f.tag line) else u)
    c f.tag = _
  have hleads' : Leads u := hleads.of_jnl (s.slotWrite_frame f line first vals).2.1
  split
  · obtain ⟨htok, hcam⟩ := u.frameToken_only (f.withLine line (first + count)) (lineToken f.tag line)
    exact State.closeCheck_unsent (hleads'.of_jnl htok.jnl) ((State.openFrame_congr (by rw [hcam]) c f.tag).trans hloc) hsent
  · exact State.closeCheck_unsent hleads' hloc hsent

/-- A stored line: the frame found with it, and what a token to the Developer leaves alone. -/
theorem State.storeLine_frame {s : State} {c : Nat} {f : CamFrame} (hopen : s.openFrame c f.tag = some f) (line first now : Nat)
    (vals : List Nat) :
    let u := (s.slotWrite f line first vals).setOpen c f.tag (f.withLine line now)
    let t := if now = declW f.intake c then u.frameToken (f.withLine line now) (lineToken f.tag line) else u
    t.openFrame c f.tag = some (f.withLine line now) ∧ t.dram = s.dram ∧ t.pool = (s.slotWrite f line first vals).pool := by
  intro u t
  obtain ⟨hcam, -, hdram⟩ := s.slotWrite_frame f line first vals
  have hu : u.openFrame c f.tag = some (f.withLine line now) :=
    State.openFrame_setOpen ((State.openFrame_congr (by rw [hcam]) c f.tag).trans hopen) (State.openFrame_some hopen).1 rfl
  have hud : u.dram = s.dram := hdram
  have hup : u.pool = (s.slotWrite f line first vals).pool := rfl
  obtain ⟨htok, htcam⟩ := u.frameToken_only (f.withLine line now) (lineToken f.tag line)
  unfold t
  split
  · exact ⟨(State.openFrame_congr (by rw [htcam]) c f.tag).trans hu, htok.dram.trans hud, htok.pool.trans hup⟩
  · exact ⟨hu, hud, hup⟩

theorem line_answers (n at_ c line : Nat) (f : CamFrame) (rest payload : List Byte) (s : State) (hn : n < 8)
    (hready : s.fld (F.HEAD_STATE_state n) = 4) (hleads : Leads s) (hrec : Received s n 2 (0x02#8 :: rest) payload)
    (hframe : s.packetFrame n (beAt rest 0 1 / 64) f.tag = some (c, f)) (hopen : s.openFrame c f.tag = some f) :
    let first := beAt rest 5 2
    let count := beAt rest 7 2
    let w := declW f.intake c
    beAt rest 1 2 = f.tag → beAt rest 3 2 = line → f.count line = first → first + count ≤ w → n ∈ f.ports → f.stopped = 0 →
    line < declH f.intake c → f.linesSent = none →
    (∀ l, l < line → l % f.ports.length = f.ports.idxOf n → f.count l = w) →
    f.link ≠ none → (line ∈ f.held ∨ s.slotBusy c f line = false) → f.flags.testBit 6 = false →
    ∃ t g, Answers (.line n at_ rest) s t ∧ t.openFrame c f.tag = some g ∧ g.count line = first + count ∧ line ∈ g.held
      ∧ g.flags = f.flags ∧ t.dram = s.dram
      ∧ (s.rig.zeroing = [] → s.rig.zeroWait = [] → (f.slotPos line + 2 * first) % bankBytes + 2 * count ≤ bankBytes →
        t.poolRead (f.banks.getD ((f.slotPos line + 2 * first) / bankBytes) 0 * bankBytes + (f.slotPos line + 2 * first) % bankBytes)
            (2 * count)
          = (unpackSites payload f.fs.bits count).flatMap (fun x => leBytes 2 (x * 2 ^ (16 - f.fs.bits)))) := by
  intro first count w htag hnum hgot hw hport hstop hline hsent hbelow hlink hslot hflag
  have hcount : 1 ≤ count := by
    obtain ⟨-, -, -, -, -, -, -, -, -, hfits⟩ := hrec
    simp only [State.packetFits, Bool.and_eq_true, decide_eq_true_eq] at hfits
    exact hfits.2.1.1
  have hexec : exec (.line n at_ rest) s = done (s.headReceive n at_ (0x02#8 :: rest) true) := by
    show done (s.headReceive (n % 8) at_ (0x02#8 :: rest) true) = _
    rw [Nat.mod_eq_of_lt hn]
  rw [State.headReceive_received at_ hrec hready (by decide)] at hexec
  have hseen := (s.hearing_packetFrame n at_ n (beAt rest 0 1 / 64) f.tag).trans hframe
  rw [show beAt (0x02#8 :: rest) 2 2 = f.tag from htag, show beAt (0x02#8 :: rest) 1 1 = beAt rest 0 1 from rfl,
    show beAt (0x02#8 :: rest) 4 2 = line from hnum, show beAt (0x02#8 :: rest) 6 2 = first from rfl,
    show beAt (0x02#8 :: rest) 8 2 = count from rfl, State.headAct_line payload hseen] at hexec
  obtain ⟨a, b, p, hu⟩ := s.hearing_frame n at_
  have hleads' : Leads (s.hearing n at_) := hleads.of_jnl (by rw [hu])
  have hopen' : (s.hearing n at_).openFrame c f.tag = some f := (State.openFrame_congr (s.hearing_ctxs n at_) c f.tag).trans hopen
  have hslot' : line ∈ f.held ∨ (s.hearing n at_).slotBusy c f line = false := by rw [hu]; exact hslot
  have hdram : (s.hearing n at_).dram = s.dram := by rw [hu]
  have hrig : (s.hearing n at_).rig = s.rig := by rw [hu]
  generalize s.hearing n at_ = u at *
  rw [State.lineOp_follows hleads' hopen' hgot hcount hw hport hstop hline hsent hbelow hlink hslot' hflag] at hexec
  have hmap : (unpackSites payload f.fs.bits count).flatMap (fun x => leBytes 2 (x * 2 ^ (16 - f.fs.bits)))
      = ((unpackSites payload f.fs.bits count).map (· * 2 ^ (16 - f.fs.bits))).flatMap (leBytes 2) := (List.flatMap_map ..).symm
  have hlen : ((unpackSites payload f.fs.bits count).map (· * 2 ^ (16 - f.fs.bits))).length = count := by simp [unpackSites]
  rw [hmap]
  generalize (unpackSites payload f.fs.bits count).map (· * 2 ^ (16 - f.fs.bits)) = vals at *
  obtain ⟨hstored, hd, hp⟩ := u.storeLine_frame hopen' line first (first + count) vals
  generalize (if first + count = declW f.intake c then _ else _ : State) = t at *
  refine ⟨_, f.withLine line (first + count), answers_settle_of_exec_eq_done hexec, (State.openFrame_congr (by rw [settle_cam]) c f.tag).trans hstored,
    f.withLine_count line _, CamFrame.mem_held_withLine hlink line _, rfl, ?_, fun hz hzw hone => ?_⟩
  · rw [settle_dram, hd, hdram]
  · rw [State.poolRead, settle_pool, hp, ← hlen]
    exact State.slotWrite_read (by rw [hrig, hz]) (by rw [hrig, hzw]) (by omega) (by rw [hlen]; exact hone)

end Sys2Proof.Machine
end

section
/-! A FRAME_START that opens a frame (R133, R145, R172, R173). -/
namespace Sys2Proof.Machine

/-! ## Operations of a context -/

/-- An operation of a context: it is one of the camera path and writes registers of DEV alone, beside the journal's counter. -/
structure DevOnly (s t : State) : Prop where
  only : CamOnly s t
  rd : ∀ o, o < 0x40000 → o ≠ R.RIG_JNL_RING_DROP → t.rd o = s.rd o

theorem DevOnly.refl (s : State) : DevOnly s s := ⟨.refl s, fun _ _ _ => rfl⟩

theorem DevOnly.trans {s t u : State} (h : DevOnly s t) (k : DevOnly t u) : DevOnly s u :=
  ⟨h.only.trans k.only, fun o ho hd => (k.rd o ho hd).trans (h.rd o ho hd)⟩

theorem DevOnly.put {s t : State} (h : DevOnly s t) {f : Fld} (v : Nat) (hf : 0x40000 ≤ f.off) : DevOnly s (t.put f v) :=
  h.trans ⟨((CamStrands.refl t).put f v).camOnly, fun _ ho _ => t.rd_put_ne f v (by omega)⟩

theorem DevOnly.setCtx {s t : State} (h : DevOnly s t) (c : Nat) (x : DevCtx) : DevOnly s (t.setCtx c x) :=
  h.trans ⟨((CamStrands.refl t).setCtx c x).camOnly, fun _ _ _ => rfl⟩

theorem DevOnly.setStream {s t : State} (h : DevOnly s t) (k : Nat) (x : DevStream) : DevOnly s (t.setStream k x) :=
  h.trans ⟨((CamStrands.refl t).setStream k x).camOnly, fun _ _ _ => rfl⟩

theorem DevOnly.unblock {s t : State} (h : DevOnly s t) (kind target unit frame : Nat) : DevOnly s (t.unblock kind target unit frame) :=
  h.trans ⟨(CamOnly.refl t).unblock .., fun _ _ _ => rfl⟩

theorem DevOnly.jnlWrite {s t : State} (h : DevOnly s t) (kind target unit frame a b c : Nat) (replayed override : Bool) :
    DevOnly s (t.jnlWrite kind target unit frame a b c replayed override) :=
  h.trans ⟨(CamOnly.refl t).jnlWrite .., fun o _ hd => (t.jnlWrite_writes ..).rd o hd⟩

/-- A fold of steps that are related is related, where the relation composes. -/
theorem foldl_related {σ α : Type} {r : σ → σ → Prop} (hr : ∀ s, r s s) (ht : ∀ {a b c}, r a b → r b c → r a c) {f : σ → α → σ}
    (h : ∀ s x, r s (f s x)) (l : List α) (s : σ) : r s (l.foldl f s) := by
  induction l generalizing s with
  | nil => exact hr s
  | cons x l ih => exact ht (h s x) (ih (f s x))

/-- An operation of DEV that moves no context. -/
def Streams (s t : State) : Prop := DevOnly s t ∧ t.cam.ctxs = s.cam.ctxs

theorem Streams.refl (s : State) : Streams s s := ⟨.refl s, rfl⟩

theorem Streams.trans {s t u : State} (h : Streams s t) (k : Streams t u) : Streams s u := ⟨h.1.trans k.1, k.2.trans h.2⟩

/-! ## Binding a generation (R172, R173) -/

/-- A stream takes its registers of the generation that becomes active. -/
def State.bindStream (s : State) (e : Nat × SMap Word) : State :=
  let was := bankBit (s.stream e.1).active (F.DEV_OS_CTRL_enable e.1)
  let on := bankBit e.2 (F.DEV_OS_CTRL_enable e.1)
  let s := s.setStream e.1 ⟨e.2, if on && !was then 0 else (s.stream e.1).next⟩
  (s.put (F.DEV_OS_STATUS_active_src e.1) (bankFld e.2 (F.DEV_OS_CTRL_src e.1))).flag
    (F.DEV_OS_STATUS_active_en e.1) on

theorem State.bindStream_streams (s : State) (e : Nat × SMap Word) : Streams s (s.bindStream e) := by
  refine ⟨DevOnly.put (DevOnly.put ((DevOnly.refl s).setStream _ _) _ ?_) _ ?_, rfl⟩
  · simp only [F.DEV_OS_STATUS_active_src]; omega
  · simp only [F.DEV_OS_STATUS_active_en]; omega

/-- The registers that show a generation become active. -/
def State.showGen (s : State) (c : Nat) (g : DevGen) (last : Bool) : State :=
  let s := s.put (F.DEV_CTX_GEN_value c) g.num
  let s := if last then s.put (F.DEV_CTX_STATUS_commit_state c) 2 else s
  s.flag (F.DEV_CTX_STATUS_running c) (declRun g c)

theorem State.showGen_streams (s : State) (c : Nat) (g : DevGen) (last : Bool) : Streams s (s.showGen c g last) := by
  have hgen : DevOnly s (s.put (F.DEV_CTX_GEN_value c) g.num) := (DevOnly.refl s).put _ (by simp only [F.DEV_CTX_GEN_value]; omega)
  have hrun : 0x40000 ≤ (F.DEV_CTX_STATUS_running c).off := by simp only [F.DEV_CTX_STATUS_running]; omega
  unfold State.showGen
  dsimp only
  split
  · exact ⟨(hgen.put _ (by simp only [F.DEV_CTX_STATUS_commit_state]; omega)).put _ hrun, rfl⟩
  · exact ⟨hgen.put _ hrun, rfl⟩

theorem State.bindGen_none {s : State} {c i : Nat} (h : (s.ctx c).pend[i]? = none) : s.bindGen c i = s := by
  rw [State.bindGen, h]

theorem State.bindGen_some {s : State} {c i k : Nat} {g : DevGen} (h : (s.ctx c).pend[i]? = some (g, k)) :
    s.bindGen c i = g.streams.foldl State.bindStream ((s.setCtx c { s.ctx c with
      active := g, pend := (s.ctx c).pend.drop (i + 1), layout := if declRun g c then (s.ctx c).layout else none }).showGen c g
      ((s.ctx c).pend.drop (i + 1)).isEmpty) := by
  rw [State.bindGen, h]
  rfl

/-- What binding a pending generation does to its context: it becomes active; the frames are as before. -/
theorem State.bindGen_ctx (s : State) (c i : Nat) :
    DevOnly s (s.bindGen c i) ∧ ((s.bindGen c i).ctx c).frames = (s.ctx c).frames
      ∧ ((s.bindGen c i).ctx c).active = ((s.ctx c).pend.map (fun e => e.1)).getD i (s.ctx c).active := by
  cases h : (s.ctx c).pend[i]? with
  | none =>
    rw [State.bindGen_none h]
    exact ⟨.refl s, rfl, by simp [h]⟩
  | some e =>
    obtain ⟨g, k⟩ := e
    rw [State.bindGen_some h]
    have hset := (DevOnly.refl s).setCtx c { s.ctx c with
      active := g, pend := (s.ctx c).pend.drop (i + 1), layout := if declRun g c then (s.ctx c).layout else none }
    have hctx := s.ctx_setCtx_same c { s.ctx c with
      active := g, pend := (s.ctx c).pend.drop (i + 1), layout := if declRun g c then (s.ctx c).layout else none }
    generalize s.setCtx c _ = t at hset hctx
    have hall := (t.showGen_streams c g ((s.ctx c).pend.drop (i + 1)).isEmpty).trans
      (foldl_related Streams.refl Streams.trans State.bindStream_streams g.streams _)
    refine ⟨hset.trans hall.1, ?_, ?_⟩
    · rw [State.ctx_congr hall.2, hctx]
    · rw [State.ctx_congr hall.2, hctx]; simp [h]

theorem State.jnlWrite_cam (s : State) (kind target unit frame a b c : Nat) (replayed override : Bool) :
    (s.jnlWrite kind target unit frame a b c replayed override).cam = s.cam := by
  obtain ⟨r, q, l, hd, sl, f, h⟩ := (s.jnlWrite_writes kind target unit frame a b c replayed override).frame
  rw [h]

/-- The decision of a binding is noted: nothing of the context moves but the generation of the latest frame. -/
theorem State.noteBinding_ctx (s : State) (c tag : Nat) : DevOnly s (s.noteBinding c tag 0)
    ∧ ((s.noteBinding c tag 0).ctx c).frames = (s.ctx c).frames ∧ ((s.noteBinding c tag 0).ctx c).active = (s.ctx c).active := by
  have hafter : ∀ t : State, DevOnly s t → t.ctx c = s.ctx c →
      let u := ((t.setCtx c { t.ctx c with lastGen := (s.ctx c).active.num }).unblock 7 1 c tag).seal 5 c tag
      DevOnly s u ∧ (u.ctx c).frames = (s.ctx c).frames ∧ (u.ctx c).active = (s.ctx c).active := by
    intro t ht hc u
    have hu : u.ctx c = { t.ctx c with lastGen := (s.ctx c).active.num } :=
      (State.ctx_congr (congrArg Camera.ctxs (State.jnlWrite_cam ..)) c).trans (t.ctx_setCtx_same c _)
    refine ⟨((ht.setCtx c _).unblock 7 1 c tag).jnlWrite .., ?_, ?_⟩
    · rw [hu, hc]
    · rw [hu, hc]
  unfold State.noteBinding
  dsimp only
  rw [if_neg (by decide : ¬ (0 : Nat) = 2)]
  split
  · exact hafter _ ((DevOnly.refl s).jnlWrite ..) (State.ctx_congr (congrArg Camera.ctxs (State.jnlWrite_cam ..)) c)
  · exact hafter s (.refl s) rfl

/-- The generation that a frame of a context binds (R172). -/
def State.dueGen (s : State) (c sof : Nat) : DevGen :=
  match newestBefore (s.ctx c).pend sof with
  | some i => ((s.ctx c).pend.map (fun e => e.1)).getD i (s.ctx c).active
  | none => (s.ctx c).active

/-- A unit that leads binds a frame behind bound ones to the generation that R172 names. -/
theorem State.decideBinding_local {s : State} {c tag sof : Nat} (hleads : Leads s) (hbound : ∀ f ∈ (s.ctx c).frames, f.bound = true) :
    let r := s.decideBinding c tag sof false
    r.2 = some 0 ∧ DevOnly s r.1 ∧ (r.1.ctx c).frames = (s.ctx c).frames ∧ (r.1.ctx c).active = s.dueGen c sof := by
  intro r
  let due := match newestBefore (s.ctx c).pend sof with
    | some i => s.bindGen c i
    | none => s
  have hfirst : (s.ctx c).frames.find? (fun f => !f.bound) = none :=
    List.find?_eq_none.mpr fun f hf => by simp [hbound f hf]
  have hrule : s.ruling 7 1 c tag sof (some (5, c)) (s.ownCamera sof) = .locally := by
    rw [State.ruling, hleads.follows]; rfl
  have hr : r = (due.noteBinding c tag 0, some 0) := by
    simp only [r, State.decideBinding, hfirst, hrule, Option.any_none, Bool.false_eq_true, if_false]
    rfl
  have hdue : DevOnly s due ∧ (due.ctx c).frames = (s.ctx c).frames ∧ (due.ctx c).active = s.dueGen c sof := by
    unfold due State.dueGen
    split
    · exact s.bindGen_ctx c _
    · exact ⟨.refl s, rfl, rfl⟩
  obtain ⟨h1, h2, h3⟩ := hdue
  obtain ⟨k1, k2, k3⟩ := due.noteBinding_ctx c tag
  rw [hr]
  exact ⟨rfl, h1.trans k1, k2.trans h2, k3.trans h3⟩

/-! ## Output frames and the raw tap (R213, R228) -/

/-- One stream's part of what a bound frame owes. -/
theorem State.openOuts_streams (s : State) (c : Nat) : Streams s (s.openOuts c).2 := by
  have hset : ∀ (t : State) (k : Nat) (x : DevStream) (b : Bool),
      Streams t ((if b then t.bump (F.DEV_OS_UNWIRED_count k) 1 else t).setStream k x) := fun t k x b => by
    cases b with
    | true => exact ⟨((DevOnly.refl t).put _ (by simp only [F.DEV_OS_UNWIRED_count]; omega)).setStream _ _, rfl⟩
    | false => exact ⟨(DevOnly.refl t).setStream _ _, rfl⟩
  refine foldl_related (r := fun (a b : List OutFrame × State) => Streams a.2 b.2) (fun a => .refl a.2) Streams.trans (fun a k => ?_) _ ([], s)
  dsimp only
  split
  · exact hset _ _ _ _
  · exact .refl a.2

/-- A bound frame gets its output frames and its tap, and is otherwise as it was. -/
theorem State.armFrame_frame (s : State) (c : Nat) (f : CamFrame) : Streams s (s.armFrame c f).2
    ∧ ∃ o l, (s.armFrame c f).1 = { f with outs := o, tapLink := l } := by
  have hopen := s.openOuts_streams c
  unfold State.armFrame
  generalize s.openOuts c = r at hopen ⊢
  split
  · exact ⟨hopen, r.1,
      if bankBit f.gen.regs (F.DEV_CTX_RAW_TAP_enable c) then r.2.strandFrom .dev c else none, rfl⟩
  · exact ⟨.refl s, f.outs, f.tapLink, rfl⟩

theorem State.armFrame_keeps (s : State) (c : Nat) (f : CamFrame) {β : Type} (g : CamFrame → β)
    (hg : ∀ o l, g { f with outs := o, tapLink := l } = g f) : g (s.armFrame c f).1 = g f := by
  obtain ⟨-, o, l, h⟩ := s.armFrame_frame c f
  rw [h, hg]

/-! ## The start of a frame -/

/-- A sensor to which a frame has come. -/
def Sensor.started (x : Sensor) (tag c : Nat) : Sensor :=
  { x with
    lastTag := some tag, firstTag := some (x.firstTag.getD tag), prevTag := some tag, ctxNow := some c
    dropped := x.dropped.filter (· != tag), dropPorts := mapDel x.dropPorts tag }

/-- The registers and the sensor that a FRAME_START moves before its frame is bound (R133). -/
def State.noteStart (s : State) (p v tag c echo : Nat) : State :=
  ((s.setSensor p v ((s.sensor p v).started tag c)).put (F.HEAD_VS_STATUS_last_tag p v) tag).put (F.HEAD_VS_STATUS_echo_tag p v) echo

theorem State.noteStart_frame (s : State) (p v tag c echo : Nat) (htag : tag < 65536) :
    CamStrands s (s.noteStart p v tag c echo) ∧ (s.noteStart p v tag c echo).cam.ctxs = s.cam.ctxs
      ∧ (s.noteStart p v tag c echo).rig = s.rig ∧ (s.noteStart p v tag c echo).fld (F.HEAD_VS_STATUS_last_tag p v) = tag := by
  refine ⟨(((CamStrands.refl s).setSensor _ _ _).put _ _).put _ _, rfl, rfl, ?_⟩
  unfold State.noteStart
  rw [State.fld_put_ne _ (F.HEAD_VS_STATUS_echo_tag p v) (F.HEAD_VS_STATUS_last_tag p v) _ rfl
    (show (15 : Nat) < 32 by decide) (.inl (show (15 : Nat) < 16 by decide))]
  exact (State.fld_put_same _ (F.HEAD_VS_STATUS_last_tag p v) _ (show (15 : Nat) < 32 by decide)).trans (Nat.mod_eq_of_lt htag)

/-- What a FRAME_START that opens a frame does, in a unit that leads. -/
theorem State.frameStartOp_opens {s : State} {n v tag t : Nat} {fs : FrameStart} (hleads : Leads s) (htag : tag < 65536) :
    let p := s.primary n
    let c := s.fld (F.HEAD_VS_MAP_ctx p v)
    let sof := ((t : Int) - signedOf 16 (s.fld (F.HEAD_SOF_ADJ_adj_ns n))).toNat
    s.sensorOn p v = true → (∀ e ∈ s.sensorFrames p v, e.2.tag ≠ tag) → (s.sensorFrames p v).length < 2 →
    tag ∉ (s.sensor p v).dropped → (∀ f ∈ (s.ctx c).frames, f.bound = true) → declRun (s.dueGen c sof) c = true →
    (s.shape 9 c).isSome = true → .head ∉ s.rig.stopping →
    ∃ (f : CamFrame) (y : DevCtx) (u : State), s.frameStartOp n v tag t fs = u.setCtx c y ∧ y.frames = (s.ctx c).frames ++ [f]
      ∧ y.active = s.dueGen c sof ∧ f.isOpen = true ∧ f.tag = tag ∧ f.port = p ∧ f.vs = v ∧ f.bound = true ∧ f.fs = fs
      ∧ f.gen = s.dueGen c sof ∧ f.got = [] ∧ f.sof = sof ∧ DevOnly (s.noteStart p v tag c fs.echoTag) u := by
  intro p c sof hon htags hopen hdrop hbound hrun hshape hstop
  have hany : (s.sensorFrames p v).any (fun e => e.2.tag = tag) = false := by
    rw [List.any_eq_false]
    exact fun e he => by simpa using htags e he
  have hcond : ¬ (s.rig.stopping.contains .head = true ∨ s.sensorOn p v = false ∨ (s.sensorFrames p v).any (fun e => e.2.tag = tag) = true) := by
    rw [hany, hon, List.contains_iff_mem]
    simpa using hstop
  have hgone : ((s.sensor p v).dropped.contains tag && !(mapGet ([], []) (s.sensor p v).dropPorts tag).1.contains n) = false := by
    rw [Bool.and_eq_false_imp, List.contains_iff_mem]
    exact fun h => absurd h hdrop
  obtain ⟨hframe, hctxs, hrig, hlast⟩ := s.noteStart_frame p v tag c fs.echoTag htag
  have hctx := State.ctx_congr hctxs c
  have hleads' := hleads.of_jnl hframe.jnl
  have hshape' : ((s.noteStart p v tag c fs.echoTag).shape 9 c).isNone = false := by
    rw [State.shape, State.bodies, hrig]
    simpa [State.shape, State.bodies, Option.isSome_iff_ne_none] using hshape
  have hdue : (s.noteStart p v tag c fs.echoTag).dueGen c sof = s.dueGen c sof := by rw [State.dueGen, hctx]; rfl
  obtain ⟨hhow, hdev, hframes, hactive⟩ := State.decideBinding_local (c := c) (tag := tag) (sof := sof) hleads' (by rw [hctx]; exact hbound)
  rw [hctx] at hframes
  rw [hdue] at hactive
  unfold State.frameStartOp
  dsimp only
  rw [if_neg hcond, if_neg (by rw [hgone]; exact Bool.false_ne_true), if_neg (by omega : ¬ 2 ≤ (s.sensorFrames p v).length)]
  generalize hd : State.put (State.put (State.setSensor s p v _) (F.HEAD_VS_STATUS_last_tag p v) tag) _ fs.echoTag = d
  replace hd : s.noteStart p v tag c fs.echoTag = d := hd
  rw [hd] at hshape' hhow hdev hframes hactive ⊢
  rw [if_neg (by rw [hshape']; exact Bool.false_ne_true)]
  generalize d.decideBinding c tag sof false = r at hhow hdev hframes hactive ⊢
  obtain ⟨u, how⟩ := r
  obtain rfl : how = some 0 := hhow
  have hnodrop : ¬ (declRun (u.ctx c).active c = false ∧ (some 0 : Option Nat).isSome = true) := by
    rw [show (u.ctx c).active = _ from hactive, hrun]; simp
  rw [if_neg hnodrop]
  dsimp only
  simp only [Option.isSome_some, if_true]
  generalize hf : Prod.fst (State.armFrame u c _) = f
  have hopenRun : declRun (u.ctx c).active c = true := hactive ▸ hrun
  refine ⟨f, _, _, rfl, by rw [hframes], hactive, ?_, ?_, ?_, ?_, ?_, ?_, ?_, ?_, ?_, ?_⟩
  · rw [← hf]; exact (State.armFrame_keeps _ _ _ CamFrame.isOpen (fun _ _ => rfl)).trans hopenRun
  · rw [← hf]; exact State.armFrame_keeps _ _ _ CamFrame.tag (fun _ _ => rfl)
  · rw [← hf]; exact State.armFrame_keeps _ _ _ CamFrame.port (fun _ _ => rfl)
  · rw [← hf]; exact State.armFrame_keeps _ _ _ CamFrame.vs (fun _ _ => rfl)
  · rw [← hf]; exact State.armFrame_keeps _ _ _ CamFrame.bound (fun _ _ => rfl)
  · rw [← hf]; exact State.armFrame_keeps _ _ _ CamFrame.fs (fun _ _ => rfl)
  · rw [← hf]; exact (State.armFrame_keeps _ _ _ CamFrame.gen (fun _ _ => rfl)).trans hactive
  · rw [← hf]; exact State.armFrame_keeps _ _ _ CamFrame.got (fun _ _ => rfl)
  · rw [← hf]; exact State.armFrame_keeps _ _ _ CamFrame.sof (fun _ _ => rfl)
  · exact hdev.trans (State.armFrame_frame _ _ _).1.1

/-! ## The command -/

theorem beNat_foldl_lt (l : List Byte) (a : Nat) : l.foldl (fun n b => 256 * n + b.toNat) a < (a + 1) * 256 ^ l.length := by
  induction l generalizing a with
  | nil => simp
  | cons b r ih =>
    have hb := b.isLt
    have hp := Nat.two_pow_pos (8 * r.length)
    calc r.foldl (fun n b => 256 * n + b.toNat) (256 * a + b.toNat) < (256 * a + b.toNat + 1) * 256 ^ r.length := ih _
      _ ≤ (256 * (a + 1)) * 256 ^ r.length := Nat.mul_le_mul_right _ (by omega)
      _ = (a + 1) * 256 ^ (b :: r).length := by rw [List.length_cons, Nat.pow_succ]; ring

theorem beAt_lt (l : List Byte) (a n : Nat) : beAt l a n < 256 ^ n :=
  calc beAt l a n < (0 + 1) * 256 ^ (slice l a n).length := beNat_foldl_lt _ 0
    _ ≤ 256 ^ n := by rw [Nat.zero_add, Nat.one_mul]; exact Nat.pow_le_pow_right (by decide) (List.length_take_le ..)

theorem State.openFrame_appended {c tag : Nat} {f : CamFrame} {l : List CamFrame} {y : DevCtx} (u : State)
    (hnone : l.find? (fun g => g.isOpen && g.tag = tag) = none) (hy : y.frames = l ++ [f]) (ho : f.isOpen = true) (ht : f.tag = tag) :
    (u.setCtx c y).openFrame c tag = some f := by
  rw [State.openFrame, State.ctx_setCtx_same, hy, List.find?_append, hnone]
  simp [ho, ht]

theorem frameStart_answers (n at_ : Nat) (rest payload : List Byte) (s : State) (hn : n < 8) (hready : s.fld (F.HEAD_STATE_state n) = 4)
    (hleads : Leads s) (hrec : Received s n 1 (0x01#8 :: rest) payload) :
    let v := beAt rest 0 1 / 64
    let tag := beAt rest 1 2
    let p := s.primary n
    let c := s.fld (F.HEAD_VS_MAP_ctx p v)
    let sof := ((at_ : Int) - signedOf 16 (s.fld (F.HEAD_SOF_ADJ_adj_ns n))).toNat
    s.sensorOn p v = true → (∀ e ∈ s.sensorFrames p v, e.2.tag ≠ tag) → (s.sensorFrames p v).length < 2 →
    tag ∉ (s.sensor p v).dropped → s.openFrame c tag = none → (∀ f ∈ (s.ctx c).frames, f.bound = true) →
    declRun (s.dueGen c sof) c = true → (s.shape 9 c).isSome = true → .head ∉ s.rig.stopping →
    ∃ t f, Answers (.frameStart n at_ rest) s t ∧ t.openFrame c tag = some f ∧ f.port = p ∧ f.vs = v ∧ f.bound = true
      ∧ f.fs = frameStartOf payload ∧ f.gen = s.dueGen c sof ∧ (t.ctx c).active = s.dueGen c sof ∧ f.got = [] ∧ f.sof = sof
      ∧ t.fld (F.HEAD_VS_STATUS_last_tag p v) = tag ∧ SameMemory s t := by
  intro v tag p c sof hon htags htwo hdrop hnone hbound hrun hshape hstop
  have htag : tag < 65536 := beAt_lt rest 1 2
  have hv : v < 4 := by have := beAt_lt rest 0 1; omega
  have hp : p < 8 := by
    have : s.primary n ≤ n := by unfold State.primary; split <;> omega
    omega
  have hexec : exec (.frameStart n at_ rest) s = done (s.headReceive n at_ (0x01#8 :: rest) true) := by
    show done (s.headReceive (n % 8) at_ (0x01#8 :: rest) true) = _
    rw [Nat.mod_eq_of_lt hn]
  rw [State.headReceive_received at_ hrec hready (by decide)] at hexec
  rw [show beAt (0x01#8 :: rest) 2 2 = tag from rfl, show beAt (0x01#8 :: rest) 1 1 / 64 = v from rfl, State.headAct, if_pos rfl] at hexec
  have hsensor := s.hearing_sensor n at_ p v
  obtain ⟨a, b, q, hu⟩ := s.hearing_frame n at_
  rw [hu] at hexec hsensor
  rw [← hsensor] at hdrop
  have hmem : SameMemory s { s with anchorT := a, real := b, cam := { s.cam with ports := q } } := .of_eq rfl rfl rfl rfl
  obtain ⟨f, y, w, hop, hframes, hactive, hopen, hftag, hport, hvs, hfbound, hfs, hgen, hgot, hsof, hdev⟩ :=
    State.frameStartOp_opens (s := { s with anchorT := a, real := b, cam := { s.cam with ports := q } }) (n := n) (v := v) (t := at_)
      (fs := frameStartOf payload) hleads htag hon htags htwo hdrop hbound hrun hshape hstop
  have hlast := (State.noteStart_frame { s with anchorT := a, real := b, cam := { s.cam with ports := q } } p v tag c
    (frameStartOf payload).echoTag htag).2.2.2
  have hstart := (State.noteStart_frame { s with anchorT := a, real := b, cam := { s.cam with ports := q } } p v tag c
    (frameStartOf payload).echoTag htag).1.camOnly
  replace hdev : DevOnly (State.noteStart { s with anchorT := a, real := b, cam := { s.cam with ports := q } } p v tag c
    (frameStartOf payload).echoTag) w := hdev
  generalize State.noteStart _ p v tag c (frameStartOf payload).echoTag = d at hlast hstart hdev
  replace hexec : exec (.frameStart n at_ rest) s = done (w.setCtx c y) := hexec.trans (congrArg done hop)
  have hfound : (w.setCtx c y).openFrame c tag = some f := State.openFrame_appended w hnone hframes hopen hftag
  have hlast' : (w.setCtx c y).fld (F.HEAD_VS_STATUS_last_tag p v) = tag := by
    rw [← hlast, State.fld, State.fld]
    refine congrArg (bitsOf · 15 0) (hdev.rd _ ?_ ?_)
    · simp only [F.HEAD_VS_STATUS_last_tag]; omega
    · simp only [F.HEAD_VS_STATUS_last_tag, R.RIG_JNL_RING_DROP]; omega
  refine ⟨_, f, answers_settle_of_exec_eq_done hexec, (State.openFrame_congr (by rw [settle_cam]) c tag).trans hfound, hport, hvs, hfbound, hfs, hgen, ?_,
    hgot, hsof, ?_, ((hmem.trans hstart.sameMemory).trans (hdev.setCtx c y).only.sameMemory).settle⟩
  · rw [State.ctx_congr (congrArg Camera.ctxs (settle_cam _)) c, State.ctx_setCtx_same]; exact hactive
  · rw [settle_fld _ _ (not_sendCounter (.inl ?_)), hlast']
    simp only [F.HEAD_VS_STATUS_last_tag]; omega

/-- Settles O40: a packet that passes R131 reaches the operation of its type, and each operation's effect on a unit that leads follows. -/
theorem headFrames : Obligations.HeadFrames := by
  unfold Obligations.HeadFrames
  exact ⟨frameStart_answers, line_answers,
    fun n at_ c f rest payload s hn hready hleads hrec hframe hone htag hstop hports hsent hall _ =>
      frameEnd_answers n at_ c f rest payload s hn hready hleads hrec hframe hone htag hstop hports hsent hall,
    ingressDeadline_answers⟩

end Sys2Proof.Machine
end

section
/-! Wall frames at the push deadline (R340, R476): a DRAM channel listed twice. -/
namespace Sys2Proof.Machine

/-- A pass of context 0 whose region is one pixel of background. -/
def onePixelPass : Pass := ⟨0, some ⟨1, [(R.WALL_TCTX_WH 0, 0x10001)], []⟩, 0, [], false, none⟩

/-- A frame whose push deadline is to come, with that pass. -/
def onePixelFrame : WallFrame where
  num := 0
  latch := 0
  deadline := 1
  present := 2
  modeGen := 0
  wall := true
  sends := false
  binds := []
  fresh := []
  openSurf := []
  openTile := []
  sealed := true
  passes := [onePixelPass]
  count := 1
  digest := 0
  pushed := 0
  marks := .none
  due := false
  lit := false
  complete := false
  presented := false
  pkts := []

/-- A write of one byte that waits at a DRAM channel. -/
def waitingWrite : DramReq := ⟨0, 0, 1, some [1], 0, 0⟩

/-- That frame outstanding, where the table of DRAM channels holds a second entry of channel 0, behind the one that is read,
with a write in its queue. -/
def channelTwice : State :=
  { State.reset with
    memc := { State.reset.memc with chans := [(0, .idle), (0, { Channel.idle with queue := [waitingWrite] })] }
    fclk := { State.reset.fclk with frames := [onePixelFrame] } }

/-- No channel that is read has a request waiting. -/
theorem channelTwice_dramIdle : DramIdle channelTwice := by
  intro c
  show (mapGet Channel.idle [(0, Channel.idle), (0, _)] c).queue = []
  by_cases h : 0 = c <;> simp [mapGet, mapFind, h, Channel.idle]

/-- The pass is fetched at the deadline, and every request listed issues before: also the write of the second entry. -/
theorem pushDeadline_channelTwice_dram {t : State} (h : Answers (.pushDeadline []) channelTwice t) : memGet t.dram 0 = 1 := by
  have hexec : (match exec (.pushDeadline []) channelTwice with
    | .next u => some (memGet u.dram 0)
    | _ => none) = some 1 := by decide +kernel
  rw [h] at hexec
  exact Option.some.inj hexec

/-- Refutes O50: its clause on the push deadline keeps the memories while no channel has a request waiting. `DramIdle` looks a
channel up, which finds the first entry of its number, but the fetch of a pass lets the requests of every entry of the table
issue (R476), so a write in the queue of a second entry of a channel reaches DRAM. -/
theorem not_wallFrames : ¬ Obligations.WallFrames := by
  unfold Obligations.WallFrames
  rintro ⟨-, hdeadline, -⟩
  obtain ⟨t, hans, -, -, hmem, -⟩ := hdeadline onePixelFrame [] channelTwice rfl
  have hkept : memGet t.dram 0 = memGet channelTwice.dram 0 := (hmem channelTwice_dramIdle 0).1
  exact absurd ((pushDeadline_channelTwice_dram hans).symm.trans hkept) (by decide)

end Sys2Proof.Machine
end

section
/-! Block lock of a Gypol port (R141, R156): the capability registers that return to their reset values. -/
namespace Sys2Proof.Machine

/-- HEAD runs and port 0 trains with block lock on lane 1, and a value is stored at an offset within its capability registers at
which no register word begins. -/
def strayCapByte : State :=
  (((State.reset.setIsland .head { IslState.held with inReset := false }).put (F.HEAD_STATE_state 0) 1).put (F.HEAD_STATE_lock1 0) 1).wr
    (R.HEAD_CAP 0 0 + 1) 1

/-- Block lock on lane 0 begins alignment, which drops every stored value from the first capability register to the end of the
last: also the one between their offsets. -/
theorem blockLock_strayCapByte_rd {t : State} (h : Answers (.blockLock 0 0) strayCapByte t) : t.rd (R.HEAD_CAP 0 0 + 1) = 0 := by
  have ht : t = settle (strayCapByte.blockLock 0 0) := (Host.Outcome.next.inj h).symm
  rw [ht, settle_rd _ _ (not_sendCounter (.inl (by decide)))]
  decide +kernel

/-- Refutes O39: its clause on block lock keeps every offset but HEADn_STATE and the 48 offsets of HEADn_CAPk. The capability
registers return to their reset values as a range of offsets (R156), so a value stored between two of those offsets goes too. -/
theorem not_headTraining : ¬ Obligations.HeadTraining := by
  unfold Obligations.HeadTraining
  rintro ⟨⟨-, htraining, -⟩, -⟩
  obtain ⟨hlock, -⟩ := htraining 0 strayCapByte (by decide) (by decide +kernel)
  obtain ⟨t, hans, hregs, -⟩ := hlock 0 (by decide) (by decide +kernel)
  have hkept : t.rd (R.HEAD_CAP 0 0 + 1) = strayCapByte.rd (R.HEAD_CAP 0 0 + 1) :=
    hregs _ (by decide) (not_sendCounter (.inl (by decide)))
  have hstored : strayCapByte.rd (R.HEAD_CAP 0 0 + 1) = 1 := State.rd_wr_same ..
  rw [blockLock_strayCapByte_rd hans, hstored] at hkept
  exact Nat.zero_ne_one hkept

end Sys2Proof.Machine
end

section
/-! The closing step and the counters of PRESENT packets (R354, R358), which JOURNAL packets do not move. -/
namespace Sys2Proof.Machine

theorem State.emitAll_regs (s : State) (l : List Output) : (s.emitAll l).regs = s.regs :=
  foldl_keeps (f := State.emit) State.regs (fun _ _ => rfl) l s

theorem State.deliverFn_regs (s : State) (fn : Nat) : (s.deliverFn fn).regs = s.regs := (State.emitAll_regs _ _).trans rfl

theorem State.deliverMgt_regs (s : State) : s.deliverMgt.regs = s.regs := (State.emitAll_regs _ _).trans rfl

theorem State.retireStrands_regs (s : State) : s.retireStrands.regs = s.regs := by
  unfold State.retireStrands
  split <;> rfl

/-- The registers of logical port p lie at 16p from those of port 0, and PRESENT's is the second of the four. A packet that is
neither PUSH nor PRESENT moves the counters of control packets and of packets not sent. -/
theorem State.fenLeave_rd_present (s : State) {k : FenPkt} {o : Nat} (h1 : k.ftype ≠ 1) (h2 : k.ftype ≠ 2) (ho : o % 16 = 4) :
    (s.fenLeave k).rd o = s.rd o := by
  unfold State.fenLeave
  split
  · exact State.rd_bump_ne _ _ _ (by simp only [F.FEN_P_CTRL_count]; omega)
  · exact State.rd_bump_ne _ _ _ (by simp only [F.FEN_P_DOWN_count]; omega)

theorem State.fenSend_rd_present (s : State) (frame port : Nat) {ftype : Nat} (body : List Byte) {o : Nat} (h1 : ftype ≠ 1) (h2 : ftype ≠ 2)
    (ho : o % 16 = 4) : (s.fenSend frame port ftype body).rd o = s.rd o := by
  unfold State.fenSend
  split
  · dsimp only
    split
    · rfl
    · exact State.fenLeave_rd_present s h1 h2 ho
  · rfl

theorem State.jnlPacket_rd_present (s : State) {o : Nat} (ho : o % 16 = 4) : s.jnlPacket.rd o = s.rd o := by
  unfold State.jnlPacket
  dsimp only
  split
  · refine (foldl_keeps (fun (t : State) => t.rd o) (fun t p => ?_) _ _).trans rfl
    refine (State.fenSend_rd_present _ _ _ _ (by decide) (by decide) ho).trans ?_
    split
    · exact State.rd_bump_ne _ _ _ (by simp only [F.FEN_JNL_TX_count]; omega)
    · rfl
  · rfl

theorem State.jnlPump_rd_present (k : Nat) (s : State) {o : Nat} (ho : o % 16 = 4) : (State.jnlPump k s).rd o = s.rd o := by
  induction k generalizing s with
  | zero => rfl
  | succ k ih =>
    unfold State.jnlPump
    split
    · exact (ih _).trans (s.jnlPacket_rd_present ho)
    · rfl

/-- No counter that the closing step moves lies at an offset of 4 above a multiple of 16. -/
theorem settle_rd_present (s : State) {o : Nat} (ho : o % 16 = 4) : (settle s).rd o = s.rd o := by
  have hdeliver : (settle s).regs = (State.jnlPump (2 * s.jnl.forwardQ.length) s.retireStrands).regs := by
    rw [settle, State.deliverMgt_regs, State.deliverFn_regs, State.deliverFn_regs]
  rw [State.rd_congr hdeliver, State.jnlPump_rd_present _ _ ho, State.rd_congr s.retireStrands_regs]

/-- What EXP_STATUS shows of a sensor stands through the closing step, whatever number the sensor has. -/
theorem settle_rd_expStatus (s : State) (n v : Nat) :
    (settle s).rd (R.HEAD_VS_EXP_STATUS n v) = s.rd (R.HEAD_VS_EXP_STATUS n v) :=
  settle_rd_present s (by simp only [R.HEAD_VS_EXP_STATUS]; omega)

end Sys2Proof.Machine
end

section
/-! Plain writes of the registers of HEAD, and what they leave in the fields that they set (R19, R156, R159). -/
namespace Sys2Proof.Machine

theorem bitsOf_self (n i : Nat) : bitsOf n i i = (n.testBit i).toNat := by
  rw [Nat.toNat_testBit, bitsOf, Nat.shiftRight_eq_div_pow, Nat.add_sub_cancel_left, Nat.pow_one]

/-- A field of a register just stored, where it lies in the 32 bits of the register. -/
theorem State.fld_wr_same (s : State) {f : Fld} (v : Nat) (hh : f.hi < 32) : (s.wr f.off v).fld f = bitsOf v f.hi f.lo := by
  rw [State.fld, State.rd_wr_same]
  refine Nat.eq_of_testBit_eq fun i => ?_
  rw [bitsOf_testBit, bitsOf_testBit, Nat.testBit_mod_two_pow]
  by_cases h : i < f.hi + 1 - f.lo
  · have : f.lo + i < 32 := by omega
    simp [this]
  · simp [h]

theorem State.fld_wr_off (s : State) {off : Nat} (v : Nat) {f : Fld} (h : f.off ≠ off) : (s.wr off v).fld f = s.fld f := by
  rw [State.fld, State.rd_wr_ne _ _ h]; rfl

/-- A field whose bits are RW takes the written value. -/
theorem bitsOf_writeValue {r : RegRow} (old v : Nat) {hi lo : Nat} (h : ∀ i, i ≤ hi → lo ≤ i → r.rw.testBit i = true)
    (hw : r.w1c = 0) (hh : hi < 32) : bitsOf (writeValue r old v) hi lo = bitsOf v hi lo := by
  refine Nat.eq_of_testBit_eq fun i => ?_
  rw [bitsOf_testBit, bitsOf_testBit]
  by_cases hi' : i < hi + 1 - lo
  · have hrw := h (lo + i) (by omega) (by omega)
    have hmask : Nat.testBit 0xFFFFFFFF (lo + i) = true := by
      rw [show (0xFFFFFFFF : Nat) = 2 ^ 32 - 1 from rfl, Nat.testBit_two_pow_sub_one]
      exact decide_eq_true (by omega)
    simp [writeValue, hw, hrw, hmask]
  · simp [hi']

/-- No register of HEAD is an interrupt source (R508). -/
theorem eventRegs_not_head {off : Nat} (h1 : 0x20000 ≤ off) (h2 : off < 0x40000) :
    eventRegs.find? (fun e => e.2.1 == off || e.2.2 == off) = none := by
  have hout : ∀ e ∈ eventRegs, (e.2.1 < 0x20000 ∨ 0x40000 ≤ e.2.1) ∧ (e.2.2 < 0x20000 ∨ 0x40000 ≤ e.2.2) := by decide
  refine List.find?_eq_none.mpr fun e he => ?_
  obtain ⟨hevt, hmask⟩ := hout e he
  simp only [Bool.or_eq_true, beq_iff_eq]
  omega

theorem regRow_expCtrl {n w : Nat} (hn : n < 8) (hw : w < 4) :
    regRow (R.HEAD_VS_EXP_CTRL n w) = some ⟨"HEAD_VS_EXP_CTRL", 0x20220, 0x400, 8, 0x40, 4, 0x1ffff, 0, 0, 0x80000000, 0, false⟩ := by
  have hall : ∀ n, n < 8 → ∀ w, w < 4 → regRow (R.HEAD_VS_EXP_CTRL n w)
      = some ⟨"HEAD_VS_EXP_CTRL", 0x20220, 0x400, 8, 0x40, 4, 0x1ffff, 0, 0, 0x80000000, 0, false⟩ := by decide +kernel
  exact hall n hn w hw

theorem regRow_vsMap {n w : Nat} (hn : n < 8) (hw : w < 4) :
    regRow (R.HEAD_VS_MAP n w) = some ⟨"HEAD_VS_MAP", 0x20200, 0x400, 8, 0x40, 4, 0x1f, 0, 0, 0, 0, true⟩ := by
  have hall : ∀ n, n < 8 → ∀ w, w < 4 → regRow (R.HEAD_VS_MAP n w)
      = some ⟨"HEAD_VS_MAP", 0x20200, 0x400, 8, 0x40, 4, 0x1f, 0, 0, 0, 0, true⟩ := by decide +kernel
  exact hall n hn w hw

/-- A write of EXP_CTRL stores the written target and `explicit`. -/
theorem State.regWrite_expCtrl (s : State) {n w : Nat} (v : Nat) (hn : n < 8) (hw : w < 4) :
    ∃ x, s.regWrite (R.HEAD_VS_EXP_CTRL n w) v = s.wr (R.HEAD_VS_EXP_CTRL n w) x
      ∧ bitsOf x 15 0 = bitsOf v 15 0 ∧ bitsOf x 16 16 = bitsOf v 16 16 := by
  refine ⟨_, s.regWrite_eq_wr v (regRow_expCtrl hn hw) (eventRegs_not_head ?_ ?_) ?_, ?_, ?_⟩
  · simp only [R.HEAD_VS_EXP_CTRL]; omega
  · simp only [R.HEAD_VS_EXP_CTRL]; omega
  · simp only [R.HEAD_VS_EXP_CTRL]; omega
  · exact bitsOf_writeValue _ _ (by decide) rfl (by decide)
  · exact bitsOf_writeValue _ _ (by decide) rfl (by decide)

/-- A write of MAP stores the written `enable`. -/
theorem State.regWrite_vsMap (s : State) {n w : Nat} (v : Nat) (hn : n < 8) (hw : w < 4) :
    ∃ x, s.regWrite (R.HEAD_VS_MAP n w) v = s.wr (R.HEAD_VS_MAP n w) x ∧ bitsOf x 4 4 = bitsOf v 4 4 := by
  refine ⟨_, s.regWrite_eq_wr v (regRow_vsMap hn hw) (eventRegs_not_head ?_ ?_) ?_, ?_⟩
  · simp only [R.HEAD_VS_MAP]; omega
  · simp only [R.HEAD_VS_MAP]; omega
  · simp only [R.HEAD_VS_MAP]; omega
  · exact bitsOf_writeValue _ _ (by decide) rfl (by decide)

end Sys2Proof.Machine
end

section
/-! Exposure commands on a port: what EXP_STATUS shows, what is sent, and what is queued (R138, R151, R154, R160). -/
namespace Sys2Proof.Machine

/-! ## EXP_STATUS (R160) -/

/-- The latest command of its sensor shows its outcome. -/
theorem State.cmdState_latest {s : State} {n st : Nat} {c : ExpCmd} (shown : Nat) (h : mapFind (s.port n).latest c.vs = some c) (hst : st ≠ 6) :
    s.cmdState n c st shown = ((s.put (F.HEAD_VS_EXP_STATUS_target n c.vs) shown).put (F.HEAD_VS_EXP_STATUS_state n c.vs) st).put
      (F.HEAD_VS_EXP_STATUS_seq_lo n c.vs) c.seq := by
  simp only [State.cmdState, if_neg hst, h, if_true]

theorem State.cmdState_shows {s : State} {n st : Nat} {c : ExpCmd} (shown : Nat) (h : mapFind (s.port n).latest c.vs = some c) (hst : st < 6) :
    (s.cmdState n c st shown).fld (F.HEAD_VS_EXP_STATUS_state n c.vs) = st
      ∧ (s.cmdState n c st shown).fld (F.HEAD_VS_EXP_STATUS_target n c.vs) = shown % 65536 := by
  rw [State.cmdState_latest shown h (by omega)]
  refine ⟨?_, ?_⟩
  · rw [State.fld_put_ne _ (F.HEAD_VS_EXP_STATUS_seq_lo n c.vs) (F.HEAD_VS_EXP_STATUS_state n c.vs) _ rfl (by decide : 18 < 32)
        (.inl (by decide : 18 < 24)),
      State.fld_put_same _ (F.HEAD_VS_EXP_STATUS_state n c.vs) _ (by decide : 18 < 32)]
    exact Nat.mod_eq_of_lt (by show st < 2 ^ 3; omega)
  · rw [State.fld_put_ne _ (F.HEAD_VS_EXP_STATUS_seq_lo n c.vs) (F.HEAD_VS_EXP_STATUS_target n c.vs) _ rfl (by decide : 15 < 32)
        (.inl (by decide : 15 < 24)),
      State.fld_put_ne _ (F.HEAD_VS_EXP_STATUS_state n c.vs) (F.HEAD_VS_EXP_STATUS_target n c.vs) _ rfl (by decide : 15 < 32)
        (.inl (by decide : 15 < 16)),
      State.fld_put_same _ (F.HEAD_VS_EXP_STATUS_target n c.vs) _ (by decide : 15 < 32)]
    rfl

theorem State.cmdState_out (s : State) (n : Nat) (c : ExpCmd) (st shown : Nat) : (s.cmdState n c st shown).out = s.out := by
  have hfirst : (if st = 6 then s.put (F.HEAD_ERR_no_ack n) 1 else s).out = s.out := by split <;> rfl
  unfold State.cmdState
  generalize (if st = 6 then s.put (F.HEAD_ERR_no_ack n) 1 else s) = t at hfirst
  dsimp only
  split <;> exact hfirst

/-- A state that is not NO_ACK writes EXP_STATUS alone. -/
theorem State.cmdState_rd (s : State) {n st o : Nat} {c : ExpCmd} (shown : Nat) (hst : st ≠ 6) (ho : o ≠ R.HEAD_VS_EXP_STATUS n c.vs) :
    (s.cmdState n c st shown).rd o = s.rd o := by
  simp only [State.cmdState, if_neg hst]
  split
  · rw [State.rd_put_ne _ (F.HEAD_VS_EXP_STATUS_seq_lo n c.vs) _ ho, State.rd_put_ne _ (F.HEAD_VS_EXP_STATUS_state n c.vs) _ ho,
      State.rd_put_ne _ (F.HEAD_VS_EXP_STATUS_target n c.vs) _ ho]
  · rfl

/-- NO_ACK is also noted in HEADn_ERR. -/
theorem State.cmdState_noAck (s : State) (n : Nat) (c : ExpCmd) (shown : Nat) :
    (s.cmdState n c 6 shown).fld (F.HEAD_ERR_no_ack n) = 1 := by
  have hnoted : (s.put (F.HEAD_ERR_no_ack n) 1).fld (F.HEAD_ERR_no_ack n) = 1 := State.fld_put_same _ _ 1 (by decide : 6 < 32)
  have hne : (F.HEAD_ERR_no_ack n).off ≠ R.HEAD_VS_EXP_STATUS n c.vs := by
    simp only [F.HEAD_ERR_no_ack, R.HEAD_VS_EXP_STATUS]; omega
  simp only [State.cmdState, if_true]
  split
  · rw [State.fld_put_off _ (F.HEAD_VS_EXP_STATUS_seq_lo n c.vs) _ _ hne, State.fld_put_off _ (F.HEAD_VS_EXP_STATUS_state n c.vs) _ _ hne,
      State.fld_put_off _ (F.HEAD_VS_EXP_STATUS_target n c.vs) _ _ hne, hnoted]
  · exact hnoted

/-! ## Sending (R138, R154) -/

theorem State.headSend_out (s : State) (n ptype vs tag : Nat) (payload : List Byte) (f : Nat → Output) :
    (s.headSend n ptype vs tag payload f).out = .gypol n (gypolPacket ptype vs tag (s.port n).txSeq payload) :: f (s.port n).txSeq :: s.out := rfl

/-- A command that goes out takes the port's next `pseq`. -/
theorem State.expSend_out (s : State) (n : Nat) (c : ExpCmd) (times : Nat) :
    (s.expSend n c times).out = .gypol n (gypolPacket 0x81 c.vs c.target (s.port n).txSeq (exposurePayload c))
      :: .exposure n (s.port n).txSeq c :: s.out := by
  rw [State.expSend, State.cmdState_out, State.headSend_out, State.port_setPort_same]
  rfl

theorem State.expSend_sends (s : State) (n : Nat) (c : ExpCmd) (times : Nat) :
    .exposure n (s.port n).txSeq c ∈ (s.expSend n c times).out
      ∧ .gypol n (gypolPacket 0x81 c.vs c.target (s.port n).txSeq (exposurePayload c)) ∈ (s.expSend n c times).out := by
  rw [State.expSend_out]
  exact ⟨.tail _ (.head _), .head _⟩

theorem State.expSend_rd (s : State) {n times o : Nat} {c : ExpCmd} (ho : o ≠ R.HEAD_VS_EXP_STATUS n c.vs) :
    (s.expSend n c times).rd o = s.rd o := by
  rw [State.expSend, State.cmdState_rd _ _ (by decide) ho]; rfl

/-- A command that goes out is shown SENT, while it is the latest of its sensor. -/
theorem State.expSend_shows {s : State} {n : Nat} {c : ExpCmd} (times : Nat) (h : mapFind (s.port n).latest c.vs = some c) :
    (s.expSend n c times).fld (F.HEAD_VS_EXP_STATUS_state n c.vs) = 2
      ∧ (s.expSend n c times).fld (F.HEAD_VS_EXP_STATUS_target n c.vs) = c.target % 65536 := by
  rw [State.expSend]
  refine State.cmdState_shows _ ?_ (by decide)
  rw [State.port_headSend, State.port_setPort_same]
  exact h

/-! ## The next command (R151) -/

theorem State.expPump_of_sent {s : State} {n : Nat} (h : (s.port n).sent ≠ none) : s.expPump n = s := by
  unfold State.expPump
  dsimp only
  split
  next hnone _ => exact absurd hnone h
  next => rfl

theorem State.expPump_of_queue_nil {s : State} {n : Nat} (h : (s.port n).queue = []) : s.expPump n = s := by
  unfold State.expPump
  dsimp only
  split
  next hcons => rw [h] at hcons; exact absurd hcons (by simp)
  next => rfl

theorem State.expPump_of_waiting {s : State} {n : Nat} {c : ExpCmd} {r : List ExpCmd} (hs : (s.port n).sent = none)
    (hq : (s.port n).queue = c :: r) : s.expPump n = (s.setPort n { s.port n with queue := r }).expSend n c 1 := by
  simp only [State.expPump, hs, hq]

/-- Where no command waits for its ACK, the oldest queued one goes out. -/
theorem State.expPump_next {s : State} {n : Nat} (hs : (s.port n).sent = none) :
    ((s.expPump n).port n).sent = ((s.port n).queue.head?).map (fun d => (d, 1)) ∧ ((s.expPump n).port n).queue = (s.port n).queue.tail := by
  cases hq : (s.port n).queue with
  | nil => rw [State.expPump_of_queue_nil hq]; exact ⟨hs, hq⟩
  | cons c r =>
    rw [State.expPump_of_waiting hs hq, State.port_expSend, State.port_setPort_same]
    exact ⟨rfl, rfl⟩

/-- Sending writes EXP_STATUS registers alone. -/
theorem State.expPump_rd (s : State) {n o : Nat} (ho : ∀ v, o ≠ R.HEAD_VS_EXP_STATUS n v) : (s.expPump n).rd o = s.rd o := by
  unfold State.expPump
  dsimp only
  split
  · exact (State.expSend_rd _ (ho _)).trans rfl
  · rfl

/-- Sending a command keeps the latest one of each sensor. -/
theorem State.expPump_latest (s : State) (n : Nat) : ((s.expPump n).port n).latest = (s.port n).latest := by
  unfold State.expPump
  dsimp only
  split
  · rw [State.port_expSend, State.port_setPort_same]
  · rfl

/-! ## A command taken (R138, R151) -/

/-- The port and the sensor once a command has joined the queue. -/
def State.expQueued (s : State) (n : Nat) (c : ExpCmd) : State :=
  let p := s.port n
  let s := s.setPort n { p with
    nextSeq := (p.nextSeq + 1) % 65536
    queue := p.queue ++ [c]
    latest := mapSet p.latest c.vs c }
  let x := s.sensor n c.vs
  s.setSensor n c.vs { x with cmds := x.cmds ++ [c] }

theorem State.expSubmit_eq {s : State} {n : Nat} {c d : ExpCmd} (hready : s.fld (F.HEAD_STATE_state n) = 4) (hroom : s.expFull n = false)
    (hc : { d with seq := (s.port n).nextSeq } = c) : s.expSubmit n d = ((s.expQueued n c).cmdState n c 1 c.target).expPump n := by
  subst hc
  simp only [State.expSubmit, ne_eq, hready, not_true_eq_false, if_false, hroom, Bool.false_eq_true]
  rfl

theorem State.expQueued_port (s : State) (n : Nat) (c : ExpCmd) :
    ((s.expQueued n c).port n).nextSeq = ((s.port n).nextSeq + 1) % 65536 ∧ ((s.expQueued n c).port n).queue = (s.port n).queue ++ [c]
      ∧ ((s.expQueued n c).port n).latest = mapSet (s.port n).latest c.vs c ∧ ((s.expQueued n c).port n).sent = (s.port n).sent
      ∧ ((s.expQueued n c).port n).txSeq = (s.port n).txSeq := by
  simp only [State.expQueued, State.setSensor, State.port_setPort_same, and_self]

/-- A command that has joined the queue is its sensor's latest, shown QUEUED; nothing but EXP_STATUS of its sensor is written. -/
theorem State.expQueued_shown (s : State) (n : Nat) (c : ExpCmd) :
    let t := (s.expQueued n c).cmdState n c 1 c.target
    t.port n = (s.expQueued n c).port n ∧ mapFind (t.port n).latest c.vs = some c
      ∧ t.fld (F.HEAD_VS_EXP_STATUS_state n c.vs) = 1 ∧ t.fld (F.HEAD_VS_EXP_STATUS_target n c.vs) = c.target % 65536
      ∧ RegsBut [R.HEAD_VS_EXP_STATUS n c.vs] s t := by
  intro t
  have hlatest : mapFind ((s.expQueued n c).port n).latest c.vs = some c := by
    obtain ⟨-, -, hlatest, -⟩ := s.expQueued_port n c
    rw [hlatest, mapFind_mapSet_same]
  have hport : t.port n = (s.expQueued n c).port n := State.port_congr (State.cmdState_cam ..) n
  obtain ⟨hstate, htarget⟩ := State.cmdState_shows c.target hlatest (st := 1) (by decide)
  exact ⟨hport, hport ▸ hlatest, hstate, htarget, fun o ho _ => (State.cmdState_rd _ _ (by decide) (List.ne_of_not_mem_cons ho)).trans rfl⟩

/-- A command taken while none waits goes out at once and is shown SENT. -/
theorem State.expSubmit_sends {s : State} {n : Nat} {c d : ExpCmd} (hready : s.fld (F.HEAD_STATE_state n) = 4) (hroom : s.expFull n = false)
    (hc : { d with seq := (s.port n).nextSeq } = c) (hsent : (s.port n).sent = none) (hqueue : (s.port n).queue = []) :
    let t := s.expSubmit n d
    (t.port n).sent = some (c, 1) ∧ (t.port n).queue = [] ∧ .exposure n (s.port n).txSeq c ∈ t.out
      ∧ .gypol n (gypolPacket 0x81 c.vs c.target (s.port n).txSeq (exposurePayload c)) ∈ t.out
      ∧ t.fld (F.HEAD_VS_EXP_STATUS_state n c.vs) = 2 ∧ t.fld (F.HEAD_VS_EXP_STATUS_target n c.vs) = c.target % 65536
      ∧ RegsBut [R.HEAD_VS_EXP_STATUS n c.vs] s t := by
  intro t
  obtain ⟨hport, hlatest, -, -, hregs⟩ := s.expQueued_shown n c
  obtain ⟨-, hqueued, -, hkept, htx⟩ := s.expQueued_port n c
  have ht : t = _ := State.expSubmit_eq hready hroom hc
  generalize t = t at *
  generalize (s.expQueued n c).cmdState n c 1 c.target = r at *
  rw [State.expPump_of_waiting (c := c) (r := []) (by rw [hport, hkept, hsent]) (by rw [hport, hqueued, hqueue]; rfl)] at ht
  have hgone : (r.setPort n { r.port n with queue := [] }).port n = { r.port n with queue := [] } := State.port_setPort_same ..
  have hseq : ((r.setPort n { r.port n with queue := [] }).port n).txSeq = (s.port n).txSeq := by rw [hgone, hport, htx]
  have hregs' : RegsBut [R.HEAD_VS_EXP_STATUS n c.vs] s (r.setPort n { r.port n with queue := [] }) := hregs.of_regs rfl
  generalize r.setPort n { r.port n with queue := [] } = p at *
  obtain ⟨hout, hbytes⟩ := p.expSend_sends n c 1
  obtain ⟨hstate, htarget⟩ := State.expSend_shows (s := p) 1 (by rw [hgone]; exact hlatest)
  rw [hseq] at hout hbytes
  rw [ht]
  refine ⟨by rw [State.port_expSend], by rw [State.port_expSend, hgone], hout, hbytes, hstate, htarget, hregs'.trans fun o ho _ => ?_⟩
  exact State.expSend_rd p (List.ne_of_not_mem_cons ho)

/-- A command taken behind one that waits for its ACK is queued. -/
theorem State.expSubmit_queues {s : State} {n : Nat} {c d : ExpCmd} (hready : s.fld (F.HEAD_STATE_state n) = 4) (hroom : s.expFull n = false)
    (hc : { d with seq := (s.port n).nextSeq } = c) (hsent : (s.port n).sent ≠ none) :
    let t := s.expSubmit n d
    (t.port n).sent = (s.port n).sent ∧ (t.port n).queue = (s.port n).queue ++ [c]
      ∧ t.fld (F.HEAD_VS_EXP_STATUS_state n c.vs) = 1 ∧ t.fld (F.HEAD_VS_EXP_STATUS_target n c.vs) = c.target % 65536 := by
  intro t
  obtain ⟨hport, -, hstate, htarget, -⟩ := s.expQueued_shown n c
  obtain ⟨-, hqueued, -, hkept, -⟩ := s.expQueued_port n c
  have ht : t = _ := State.expSubmit_eq hready hroom hc
  rw [State.expPump_of_sent (by rw [hport, hkept]; exact hsent)] at ht
  rw [ht, hport]
  exact ⟨hkept, hqueued, hstate, htarget⟩

/-- A command taken is the latest of its sensor. -/
theorem State.expSubmit_latest {s : State} {n : Nat} {c d : ExpCmd} (hready : s.fld (F.HEAD_STATE_state n) = 4) (hroom : s.expFull n = false)
    (hc : { d with seq := (s.port n).nextSeq } = c) : mapFind ((s.expSubmit n d).port n).latest c.vs = some c := by
  obtain ⟨-, hlatest, -⟩ := s.expQueued_shown n c
  rw [State.expSubmit_eq hready hroom hc, State.expPump_latest]
  exact hlatest

end Sys2Proof.Machine
end

section
/-! A `go` of an explicit exposure command (R151, R160). -/
namespace Sys2Proof.Machine

/-- A field of EXP_STATUS stands through the closing step. -/
theorem settle_fld_expStatus (s : State) {f : Fld} (n v : Nat) (h : f.off = R.HEAD_VS_EXP_STATUS n v) : (settle s).fld f = s.fld f := by
  rw [State.fld, State.fld, h, settle_rd_expStatus]

/-- The explicit command that the registers of a sensor ask for, before it has a number. -/
def State.expAsked (s : State) (n v : Nat) : ExpCmd :=
  ⟨v, 0, s.fld (F.HEAD_VS_EXP_CTRL_tag n v), false, s.rd (R.HEAD_VS_EXP_NS n v), s.fld (F.HEAD_VS_EXP_GAIN_gain n v),
    s.rd (R.HEAD_VS_EXP_PARAM0 n v), s.rd (R.HEAD_VS_EXP_PARAM1 n v)⟩

theorem State.exposureGo_explicit {s : State} {n v : Nat} (hready : s.fld (F.HEAD_STATE_state n) = 4) (hroom : s.expFull n = false)
    (hexplicit : s.fld (F.HEAD_VS_EXP_CTRL_explicit n v) = 1) : s.exposureGo n v = s.expSubmit n (s.expAsked n v) := by
  have hbit : s.bit (F.HEAD_VS_EXP_CTRL_explicit n v) = true := by rw [State.bit, hexplicit]; rfl
  simp only [State.exposureGo, ne_eq, hready, not_true_eq_false, if_false, hroom, Bool.false_eq_true, hbit, if_true]
  rfl

/-- The write of EXP_CTRL stores its target and `explicit`, and the command that it asks for follows. -/
theorem exposure_answers_go {m : Master} {n w : Nat} {v : Word} {s : State} (hn : n < 8) (hw : w < 4)
    (ha : Admitted s m (R.HEAD_VS_EXP_CTRL n w)) (hused : s.sensorUnused n w = false) (hexplicit : v.toNat.testBit 16 = true) :
    ∃ x, Answers (.exposure m n w v) s (settle ((s.wr (R.HEAD_VS_EXP_CTRL n w) x).exposureGo n w))
      ∧ (s.wr (R.HEAD_VS_EXP_CTRL n w) x).fld (F.HEAD_VS_EXP_CTRL_tag n w) = bitsOf v.toNat 15 0
      ∧ (s.wr (R.HEAD_VS_EXP_CTRL n w) x).fld (F.HEAD_VS_EXP_CTRL_explicit n w) = 1 := by
  have hexec : exec (.exposure m n w v) s = done (s.guardedWrite m (R.HEAD_VS_EXP_CTRL n w) (fun s =>
      if s.sensorUnused n w then s else (s.regWrite (R.HEAD_VS_EXP_CTRL n w) v.toNat).exposureGo n w)) := by
    show execExposure m n w v s = _
    simp only [execExposure, Nat.mod_eq_of_lt hn, Nat.mod_eq_of_lt hw]
  have hans := answers_of_admitted ha hexec
  obtain ⟨x, hx, htag, hexpl⟩ := s.regWrite_expCtrl v.toNat hn hw
  simp only [hused, Bool.false_eq_true, if_false, hx] at hans
  refine ⟨x, hans, ?_, ?_⟩
  · rw [← htag]
    exact State.fld_wr_same s (f := F.HEAD_VS_EXP_CTRL_tag n w) x (by decide : 15 < 32)
  · have hone : bitsOf v.toNat 16 16 = 1 := by rw [bitsOf_self, hexplicit]; rfl
    rw [← hone, ← hexpl]
    exact State.fld_wr_same s (f := F.HEAD_VS_EXP_CTRL_explicit n w) x (by decide : 16 < 32)

/-- What the write of EXP_CTRL leaves: the state of the port, and the exposure values of the sensor. -/
theorem State.wr_expCtrl_reads (s : State) (n w x : Nat) :
    (s.wr (R.HEAD_VS_EXP_CTRL n w) x).fld (F.HEAD_STATE_state n) = s.fld (F.HEAD_STATE_state n)
      ∧ (s.wr (R.HEAD_VS_EXP_CTRL n w) x).rd (R.HEAD_VS_EXP_NS n w) = s.rd (R.HEAD_VS_EXP_NS n w)
      ∧ (s.wr (R.HEAD_VS_EXP_CTRL n w) x).fld (F.HEAD_VS_EXP_GAIN_gain n w) = s.fld (F.HEAD_VS_EXP_GAIN_gain n w)
      ∧ (s.wr (R.HEAD_VS_EXP_CTRL n w) x).rd (R.HEAD_VS_EXP_PARAM0 n w) = s.rd (R.HEAD_VS_EXP_PARAM0 n w)
      ∧ (s.wr (R.HEAD_VS_EXP_CTRL n w) x).rd (R.HEAD_VS_EXP_PARAM1 n w) = s.rd (R.HEAD_VS_EXP_PARAM1 n w) := by
  refine ⟨State.fld_wr_off _ _ ?_, State.rd_wr_ne _ _ ?_, State.fld_wr_off _ _ ?_, State.rd_wr_ne _ _ ?_, State.rd_wr_ne _ _ ?_⟩ <;>
    simp only [F.HEAD_STATE_state, F.HEAD_VS_EXP_GAIN_gain, R.HEAD_VS_EXP_NS, R.HEAD_VS_EXP_PARAM0, R.HEAD_VS_EXP_PARAM1, R.HEAD_VS_EXP_CTRL] <;>
    omega

/-- A command that finds none before it goes out; behind one that waits for its ACK it is queued. -/
theorem exposure_taken_answers (m : Master) (n w : Nat) (v : Word) (s : State) (hn : n < 8) (hw : w < 4)
    (ha : Admitted s m (R.HEAD_VS_EXP_CTRL n w)) (hused : s.sensorUnused n w = false) (hexplicit : v.toNat.testBit 16 = true)
    (hready : s.fld (F.HEAD_STATE_state n) = 4) (hroom : s.expFull n = false) (c : ExpCmd)
    (hc : c = ⟨w, (s.port n).nextSeq, bitsOf v.toNat 15 0, false, s.rd (R.HEAD_VS_EXP_NS n w),
        s.fld (F.HEAD_VS_EXP_GAIN_gain n w), s.rd (R.HEAD_VS_EXP_PARAM0 n w), s.rd (R.HEAD_VS_EXP_PARAM1 n w)⟩) :
    ∃ t, Answers (.exposure m n w v) s t ∧ (t.port n).nextSeq = ((s.port n).nextSeq + 1) % 65536
      ∧ mapFind (t.port n).latest w = some c ∧ SameMemory s t
      ∧ ((s.port n).sent = none → (s.port n).queue = [] → (t.port n).sent = some (c, 1) ∧ (t.port n).queue = []
        ∧ .exposure n (s.port n).txSeq c ∈ t.out
        ∧ .gypol n (gypolPacket 0x81 w (bitsOf v.toNat 15 0) (s.port n).txSeq (exposurePayload c)) ∈ t.out
        ∧ t.fld (F.HEAD_VS_EXP_STATUS_state n w) = 2 ∧ t.fld (F.HEAD_VS_EXP_STATUS_target n w) = bitsOf v.toNat 15 0
        ∧ RegsBut [R.HEAD_VS_EXP_CTRL n w, R.HEAD_VS_EXP_STATUS n w] s t)
      ∧ ((s.port n).sent ≠ none → (t.port n).sent = (s.port n).sent ∧ (t.port n).queue = (s.port n).queue ++ [c]
        ∧ t.fld (F.HEAD_VS_EXP_STATUS_state n w) = 1 ∧ t.fld (F.HEAD_VS_EXP_STATUS_target n w) = bitsOf v.toNat 15 0) := by
  obtain ⟨x, hans, htag, hexpl⟩ := exposure_answers_go hn hw ha hused hexplicit
  obtain ⟨hstate, hns, hgain, hp0, hp1⟩ := s.wr_expCtrl_reads n w x
  have hu : HeadOnly s (s.wr (R.HEAD_VS_EXP_CTRL n w) x) :=
    ⟨⟨_, _, _, _, rfl⟩, fun o ho => State.rd_wr_ne _ _ (by simp only [R.HEAD_CFG, R.HEAD_VS_EXP_CTRL] at ho ⊢; omega)⟩
  have huregs : RegsBut [R.HEAD_VS_EXP_CTRL n w, R.HEAD_VS_EXP_STATUS n w] s (s.wr (R.HEAD_VS_EXP_CTRL n w) x) :=
    (RegsBut.refl _ s).wr _ (.head _)
  have hport : (s.wr (R.HEAD_VS_EXP_CTRL n w) x).port n = s.port n := rfl
  have huroom : (s.wr (R.HEAD_VS_EXP_CTRL n w) x).expFull n = false := hroom
  have hcmd : { (s.wr (R.HEAD_VS_EXP_CTRL n w) x).expAsked n w with seq := ((s.wr (R.HEAD_VS_EXP_CTRL n w) x).port n).nextSeq } = c := by
    rw [hc, State.expAsked, htag, hns, hgain, hp0, hp1, hport]
  have htarget : c.target = bitsOf v.toNat 15 0 := by rw [hc]
  have hmod : c.target % 65536 = c.target := Nat.mod_eq_of_lt (htarget ▸ bitsOf_lt v.toNat 15 0)
  obtain rfl : c.vs = w := by rw [hc]
  generalize s.wr (R.HEAD_VS_EXP_CTRL n c.vs) x = u at *
  have huready := hstate.trans hready
  rw [State.exposureGo_explicit huready huroom hexpl] at hans
  obtain ⟨htaken, hnext, -⟩ := State.expSubmit_queued (c := u.expAsked n c.vs) huready huroom
  have hlatest := State.expSubmit_latest huready huroom hcmd
  have hsends := State.expSubmit_sends huready huroom hcmd
  have hqueues := State.expSubmit_queues huready huroom hcmd
  generalize u.expSubmit n (u.expAsked n c.vs) = t at *
  rw [hport, hmod, htarget] at hsends hqueues
  refine ⟨_, hans, ?_, ?_, (hu.trans htaken).sameMemory.settle, fun hnone hempty => ?_, fun hsome => ?_⟩
  · rw [settle_port, hnext, hport]
  · rw [settle_port, hlatest]
  · obtain ⟨hsent, hqueue, hout, hbytes, hshown, htarg, hregs⟩ := hsends hnone hempty
    rw [settle_port, settle_fld_expStatus t n c.vs rfl, settle_fld_expStatus t n c.vs rfl]
    exact ⟨hsent, hqueue, mem_settle_out _ _ hout, mem_settle_out _ _ hbytes, hshown, htarg,
      (huregs.trans (hregs.mono (List.subset_cons_self _ _))).settle⟩
  · rw [settle_port, settle_fld_expStatus t n c.vs rfl, settle_fld_expStatus t n c.vs rfl]
    exact hqueues hsome

/-! ## A port that is not READY -/

/-- A refused explicit command is shown with the target that it names; no command and no other register changes. -/
theorem State.expRefuse_refuses {s : State} {n v st : Nat} (hexplicit : s.fld (F.HEAD_VS_EXP_CTRL_explicit n v) = 1) (hst : st < 8) :
    let t := s.expRefuse n v st
    HeadOnly s t ∧ t.fld (F.HEAD_VS_EXP_STATUS_state n v) = st
      ∧ t.fld (F.HEAD_VS_EXP_STATUS_target n v) = s.fld (F.HEAD_VS_EXP_CTRL_tag n v)
      ∧ (t.port n).queue = (s.port n).queue ∧ (t.port n).sent = (s.port n).sent ∧ RegsBut [R.HEAD_VS_EXP_STATUS n v] s t := by
  intro t
  have hbit : s.bit (F.HEAD_VS_EXP_CTRL_explicit n v) = true := by rw [State.bit, hexplicit]; rfl
  have ht : t = (((s.free.2.setPort n { s.port n with latest := mapDel (s.port n).latest v }).put (F.HEAD_VS_EXP_STATUS_state n v) st).put
      (F.HEAD_VS_EXP_STATUS_target n v) (s.fld (F.HEAD_VS_EXP_CTRL_tag n v))).put (F.HEAD_VS_EXP_STATUS_seq_lo n v) (s.free.1 % 256) := by
    simp only [t, State.expRefuse, hbit, if_true]
  have hport : t.port n = { s.port n with latest := mapDel (s.port n).latest v } := by rw [ht]; exact State.port_setPort_same s n _
  have hhead : HeadOnly s (s.free.2.setPort n { s.port n with latest := mapDel (s.port n).latest v }) :=
    ⟨⟨_, _, _, _, rfl⟩, fun _ _ => rfl⟩
  have hregs : RegsBut [R.HEAD_VS_EXP_STATUS n v] s (s.free.2.setPort n { s.port n with latest := mapDel (s.port n).latest v }) :=
    fun _ _ _ => rfl
  have htag : s.fld (F.HEAD_VS_EXP_CTRL_tag n v) < 65536 := bitsOf_lt _ 15 0
  have hoff : R.HEAD_CFG 0 ≤ R.HEAD_VS_EXP_STATUS n v := by simp only [R.HEAD_CFG, R.HEAD_VS_EXP_STATUS]; omega
  generalize s.free.2.setPort n { s.port n with latest := mapDel (s.port n).latest v } = u at *
  generalize s.fld (F.HEAD_VS_EXP_CTRL_tag n v) = tag at *
  refine ⟨?_, ?_, ?_, by rw [hport], by rw [hport], ?_⟩
  · rw [ht]; exact ((hhead.put _ hoff).put _ hoff).put _ hoff
  · rw [ht, State.fld_put_ne _ (F.HEAD_VS_EXP_STATUS_seq_lo n v) (F.HEAD_VS_EXP_STATUS_state n v) _ rfl (by decide : 18 < 32)
        (.inl (by decide : 18 < 24)),
      State.fld_put_ne _ (F.HEAD_VS_EXP_STATUS_target n v) (F.HEAD_VS_EXP_STATUS_state n v) _ rfl (by decide : 18 < 32)
        (.inr (by decide : 15 < 16)),
      State.fld_put_same _ (F.HEAD_VS_EXP_STATUS_state n v) _ (by decide : 18 < 32)]
    exact Nat.mod_eq_of_lt hst
  · rw [ht, State.fld_put_ne _ (F.HEAD_VS_EXP_STATUS_seq_lo n v) (F.HEAD_VS_EXP_STATUS_target n v) _ rfl (by decide : 15 < 32)
        (.inl (by decide : 15 < 24)),
      State.fld_put_same _ (F.HEAD_VS_EXP_STATUS_target n v) _ (by decide : 15 < 32)]
    exact Nat.mod_eq_of_lt htag
  · rw [ht]; exact ((hregs.put _ (.head _)).put _ (.head _)).put _ (.head _)

theorem exposure_refused_answers (m : Master) (n w : Nat) (v : Word) (s : State) (hn : n < 8) (hw : w < 4)
    (ha : Admitted s m (R.HEAD_VS_EXP_CTRL n w)) (hused : s.sensorUnused n w = false) (hexplicit : v.toNat.testBit 16 = true)
    (hready : s.fld (F.HEAD_STATE_state n) ≠ 4) :
    ∃ t, Answers (.exposure m n w v) s t ∧ t.fld (F.HEAD_VS_EXP_STATUS_state n w) = 5
      ∧ t.fld (F.HEAD_VS_EXP_STATUS_target n w) = bitsOf v.toNat 15 0 ∧ (t.port n).queue = (s.port n).queue
      ∧ (t.port n).sent = (s.port n).sent ∧ RegsBut [R.HEAD_VS_EXP_CTRL n w, R.HEAD_VS_EXP_STATUS n w] s t ∧ SameMemory s t := by
  obtain ⟨x, hans, htag, hexpl⟩ := exposure_answers_go hn hw ha hused hexplicit
  obtain ⟨hstate, -⟩ := s.wr_expCtrl_reads n w x
  have hmem : SameMemory s (s.wr (R.HEAD_VS_EXP_CTRL n w) x) := .of_eq rfl rfl rfl rfl
  have huregs : RegsBut [R.HEAD_VS_EXP_CTRL n w, R.HEAD_VS_EXP_STATUS n w] s (s.wr (R.HEAD_VS_EXP_CTRL n w) x) :=
    (RegsBut.refl _ s).wr _ (.head _)
  have hport : (s.wr (R.HEAD_VS_EXP_CTRL n w) x).port n = s.port n := rfl
  generalize s.wr (R.HEAD_VS_EXP_CTRL n w) x = u at *
  have hrefuse : u.exposureGo n w = u.expRefuse n w 5 := by rw [State.exposureGo, if_pos (hstate ▸ hready)]
  obtain ⟨hhead, hshown, htarget, hqueue, hsent, hregs⟩ := u.expRefuse_refuses (st := 5) hexpl (by decide)
  rw [hrefuse] at hans
  generalize u.expRefuse n w 5 = t at *
  refine ⟨_, hans, ?_⟩
  rw [settle_fld_expStatus t n w rfl, settle_fld_expStatus t n w rfl, settle_port, hshown, htarget, htag, hqueue, hsent, hport]
  exact ⟨rfl, rfl, rfl, rfl, (huregs.trans (hregs.mono (List.subset_cons_self _ _))).settle, (hmem.trans hhead.sameMemory).settle⟩

end Sys2Proof.Machine
end

section
/-! The end of a command by its ACK or for want of one (R135, R151, R154). -/
namespace Sys2Proof.Machine

/-! ## ACK -/

theorem State.hearing_port (s : State) (n t : Nat) : (s.hearing n t).port n = { s.port n with hunting := false } := by
  obtain ⟨a, b, h⟩ := s.reach_frame t
  rw [State.hearing, State.port_setPort_same, h]
  rfl

/-- An ACK that passes R131 is acted on by a READY port. -/
theorem State.headReceive_ack {s : State} {n : Nat} {pkt payload : List Byte} (t : Nat) (h : Received s n 5 pkt payload)
    (hready : s.fld (F.HEAD_STATE_state n) = 4) :
    s.headReceive n t pkt true = (s.hearing n t).ackOp n (beAt payload 0 2) (beAt payload 2 1) (beAt payload 4 2) := by
  obtain ⟨hrun, -, -, hlen, hpayload, htype, hcrc8, hplen, hcrc32, hfits⟩ := h
  have hnow : (s.reach t).fld (F.HEAD_STATE_state n) = 4 ∧ (s.reach t).runs .head = true := by
    obtain ⟨a, b, hr⟩ := s.reach_frame t; rw [hr]; exact ⟨hready, hrun⟩
  have hfits' := (s.hearing_packetFits n t 5 (beAt pkt 1 1) (beAt pkt 2 2) (beAt pkt 4 2) (beAt pkt 6 2) (beAt pkt 8 2) payload.length
    (beAt pkt 14 1 = 0 && payloadReserved 5 payload)).trans hfits
  have hlong : pkt.length = 16 + payload.length + 8 := by omega
  unfold State.headReceive
  simp only [hnow, hplen, hpayload, htype, hcrc8, hcrc32, hlong]
  rw [State.hearing] at hfits' ⊢
  generalize State.setPort (s.reach t) n _ = u at hfits' ⊢
  simp [hfits']

/-- The awaited ACK ends the command with its outcome, and the next one goes out. -/
theorem State.ackOp_ends {s : State} {n k seq outcome applyTag : Nat} {c : ExpCmd} (hsent : (s.port n).sent = some (c, k)) (hseq : c.seq = seq)
    (hout : outcome ≤ 2) : s.ackOp n seq outcome applyTag = ((s.setPort n { s.port n with sent := none }).cmdState n c (3 + outcome)
      (if outcome = 1 then applyTag else c.target)).expPump n := by
  simp only [State.ackOp, hsent, hseq, hout, and_self, if_true]

/-- A command of a port that ends leaves the place of the one sent to the next. -/
theorem State.cmdEnd_next (s : State) (n : Nat) (c : ExpCmd) (st shown : Nat) :
    let t := ((s.setPort n { s.port n with sent := none }).cmdState n c st shown).expPump n
    (t.port n).sent = ((s.port n).queue.head?).map (fun d => (d, 1)) ∧ (t.port n).queue = (s.port n).queue.tail ∧ HeadOnly s t := by
  intro t
  have hport : ((s.setPort n { s.port n with sent := none }).cmdState n c st shown).port n = { s.port n with sent := none } := by
    rw [State.port_congr (State.cmdState_cam ..), State.port_setPort_same]
  have hhead := ((HeadOnly.refl s).setPort n { s.port n with sent := none }).trans (State.cmdState_headOnly _ n c st shown)
  have hnext := State.expPump_next (s := (s.setPort n { s.port n with sent := none }).cmdState n c st shown) (n := n) (by rw [hport])
  rw [hport] at hnext
  exact ⟨hnext.1, hnext.2, hhead.trans (State.expPump_headOnly _ _)⟩

theorem ack_answers (n at_ k : Nat) (c : ExpCmd) (rest payload : List Byte) (s : State) (hn : n < 8) (hready : s.fld (F.HEAD_STATE_state n) = 4)
    (hrec : Received s n 5 (0x05#8 :: rest) payload) (hsent : (s.port n).sent = some (c, k)) (hseq : beAt payload 0 2 = c.seq)
    (hout : beAt payload 2 1 ≤ 2) :
    ∃ t, Answers (.ack n at_ rest) s t ∧ (t.port n).sent = ((s.port n).queue.head?).map (fun d => (d, 1))
      ∧ (t.port n).queue = (s.port n).queue.tail ∧ SameMemory s t
      ∧ ((s.port n).queue = [] → mapFind (s.port n).latest c.vs = some c →
        t.fld (F.HEAD_VS_EXP_STATUS_state n c.vs) = 3 + beAt payload 2 1) := by
  have hexec : exec (.ack n at_ rest) s = done (s.headReceive n at_ (0x05#8 :: rest) true) := by
    show done (s.headReceive (n % 8) at_ (0x05#8 :: rest) true) = _
    rw [Nat.mod_eq_of_lt hn]
  have hport := s.hearing_port n at_
  have hmem : SameMemory s (s.hearing n at_) := by
    obtain ⟨a, b, p, hu⟩ := s.hearing_frame n at_; rw [hu]; exact .of_eq rfl rfl rfl rfl
  rw [State.headReceive_ack at_ hrec hready] at hexec
  generalize s.hearing n at_ = u at *
  rw [State.ackOp_ends (c := c) (k := k) (by rw [hport]; exact hsent) hseq.symm hout] at hexec
  generalize (if beAt payload 2 1 = 1 then beAt payload 4 2 else c.target) = shown at *
  obtain ⟨hnext, hqueue, hhead⟩ := u.cmdEnd_next n c (3 + beAt payload 2 1) shown
  refine ⟨_, answers_settle_of_exec_eq_done hexec, ?_, ?_, (hmem.trans hhead.sameMemory).settle, fun hempty hlatest => ?_⟩
  · rw [settle_port, hnext, hport]
  · rw [settle_port, hqueue, hport]
  · have hended : (u.setPort n { u.port n with sent := none }).port n = { u.port n with sent := none } := State.port_setPort_same ..
    rw [settle_fld_expStatus _ n c.vs rfl, State.expPump_of_queue_nil]
    · exact (State.cmdState_shows shown (by rw [hended, hport]; exact hlatest) (by omega)).1
    · rw [State.port_congr (State.cmdState_cam ..), hended, hport]; exact hempty

/-! ## No ACK -/

theorem ackTimeout_answers (n k : Nat) (c : ExpCmd) (s : State) (hn : n < 8) (hheld : s.held .head = false)
    (hsent : (s.port n).sent = some (c, k)) :
    ∃ t, Answers (.ackTimeout n) s t ∧ SameMemory s t ∧
      if k < 4 then (t.port n).sent = some (c, k + 1) ∧ (t.port n).queue = (s.port n).queue ∧ .exposure n (s.port n).txSeq c ∈ t.out
        ∧ .gypol n (gypolPacket 0x81 c.vs c.target (s.port n).txSeq (exposurePayload c)) ∈ t.out
      else (t.port n).sent = ((s.port n).queue.head?).map (fun d => (d, 1)) ∧ (t.port n).queue = (s.port n).queue.tail
        ∧ t.fld (F.HEAD_ERR_no_ack n) = 1 := by
  have hexec : exec (.ackTimeout n) s = done (if k < 4 then s.expSend n c (k + 1)
      else ((s.setPort n { s.port n with sent := none }).cmdState n c 6 c.target).expPump n) := by
    show execAckTimeout n s = _
    simp only [execAckTimeout, Nat.mod_eq_of_lt hn, hsent, hheld, Bool.false_eq_true, if_false]
  refine ⟨_, answers_settle_of_exec_eq_done hexec, ?_⟩
  by_cases hk : k < 4
  · simp only [if_pos hk]
    obtain ⟨hout, hbytes⟩ := s.expSend_sends n c (k + 1)
    refine ⟨(s.expSend_headOnly n c (k + 1)).sameMemory.settle, ?_, ?_, mem_settle_out _ _ hout, mem_settle_out _ _ hbytes⟩
    · rw [settle_port, State.port_expSend]
    · rw [settle_port, State.port_expSend]
  · simp only [if_neg hk]
    obtain ⟨hnext, hqueue, hhead⟩ := s.cmdEnd_next n c 6 c.target
    refine ⟨hhead.sameMemory.settle, ?_, ?_, ?_⟩
    · rw [settle_port, hnext]
    · rw [settle_port, hqueue]
    · have hne : ∀ v, (F.HEAD_ERR_no_ack n).off ≠ R.HEAD_VS_EXP_STATUS n v := fun v => by
        simp only [F.HEAD_ERR_no_ack, R.HEAD_VS_EXP_STATUS]; omega
      rw [settle_fld _ _ (not_sendCounter (.inl (by simp only [F.HEAD_ERR_no_ack]; omega))), State.fld, State.expPump_rd _ hne]
      exact State.cmdState_noAck _ n c c.target

end Sys2Proof.Machine
end

section
/-! CONTROL packets: a sensor enabled or disabled (R139, R159). -/
namespace Sys2Proof.Machine

theorem State.port_headSend_ne (s : State) {n q : Nat} (ptype vs tag : Nat) (payload : List Byte) (f : Nat → Output) (h : q ≠ n) :
    (s.headSend n ptype vs tag payload f).port q = s.port q := mapGet_mapSet_ne _ _ _ h

/-- The ports of a sensor are different ports. -/
theorem State.sensorPorts_nodup (s : State) (n : Nat) : (s.sensorPorts n).Nodup := by
  have hbond : ∀ l, s.bond n = some l → l.Nodup := by
    intro l hl
    simp only [State.bond] at hl
    split at hl
    · split at hl
      · cases hl; exact List.nodup_singleton n
      · cases hl
    · split at hl
      · cases hl
      · split at hl
        · cases hl; exact List.nodup_range.map fun _ _ h => Nat.add_left_cancel h
        · cases hl
  rw [State.sensorPorts]
  cases hb : s.bond n with
  | none => exact List.nodup_singleton n
  | some l => exact hbond l hb

/-- The ports of a sensor depend on the HEADn_CFG registers alone. -/
theorem State.sensorPorts_congr {s t : State} (h : ∀ q, t.rd (R.HEAD_CFG q) = s.rd (R.HEAD_CFG q)) (n : Nat) :
    t.sensorPorts n = s.sensorPorts n := by
  simp only [State.sensorPorts, State.bond, h]

/-- One CONTROL packet on one port. -/
def State.controlSend (s : State) (op mask q : Nat) : State :=
  s.headSend q 0x82 0 0 (controlPayload op mask) (fun k => .control q k op mask)

/-- CONTROL packets on different ports: each takes its own port's `pseq`. -/
theorem foldl_controlSend_sends (op mask : Nat) (l : List Nat) (s : State) (hl : l.Nodup) :
    let t := l.foldl (fun s q => s.controlSend op mask q) s
    s.out ⊆ t.out ∧ ∀ q ∈ l, .control q (s.port q).txSeq op mask ∈ t.out
      ∧ .gypol q (gypolPacket 0x82 0 0 (s.port q).txSeq (controlPayload op mask)) ∈ t.out := by
  induction l generalizing s with
  | nil => exact ⟨fun _ h => h, fun _ h => absurd h List.not_mem_nil⟩
  | cons a r ih =>
    obtain ⟨ha, hr⟩ := List.nodup_cons.mp hl
    obtain ⟨hkept, hrest⟩ := ih (s.controlSend op mask a) hr
    have hout := s.headSend_out a 0x82 0 0 (controlPayload op mask) (fun k => .control a k op mask)
    rw [← State.controlSend] at hout
    rw [hout] at hkept
    refine ⟨fun o ho => hkept (.tail _ (.tail _ ho)), fun q hq => ?_⟩
    rcases List.mem_cons.mp hq with rfl | hq
    · exact ⟨hkept (.tail _ (.head _)), hkept (.head _)⟩
    · have hport : (s.controlSend op mask a).port q = s.port q :=
        s.port_headSend_ne _ _ _ _ _ (ne_of_mem_of_not_mem hq ha)
      rw [← hport]
      exact hrest q hq

theorem State.headControl_sends (s : State) (n op mask : Nat) :
    (∀ q ∈ s.sensorPorts n, .control q (s.port q).txSeq op mask ∈ (s.headControl n op mask).out
      ∧ .gypol q (gypolPacket 0x82 0 0 (s.port q).txSeq (controlPayload op mask)) ∈ (s.headControl n op mask).out)
    ∧ (s.headControl n op mask).regs = s.regs ∧ HeadOnly s (s.headControl n op mask) :=
  ⟨(foldl_controlSend_sends op mask _ s (s.sensorPorts_nodup n)).2,
    foldl_keeps (f := fun (t : State) q => t.controlSend op mask q) State.regs (fun _ _ => rfl) _ s,
    foldl_related (r := HeadOnly) .refl (fun h k => h.trans k) (fun t q => t.headSend_headOnly q _ _ _ _ _) _ s⟩

/-- A write of MAP on a READY port stores `enable` and tells every port of the sensor. -/
theorem mapWrite_answers {m : Master} {n w x : Nat} {i : Instr} {s : State} (hn : n < 8) (hw : w < 4) (ha : Admitted s m (R.HEAD_VS_MAP n w))
    (hused : s.sensorUnused n w = false) (hready : s.fld (F.HEAD_STATE_state n) = 4)
    (hexec : exec i s = done (s.guardedWrite m (R.HEAD_VS_MAP n w) (fun s => s.mapWrite n w x))) {op : Nat}
    (hop : op = if bitsOf x 4 4 = 0 then 2 else 1) :
    ∃ t, Answers i s t ∧ t.fld (F.HEAD_VS_MAP_enable n w) = bitsOf x 4 4 ∧ RegsBut [R.HEAD_VS_MAP n w] s t ∧ SameMemory s t
      ∧ ∀ q ∈ s.sensorPorts n, .control q (s.port q).txSeq op (2 ^ w) ∈ t.out
        ∧ .gypol q (gypolPacket 0x82 0 0 (s.port q).txSeq (controlPayload op (2 ^ w))) ∈ t.out := by
  have hans := answers_of_admitted ha hexec
  obtain ⟨y, hy, henable⟩ := s.regWrite_vsMap x hn hw
  have hmem : SameMemory s (s.wr (R.HEAD_VS_MAP n w) y) := .of_eq rfl rfl rfl rfl
  have hregs : RegsBut [R.HEAD_VS_MAP n w] s (s.wr (R.HEAD_VS_MAP n w) y) := (RegsBut.refl _ s).wr _ (.head _)
  have hstate : (s.wr (R.HEAD_VS_MAP n w) y).fld (F.HEAD_STATE_state n) = 4 := by
    rw [State.fld_wr_off _ _ (by simp only [F.HEAD_STATE_state, R.HEAD_VS_MAP]; omega), hready]
  have hfld : (s.wr (R.HEAD_VS_MAP n w) y).fld (F.HEAD_VS_MAP_enable n w) = bitsOf x 4 4 :=
    (State.fld_wr_same s (f := F.HEAD_VS_MAP_enable n w) y (by decide : 4 < 32)).trans henable
  have hports : (s.wr (R.HEAD_VS_MAP n w) y).sensorPorts n = s.sensorPorts n :=
    State.sensorPorts_congr (fun q => State.rd_wr_ne _ _ (by simp only [R.HEAD_CFG, R.HEAD_VS_MAP]; omega)) n
  have hport : (s.wr (R.HEAD_VS_MAP n w) y).port = s.port := rfl
  have hop' : (if (s.wr (R.HEAD_VS_MAP n w) y).bit (F.HEAD_VS_MAP_enable n w) then 1 else 2) = op := by
    rw [State.bit, hfld, hop]
    by_cases h : bitsOf x 4 4 = 0 <;> simp [h]
  simp only [State.mapWrite, hused, Bool.false_eq_true, if_false, hy, hstate, if_true, hop'] at hans
  generalize s.wr (R.HEAD_VS_MAP n w) y = u at *
  obtain ⟨hsends, hkept, hhead⟩ := u.headControl_sends n op (2 ^ w)
  rw [hports, hport] at hsends
  refine ⟨_, hans, ?_, (hregs.of_regs hkept).settle, (hmem.trans hhead.sameMemory).settle, fun q hq => ?_⟩
  · rw [settle_fld _ _ (not_sendCounter (.inl (by simp only [F.HEAD_VS_MAP_enable]; omega))), State.fld_congr hkept, hfld]
  · exact ⟨mem_settle_out _ _ (hsends q hq).1, mem_settle_out _ _ (hsends q hq).2⟩

theorem bitsOf_enable_set (v : Nat) : bitsOf (v ||| 16) 4 4 = 1 := by
  rw [bitsOf_self, Nat.testBit_or, show Nat.testBit 16 4 = true from rfl, Bool.or_true]; rfl

theorem bitsOf_enable_cleared (v : Nat) : bitsOf (v &&& 0xFFFFFFEF) 4 4 = 0 := by
  rw [bitsOf_self, Nat.testBit_and, show Nat.testBit 0xFFFFFFEF 4 = false from rfl, Bool.and_false]; rfl

theorem controlStart_answers (m : Master) (n w : Nat) (v : Word) (s : State) (hn : n < 8) (hw : w < 4) (ha : Admitted s m (R.HEAD_VS_MAP n w))
    (hused : s.sensorUnused n w = false) (hready : s.fld (F.HEAD_STATE_state n) = 4) :
    ∃ t, Answers (.controlStart m n w v) s t ∧ t.fld (F.HEAD_VS_MAP_enable n w) = 1 ∧ RegsBut [R.HEAD_VS_MAP n w] s t ∧ SameMemory s t
      ∧ ∀ q ∈ s.sensorPorts n, .control q (s.port q).txSeq 1 (2 ^ w) ∈ t.out
        ∧ .gypol q (gypolPacket 0x82 0 0 (s.port q).txSeq (controlPayload 1 (2 ^ w))) ∈ t.out := by
  have hexec : exec (.controlStart m n w v) s
      = done (s.guardedWrite m (R.HEAD_VS_MAP n w) (fun s => s.mapWrite n w (v.toNat ||| 16))) := by
    show execControlStart m n w v s = _
    simp only [execControlStart, Nat.mod_eq_of_lt hn, Nat.mod_eq_of_lt hw]
  have h := mapWrite_answers hn hw ha hused hready hexec (op := 1) (by rw [bitsOf_enable_set]; rfl)
  rwa [bitsOf_enable_set] at h

theorem controlStop_answers (m : Master) (n w : Nat) (v : Word) (s : State) (hn : n < 8) (hw : w < 4) (ha : Admitted s m (R.HEAD_VS_MAP n w))
    (hused : s.sensorUnused n w = false) (hready : s.fld (F.HEAD_STATE_state n) = 4) :
    ∃ t, Answers (.controlStop m n w v) s t ∧ t.fld (F.HEAD_VS_MAP_enable n w) = 0 ∧ RegsBut [R.HEAD_VS_MAP n w] s t ∧ SameMemory s t
      ∧ ∀ q ∈ s.sensorPorts n, .control q (s.port q).txSeq 2 (2 ^ w) ∈ t.out
        ∧ .gypol q (gypolPacket 0x82 0 0 (s.port q).txSeq (controlPayload 2 (2 ^ w))) ∈ t.out := by
  have hexec : exec (.controlStop m n w v) s
      = done (s.guardedWrite m (R.HEAD_VS_MAP n w) (fun s => s.mapWrite n w (v.toNat &&& 0xFFFFFFEF))) := by
    show execControlStop m n w v s = _
    simp only [execControlStop, Nat.mod_eq_of_lt hn, Nat.mod_eq_of_lt hw]
  have h := mapWrite_answers hn hw ha hused hready hexec (op := 2) (by rw [bitsOf_enable_cleared]; rfl)
  rwa [bitsOf_enable_cleared] at h

/-- Settles O41: a `go` on a port that is READY or is not, the end of a command by its ACK or for want of one, and a sensor enabled
or disabled. -/
theorem headCommands : Obligations.HeadCommands := by
  unfold Obligations.HeadCommands
  refine ⟨fun m n w v s hn hw ha hused hexplicit => ⟨fun hready hroom => ?_, ?_⟩, ack_answers, ackTimeout_answers,
    fun m n w v s hn hw ha hused hready => ⟨?_, ?_⟩⟩
  · exact exposure_taken_answers m n w v s hn hw ha hused hexplicit hready hroom _ rfl
  · exact exposure_refused_answers m n w v s hn hw ha hused hexplicit
  · exact controlStart_answers m n w v s hn hw ha hused hready
  · exact controlStop_answers m n w v s hn hw ha hused hready

end Sys2Proof.Machine
end

section
/-! A commit of a Developer context (R171, R172, R212, R230, R231): what its checks can report, and what an accepted and a refused
one leave. -/
namespace Sys2Proof.Machine

/-! ## The checks -/

/-- What holds of every outcome of a list holds of the first. -/
theorem firstOf_some {p : Refused → Prop} {l : List (Option Refused)} {r : Refused} (h : firstOf l = some r)
    (hl : ∀ o ∈ l, ∀ r, o = some r → p r) : p r := by
  obtain ⟨o, ho, hr⟩ := List.exists_of_findSome?_eq_some h
  exact hl o ho r hr

theorem firstBad_state {l : List Nat} {p : Nat → Bool} {state detail : Nat} {r : Refused} (h : firstBad l p state detail = some r) :
    r.state = state := by
  obtain ⟨k, -, rfl⟩ := Option.map_eq_some_iff.mp h
  rfl

/-- A state that a failing check reports fits the three bits of commit_state. -/
theorem State.commitChecks_state_lt {s : State} {c : Nat} {b : SMap Word} {os : List (Nat × SMap Word)} {r : Refused}
    (h : s.commitChecks c b os = some r) : r.state < 8 := by
  have hconst : ∀ {q : Prop} [Decidable q] {x r : Refused}, x.state < 8 → (if q then none else some x) = some r → r.state < 8 := by
    intro q _ x r hx hr
    split at hr
    · cases hr
    · cases hr; exact hx
  have htap : ∀ {q : Prop} [Decidable q] {x r : Refused}, x.state < 8 → (if q then some x else none) = some r → r.state < 8 := by
    intro q _ x r hx hr
    split at hr
    · cases hr; exact hx
    · cases hr
  have hbad : ∀ {l p state detail r}, state < 8 → firstBad l p state detail = some r → r.state < 8 :=
    fun hs hr => (firstBad_state hr).trans_lt hs
  unfold State.commitChecks at h
  extract_lets at h
  split at h
  · cases h; decide
  split at h
  · cases h; decide
  split at h
  · cases h; decide
  refine firstOf_some (p := fun r => r.state < 8) h ?_
  simp only [List.forall_mem_cons, List.not_mem_nil, false_imp_iff, implies_true, and_true]
  exact ⟨fun r => hconst (by decide), fun r => hbad (by decide), fun r => hbad (by decide), fun r => hbad (by decide),
    fun r => hbad (by decide), fun r => hbad (by decide), fun r => hbad (by decide), fun r => hbad (by decide),
    fun r => hbad (by decide), fun r => htap (by decide)⟩

/-! ## The commit -/

/-- The shadow bank of a context, and those of the streams that name it as their source (R171, R212). -/
def State.ctxBank (s : State) (c : Nat) : SMap Word := s.snap (R.DEV_CTX_SIZE c) (R.DEV_CTX_CTRL (c + 1))
@[inherit_doc State.ctxBank] def State.ctxStreams (s : State) (c : Nat) : List (Nat × SMap Word) :=
  ((List.range 8).map (fun k => (k, s.snap (R.DEV_OS_CTRL k) (R.DEV_OS_STATUS k)))).filter (fun e =>
    bankFld e.2 (F.DEV_OS_CTRL_src e.1) = c)

/-- The registers of a context that a commit moves. -/
def commitRegs (c : Nat) : List Nat := [R.DEV_CTX_GEN_PEND c, R.DEV_CTX_STATUS c, R.DEV_REFUSE_DETAIL c, R.DEV_EVT]

/-- The closing step moves none of them. -/
theorem not_sendCounter_commitRegs {c o : Nat} (hc : c < 16) (ho : o ∈ commitRegs c) : ¬ SendCounter o := by
  refine not_sendCounter (.inl ?_)
  simp only [commitRegs, R.DEV_CTX_GEN_PEND, R.DEV_CTX_STATUS, R.DEV_REFUSE_DETAIL, R.DEV_EVT, List.mem_cons, List.not_mem_nil,
    or_false] at ho
  omega

/-- A refused commit shows the failing check and its details, and moves no context. -/
theorem State.devCommit_refused {s : State} {c : Nat} {r : Refused} (hc : c < 16)
    (h : s.commitChecks c (s.ctxBank c) (s.ctxStreams c) = some r) :
    ∃ u, s.devCommit c = { s with regs := u } ∧ RegsBut (commitRegs c) s (s.devCommit c)
      ∧ (s.devCommit c).fld (F.DEV_CTX_GEN_PEND_value c) = s.fld (F.DEV_CTX_GEN_PEND_value c)
      ∧ (s.devCommit c).fld (F.DEV_CTX_STATUS_commit_state c) = r.state
      ∧ (s.devCommit c).fld ⟨R.DEV_EVT, 16 + c, 16 + c⟩ = 1 := by
  have hstate := State.commitChecks_state_lt h
  obtain ⟨d, hd⟩ : ∃ d, s.devCommit c = (let t := (s.put (F.DEV_CTX_STATUS_commit_state c) r.state).put ⟨R.DEV_EVT, 16 + c, 16 + c⟩ 1
      if r.state = 6 then t.wr (R.DEV_REFUSE_DETAIL c) d else t) := by
    refine ⟨r.detail + 16 * r.stream + (if r.tap then 128 else 0), ?_⟩
    simp only [State.ctxBank, State.ctxStreams] at h
    simp only [State.devCommit, h]
  let t := (s.put (F.DEV_CTX_STATUS_commit_state c) r.state).put ⟨R.DEV_EVT, 16 + c, 16 + c⟩ 1
  have hregs : RegsBut (commitRegs c) s t := ((RegsBut.refl _ s).put _ (by simp [commitRegs, F.DEV_CTX_STATUS_commit_state, R.DEV_CTX_STATUS])).put _
    (by simp [commitRegs])
  have hgen : t.fld (F.DEV_CTX_GEN_PEND_value c) = s.fld (F.DEV_CTX_GEN_PEND_value c) := by
    rw [State.fld_put_off _ _ _ _ (by simp only [F.DEV_CTX_GEN_PEND_value, R.DEV_EVT]; omega),
      State.fld_put_off _ _ _ _ (by simp only [F.DEV_CTX_GEN_PEND_value, F.DEV_CTX_STATUS_commit_state]; omega)]
  have hshown : t.fld (F.DEV_CTX_STATUS_commit_state c) = r.state := by
    rw [State.fld_put_off _ _ _ _ (by simp only [F.DEV_CTX_STATUS_commit_state, R.DEV_EVT]; omega)]
    exact (State.fld_put_same _ _ _ (show (2 : Nat) < 32 by decide)).trans (Nat.mod_eq_of_lt hstate)
  have hevt : t.fld ⟨R.DEV_EVT, 16 + c, 16 + c⟩ = 1 := by
    rw [State.fld_put_same _ _ _ (show 16 + c < 32 by omega)]
    simp
  rw [hd]
  split
  · refine ⟨_, rfl, hregs.wr _ (by simp [commitRegs]), ?_, ?_, ?_⟩
    · rw [State.fld_wr_off _ _ (by simp only [F.DEV_CTX_GEN_PEND_value, R.DEV_REFUSE_DETAIL]; omega)]; exact hgen
    · rw [State.fld_wr_off _ _ (by simp only [F.DEV_CTX_STATUS_commit_state, R.DEV_REFUSE_DETAIL]; omega)]; exact hshown
    · rw [State.fld_wr_off _ _ (by simp only [R.DEV_EVT, R.DEV_REFUSE_DETAIL]; omega)]; exact hevt
  · exact ⟨_, rfl, hregs, hgen, hshown, hevt⟩

theorem State.ctx_wr (s : State) (off v c : Nat) : (s.wr off v).ctx c = s.ctx c := rfl
theorem State.ctx_put (s : State) (f : Fld) (v c : Nat) : (s.put f v).ctx c = s.ctx c := rfl

/-- The pending generations after one more is accepted: while bindings are followed, the newest four (R172). -/
def State.pendWith (s : State) (c : Nat) (g : DevGen) : List (DevGen × Nat) :=
  if s.follows 7 s.nowNs then ((s.ctx c).pend ++ [(g, s.nowNs)]).drop ((s.ctx c).pend.length - 3) else [(g, s.nowNs)]

/-- An accepted commit is pending under the next number; no blocked binding is there to be looked at again. -/
theorem State.devCommit_accepted {s : State} {c : Nat} (hbound : ∀ f ∈ (s.ctx c).frames, f.bound = true)
    (h : s.commitChecks c (s.ctxBank c) (s.ctxStreams c) = none) :
    let g := (s.fld (F.DEV_CTX_GEN_PEND_value c) + 1) % 2 ^ 32
    s.devCommit c = (((s.setCtx c { s.ctx c with pend := s.pendWith c ⟨g, s.ctxBank c, s.ctxStreams c⟩ }).put
      (F.DEV_CTX_GEN_PEND_value c) g).put (F.DEV_CTX_STATUS_commit_state c) 1).wr (R.DEV_REFUSE_DETAIL c) 0 := by
  intro g
  have hnone : (s.ctx c).frames.filter (fun f => !f.bound) = [] := List.filter_eq_nil_iff.mpr fun f hf => by simp [hbound f hf]
  simp only [State.ctxBank, State.ctxStreams] at h
  simp only [State.devCommit, h, State.ctx_wr, State.ctx_put, State.ctx_setCtx_same, hnone]
  rfl

/-- What an accepted commit leaves in the registers of its context (R171, R231). -/
theorem State.shown_accepted (s : State) (c : Nat) {g : Nat} (hg : g < 2 ^ 32) :
    let t := ((s.put (F.DEV_CTX_GEN_PEND_value c) g).put (F.DEV_CTX_STATUS_commit_state c) 1).wr (R.DEV_REFUSE_DETAIL c) 0
    c < 16 → RegsBut (commitRegs c) s t ∧ t.fld (F.DEV_CTX_GEN_PEND_value c) = g ∧ t.fld (F.DEV_CTX_STATUS_commit_state c) = 1
      ∧ t.rd (R.DEV_REFUSE_DETAIL c) = 0 := by
  intro t hc
  refine ⟨(((RegsBut.refl _ s).put _ ?_).put _ ?_).wr _ ?_, ?_, ?_, State.rd_wr_same ..⟩
  · exact .head _
  · exact .tail _ (.head _)
  · exact .tail _ (.tail _ (.head _))
  · rw [State.fld_wr_off _ _ (by simp only [F.DEV_CTX_GEN_PEND_value, R.DEV_REFUSE_DETAIL]; omega),
      State.fld_put_off _ _ _ _ (by simp only [F.DEV_CTX_GEN_PEND_value, F.DEV_CTX_STATUS_commit_state]; omega)]
    exact (State.fld_put_same _ _ _ (show (31 : Nat) < 32 by decide)).trans (Nat.mod_eq_of_lt hg)
  · rw [State.fld_wr_off _ _ (by simp only [F.DEV_CTX_STATUS_commit_state, R.DEV_REFUSE_DETAIL]; omega)]
    exact State.fld_put_same _ _ _ (show (2 : Nat) < 32 by decide)

theorem settle_ctx (s : State) (c : Nat) : (settle s).ctx c = s.ctx c := State.ctx_congr (congrArg Camera.ctxs (settle_cam s)) c

/-- Settles O42: the write reaches the commit, whose checks either pass or name a failing one. -/
theorem developerCommits : Obligations.DeveloperCommits := by
  unfold Obligations.DeveloperCommits
  intro m c v s hc ha hshape hbound b os g
  have hans : Answers (.devCommit m c v) s (settle (s.devCommit c)) := by
    have hexec : exec (.devCommit m c v) s = done (s.guardedWrite m (R.DEV_CTX_CTRL c) (fun s =>
        if (s.shape 9 c).isSome then s.devCommit c else s.shapeMiss)) := by
      show execDevCommit m c v s = _
      simp only [execDevCommit, Nat.mod_eq_of_lt hc]
    have h := answers_of_admitted ha hexec
    rwa [if_pos (Option.isSome_iff_ne_none.mpr hshape)] at h
  have hfld : ∀ {u : State} {f : Fld}, f.off ∈ commitRegs c → (settle u).fld f = u.fld f :=
    fun h => settle_fld _ _ (not_sendCounter_commitRegs hc h)
  refine ⟨_, hans, ?_⟩
  rw [settle_ctx]
  cases h : s.commitChecks c b os with
  | some r =>
    obtain ⟨u, hu, hregs, hgen, hshown, hevt⟩ := State.devCommit_refused hc h
    have hctx : (s.devCommit c).ctx c = s.ctx c := by rw [hu]; rfl
    have hmem : SameMemory s (s.devCommit c) := by rw [hu]; exact .of_eq rfl rfl rfl rfl
    refine ⟨hmem.settle, by rw [hctx], by rw [hctx], hregs.settle, by rw [hctx], ?_, ?_, ?_⟩
    · rw [hfld (.head _), hgen]
    · rw [hfld (.tail _ (.head _)), hshown]
    · rw [hfld (.tail _ (.tail _ (.tail _ (.head _)))), hevt]
  | none =>
    have hpend := State.devCommit_accepted hbound h
    dsimp only at hpend
    obtain ⟨hregs, hgen, hshown, hdetail⟩ := State.shown_accepted (s.setCtx c { s.ctx c with
      pend := s.pendWith c ⟨g, s.ctxBank c, s.ctxStreams c⟩ }) c (g := g) (Nat.mod_lt _ (by decide)) hc
    rw [← hpend] at hregs hgen hshown hdetail
    have hctx : (s.devCommit c).ctx c = { s.ctx c with pend := s.pendWith c ⟨g, s.ctxBank c, s.ctxStreams c⟩ } := by
      rw [hpend]; exact s.ctx_setCtx_same c _
    have hmem : SameMemory s (s.devCommit c) := by rw [hpend]; exact .of_eq rfl rfl rfl rfl
    refine ⟨hmem.settle, by rw [hctx], by rw [hctx], ?_, ?_, by rw [hctx]; rfl, ?_, ?_⟩
    · exact RegsBut.settle (s := s) hregs
    · rw [hfld (.head _), hgen]
    · rw [hfld (.tail _ (.head _)), hshown]
    · rw [settle_rd _ _ (not_sendCounter_commitRegs hc (.tail _ (.tail _ (.head _)))), hdetail]

end Sys2Proof.Machine
end

section
/-! What the work on a stripe leaves alone: camera state and the bytes of the pool, and of the frame what its intake gave it (R168,
R175, R176 to R228). -/
namespace Sys2Proof.Machine

/-! ## The state -/

/-- Camera state and the bytes of the pool are as before. -/
def StripeWork (s t : State) : Prop := t.cam = s.cam ∧ t.pool = s.pool

theorem StripeWork.refl (s : State) : StripeWork s s := ⟨rfl, rfl⟩

theorem StripeWork.trans {s t u : State} (h : StripeWork s t) (k : StripeWork t u) : StripeWork s u :=
  ⟨k.1.trans h.1, k.2.trans h.2⟩

theorem StripeWork.foldl {α : Type} {f : State → α → State} (hf : ∀ s x, StripeWork s (f s x)) (l : List α) (s : State) :
    StripeWork s (l.foldl f s) := foldl_related .refl .trans hf l s

theorem DramServed.stripeWork {s t : State} (h : DramServed s t) : StripeWork s t := by
  obtain ⟨-, r, m, d, o, rfl⟩ := h
  exact ⟨rfl, rfl⟩

theorem State.strandSend_stripeWork (s : State) (id depth : Nat) (l : List Token) : StripeWork s (s.strandSend id depth l) := ⟨rfl, rfl⟩

theorem State.meetPoison_stripeWork (s : State) (lines : List Nat) : StripeWork s (s.meetPoison lines) := by
  obtain ⟨-, r, p, h⟩ := s.meetPoison_frame lines
  rw [h]
  exact ⟨rfl, rfl⟩

theorem State.dramFetch_stripeWork (s : State) (a n : Nat) : StripeWork s (s.dramFetch a n).2.2 :=
  (s.dramTurn_served a n).stripeWork.trans (State.meetPoison_stripeWork _ _)

theorem State.dramWrite_stripeWork (s : State) (a : Nat) (d : List Byte) : StripeWork s (s.dramWrite a d) :=
  ((s.dramTurn_served a d.length).stripeWork.trans (State.meetPoison_stripeWork _ _)).trans ⟨rfl, rfl⟩

theorem State.poolCheck_stripeWork (s : State) (w : Nat) (e : EccResult) : StripeWork s (s.poolCheck w e) := by
  unfold State.poolCheck
  split
  · exact ⟨rfl, rfl⟩
  · split
    · exact ⟨rfl, rfl⟩
    · exact .refl s

/-- Reading the pool's banks records poisoned words and moves no byte (R483). -/
theorem State.poolFetch_stripeWork (s : State) (a n : Nat) : StripeWork s (s.poolFetch a n).2.2 :=
  .foldl (fun t w => t.poolCheck_stripeWork w .uncorrectable) _ s

theorem State.readSlots_stripeWork (s : State) (c : Nat) (f : CamFrame) (lo hi : Nat) : StripeWork s (s.readSlots c f lo hi).2 := by
  unfold State.readSlots
  refine foldl_related (r := fun (a b : Bool × State) => StripeWork a.2 b.2) (fun a => .refl a.2) StripeWork.trans (fun a sp => ?_) _
    (false, s)
  exact a.2.poolFetch_stripeWork sp.1 sp.2

theorem State.tapStripe_stripeWork (s : State) (f : CamFrame) (c y0 y1 : Nat) : StripeWork s (s.tapStripe f c y0 y1) := by
  unfold State.tapStripe
  split
  · exact .foldl (fun t i => t.strandSend_stripeWork _ _ _) _ s
  · exact .refl s

/-! ## Output lines -/

theorem State.writeTiled_stripeWork (s : State) (base pitch w h j : Nat) (samples : List Nat) :
    StripeWork s (s.writeTiled base pitch w h j samples) := by
  have hline : ∀ (t : State) (line : Nat) (l : List Nat), StripeWork t ((List.range (ceilDiv w 32)).foldl (fun s mx =>
      s.dramWrite (base + pitch * (line / 8) + 1536 * mx + 192 * (line % 8)) (sampleBytes 2 ((l.drop (96 * mx)).take 96))) t) :=
    fun t line l => .foldl (fun u mx => u.dramWrite_stripeWork _ _) _ t
  unfold State.writeTiled
  extract_lets
  split
  · exact (hline s j _).trans (.foldl (fun t k => hline t _ _) _ _)
  · exact hline s j _

theorem State.outLine_stripeWork (s : State) (o : OutFrame) (px : List Pix) : StripeWork s (s.outLine o px).2 := by
  unfold State.outLine
  extract_lets k b g fmt j sm size base pitch line t u
  have ht : StripeWork s t := by
    unfold t
    split
    · split
      · exact s.writeTiled_stripeWork ..
      · split
        · exact s.dramWrite_stripeWork ..
        · exact (s.dramWrite_stripeWork ..).trans (State.dramWrite_stripeWork ..)
    · exact .refl s
  refine ht.trans ?_
  unfold u
  split
  · split
    · exact t.strandSend_stripeWork ..
    · exact .refl t
  · exact .refl t

theorem State.outLines_stripeWork (lines : Bool → Nat → Array Pix) (last n : Nat) (s : State) (o : OutFrame) :
    StripeWork s (s.outLines lines last n o).2 := by
  induction n generalizing s o with
  | zero => exact .refl s
  | succ n ih =>
    unfold State.outLines
    dsimp only
    split
    · exact (s.outLine_stripeWork ..).trans (ih _ _)
    · exact .refl s

/-! ## The frame -/

/-- A frame as before but for the tables read for it, its statistics, its output frames and the mark of poisoned data. -/
def CamFrame.SameIntake (f g : CamFrame) : Prop :=
  g = { f with excluded := g.excluded, grid := g.grid, dmap := g.dmap, dodge := g.dodge, tone := g.tone, lut := g.lut, stats := g.stats,
               outs := g.outs }

theorem CamFrame.SameIntake.trans {f g h : CamFrame} (hg : f.SameIntake g) (hh : g.SameIntake h) : f.SameIntake h := by
  unfold CamFrame.SameIntake at *
  rw [hh, hg]

/-- Frame and state of a work that begins. -/
def FrameWork (a b : CamFrame × State) : Prop := a.1.SameIntake b.1 ∧ StripeWork a.2 b.2

theorem FrameWork.refl (a : CamFrame × State) : FrameWork a a := ⟨rfl, .refl a.2⟩

theorem FrameWork.trans {a b d : CamFrame × State} (h : FrameWork a b) (k : FrameWork b d) : FrameWork a d :=
  ⟨h.1.trans k.1, h.2.trans k.2⟩

theorem State.frameFetch_frameWork (s : State) (f : CamFrame) (a n : Nat) : FrameWork (f, s) (s.frameFetch f a n).2 := by
  refine ⟨?_, s.dramFetch_stripeWork a n⟩
  unfold State.frameFetch
  dsimp only
  split
  · rfl
  · rfl

/-- A table that is enabled is read and kept with its frame (R175, R211). -/
def loadTable (on : Bool) (a n : Nat) (keep : CamFrame → List Byte → CamFrame) (r : CamFrame × State) : CamFrame × State :=
  if on then
    let q := r.2.frameFetch r.1 a n
    (keep q.2.1 q.1, q.2.2)
  else r

theorem loadTable_frameWork {keep : CamFrame → List Byte → CamFrame} (hkeep : ∀ (f : CamFrame) l, f.SameIntake (keep f l)) (on : Bool) (a n : Nat)
    (r : CamFrame × State) : FrameWork r (loadTable on a n keep r) := by
  unfold loadTable
  split
  · exact (r.2.frameFetch_frameWork r.1 a n).trans ⟨hkeep _ _, .refl _⟩
  · exact .refl r

/-- The shading grid and the tables of the dodge and burn, the tone curve and the cube. -/
def loadTables (c : Nat) (f : CamFrame) (s : State) : CamFrame × State :=
  let b := f.gen.regs
  loadTable (bankBit b (F.DEV_CTX_LUT_CTRL_enable c)) (bankAddr b (R.DEV_CTX_LUT_LO c) (R.DEV_CTX_LUT_HI c)) 287496
    (fun f l => { f with lut := some l })
  <| loadTable (bankBit b (F.DEV_CTX_TONE_CTRL_enable c)) (bankAddr b (R.DEV_CTX_TONE_LO c) (R.DEV_CTX_TONE_HI c)) 24768
    (fun f l => { f with tone := some l })
  <| loadTable (bankBit b (F.DEV_CTX_DB_CTRL_enable c)) (bankAddr b (R.DEV_CTX_DB_LO c) (R.DEV_CTX_DB_HI c)) 384
    (fun f l => { f with dodge := some l })
  <| loadTable (bankBit b (F.DEV_CTX_SHD_CTRL_enable c)) (bankAddr b (R.DEV_CTX_SHD_LO c) (R.DEV_CTX_SHD_HI c))
    (if declCfa f.gen c = 4 then 1122 else 4488) (fun f l => { f with grid := some l }) (f, s)

theorem loadTables_frameWork (c : Nat) (f : CamFrame) (s : State) : FrameWork (f, s) (loadTables c f s) := by
  unfold loadTables
  refine FrameWork.trans (FrameWork.trans (FrameWork.trans (loadTable_frameWork ?_ ..) (loadTable_frameWork ?_ ..))
    (loadTable_frameWork ?_ ..)) (loadTable_frameWork ?_ ..)
  all_goals exact fun _ _ => rfl

/-- The static defect map (R177). -/
def loadMap (c : Nat) (f : CamFrame) (r : CamFrame × State) : CamFrame × State :=
  let b := f.gen.regs
  let n := bankFld b (F.DEV_CTX_DPC_MAP_COUNT_count c)
  if bankBit b (F.DEV_CTX_DPC_CTRL_static c) && n != 0 then
    let q := r.2.frameFetch r.1 (bankAddr b (R.DEV_CTX_DPC_MAP_LO c) (R.DEV_CTX_DPC_MAP_HI c)) (4 * n)
    let d := defectMap (declW f.gen c) (declH f.gen c) (words32 q.1)
    ({ q.2.1 with dmap := d.1 }, q.2.2.bump (F.DEV_CTX_DPC_IGNORED_count c) d.2)
  else r

theorem loadMap_frameWork (c : Nat) (f : CamFrame) (r : CamFrame × State) : FrameWork r (loadMap c f r) := by
  unfold loadMap
  dsimp only
  split
  · exact (r.2.frameFetch_frameWork r.1 _ _).trans ⟨rfl, rfl, rfl⟩
  · exact .refl r

/-- The filter tables of the output frames that use one (R218). -/
def loadFilters (r : CamFrame × State) : (CamFrame × List OutFrame) × State :=
  r.1.outs.foldl (fun (acc : (CamFrame × List OutFrame) × State) o =>
    if bankFld o.bank (F.DEV_OS_CTRL_filter o.stream) = 2 then
      let q := acc.2.frameFetch acc.1.1 (bankAddr o.bank (R.DEV_OS_FILT_LO o.stream) (R.DEV_OS_FILT_HI o.stream)) 2048
      ((q.2.1, acc.1.2 ++ [{ o with filt := q.1 }]), q.2.2)
    else ((acc.1.1, acc.1.2 ++ [o]), acc.2)) ((r.1, []), r.2)

theorem loadFilters_frameWork (r : CamFrame × State) : FrameWork r ((loadFilters r).1.1, (loadFilters r).2) := by
  refine foldl_related (r := fun (a b : (CamFrame × List OutFrame) × State) => FrameWork (a.1.1, a.2) (b.1.1, b.2)) (fun a => .refl _)
    FrameWork.trans (fun a o => ?_) _ ((r.1, []), r.2)
  dsimp only
  split
  · exact a.2.frameFetch_frameWork a.1.1 _ _
  · exact .refl _

/-- The FRAME_START tokens of the raw tap and of the output frames (R226, R228). -/
def State.startTokens (s : State) (c : Nat) (f : CamFrame) (w h : Nat) : State :=
  let s := match f.tapLink with
    | some (id, d) => s.strandSend id d
        [frameStartToken 0xF0 f.tag f.gen.num w h (declDepth f.gen c + 256 * declCfa f.gen c) 0xFF f.sof]
    | none => s
  f.outs.foldl (fun s o => match o.link with
    | some (id, d) =>
      let g := geometry o.bank o.stream
      s.strandSend id d [frameStartToken (bankFld o.bank (F.DEV_OS_FMT_fmt o.stream)) f.tag f.gen.num g.ow g.oh 0 o.stream f.sof]
    | none => s) s

theorem State.startTokens_stripeWork (s : State) (c : Nat) (f : CamFrame) (w h : Nat) : StripeWork s (s.startTokens c f w h) := by
  unfold State.startTokens
  refine StripeWork.trans (t := match f.tapLink with
    | some (id, d) => s.strandSend id d
        [frameStartToken 0xF0 f.tag f.gen.num w h (declDepth f.gen c + 256 * declCfa f.gen c) 0xFF f.sof]
    | none => s) ?_ (.foldl (fun t o => ?_) _ _)
  · split
    · exact s.strandSend_stripeWork ..
    · exact .refl s
  · split
    · exact t.strandSend_stripeWork ..
    · exact .refl t

theorem State.beginFrame_eq (s : State) (c : Nat) (f : CamFrame) : s.beginFrame c f =
    let q := loadFilters (loadMap c f (loadTables c f s))
    let g := { q.1.1 with
      outs := q.1.2, stats := if bankBit f.gen.regs (F.DEV_CTX_STAT_CTRL_enable c) then some .clear else none }
    (g, q.2.startTokens c g (declW f.gen c) (declH f.gen c)) := rfl

/-- What stripe 0 reads and sends leaves the frame as its intake gave it (R175, R211). -/
theorem State.beginFrame_frameWork (s : State) (c : Nat) (f : CamFrame) : FrameWork (f, s) (s.beginFrame c f) := by
  rw [State.beginFrame_eq]
  have hread := ((loadTables_frameWork c f s).trans (loadMap_frameWork c f _)).trans (loadFilters_frameWork _)
  exact hread.trans ⟨rfl, State.startTokens_stripeWork ..⟩

end Sys2Proof.Machine
end

section
/-! One stripe of a frame (R166, R168, R169). -/
namespace Sys2Proof.Machine

/-! ## The stripe's frame -/

/-- Whether the next stripe of a frame is its last. -/
def CamFrame.lastStripe (f : CamFrame) (c : Nat) : Bool :=
  decide (min (64 * f.stripes + 63) (declH f.gen c - 1) + 1 = declH f.gen c)

theorem CamFrame.lastStripe_iff {f : CamFrame} {c : Nat} (h : 0 < declH f.gen c) :
    f.lastStripe c = true ↔ ¬ 64 * f.stripes + 64 < declH f.gen c := by
  rw [CamFrame.lastStripe, decide_eq_true_iff]
  omega

/-- What a stripe leaves of the frame's own record: one stripe more, the lines that a later stripe reads, and what its intake gave
it (R166, R168). -/
structure StripeDone (c : Nat) (f g : CamFrame) : Prop where
  tag : g.tag = f.tag
  stripes : g.stripes = f.stripes + 1
  got : g.got = f.got
  isOpen : g.isOpen = f.isOpen
  lines : g.lines = f.lines
  intake : g.intake = f.intake
  held : g.held = if f.lastStripe c then [] else f.held.filter (fun l => decide (64 * f.stripes + 59 ≤ l))

theorem StripeDone.accepted {c : Nat} {f g : CamFrame} (h : StripeDone c f g) : g.accepted c = f.accepted c := by
  rw [CamFrame.accepted, h.got, h.intake]; rfl

/-- The first frame with stripes to come is replaced. -/
def State.putStripe (s : State) (c : Nat) (g : CamFrame) : State :=
  s.setCtx c { s.ctx c with frames := replaceFirst (fun g => g.link.isSome && !g.developed c) g (s.ctx c).frames }

/-- The last stripe shows the frame's tag and its count of lines (R168). -/
def State.showLast (s : State) (c : Nat) (g : CamFrame) : State :=
  (s.put (F.DEV_CTX_LAST_tag c) g.tag).put (F.DEV_CTX_LAST_lines c) (if g.isOpen then g.accepted c else g.lines)

theorem State.showLast_shown (s : State) (c : Nat) (g : CamFrame) :
    (s.showLast c g).fld (F.DEV_CTX_LAST_tag c) = g.tag % 65536
      ∧ (s.showLast c g).fld (F.DEV_CTX_LAST_lines c) = (if g.isOpen then g.accepted c else g.lines) % 65536 := by
  unfold State.showLast
  refine ⟨?_, State.fld_put_same _ _ _ (show (31 : Nat) < 32 by decide)⟩
  rw [State.fld_put_ne _ (F.DEV_CTX_LAST_lines c) (F.DEV_CTX_LAST_tag c) _ rfl (show (15 : Nat) < 32 by decide)
    (.inl (show (15 : Nat) < 16 by decide))]
  exact State.fld_put_same _ _ _ (show (15 : Nat) < 32 by decide)

theorem CamFrame.SameIntake.stripeDone {c : Nat} {f g : CamFrame} (h : f.SameIntake g) (stats : Option Contact) (gains : List Nat)
    (devLines fusedLines : SMap (List Pix)) (outs : List OutFrame) :
    StripeDone c f { g with
      stripes := f.stripes + 1, stats := stats, gPrev := gains, devLines := devLines, fusedLines := fusedLines, outs := outs
      held := if f.lastStripe c then [] else g.held.filter (fun l => decide (64 * f.stripes + 59 ≤ l)) } := by
  rw [h]
  exact ⟨rfl, rfl, rfl, rfl, rfl, rfl, rfl⟩

/-- A stripe works without moving a context or a byte of the pool, then puts its frame back; the last one also shows it. -/
theorem State.runStripe_spec (s : State) (c : Nat) (f : CamFrame) : ∃ g u, StripeDone c f g ∧ StripeWork s u ∧
    s.runStripe c f = if f.lastStripe c then ((u.putStripe c g).showLast c g).frameEnds c else u.putStripe c g := by
  have hbegin : FrameWork (f, s) (if f.stripes = 0 then s.beginFrame c f else (f, s)) := by
    split
    · exact s.beginFrame_frameWork c f
    · exact .refl _
  unfold State.runStripe
  extract_lets h st y0 y1 r f1 q f2 s2 a raw d keep devLines fusedLines lines s3 w s4 last held f3 x s5
  have hintake : f.SameIntake f2 := by
    unfold f2
    split
    · exact hbegin.1.trans rfl
    · exact hbegin.1
  have hwork : StripeWork s s4 := by
    refine ((hbegin.2.trans (r.2.readSlots_stripeWork c f1 (y0 - 5) (y1 + 5))).trans (s2.tapStripe_stripeWork f2 c y0 y1)).trans ?_
    exact foldl_related (r := fun (a b : List OutFrame × State) => StripeWork a.2 b.2) (fun a => .refl a.2) StripeWork.trans
      (fun a o => State.outLines_stripeWork ..) _ ([], s3)
  exact ⟨f3, s4, hintake.stripeDone .., hwork, rfl⟩

/-! ## The stripe that is ready -/

/-- A sender that a strand does not hold up is not held up once a receiver has used its whole stream. -/
theorem State.senderBlocked_strandUse {s : State} {i : Island} {ports : Nat → Bool} (id : Nat) (h : s.senderBlocked i ports = false) :
    (s.strandUse id (s.strandStream id).length).senderBlocked i ports = false := by
  rw [State.senderBlocked, List.any_eq_false] at h ⊢
  intro r hr
  have hr := h r hr
  split
  · next j _ _ _ _ _ _ _ =>
    dsimp only at hr
    by_cases hj : j = id
    · subst hj
      have hrest : ((mapGet Strand.clear s.rig.strands j).fifo ++ (mapGet Strand.clear s.rig.strands j).waiting).drop
          ((s.strandStream j).length - (mapGet Strand.clear s.rig.strands j).taken.length) = [] := by
        refine List.drop_eq_nil_of_le ?_
        simp only [State.strandStream, List.length_append]
        omega
      simp [State.strandUse, hrest]
    · have hkeep : mapGet Strand.clear (s.strandUse id (s.strandStream id).length).rig.strands j = mapGet Strand.clear s.rig.strands j :=
        mapGet_mapSet_ne _ _ _ hj
      rw [hkeep]
      exact hr
  · exact Bool.false_ne_true

/-- The ready stripe of the first frame with work runs, once the tokens of the input port are consumed (R169, R170). -/
theorem State.stripeOp_runs {s : State} {c : Nat} {f : CamFrame} (hruns : s.runs .dev = true) (hframe : s.stripeFrame c = some f)
    (hready : s.stripeReady c f = true) (hfree : s.senderBlocked .dev (fun _ => true) = false) :
    ∃ u, StripeWork s u ∧ s.stripeOp c = u.runStripe c f := by
  unfold State.stripeOp
  rw [if_pos hruns]
  cases s.strandTo .dev c with
  | none =>
    refine ⟨s, .refl s, ?_⟩
    simp only [hframe, hready, hfree, Bool.not_false, Bool.and_self, if_true]
  | some p =>
    obtain ⟨id, d⟩ := p
    have hfree' := State.senderBlocked_strandUse id hfree
    have hframe' : (s.strandUse id (s.strandStream id).length).stripeFrame c = some f := hframe
    have hready' : (s.strandUse id (s.strandStream id).length).stripeReady c f = true := hready
    refine ⟨s.strandUse id (s.strandStream id).length, ⟨rfl, rfl⟩, ?_⟩
    simp only [hframe', hready', hfree', Bool.not_false, Bool.and_self, if_true]

theorem find?_append_cons {α : Type} {p : α → Bool} {a b : List α} {x : α} (ha : ∀ e ∈ a, p e = false) (hx : p x = true) :
    (a ++ x :: b).find? p = some x := by
  rw [List.find?_append, List.find?_eq_none.mpr fun e he => by simp [ha e he], List.find?_cons_of_pos hx]
  rfl

theorem replaceFirst_append_cons {α : Type} {p : α → Bool} {a b : List α} {x : α} (y : α) (ha : ∀ e ∈ a, p e = false) (hx : p x = true) :
    replaceFirst p y (a ++ x :: b) = a ++ y :: b := by
  induction a with
  | nil => simp [replaceFirst, hx]
  | cons e r ih =>
    rw [List.cons_append, replaceFirst, if_neg (by simp [ha e List.mem_cons_self]), ih fun e he => ha e (List.mem_cons_of_mem _ he)]
    rfl

/-! ## Frames that end (R169) -/

/-- A frame whose FRAME_END is due is finished. -/
def CamFrame.finishDue (f : CamFrame) (c : Nat) : CamFrame :=
  if !f.isOpen && f.developed c && !f.finished then { f with finished := true } else f

theorem CamFrame.finishDue_keeps {β : Type} (g : CamFrame → β) (hg : ∀ f : CamFrame, g { f with finished := true } = g f) (f : CamFrame) (c : Nat) :
    g (f.finishDue c) = g f := by
  unfold CamFrame.finishDue
  split
  · exact hg f
  · rfl

/-- Where frames end, those with nothing left to do leave; the context is otherwise as before. -/
theorem State.frameEnds_ctx (s : State) (c : Nat) : (s.frameEnds c).ctx c =
    { s.ctx c with frames := (((s.ctx c).frames.map (fun f => f.finishDue c)).filter (fun f => !f.spent)) } := by
  rw [State.frameEnds_eq]
  dsimp only
  rw [State.ctx_setCtx_same, State.ctx_congr (foldl_keeps (fun (t : State) => t.cam.ctxs) (fun t f => (t.endFrame_only c f).2) _ _),
    State.ctx_setCtx_same]
  rfl

/-- A frame that stays was there before, with the same tag, stripes and lines. -/
theorem State.mem_frameEnds {s : State} {c : Nat} {g : CamFrame} (h : g ∈ ((s.frameEnds c).ctx c).frames) :
    ∃ e ∈ (s.ctx c).frames, g.tag = e.tag ∧ g.stripes = e.stripes ∧ g.held = e.held := by
  rw [State.frameEnds_ctx] at h
  obtain ⟨e, he, rfl⟩ := List.mem_map.mp (List.mem_filter.mp h).1
  exact ⟨e, he, CamFrame.finishDue_keeps CamFrame.tag (fun _ => rfl) e c, CamFrame.finishDue_keeps CamFrame.stripes (fun _ => rfl) e c,
    CamFrame.finishDue_keeps CamFrame.held (fun _ => rfl) e c⟩

theorem State.endFrame_regs (s : State) (c : Nat) (f : CamFrame) : (s.endFrame c f).regs = s.regs := by
  unfold State.endFrame
  refine (foldl_keeps State.regs (fun t o => ?_) _ _).trans ?_
  · split <;> rfl
  · split <;> rfl

theorem State.frameEnds_regs (s : State) (c : Nat) : (s.frameEnds c).regs = s.regs := by
  rw [State.frameEnds_eq]
  exact foldl_keeps State.regs (fun t f => t.endFrame_regs c f) _ _

/-! ## The command -/

/-- A ready stripe puts its frame back in its place, and after the last one shows it. -/
theorem stripe_answers_settle {c : Nat} {a b : List CamFrame} {f : CamFrame} {s : State} (hc : c < 16) (hruns : s.runs .dev = true)
    (hframes : (s.ctx c).frames = a ++ f :: b) (hbefore : ∀ e ∈ a, e.link = none ∨ e.developed c = true) (hlink : f.link.isSome = true)
    (hdev : f.developed c = false) (hready : s.stripeReady c f = true) (hfree : s.senderBlocked .dev (fun _ => true) = false) :
    ∃ g v, StripeDone c f g ∧ v.pool = s.pool ∧ (v.ctx c).frames = a ++ g :: b
      ∧ Answers (.stripe c) s (settle (if f.lastStripe c then (v.showLast c g).frameEnds c else v)) := by
  have hskip : ∀ e ∈ a, (e.link.isSome && !e.developed c) = false := fun e he => by
    rcases hbefore e he with h | h <;> simp [h]
  have hwork : (f.link.isSome && !f.developed c) = true := by simp [hlink, hdev]
  have hframe : s.stripeFrame c = some f := by
    rw [State.stripeFrame, hframes]; exact find?_append_cons hskip hwork
  obtain ⟨u, hu, hop⟩ := State.stripeOp_runs hruns hframe hready hfree
  obtain ⟨g, w, hg, hw, hrun⟩ := u.runStripe_spec c f
  obtain ⟨hcam, hpool⟩ := hu.trans hw
  refine ⟨g, w.putStripe c g, hg, hpool, ?_, ?_⟩
  · rw [State.putStripe, State.ctx_setCtx_same, State.ctx_congr (congrArg Camera.ctxs hcam), hframes]
    exact replaceFirst_append_cons g hskip hwork
  · rw [← hrun, ← hop]
    show done (s.stripeOp (c % 16)) = _
    rw [Nat.mod_eq_of_lt hc]; rfl

theorem stripe_answers (c : Nat) (a b : List CamFrame) (f : CamFrame) (s : State) (hc : c < 16) (hruns : s.runs .dev = true)
    (hframes : (s.ctx c).frames = a ++ f :: b) (hbefore : ∀ e ∈ a, e.link = none ∨ e.developed c = true) (hlink : f.link.isSome = true)
    (hdev : f.developed c = false) (hready : s.stripeReady c f = true) (hfree : s.senderBlocked .dev (fun _ => true) = false)
    (hheight : 0 < declH f.gen c) :
    ∃ t, Answers (.stripe c) s t ∧ t.pool = s.pool ∧
      if 64 * f.stripes + 64 < declH f.gen c then
        ∃ g, (t.ctx c).frames = a ++ g :: b ∧ g.tag = f.tag ∧ g.stripes = f.stripes + 1 ∧ g.got = f.got ∧ g.isOpen = f.isOpen
          ∧ (∀ l, l ∈ g.held ↔ l ∈ f.held ∧ 64 * f.stripes + 59 ≤ l)
      else t.fld (F.DEV_CTX_LAST_tag c) = f.tag % 65536
        ∧ t.fld (F.DEV_CTX_LAST_lines c) = (if f.isOpen then f.accepted c else f.lines) % 65536
        ∧ (∀ g ∈ (t.ctx c).frames, (g.tag = f.tag ∧ g.stripes = f.stripes + 1 ∧ g.held = [])
          ∨ ∃ e ∈ a ++ b, g.tag = e.tag ∧ g.stripes = e.stripes ∧ g.held = e.held) := by
  obtain ⟨g, v, hg, hpool, hput, hans⟩ := stripe_answers_settle hc hruns hframes hbefore hlink hdev hready hfree
  refine ⟨_, hans, ?_⟩
  by_cases hmore : 64 * f.stripes + 64 < declH f.gen c
  · have hlast : ¬ f.lastStripe c = true := fun h => (CamFrame.lastStripe_iff hheight).mp h hmore
    rw [if_neg hlast, if_pos hmore]
    refine ⟨by rw [settle_pool, hpool], g, by rw [settle_ctx, hput], hg.tag, hg.stripes, hg.got, hg.isOpen, fun l => ?_⟩
    rw [hg.held, if_neg hlast, List.mem_filter, decide_eq_true_iff]
  · have hlast : f.lastStripe c = true := (CamFrame.lastStripe_iff hheight).mpr hmore
    have hfld : ∀ {r : Fld}, r.off = R.DEV_CTX_LAST c → (settle ((v.showLast c g).frameEnds c)).fld r = (v.showLast c g).fld r :=
      fun h => by
        rw [settle_fld _ _ (not_sendCounter (.inl (by rw [h, R.DEV_CTX_LAST]; omega))), State.fld_congr (State.frameEnds_regs _ c)]
    obtain ⟨htag, hlines⟩ := v.showLast_shown c g
    rw [if_pos hlast, if_neg hmore]
    refine ⟨?_, ?_, ?_, fun h hin => ?_⟩
    · rw [settle_pool, (State.frameEnds_only _ c).pool]; exact hpool
    · rw [hfld rfl, htag, hg.tag]
    · rw [hfld rfl, hlines, hg.isOpen, hg.accepted, hg.lines]
    · rw [settle_ctx] at hin
      obtain ⟨e, he, hsame⟩ := State.mem_frameEnds hin
      replace he : e ∈ a ++ g :: b := hput ▸ he
      rcases List.mem_append.mp he with ha | hb
      · exact .inr ⟨e, List.mem_append_left _ ha, hsame⟩
      · rcases List.mem_cons.mp hb with rfl | hb
        · obtain ⟨htag', hstripes, hheld⟩ := hsame
          exact .inl ⟨htag'.trans hg.tag, hstripes.trans hg.stripes, hheld.trans (by rw [hg.held, if_pos hlast])⟩
        · exact .inr ⟨e, List.mem_append_right _ hb, hsame⟩

end Sys2Proof.Machine
end

section
/-! The contact sheet (R185, R186, R190) and the end of an output frame (R102, R234). -/
namespace Sys2Proof.Machine

/-! ## The contact sheet -/

/-- What a write stores stands there. -/
theorem State.memRead_dramWrite (s : State) (a : Nat) (d : List Byte) : memRead (s.dramWrite a d).dram a d.length = d :=
  memRead_memWrite _ a d

/-- While no request waits, a write moves no byte beside its own. -/
theorem State.memGet_dramWrite_out {s : State} (h : DramIdle s) {a x : Nat} {d : List Byte} (hx : x < a ∨ a + d.length ≤ x) :
    memGet (s.dramWrite a d).dram x = memGet s.dram x := by
  obtain ⟨-, r, m, hw⟩ := s.dramWrite_idle a d h
  rw [hw]
  exact memGet_memWrite_out _ _ _ _ hx

/-- The place of the next record in the ring of slots, of which there are a power of two (R185). -/
def State.recordAddr (s : State) (c : Nat) (f : CamFrame) : Nat :=
  bankAddr f.gen.regs (R.DEV_CTX_STAT_LO c) (R.DEV_CTX_STAT_HI c)
    + 65536 * ((s.ctx c).statSeq % 2 ^ bankFld f.gen.regs (F.DEV_CTX_STAT_CTRL_log_slots c))

/-- A record stored; the frame then owes none, and the context's count goes on (R190). -/
def State.recordFrame (s : State) (c : Nat) (f : CamFrame) (a : Nat) (d : List Byte) : State :=
  let next := ((s.ctx c).statSeq + 1) % 2 ^ 32
  (((s.dramWrite a d).setCtx c { s.ctx c with
    statSeq := next
    frames := replaceFirst (fun f => f.stats.isSome && !f.recorded) { f with recorded := true } (s.ctx c).frames }).wr
      (R.DEV_CTX_STAT_SEQ c) next).put ⟨R.DEV_EVT, c, c⟩ 1

/-- The finished frame that is the first to owe a record has it stored. -/
theorem State.contactSheet_eq {s : State} {c : Nat} {f : CamFrame} {k : Contact}
    (hframe : (s.ctx c).frames.find? (fun f => f.stats.isSome && !f.recorded) = some f) (hfin : f.finished = true) (hstats : f.stats = some k) :
    s.contactSheet c = (s.recordFrame c f (s.recordAddr c f) (contactRecord c f k (s.ctx c).statSeq)).frameEnds c := by
  simp only [State.contactSheet, hframe, hfin, hstats, Bool.not_true, Bool.false_eq_true, if_false, Option.getD_some, State.recordFrame,
    State.recordAddr]

/-- The count that a record leaves in the context and in its register, and the event that it raises (R190). -/
theorem State.recordFrame_shown (s : State) {c : Nat} (f : CamFrame) (a : Nat) (d : List Byte) (hc : c < 16) :
    let t := s.recordFrame c f a d
    (t.ctx c).statSeq = ((s.ctx c).statSeq + 1) % 2 ^ 32 ∧ t.rd (R.DEV_CTX_STAT_SEQ c) = ((s.ctx c).statSeq + 1) % 2 ^ 32
      ∧ t.fld ⟨R.DEV_EVT, c, c⟩ = 1 := by
  unfold State.recordFrame
  refine ⟨?_, ?_, ?_⟩
  · rw [State.ctx_put, State.ctx_wr, State.ctx_setCtx_same]
  · rw [State.rd_put_ne _ _ _ (by simp only [R.DEV_CTX_STAT_SEQ, R.DEV_EVT]; omega), State.rd_wr_same]
    exact Nat.mod_mod _ _
  · rw [State.fld_put_same _ _ _ (show c < 32 by omega), Nat.add_sub_cancel_left]
    rfl

/-- A record stored and the frames that then leave, through the closing step. -/
theorem State.recordFrame_settles (s : State) {c : Nat} (f : CamFrame) (a : Nat) (d : List Byte) (hc : c < 16) :
    let t := settle ((s.recordFrame c f a d).frameEnds c)
    t.dramRead a d.length = d ∧ t.pool = s.pool
      ∧ (DramIdle s → ∀ x, x < a ∨ a + d.length ≤ x → memGet t.dram x = memGet s.dram x)
      ∧ (t.ctx c).statSeq = ((s.ctx c).statSeq + 1) % 2 ^ 32 ∧ t.rd (R.DEV_CTX_STAT_SEQ c) = ((s.ctx c).statSeq + 1) % 2 ^ 32
      ∧ t.fld ⟨R.DEV_EVT, c, c⟩ = 1 := by
  intro t
  obtain ⟨hseq, hcount, hevt⟩ := s.recordFrame_shown f a d hc
  have hends := (s.recordFrame c f a d).frameEnds_only c
  have hregs := (s.recordFrame c f a d).frameEnds_regs c
  have hdram : t.dram = (s.dramWrite a d).dram := (settle_dram _).trans hends.dram
  refine ⟨?_, ?_, fun hidle x hx => ?_, ?_, ?_, ?_⟩
  · rw [State.dramRead, hdram]
    exact s.memRead_dramWrite a d
  · rw [settle_pool, hends.pool]
    exact (s.dramWrite_stripeWork a d).2
  · rw [hdram]
    exact State.memGet_dramWrite_out hidle hx
  · rw [settle_ctx, State.frameEnds_ctx]
    exact hseq
  · rw [settle_rd _ _ (not_sendCounter (.inl (by simp only [R.DEV_CTX_STAT_SEQ]; omega))), State.rd_congr hregs, hcount]
  · rw [settle_fld _ _ (not_sendCounter (.inl (by simp only [R.DEV_EVT]; omega))), State.fld_congr hregs, hevt]

theorem contactSheetRecord_answers (c : Nat) (f : CamFrame) (k : Contact) (s : State) (hc : c < 16) (hruns : s.runs .dev = true)
    (hframe : (s.ctx c).frames.find? (fun f => f.stats.isSome && !f.recorded) = some f) (hfin : f.finished = true) (hstats : f.stats = some k) :
    Answers (.contactSheetRecord c) s
      (settle ((s.recordFrame c f (s.recordAddr c f) (contactRecord c f k (s.ctx c).statSeq)).frameEnds c)) := by
  rw [← State.contactSheet_eq hframe hfin hstats]
  show execContactSheetRecord c s = _
  rw [execContactSheetRecord, Nat.mod_eq_of_lt hc, if_pos hruns]; rfl

/-! ## Output frames -/

/-- Whether a frame is finished and owes a stream its output frame. -/
def CamFrame.owes (k : Nat) (f : CamFrame) : Bool := f.finished && f.outs.any (fun o => o.stream = k && !o.complete)

/-- The status registers of a stream show its latest output frame together (R234). -/
def State.showOutput (s : State) (k tag buf gen : Nat) : State :=
  ((s.put (F.DEV_OS_STATUS_tag k) tag).put (F.DEV_OS_STATUS_buf k) buf).wr (R.DEV_OS_GEN k) gen

theorem State.showOutput_regs (s : State) (k tag buf gen : Nat) :
    RegsBut [R.DEV_OS_STATUS k, R.DEV_OS_GEN k] s (s.showOutput k tag buf gen)
      ∧ (s.showOutput k tag buf gen).fld (F.DEV_OS_STATUS_tag k) = tag % 65536
      ∧ (s.showOutput k tag buf gen).fld (F.DEV_OS_STATUS_buf k) = buf % 4
      ∧ (s.showOutput k tag buf gen).rd (R.DEV_OS_GEN k) = gen % 2 ^ 32 := by
  have hne : R.DEV_OS_STATUS k ≠ R.DEV_OS_GEN k := by simp only [R.DEV_OS_STATUS, R.DEV_OS_GEN]; omega
  refine ⟨RegsBut.wr (RegsBut.put (RegsBut.put (.refl _ s) _ ?_) _ ?_) _ ?_, ?_, ?_, State.rd_wr_same ..⟩
  · exact .head _
  · exact .head _
  · exact .tail _ (.head _)
  · rw [State.showOutput, State.fld_wr_off _ _ hne, State.fld_put_ne _ (F.DEV_OS_STATUS_buf k) (F.DEV_OS_STATUS_tag k) _ rfl
      (show (15 : Nat) < 32 by decide) (.inl (show (15 : Nat) < 16 by decide))]
    exact State.fld_put_same _ _ _ (show (15 : Nat) < 32 by decide)
  · rw [State.showOutput, State.fld_wr_off _ _ hne]
    exact State.fld_put_same _ _ _ (show (17 : Nat) < 32 by decide)

/-- SURFACE_DONE of an output frame whose stream notifies (R226). -/
def State.notifyDone (s : State) (k : Nat) (o : OutFrame) (tag buf : Nat) : State :=
  match o.link with
  | some (id, d) => if bankBit o.bank (F.DEV_OS_CTRL_notify k) then s.strandSend id d [surfaceDoneToken tag o.num buf] else s
  | none => s

theorem State.notifyDone_only (s : State) (k : Nat) (o : OutFrame) (tag buf : Nat) :
    CamStrands s (s.notifyDone k o tag buf) ∧ (s.notifyDone k o tag buf).regs = s.regs := by
  unfold State.notifyDone
  split
  · split
    · exact ⟨(CamStrands.refl s).strandSend .., rfl⟩
    · exact ⟨.refl s, rfl⟩
  · exact ⟨.refl s, rfl⟩

/-- The digest of an output frame, with the flags of its frame (R102, R103). -/
def OutFrame.digest (o : OutFrame) (f : CamFrame) : DigestVal := ⟨o.num, o.crc ^^^ 0xFFFFFFFFFFFFFFFF, f.excluded, f.replayed, f.override⟩

theorem State.outputComplete_eq {s : State} {c k : Nat} {f : CamFrame} {o : OutFrame}
    (hframe : (List.range 16).findSome? (fun i => ((s.ctx i).frames.find? (CamFrame.owes k)).map (fun g => (i, g))) = some (c, f))
    (hout : f.outs.find? (fun o => o.stream = k) = some o) :
    ∃ x, s.outputComplete k = (((((s.setCtx c x).showOutput k f.tag (o.num % max 1 (osBufs o.bank k)) f.gen.num).digestDone 1 k
      (o.digest f)).notifyDone k o f.tag (o.num % max 1 (osBufs o.bank k))).frameEnds c) := by
  refine ⟨{ s.ctx c with frames := replaceFirst (CamFrame.owes k) { f with
    outs := f.outs.map (fun o => if o.stream = k then { o with complete := true } else o) } (s.ctx c).frames }, ?_⟩
  unfold CamFrame.owes at hframe
  simp only [State.outputComplete, hframe, hout]
  rfl

theorem settle_jnlDigests (s : State) : (settle s).jnl.digests = s.jnl.digests :=
  congrArg (fun u => u.jnl.digests) (settles_settle s).quiet

theorem outputFrameComplete_answers (c k : Nat) (f : CamFrame) (o : OutFrame) (s : State) (hk : k < 8) (hruns : s.runs .dev = true)
    (hframe : (List.range 16).findSome? (fun i => ((s.ctx i).frames.find? (CamFrame.owes k)).map (fun g => (i, g))) = some (c, f))
    (hout : f.outs.find? (fun o => o.stream = k) = some o) :
    ∃ t, Answers (.outputFrameComplete k) s t ∧ SameMemory s t ∧ t.fld (F.DEV_OS_STATUS_tag k) = f.tag % 65536
      ∧ t.fld (F.DEV_OS_STATUS_buf k) = o.num % max 1 (osBufs o.bank k) % 4 ∧ t.rd (R.DEV_OS_GEN k) = f.gen.num % 2 ^ 32
      ∧ mapFind t.jnl.digests (256 + k) = some (o.digest f) ∧ RegsBut [R.DEV_OS_STATUS k, R.DEV_OS_GEN k] s t := by
  obtain ⟨x, hx⟩ := State.outputComplete_eq hframe hout
  have hans : Answers (.outputFrameComplete k) s (settle (s.outputComplete k)) := by
    show execOutputFrameComplete k s = _
    rw [execOutputFrameComplete, Nat.mod_eq_of_lt hk, if_pos hruns]; rfl
  obtain ⟨hbut, htag, hbuf, hgen⟩ := (s.setCtx c x).showOutput_regs k f.tag (o.num % max 1 (osBufs o.bank k)) f.gen.num
  generalize hv : (s.setCtx c x).showOutput k f.tag (o.num % max 1 (osBufs o.bank k)) f.gen.num = v at hx hbut htag hbuf hgen
  have hmem : SameMemory s v := by rw [← hv]; exact .of_eq rfl rfl rfl rfl
  obtain ⟨hsent, hsentRegs⟩ := (v.digestDone 1 k (o.digest f)).notifyDone_only k o f.tag (o.num % max 1 (osBufs o.bank k))
  generalize State.notifyDone _ k o f.tag _ = w at hx hsent hsentRegs
  have hends := hsent.trans (w.frameEnds_only c)
  have hregs : (s.outputComplete k).regs = v.regs := by rw [hx, State.frameEnds_regs, hsentRegs]; rfl
  have hjnl : (s.outputComplete k).jnl = (v.digestDone 1 k (o.digest f)).jnl := by rw [hx, hends.jnl]
  have hkept : SameMemory v (s.outputComplete k) := by
    rw [hx]; exact hends.camOnly.sameMemory
  have hsettle : ∀ {o : Nat}, o = R.DEV_OS_STATUS k ∨ o = R.DEV_OS_GEN k → ¬ SendCounter o := fun h =>
    not_sendCounter (.inl (by simp only [R.DEV_OS_STATUS, R.DEV_OS_GEN] at h; omega))
  refine ⟨_, hans, (hmem.trans hkept).settle, ?_, ?_, ?_, ?_, ?_⟩
  · rw [settle_fld _ _ (hsettle (.inl rfl)), State.fld_congr hregs, htag]
  · rw [settle_fld _ _ (hsettle (.inl rfl)), State.fld_congr hregs, hbuf]
  · rw [settle_rd _ _ (hsettle (.inr rfl)), State.rd_congr hregs, hgen]
  · rw [settle_jnlDigests, hjnl]
    exact mapFind_mapSet_same ..
  · exact (RegsBut.of_regs (s := s) hbut hregs).settle

/-- Settles O43: a stripe, the contact sheet's record and the end of an output frame. -/
theorem developerWork : Obligations.DeveloperWork := by
  unfold Obligations.DeveloperWork
  refine ⟨stripe_answers, fun c f k s hc hruns hframe hfin hstats => ?_, outputFrameComplete_answers⟩
  exact ⟨_, contactSheetRecord_answers c f k s hc hruns hframe hfin hstats, s.recordFrame_settles f _ _ hc⟩

end Sys2Proof.Machine
end

section
/-! The queues of the raw coder (R254, R255, R267, R268): what a write of a ring index, of `enable` and of `reset` leaves. -/
namespace Sys2Proof.Machine

/-! ## Frames of field writes -/

theorem OnlyRegs.refl (l : List Nat) (s : State) : OnlyRegs l s s := ⟨.refl l s, rfl⟩

theorem OnlyRegs.put {l : List Nat} {s t : State} (h : OnlyRegs l s t) {f : Fld} (v : Nat) (ho : f.off ∈ l) : OnlyRegs l s (t.put f v) :=
  ⟨h.1.put v ho, h.2.trans rfl⟩

theorem OnlyRegs.settle {l : List Nat} {s t : State} (h : OnlyRegs l s t) : OnlyRegs l s (settle t) := ⟨h.1.settle, h.2.settle⟩

theorem OnlyRegs.trans {l : List Nat} {s t u : State} (h : OnlyRegs l s t) (k : OnlyRegs l t u) : OnlyRegs l s u :=
  ⟨h.1.trans k.1, h.2.trans k.2⟩

theorem OnlyRegs.mono {l k : List Nat} {s t : State} (h : OnlyRegs l s t) (hk : l ⊆ k) : OnlyRegs k s t := ⟨h.1.mono hk, h.2⟩

/-- A field below the counters of packets sent, in a register that the frame does not name. -/
theorem RegsBut.fld {l : List Nat} {s t : State} (h : RegsBut l s t) {f : Fld} (hl : f.off ∉ l) (hlt : f.off < 0xE8000) :
    t.fld f = s.fld f :=
  congrArg (bitsOf · f.hi f.lo) (h f.off hl (not_sendCounter (.inl hlt)))

theorem Undisturbed.sameMemory {s t : State} (h : Undisturbed s t) : SameMemory s t :=
  .of_eq (congrArg State.dram h :) (congrArg State.pool h :) (congrArg State.sram h :) (congrArg State.flash h :)

theorem Undisturbed.rawq {s t : State} (h : Undisturbed s t) (q : Nat) : t.rawq q = s.rawq q :=
  congrArg (fun u => u.rawq q) h

/-! ## Fields cleared together -/

/-- A field that reads 0 still does when any field, itself or another, is replaced by 0. -/
theorem bitsOf_putBits_zero {n hi lo : Nat} (h : bitsOf n hi lo = 0) (hi' lo' : Nat) : bitsOf (putBits n hi' lo' 0) hi lo = 0 := by
  refine Nat.eq_of_testBit_eq fun i => ?_
  have hbit := congrArg (Nat.testBit · i) h
  simp only [bitsOf_testBit, Nat.zero_testBit, Bool.and_eq_false_iff] at hbit
  rw [bitsOf_testBit, putBits_testBit, Nat.zero_testBit, Nat.zero_testBit, Bool.and_eq_false_iff]
  refine hbit.imp_right fun hn => ?_
  split_ifs <;> trivial

theorem State.fld_put_zero_of_zero {s : State} {g : Fld} (f : Fld) (hg : g.hi < 32) (h : s.fld g = 0) : (s.put f 0).fld g = 0 := by
  by_cases ho : g.off = f.off
  · rw [State.fld, State.put, ho, State.rd_wr_same, bitsOf_mod_word _ hg]
    exact bitsOf_putBits_zero (ho ▸ h) _ _
  · rw [s.fld_put_off f g 0 ho, h]

/-- A list of fields cleared in turn. -/
def State.clearFields (s : State) (l : List Fld) : State := l.foldl (fun s f => s.put f 0) s

theorem State.fld_clearFields_of_zero (l : List Fld) {g : Fld} (hg : g.hi < 32) (s : State) (h : s.fld g = 0) :
    (s.clearFields l).fld g = 0 := by
  induction l generalizing s with
  | nil => exact h
  | cons f l ih => exact ih (s.put f 0) (State.fld_put_zero_of_zero f hg h)

theorem State.fld_clearFields (s : State) {l : List Fld} {g : Fld} (hl : g ∈ l) (hg : g.hi < 32) : (s.clearFields l).fld g = 0 := by
  induction l generalizing s with
  | nil => cases hl
  | cons f l ih =>
    rcases List.mem_cons.mp hl with rfl | hl
    · exact State.fld_clearFields_of_zero l hg _ ((s.fld_put_same g 0 hg).trans (Nat.zero_mod _))
    · exact ih (s.put f 0) hl

/-- Nothing but the registers of the fields moves. -/
theorem State.clearFields_frame (s : State) (l : List Fld) : OnlyRegs (l.map Fld.off) s (s.clearFields l) := by
  induction l generalizing s with
  | nil => exact .refl _ s
  | cons f l ih =>
    have hput := (OnlyRegs.refl (f.off :: l.map Fld.off) s).put 0 (List.mem_cons_self ..)
    exact hput.trans ((ih (s.put f 0)).mono (List.subset_cons_self ..))

/-- A field of another register. -/
theorem State.fld_clearFields_off (s : State) {l : List Fld} {g : Fld} (hg : g.off ∉ l.map Fld.off) : (s.clearFields l).fld g = s.fld g := by
  induction l generalizing s with
  | nil => rfl
  | cons f l ih =>
    rw [List.map_cons, List.mem_cons, not_or] at hg
    exact (ih (s.put f 0) hg.2).trans (s.fld_put_off f g 0 hg.1)

/-! ## The registers of a queue -/

/-- The registers that the writes of a queue's ring indices, of `enable` and of `reset` move. -/
def rawQueueRegs (q : Nat) : List Nat :=
  [R.RAWC_Q_CTRL q, R.RAWC_Q_STATUS q, R.RAWC_Q_SQ_HEAD q, R.RAWC_Q_SQ_TAIL q, R.RAWC_Q_CQ_HEAD q, R.RAWC_Q_CQ_TAIL q,
    R.RAWC_Q_NEXT_SEQ q, R.RAWC_Q_DROPPED q, R.RIG_STATUS]

theorem rawQueueRegs_lt {q o : Nat} (hq : q < 32) (ho : o ∈ rawQueueRegs q) : o < 0xE8000 := by
  simp only [rawQueueRegs, R.RAWC_Q_CTRL, R.RAWC_Q_STATUS, R.RAWC_Q_SQ_HEAD, R.RAWC_Q_SQ_TAIL, R.RAWC_Q_CQ_HEAD, R.RAWC_Q_CQ_TAIL,
    R.RAWC_Q_NEXT_SEQ, R.RAWC_Q_DROPPED, R.RIG_STATUS, List.mem_cons, List.not_mem_nil, or_false] at ho
  omega

/-- The closing step moves no field of them. -/
theorem settle_fld_rawQueue (s : State) {q : Nat} {f : Fld} (hq : q < 32) (hf : f.off ∈ rawQueueRegs q) : (settle s).fld f = s.fld f :=
  settle_fld_rigging s f (rawQueueRegs_lt hq hf)

/-- A bit that reads 0 is clear. -/
theorem State.bit_of_zero {s : State} {f : Fld} (h : s.fld f = 0) : s.bit f = false := by rw [State.bit, h]; rfl

/-! ## Ring indices (R255) -/

/-- Outside a reset, a submission tail is taken or sets bad_tail, by its distance from the head. -/
theorem State.rawTail_leaves {s : State} {q : Nat} (v : Nat) (hidle : s.fld (F.RAWC_Q_STATUS_resetting q) = 0) :
    OnlyRegs [R.RAWC_Q_SQ_TAIL q, R.RAWC_Q_STATUS q] s (s.rawTail q v) ∧
      if ringDist (v % 65536) (s.fld (F.RAWC_Q_SQ_HEAD_index q)) ≤ s.rawRing q then
        (s.rawTail q v).fld (F.RAWC_Q_SQ_TAIL_index q) = v % 65536
      else (s.rawTail q v).fld (F.RAWC_Q_SQ_TAIL_index q) = s.fld (F.RAWC_Q_SQ_TAIL_index q)
        ∧ (s.rawTail q v).fld (F.RAWC_Q_STATUS_bad_tail q) = 1 := by
  simp only [State.rawTail, State.bit_of_zero hidle, Bool.false_eq_true, if_false]
  by_cases hfits : ringDist (v % 65536) (s.fld (F.RAWC_Q_SQ_HEAD_index q)) ≤ s.rawRing q
  · rw [if_pos hfits, if_neg (Nat.not_lt.mpr hfits)]
    exact ⟨(OnlyRegs.refl _ s).put v (.head _), s.fld_put_same _ v (show (15 : Nat) < 32 by decide)⟩
  · rw [if_neg hfits, if_pos (Nat.lt_of_not_le hfits)]
    have hoff : (F.RAWC_Q_SQ_TAIL_index q).off ≠ (F.RAWC_Q_STATUS_bad_tail q).off := by
      simp only [F.RAWC_Q_SQ_TAIL_index, F.RAWC_Q_STATUS_bad_tail]; omega
    exact ⟨(OnlyRegs.refl _ s).put 1 (.tail _ (.head _)), s.fld_put_off _ _ 1 hoff, s.fld_put_same _ 1 (show (10 : Nat) < 32 by decide)⟩

/-- Outside a reset, a completion head is taken. -/
theorem State.rawCqHead_eq_put {s : State} {q : Nat} (v : Nat) (hidle : s.fld (F.RAWC_Q_STATUS_resetting q) = 0) :
    s.rawCqHead q v = s.put (F.RAWC_Q_CQ_HEAD_index q) v := by
  simp only [State.rawCqHead, State.bit_of_zero hidle, Bool.false_eq_true, if_false]

theorem rawcSqTail_answers {m : Master} {q : Nat} {v : Word} {s : State} (hq : q < 32) (ha : Admitted s m (R.RAWC_Q_SQ_TAIL q))
    (hidle : s.fld (F.RAWC_Q_STATUS_resetting q) = 0) :
    ∃ t, Answers (.rawcSqTail m q v) s t ∧ OnlyRegs [R.RAWC_Q_SQ_TAIL q, R.RAWC_Q_STATUS q] s t ∧
      if ringDist (v.toNat % 65536) (s.fld (F.RAWC_Q_SQ_HEAD_index q)) ≤ s.rawRing q then
        t.fld (F.RAWC_Q_SQ_TAIL_index q) = v.toNat % 65536
      else t.fld (F.RAWC_Q_SQ_TAIL_index q) = s.fld (F.RAWC_Q_SQ_TAIL_index q) ∧ t.fld (F.RAWC_Q_STATUS_bad_tail q) = 1 := by
  have hexec : exec (.rawcSqTail m q v) s = done (s.guardedWrite m (R.RAWC_Q_SQ_TAIL q) (fun s => s.rawTail q v.toNat)) := by
    show execRawcSqTail m q v s = _
    rw [execRawcSqTail, Nat.mod_eq_of_lt hq]
  obtain ⟨hframe, hshown⟩ := State.rawTail_leaves v.toNat hidle
  refine ⟨_, answers_of_admitted ha hexec, hframe.settle, ?_⟩
  rwa [settle_fld_rawQueue _ hq (f := F.RAWC_Q_SQ_TAIL_index q) (by simp [rawQueueRegs, F.RAWC_Q_SQ_TAIL_index, R.RAWC_Q_SQ_TAIL]),
    settle_fld_rawQueue _ hq (f := F.RAWC_Q_STATUS_bad_tail q) (.tail _ (.head _))]

theorem rawcCqHead_answers {m : Master} {q : Nat} {v : Word} {s : State} (hq : q < 32) (ha : Admitted s m (R.RAWC_Q_CQ_HEAD q))
    (hidle : s.fld (F.RAWC_Q_STATUS_resetting q) = 0) :
    ∃ t, Answers (.rawcCqHead m q v) s t ∧ OnlyRegs [R.RAWC_Q_CQ_HEAD q] s t ∧ t.fld (F.RAWC_Q_CQ_HEAD_index q) = v.toNat % 65536 := by
  have hexec : exec (.rawcCqHead m q v) s = done (s.guardedWrite m (R.RAWC_Q_CQ_HEAD q) (fun s => s.rawCqHead q v.toNat)) := by
    show execRawcCqHead m q v s = _
    rw [execRawcCqHead, Nat.mod_eq_of_lt hq]
  have hans := answers_of_admitted ha hexec
  rw [State.rawCqHead_eq_put _ hidle] at hans
  refine ⟨_, hans, ((OnlyRegs.refl [R.RAWC_Q_CQ_HEAD q] s).put _ (.head _)).settle, ?_⟩
  rw [settle_fld_rawQueue _ hq (by simp [rawQueueRegs, F.RAWC_Q_CQ_HEAD_index, R.RAWC_Q_CQ_HEAD])]
  exact s.fld_put_same _ _ (show (15 : Nat) < 32 by decide)

/-! ## Enabling (R254, R267) -/

theorem State.fld_rawQueueEnable_lt (s : State) (q : Nat) : s.fld (F.RAWC_Q_CTRL_enable q) < 2 := bitsOf_lt _ 0 0

/-- What a write of `enable` does to a queue that the image shapes. -/
theorem State.rawEnable_shaped {s : State} {q : Nat} {h : Shape} (v : Nat) (hshape : s.rawShape q = some h) :
    s.rawEnable q v = if v % 2 = 0 then s.put (F.RAWC_Q_CTRL_enable q) 0
      else if s.fld (F.RAWC_Q_CTRL_enable q) = 1 then s
      else if s.rawCfgOk q h then s.put (F.RAWC_Q_CTRL_enable q) 1
      else s.put (F.RAWC_Q_STATUS_bad_cfg q) 1 := by
  have hbit : s.bit (F.RAWC_Q_CTRL_enable q) = true ↔ s.fld (F.RAWC_Q_CTRL_enable q) = 1 := by
    have hlt := s.fld_rawQueueEnable_lt q
    rw [State.bit, bne_iff_ne]
    omega
  simp only [State.rawEnable, hshape, hbit]

/-- A write of `enable` moves the queue's control and status, or records the missing shape (R50). -/
theorem State.rawEnable_frame (s : State) (q v : Nat) : OnlyRegs [R.RAWC_Q_CTRL q, R.RAWC_Q_STATUS q, R.RIG_STATUS] s (s.rawEnable q v) := by
  have hs := OnlyRegs.refl [R.RAWC_Q_CTRL q, R.RAWC_Q_STATUS q, R.RIG_STATUS] s
  cases hshape : s.rawShape q with
  | none =>
    simp only [State.rawEnable, hshape]
    split
    · exact hs.put 0 (.head _)
    · exact hs.put 1 (.tail _ (.tail _ (.head _)))
  | some h =>
    rw [State.rawEnable_shaped v hshape]
    split_ifs
    · exact hs.put 0 (.head _)
    · exact hs
    · exact hs.put 1 (.head _)
    · exact hs.put 1 (.tail _ (.head _))

theorem rawcQueueEnable_answers {m : Master} {q : Nat} {v : Word} {s : State} {h : Shape} (hq : q < 32) (ha : Admitted s m (R.RAWC_Q_CTRL q))
    (hshape : s.rawShape q = some h) :
    ∃ t, Answers (.rawcQueueEnable m q v) s t ∧ OnlyRegs [R.RAWC_Q_CTRL q, R.RAWC_Q_STATUS q] s t ∧
      if v.toNat % 2 = 0 then t.fld (F.RAWC_Q_CTRL_enable q) = 0
      else if s.fld (F.RAWC_Q_CTRL_enable q) = 1 then OnlyRegs [] s t
      else if s.rawCfgOk q h then t.fld (F.RAWC_Q_CTRL_enable q) = 1
      else t.fld (F.RAWC_Q_CTRL_enable q) = 0 ∧ t.fld (F.RAWC_Q_STATUS_bad_cfg q) = 1 := by
  have hreset : bitsOf (v.toNat % 2) 1 1 = 0 := by simp only [bitsOf, Nat.shiftRight_eq_div_pow]; omega
  have hexec : exec (.rawcQueueEnable m q v) s = done (s.guardedWrite m (R.RAWC_Q_CTRL q) (fun s => s.rawEnable q (v.toNat % 2))) := by
    show execRawcQueueEnable m q v s = _
    simp only [execRawcQueueEnable, Nat.mod_eq_of_lt hq, State.rawCtrl, hreset, Nat.zero_ne_one, if_false]
  have hans := answers_of_admitted ha hexec
  rw [State.rawEnable_shaped _ hshape, Nat.mod_mod] at hans
  have hs := OnlyRegs.refl [R.RAWC_Q_CTRL q, R.RAWC_Q_STATUS q] s
  have henable : ∀ u : State, (settle u).fld (F.RAWC_Q_CTRL_enable q) = u.fld (F.RAWC_Q_CTRL_enable q) :=
    fun u => settle_fld_rawQueue u hq (.head _)
  refine ⟨_, hans, ?_⟩
  split_ifs with heven hon hok
  · exact ⟨(hs.put 0 (.head _)).settle, (henable _).trans (s.fld_put_same _ 0 (show (0 : Nat) < 32 by decide))⟩
  · exact ⟨hs.settle, (OnlyRegs.refl [] s).settle⟩
  · exact ⟨(hs.put 1 (.head _)).settle, (henable _).trans (s.fld_put_same _ 1 (show (0 : Nat) < 32 by decide))⟩
  · have hoff : (F.RAWC_Q_CTRL_enable q).off ≠ (F.RAWC_Q_STATUS_bad_cfg q).off := by
      simp only [F.RAWC_Q_CTRL_enable, F.RAWC_Q_STATUS_bad_cfg]; omega
    have hlt := s.fld_rawQueueEnable_lt q
    refine ⟨(hs.put 1 (.tail _ (.head _))).settle, ?_, ?_⟩
    · rw [henable, s.fld_put_off _ _ 1 hoff]
      omega
    · rw [settle_fld_rawQueue _ hq (.tail _ (.head _))]
      exact s.fld_put_same _ 1 (show (11 : Nat) < 32 by decide)

/-! ## Reset (R268) -/

/-- The fields that the end of a reset clears. -/
def rawClearedFields (q : Nat) : List Fld :=
  [F.RAWC_Q_SQ_HEAD_index q, F.RAWC_Q_SQ_TAIL_index q, F.RAWC_Q_CQ_HEAD_index q, F.RAWC_Q_CQ_TAIL_index q, F.RAWC_Q_NEXT_SEQ_value q,
    F.RAWC_Q_CTRL_enable q, F.RAWC_Q_STATUS_resetting q]

theorem hi_lt_of_mem_rawClearedFields {q : Nat} {f : Fld} (hf : f ∈ rawClearedFields q) : f.hi < 32 := by
  revert f
  simp [rawClearedFields, F.RAWC_Q_SQ_HEAD_index, F.RAWC_Q_SQ_TAIL_index, F.RAWC_Q_CQ_HEAD_index, F.RAWC_Q_CQ_TAIL_index,
    F.RAWC_Q_NEXT_SEQ_value, F.RAWC_Q_CTRL_enable, F.RAWC_Q_STATUS_resetting]

/-- The registers of those fields: all that a reset moves but RAWC_Qq_DROPPED and RIG_STATUS. -/
theorem rawClearedFields_off (q : Nat) : (rawClearedFields q).map Fld.off =
    [R.RAWC_Q_SQ_HEAD q, R.RAWC_Q_SQ_TAIL q, R.RAWC_Q_CQ_HEAD q, R.RAWC_Q_CQ_TAIL q, R.RAWC_Q_NEXT_SEQ q, R.RAWC_Q_CTRL q,
      R.RAWC_Q_STATUS q] := rfl

theorem rawClearedFields_off_subset (q : Nat) : (rawClearedFields q).map Fld.off ⊆ rawQueueRegs q := by
  simp [rawClearedFields_off, rawQueueRegs]

/-- The registers of a queue at the end of a reset: its dropped descriptors counted, then the rest cleared. -/
def State.rawCleared (s : State) (q : Nat) : State :=
  (s.put (F.RAWC_Q_DROPPED_index q) (ringDist (s.fld (F.RAWC_Q_SQ_TAIL_index q)) (s.fld (F.RAWC_Q_SQ_HEAD_index q)))).clearFields
    (rawClearedFields q)

/-- Beside them the end of a reset changes the queue's own record alone. -/
theorem State.rawResetEnd_eq (s : State) (q : Nat) :
    s.rawResetEnd q = (s.rawCleared q).setRawq q { (s.rawCleared q).rawq q with taps := 0 } := rfl

theorem State.rawResetEnd_regs (s : State) (q : Nat) : (s.rawResetEnd q).regs = (s.rawCleared q).regs := by
  rw [State.rawResetEnd_eq]; rfl

theorem State.rawCleared_frame (s : State) (q : Nat) : OnlyRegs (rawQueueRegs q) s (s.rawCleared q) := by
  have hdropped : (F.RAWC_Q_DROPPED_index q).off ∈ rawQueueRegs q := by
    simp [rawQueueRegs, F.RAWC_Q_DROPPED_index, R.RAWC_Q_DROPPED]
  exact ((OnlyRegs.refl _ s).put _ hdropped).trans ((State.clearFields_frame _ _).mono (rawClearedFields_off_subset q))

theorem State.rawCleared_dropped (s : State) (q : Nat) : (s.rawCleared q).fld (F.RAWC_Q_DROPPED_index q)
    = ringDist (s.fld (F.RAWC_Q_SQ_TAIL_index q)) (s.fld (F.RAWC_Q_SQ_HEAD_index q)) := by
  have hoff : (F.RAWC_Q_DROPPED_index q).off ∉ (rawClearedFields q).map Fld.off := by
    simp [rawClearedFields_off, F.RAWC_Q_DROPPED_index, R.RAWC_Q_SQ_HEAD, R.RAWC_Q_SQ_TAIL, R.RAWC_Q_CQ_HEAD, R.RAWC_Q_CQ_TAIL,
      R.RAWC_Q_NEXT_SEQ, R.RAWC_Q_CTRL, R.RAWC_Q_STATUS]
  rw [State.rawCleared, State.fld_clearFields_off _ hoff]
  exact (s.fld_put_same _ _ (show (15 : Nat) < 32 by decide)).trans (Nat.mod_eq_of_lt (Nat.mod_lt _ (by decide)))

/-- The end of a reset: the queue is empty and disabled, and its dropped descriptors are counted. -/
theorem State.rawResetEnd_leaves (s : State) (q : Nat) :
    RegsBut (rawQueueRegs q) s (s.rawResetEnd q) ∧ SameMemory s (s.rawResetEnd q)
      ∧ (∀ f ∈ rawClearedFields q, (s.rawResetEnd q).fld f = 0)
      ∧ (s.rawResetEnd q).fld (F.RAWC_Q_DROPPED_index q)
        = ringDist (s.fld (F.RAWC_Q_SQ_TAIL_index q)) (s.fld (F.RAWC_Q_SQ_HEAD_index q)) := by
  obtain ⟨hregs, hquiet⟩ := s.rawCleared_frame q
  have hfld := State.fld_congr (s.rawResetEnd_regs q)
  refine ⟨hregs.of_regs (s.rawResetEnd_regs q), hquiet.sameMemory.trans ?_, fun f hf => ?_, ?_⟩
  · rw [State.rawResetEnd_eq]
    exact .of_eq rfl rfl rfl rfl
  · rw [hfld]
    exact State.fld_clearFields _ hf (hi_lt_of_mem_rawClearedFields hf)
  · rw [hfld, s.rawCleared_dropped q]

/-- A write of `reset` takes its `enable` bit first, and then resets the queue. -/
theorem rawcQueueReset_answers_rawReset {m : Master} {q : Nat} {v : Word} {s : State} (hq : q < 32) (ha : Admitted s m (R.RAWC_Q_CTRL q)) :
    Answers (.rawcQueueReset m q v) s (settle ((s.rawEnable q (putBits v.toNat 1 1 1)).rawReset q)) := by
  have hreset : bitsOf (putBits v.toNat 1 1 1) 1 1 = 1 := bitsOf_putBits_same ..
  refine answers_of_admitted ha (f := fun s => (s.rawEnable q (putBits v.toNat 1 1 1)).rawReset q) ?_
  show execRawcQueueReset m q v s = _
  simp only [execRawcQueueReset, Nat.mod_eq_of_lt hq, State.rawCtrl, hreset, if_true]

/-- A job in progress keeps the reset waiting. -/
theorem rawcQueueReset_answers_waiting {m : Master} {q : Nat} {v : Word} {s : State} (hq : q < 32) (ha : Admitted s m (R.RAWC_Q_CTRL q))
    (hjob : (s.rawq q).job ≠ none) :
    ∃ t, Answers (.rawcQueueReset m q v) s t ∧ t.fld (F.RAWC_Q_STATUS_resetting q) = 1
      ∧ OnlyRegs [R.RAWC_Q_CTRL q, R.RAWC_Q_STATUS q, R.RIG_STATUS] s t := by
  refine ⟨_, rawcQueueReset_answers_rawReset hq ha, ?_⟩
  have henable := s.rawEnable_frame q (putBits v.toNat 1 1 1)
  generalize s.rawEnable q (putBits v.toNat 1 1 1) = u at *
  have hbusy : (((u.put (F.RAWC_Q_STATUS_resetting q) 1).rawq q).job).isSome = true := by
    rw [← henable.2.rawq q] at hjob
    exact Option.isSome_iff_ne_none.mpr hjob
  rw [State.rawReset, if_pos hbusy]
  refine ⟨?_, (henable.put 1 (.tail _ (.head _))).settle⟩
  rw [settle_fld_rawQueue _ hq (.tail _ (.head _))]
  exact u.fld_put_same _ 1 (show (9 : Nat) < 32 by decide)

/-- With no job in progress the reset ends at once. -/
theorem rawcQueueReset_answers_ended {m : Master} {q : Nat} {v : Word} {s : State} (hq : q < 32) (ha : Admitted s m (R.RAWC_Q_CTRL q))
    (hjob : (s.rawq q).job = none) :
    ∃ t, Answers (.rawcQueueReset m q v) s t ∧ SameMemory s t ∧ (∀ f ∈ rawClearedFields q, t.fld f = 0)
      ∧ t.fld (F.RAWC_Q_DROPPED_index q) = ringDist (s.fld (F.RAWC_Q_SQ_TAIL_index q)) (s.fld (F.RAWC_Q_SQ_HEAD_index q))
      ∧ RegsBut (rawQueueRegs q) s t := by
  refine ⟨_, rawcQueueReset_answers_rawReset hq ha, ?_⟩
  have hresetting := (s.rawEnable_frame q (putBits v.toNat 1 1 1)).put (f := F.RAWC_Q_STATUS_resetting q) 1 (.tail _ (.head _))
  rw [State.rawReset]
  generalize (s.rawEnable q (putBits v.toNat 1 1 1)).put (F.RAWC_Q_STATUS_resetting q) 1 = u at *
  have hnone : ¬ (u.rawq q).job.isSome = true := by rw [hresetting.2.rawq q, hjob]; exact Bool.false_ne_true
  rw [if_neg hnone]
  obtain ⟨hregs, hmem, hcleared, hdropped⟩ := u.rawResetEnd_leaves q
  have hsub : [R.RAWC_Q_CTRL q, R.RAWC_Q_STATUS q, R.RIG_STATUS] ⊆ rawQueueRegs q := by simp [rawQueueRegs]
  refine ⟨(hresetting.2.sameMemory.trans hmem).settle, fun f hf => ?_, ?_, ((hresetting.1.mono hsub).trans hregs).settle⟩
  · rw [settle_fld_rawQueue _ hq (rawClearedFields_off_subset q (List.mem_map_of_mem hf)), hcleared f hf]
  · have htail : u.fld (F.RAWC_Q_SQ_TAIL_index q) = s.fld (F.RAWC_Q_SQ_TAIL_index q) := hresetting.1.fld
      (by simp [F.RAWC_Q_SQ_TAIL_index, R.RAWC_Q_CTRL, R.RAWC_Q_STATUS, R.RIG_STATUS]; omega)
      (by simp only [F.RAWC_Q_SQ_TAIL_index]; omega)
    have hhead : u.fld (F.RAWC_Q_SQ_HEAD_index q) = s.fld (F.RAWC_Q_SQ_HEAD_index q) := hresetting.1.fld
      (by simp [F.RAWC_Q_SQ_HEAD_index, R.RAWC_Q_CTRL, R.RAWC_Q_STATUS, R.RIG_STATUS]; omega)
      (by simp only [F.RAWC_Q_SQ_HEAD_index]; omega)
    rw [settle_fld_rawQueue _ hq (by simp [rawQueueRegs, F.RAWC_Q_DROPPED_index, R.RAWC_Q_DROPPED]), hdropped, htail, hhead]

/-- Settles O44: each write reaches its operation on the queue, and the closing step moves none of the queue's registers. -/
theorem rawQueues : Obligations.RawQueues := by
  unfold Obligations.RawQueues
  intro m q v s hq
  refine ⟨rawcSqTail_answers hq, rawcCqHead_answers hq, fun h => rawcQueueEnable_answers hq, rawcQueueReset_answers_waiting hq,
    fun ha hjob => ?_⟩
  obtain ⟨t, hans, hmem, hcleared, hdropped, hregs⟩ := rawcQueueReset_answers_ended hq ha hjob
  simp only [rawClearedFields, List.forall_mem_cons] at hcleared
  obtain ⟨hsqHead, hsqTail, hcqHead, hcqTail, hseq, henable, hresetting, -⟩ := hcleared
  exact ⟨t, hans, hmem, henable, hresetting, hsqHead, hsqTail, hcqHead, hcqTail, hseq, hdropped, hregs⟩

end Sys2Proof.Machine
end

section
/-! Coding sessions and the reference pool (R277, R285 to R288): what a session is after an update of the state, and what marking a
buffer and showing the pool's counts move. -/
namespace Sys2Proof.Machine

/-! ## Sessions -/

@[simp] theorem State.ses_setSes_same (s : State) (k : Nat) (x : HevcSes) : (s.setSes k x).ses k = x := mapGet_mapSet_same ..

@[simp] theorem State.setSes_regs (s : State) (k : Nat) (x : HevcSes) : (s.setSes k x).regs = s.regs := rfl

theorem State.setSes_sameMemory (s : State) (k : Nat) (x : HevcSes) : SameMemory s (s.setSes k x) := .of_eq rfl rfl rfl rfl

theorem State.ses_congr {s t : State} (h : t.hevc = s.hevc) (k : Nat) : t.ses k = s.ses k := by rw [State.ses, h]; rfl

@[simp] theorem State.ses_put (s : State) (f : Fld) (v k : Nat) : (s.put f v).ses k = s.ses k := rfl

@[simp] theorem settle_ses (s : State) (k : Nat) : (settle s).ses k = s.ses k := State.ses_congr (settle_hevc s) k

theorem Undisturbed.ses {s t : State} (h : Undisturbed s t) (k : Nat) : t.ses k = s.ses k := State.ses_congr (congrArg State.hevc h) k

/-! ## Marks (R288) -/

/-- The registers in which the marks of the pool's buffers, the count of a session's buffers and that of the free ones show. -/
def poolRegs (k : Nat) : List Nat := [R.HEVC_SES_HELD k, R.HEVC_POOL_STATUS] ++ (List.range 512).map R.HEVC_POOL_MARK

theorem mark_mem_poolRegs (k : Nat) {n : Nat} (h : n < 512) : R.HEVC_POOL_MARK n ∈ poolRegs k :=
  List.mem_append_right _ (List.mem_map_of_mem (List.mem_range.mpr h))

theorem not_mem_poolRegs {k o : Nat} (hheld : o ≠ R.HEVC_SES_HELD k) (hstatus : o ≠ R.HEVC_POOL_STATUS)
    (hmark : o < 0xA0800 ∨ 0xA1000 ≤ o) : o ∉ poolRegs k := by
  simp only [poolRegs, R.HEVC_POOL_MARK, List.mem_append, List.mem_cons, List.mem_map, List.mem_range, List.not_mem_nil, or_false, hheld,
    hstatus, false_or, not_exists, not_and]
  omega

theorem State.poolFree_frame (s : State) : OnlyRegs [R.HEVC_POOL_STATUS] s s.poolFree := (OnlyRegs.refl _ s).put _ (.head _)

theorem State.poolCounts_frame (s : State) (k : Nat) : OnlyRegs [R.HEVC_SES_HELD k, R.HEVC_POOL_STATUS] s (s.poolCounts k) :=
  (OnlyRegs.put (f := F.HEVC_SES_HELD_held k) (.refl _ s) _ (.head _)).trans ((State.poolFree_frame _).mono (List.subset_cons_self ..))

/-- Showing the counts moves no mark. -/
theorem State.rd_poolCounts_mark (s : State) (k : Nat) {n : Nat} (h : n < 512) :
    (s.poolCounts k).rd (R.HEVC_POOL_MARK n) = s.rd (R.HEVC_POOL_MARK n) := by
  refine (s.poolCounts_frame k).1 _ ?_ (not_sendCounter (.inl ?_))
  · simp only [R.HEVC_POOL_MARK, R.HEVC_SES_HELD, R.HEVC_POOL_STATUS, List.mem_cons, List.not_mem_nil, or_false, not_or]
    omega
  · simp only [R.HEVC_POOL_MARK]
    omega

theorem State.markBuf_frame (s : State) (k n set clear : Nat) : OnlyRegs (poolRegs k) s (s.markBuf k n set clear) := by
  unfold State.markBuf
  dsimp only
  split
  · next h =>
    have hmark (v : Nat) : OnlyRegs (poolRegs k) s (s.wr (R.HEVC_POOL_MARK n) v) := ⟨(RegsBut.refl _ s).wr v (mark_mem_poolRegs k h.1), rfl⟩
    exact (hmark _).trans ((State.poolCounts_frame _ k).mono (List.subset_append_left ..))
  · exact .refl _ s

/-- A mark moves by its own buffer's change alone. -/
theorem State.rd_markBuf_ne (s : State) (k : Nat) {b n : Nat} (set clear : Nat) (hn : n < 512) (hne : n ≠ b) :
    (s.markBuf k b set clear).rd (R.HEVC_POOL_MARK n) = s.rd (R.HEVC_POOL_MARK n) := by
  unfold State.markBuf
  dsimp only
  split
  · rw [State.rd_poolCounts_mark _ k hn, State.rd_wr_ne]
    simp only [R.HEVC_POOL_MARK]
    omega
  · rfl

theorem State.mem_heldBufs {s : State} {k n : Nat} : n ∈ s.heldBufs k ↔
    n < 512 ∧ s.rd (R.HEVC_POOL_MARK n) % 16 ≠ 0 ∧ bitsOf (s.rd (R.HEVC_POOL_MARK n)) 13 8 = k := by
  simp [State.heldBufs]

theorem State.heldBufs_congr {s t : State} (h : ∀ n, n < 512 → t.rd (R.HEVC_POOL_MARK n) = s.rd (R.HEVC_POOL_MARK n)) (k : Nat) :
    t.heldBufs k = s.heldBufs k :=
  List.filter_congr fun n hn => by rw [h n (List.mem_range.mp hn)]

/-- A buffer all of whose marks are cleared is held no more (R288). -/
theorem State.mem_heldBufs_release {s : State} {k b n : Nat} :
    n ∈ (s.markBuf k b 0 15).heldBufs k ↔ n ∈ s.heldBufs k ∧ n ≠ b := by
  by_cases hne : n = b
  · subst hne
    simp only [State.mem_heldBufs, ne_eq, not_true_eq_false, and_false, iff_false, not_and]
    intro hn hmarked
    unfold State.markBuf at hmarked ⊢
    dsimp only at hmarked ⊢
    split at hmarked
    · next h => simp [State.rd_poolCounts_mark _ k hn] at hmarked
    · next h =>
      rw [if_neg h]
      exact fun hk => h ⟨hn, .inr hk⟩
  · simp only [State.mem_heldBufs, hne, ne_eq, not_false_eq_true, and_true]
    exact and_congr_right fun hn => by rw [s.rd_markBuf_ne k 0 15 hn hne]

/-- The buffers of a list given up by a session. -/
def State.releaseBufs (s : State) (k : Nat) (l : List Nat) : State := l.foldl (fun s b => s.markBuf k b 0 15) s

theorem State.releaseBufs_frame (s : State) (k : Nat) (l : List Nat) : OnlyRegs (poolRegs k) s (s.releaseBufs k l) :=
  foldl_related (.refl _) .trans (fun t b => t.markBuf_frame k b 0 15) l s

theorem State.mem_heldBufs_releaseBufs {s : State} {k n : Nat} {l : List Nat} :
    n ∈ (s.releaseBufs k l).heldBufs k ↔ n ∈ s.heldBufs k ∧ n ∉ l := by
  induction l generalizing s with
  | nil => simp [State.releaseBufs]
  | cons b l ih =>
    rw [List.mem_cons, not_or, ← and_assoc, ← State.mem_heldBufs_release]
    exact ih

/-- A session that gives up the buffers it holds is left with none. -/
theorem State.heldBufs_releaseBufs_all (s : State) (k : Nat) : (s.releaseBufs k (s.heldBufs k)).heldBufs k = [] :=
  List.eq_nil_iff_forall_not_mem.mpr fun _ hn => (State.mem_heldBufs_releaseBufs.mp hn).elim fun h h' => h' h

end Sys2Proof.Machine
end

section
/-! Commits, quotas and submission tails of a coding session (R282, R287, R299, R308). -/
namespace Sys2Proof.Machine

/-! ## Commits (R282, R308) -/

theorem bitsOf_lowest (n : Nat) : bitsOf n 0 0 = n % 2 := by simp [bitsOf]

theorem firstFail_mem {l : List (Bool × Nat)} {c : Nat} (h : firstFail l = some c) : c ∈ l.map Prod.snd := by
  obtain ⟨e, he, rfl⟩ := Option.map_eq_some_iff.mp h
  exact List.mem_map_of_mem (List.mem_of_find?_eq_some he)

/-- The code of a refused commit fits in `commit_state`. -/
theorem State.hevcChecks_lt {s : State} {k : Nat} {h : Shape} {b : SMap Word} {code : Nat} (hc : s.hevcChecks k h b = some code) :
    code < 16 := by
  have hcodes : ∀ c ∈ [4, 3, 3, 5, 5, 6, 7, 8], c < 16 := by decide
  exact hcodes code (firstFail_mem hc)

/-- With no input held, a commit is looked at by nothing else. -/
theorem State.hevcResume_of_none {s : State} {k : Nat} (h : (s.ses k).hold = none) (force : Bool) : s.hevcResume k force = s := by
  simp only [State.hevcResume, h]

/-- The generation that a commit of a session would make. -/
def State.newGen (s : State) (k : Nat) : HevcGen :=
  ⟨(s.fld (F.HEVC_SES_GEN_PEND_value k) + 1) % 2 ^ 32, s.snap (R.HEVC_SES_SIZE k) (R.HEVC_SES_OUT_STRIDE k + 4)⟩

/-- The session with that generation pending: it joins the others while bindings are followed, and replaces them otherwise (R283). -/
def State.withPending (s : State) (k : Nat) : HevcSes :=
  { s.ses k with pend := if s.follows 7 s.nowNs then ((s.ses k).pend ++ [s.newGen k]).drop ((s.ses k).pend.length - 3) else [s.newGen k] }

theorem State.hevcCommit_accepted {s : State} {k : Nat} {h : Shape} (hshape : s.shape 11 k = some h)
    (hok : s.hevcChecks k h (s.newGen k).regs = none) : s.hevcCommit k =
      ((s.setSes k (s.withPending k)).put (F.HEVC_SES_GEN_PEND_value k) (s.newGen k).num).put (F.HEVC_SES_STATUS_commit_state k) 1 := by
  simp only [State.newGen] at hok
  simp only [State.hevcCommit, hshape, hok, State.withPending, State.newGen, Nat.reduceSubDiff]

theorem State.hevcCommit_refused {s : State} {k code : Nat} {h : Shape} (hshape : s.shape 11 k = some h)
    (hbad : s.hevcChecks k h (s.newGen k).regs = some code) : s.hevcCommit k = s.put (F.HEVC_SES_STATUS_commit_state k) code := by
  simp only [State.newGen] at hbad
  simp only [State.hevcCommit, hshape, hbad]

theorem State.hold_hevcCommit (s : State) (k : Nat) : ((s.hevcCommit k).ses k).hold = (s.ses k).hold := by
  unfold State.hevcCommit
  split
  · rfl
  · dsimp only
    split
    · rfl
    · simp only [State.ses_put, State.ses_setSes_same]

theorem hevcCommit_answers_commit {m : Master} {k : Nat} {v : Word} {h : Shape} {s : State} (hk : k < 64) (hshape : s.shape 11 k = some h)
    (ha : Admitted s m (R.HEVC_SES_CTRL k)) (hreset : bitsOf v.toNat 1 1 = 0) (hhold : (s.ses k).hold = none) :
    Answers (.hevcCommit m k v) s (settle (s.hevcCommit k)) := by
  have hcommit : putBits v.toNat 0 0 1 % 2 = 1 := (jnlEnable_operand v.toNat).1
  have hno : bitsOf (putBits v.toNat 0 0 1) 1 1 = 0 := (bitsOf_putBits_ne _ _ (.inr (by decide))).trans hreset
  have hresume := State.hevcResume_of_none ((s.hold_hevcCommit k).trans hhold) false
  have hans := answers_of_admitted (c := .hevcCommit m k v) ha (f := fun s => s.hevcCtrl k (putBits v.toNat 0 0 1)) (by
    show execHevcCommit m k v s = _
    rw [execHevcCommit, Nat.mod_eq_of_lt hk])
  simpa only [State.hevcCtrl, hshape, Option.isNone_some, Bool.false_eq_true, if_false, hcommit, if_true, hno, Nat.zero_ne_one,
    hresume] using hans

/-- Registers of HEVC lie below the counters of packets sent. -/
theorem settle_fld_session (s : State) {f : Fld} {o k : Nat} (ho : o < 0x1000) (hk : k < 64) (h : f.off = 0xA1000 + o + 0x100 * k) :
    (settle s).fld f = s.fld f := settle_fld_rigging s f (by omega)

theorem hevcCommit_answers {m : Master} {k : Nat} {v : Word} {h : Shape} {s : State} (hk : k < 64) (hshape : s.shape 11 k = some h)
    (ha : Admitted s m (R.HEVC_SES_CTRL k)) (hreset : bitsOf v.toNat 1 1 = 0) (hhold : (s.ses k).hold = none) :
    ∃ t, Answers (.hevcCommit m k v) s t ∧ SameMemory s t ∧ RegsBut [R.HEVC_SES_GEN_PEND k, R.HEVC_SES_STATUS k] s t ∧
      match s.hevcChecks k h (s.newGen k).regs with
      | none => t.ses k = s.withPending k ∧ t.fld (F.HEVC_SES_GEN_PEND_value k) = (s.newGen k).num
          ∧ t.fld (F.HEVC_SES_STATUS_commit_state k) = 1
      | some code => t.ses k = s.ses k ∧ t.fld (F.HEVC_SES_STATUS_commit_state k) = code
          ∧ t.rd (R.HEVC_SES_GEN_PEND k) = s.rd (R.HEVC_SES_GEN_PEND k) := by
  refine ⟨_, hevcCommit_answers_commit hk hshape ha hreset hhold, ?_⟩
  have hstatus : ∀ u : State, (settle u).fld (F.HEVC_SES_STATUS_commit_state k) = u.fld (F.HEVC_SES_STATUS_commit_state k) :=
    fun u => settle_fld_session u (o := 4) (by decide) hk rfl
  have hoff : R.HEVC_SES_GEN_PEND k ≠ R.HEVC_SES_STATUS k := by simp only [R.HEVC_SES_GEN_PEND, R.HEVC_SES_STATUS]; omega
  cases hc : s.hevcChecks k h (s.newGen k).regs with
  | none =>
    rw [State.hevcCommit_accepted hshape hc]
    have hset : RegsBut [R.HEVC_SES_GEN_PEND k, R.HEVC_SES_STATUS k] s (s.setSes k (s.withPending k)) := (RegsBut.refl _ s).of_regs rfl
    refine ⟨SameMemory.settle (.of_eq rfl rfl rfl rfl),
      ((hset.put (f := F.HEVC_SES_GEN_PEND_value k) _ (.head _)).put (f := F.HEVC_SES_STATUS_commit_state k) 1 (.tail _ (.head _))).settle,
      (settle_ses ..).trans (State.ses_setSes_same ..), ?_, (hstatus _).trans (State.fld_put_same _ _ 1 (show (3 : Nat) < 32 by decide))⟩
    rw [settle_fld_session _ (o := 12) (by decide) hk rfl, State.fld_put_off _ _ _ _ hoff]
    exact (State.fld_put_same _ _ _ (show (31 : Nat) < 32 by decide)).trans (Nat.mod_mod ..)
  | some code =>
    rw [State.hevcCommit_refused hshape hc]
    refine ⟨SameMemory.settle (.of_eq rfl rfl rfl rfl),
      ((RegsBut.refl _ s).put (f := F.HEVC_SES_STATUS_commit_state k) code (.tail _ (.head _))).settle, settle_ses .., ?_, ?_⟩
    · rw [hstatus, State.fld_put_same _ _ _ (show (3 : Nat) < 32 by decide)]
      exact Nat.mod_eq_of_lt (State.hevcChecks_lt hc)
    · rw [settle_rd _ _ (not_sendCounter (.inl (by simp only [R.HEVC_SES_GEN_PEND]; omega)))]
      exact State.rd_put_ne _ _ _ hoff

end Sys2Proof.Machine
end

section
/-! The reset of a coding session (R304), and its submission tail (R299). -/
namespace Sys2Proof.Machine

/-! ## The end of a reset (R304) -/

/-- A field that is a whole register. -/
theorem State.fld_word (s : State) (o : Nat) : s.fld ⟨o, 31, 0⟩ = s.rd o % 2 ^ 32 := by simp [State.fld, bitsOf]

/-- A register that holds a word still does when fields are cleared, and one of theirs does then. -/
theorem State.rd_clearFields_lt (l : List Fld) (o : Nat) (s : State) (h : s.rd o < 2 ^ 32 ∨ o ∈ l.map Fld.off) :
    (s.clearFields l).rd o < 2 ^ 32 := by
  induction l generalizing s with
  | nil => exact h.resolve_right List.not_mem_nil
  | cons f l ih =>
    refine ih (s.put f 0) ?_
    by_cases ho : o = f.off
    · subst ho
      exact .inl ((State.rd_wr_same ..).trans_lt (Nat.mod_lt _ (Nat.two_pow_pos _)))
    · rw [s.rd_put_ne f 0 ho]
      exact h.imp_right fun hm => (List.mem_cons.mp hm).resolve_left ho

/-- The fields of a session that the end of a reset clears. -/
def sesClearedFields (k : Nat) : List Fld :=
  [F.HEVC_SES_SQ_HEAD_index k, F.HEVC_SES_SQ_TAIL_index k, F.HEVC_SES_NEXT_SEQ_value k, F.HEVC_SES_GEN_value k,
    F.HEVC_SES_GEN_PEND_value k, F.HEVC_SES_STATUS_running k, F.HEVC_SES_STATUS_unsupported k, F.HEVC_SES_STATUS_resetting k]

theorem hi_lt_of_mem_sesClearedFields {k : Nat} {f : Fld} (hf : f ∈ sesClearedFields k) : f.hi < 32 := by
  revert f
  simp [sesClearedFields, F.HEVC_SES_SQ_HEAD_index, F.HEVC_SES_SQ_TAIL_index, F.HEVC_SES_NEXT_SEQ_value, F.HEVC_SES_GEN_value,
    F.HEVC_SES_GEN_PEND_value, F.HEVC_SES_STATUS_running, F.HEVC_SES_STATUS_unsupported, F.HEVC_SES_STATUS_resetting]

/-- The registers of those fields. -/
theorem sesClearedFields_off (k : Nat) : (sesClearedFields k).map Fld.off =
    [R.HEVC_SES_SQ_HEAD k, R.HEVC_SES_SQ_TAIL k, R.HEVC_SES_NEXT_SEQ k, R.HEVC_SES_GEN k, R.HEVC_SES_GEN_PEND k, R.HEVC_SES_STATUS k,
      R.HEVC_SES_STATUS k, R.HEVC_SES_STATUS k] := rfl

/-- No other register of the session's page, and none below it, is among them. -/
theorem not_mem_sesClearedFields_off {k o : Nat} (h : o < 0xA1000 ∨ o = R.HEVC_SES_DROPPED k) : o ∉ (sesClearedFields k).map Fld.off := by
  simp only [sesClearedFields_off, R.HEVC_SES_SQ_HEAD, R.HEVC_SES_SQ_TAIL, R.HEVC_SES_NEXT_SEQ, R.HEVC_SES_GEN, R.HEVC_SES_GEN_PEND,
    R.HEVC_SES_STATUS, R.HEVC_SES_DROPPED, List.mem_cons, List.not_mem_nil, or_false] at h ⊢
  omega

/-- The state once a session's dropped descriptors are counted and its buffers given up. -/
def State.sesReleased (s : State) (k : Nat) : State :=
  let u := s.put (F.HEVC_SES_DROPPED_dropped k) (ringDist (s.fld (F.HEVC_SES_SQ_TAIL_index k)) (s.fld (F.HEVC_SES_SQ_HEAD_index k)))
  u.releaseBufs k (u.heldBufs k)

theorem State.sesResetEnd_eq (s : State) (k : Nat) : s.sesResetEnd k =
    ((s.sesReleased k).clearFields (sesClearedFields k)).setSes k
      { HevcSes.clear with skip := (((s.sesReleased k).clearFields (sesClearedFields k)).ses k).skip } := rfl

theorem State.sesReleased_undisturbed (s : State) (k : Nat) : Undisturbed s (s.sesReleased k) :=
  Undisturbed.trans (t := s.put (F.HEVC_SES_DROPPED_dropped k) _) rfl (State.releaseBufs_frame _ _ _).2

theorem State.sesReleased_heldBufs (s : State) (k : Nat) : (s.sesReleased k).heldBufs k = [] := State.heldBufs_releaseBufs_all _ k

theorem State.sesReleased_dropped (s : State) {k : Nat} (hk : k < 64) : (s.sesReleased k).fld (F.HEVC_SES_DROPPED_dropped k)
    = ringDist (s.fld (F.HEVC_SES_SQ_TAIL_index k)) (s.fld (F.HEVC_SES_SQ_HEAD_index k)) := by
  have hpool : (F.HEVC_SES_DROPPED_dropped k).off ∉ poolRegs k := by
    apply not_mem_poolRegs <;> simp only [F.HEVC_SES_DROPPED_dropped, R.HEVC_SES_HELD, R.HEVC_POOL_STATUS] <;> omega
  rw [State.sesReleased, (State.releaseBufs_frame _ _ _).1.fld hpool (by simp only [F.HEVC_SES_DROPPED_dropped]; omega),
    State.fld_put_same _ _ _ (show (15 : Nat) < 32 by decide)]
  exact Nat.mod_eq_of_lt (Nat.mod_lt _ (by decide))

/-- The end of a reset: a session as after power-on but for the frame that it is consuming, with no buffer, its dropped descriptors
counted and its ring empty. -/
theorem State.sesResetEnd_leaves (s : State) {k : Nat} (hk : k < 64) :
    SameMemory s (s.sesResetEnd k) ∧ (s.sesResetEnd k).ses k = { HevcSes.clear with skip := (s.ses k).skip }
      ∧ (s.sesResetEnd k).heldBufs k = [] ∧ (∀ f ∈ sesClearedFields k, (s.sesResetEnd k).fld f = 0)
      ∧ (s.sesResetEnd k).rd (R.HEVC_SES_NEXT_SEQ k) = 0
      ∧ (s.sesResetEnd k).fld (F.HEVC_SES_DROPPED_dropped k)
        = ringDist (s.fld (F.HEVC_SES_SQ_TAIL_index k)) (s.fld (F.HEVC_SES_SQ_HEAD_index k)) := by
  have hquiet := (s.sesReleased_undisturbed k).trans ((s.sesReleased k).clearFields_frame (sesClearedFields k)).2
  have hregs : (s.sesResetEnd k).regs = ((s.sesReleased k).clearFields (sesClearedFields k)).regs := by
    rw [State.sesResetEnd_eq]
    exact State.setSes_regs ..
  have hcleared : ∀ f ∈ sesClearedFields k, (s.sesResetEnd k).fld f = 0 := fun f hf => by
    rw [State.fld_congr hregs]
    exact State.fld_clearFields _ hf (hi_lt_of_mem_sesClearedFields hf)
  refine ⟨?_, ?_, ?_, hcleared, ?_, ?_⟩
  · rw [State.sesResetEnd_eq]
    exact hquiet.sameMemory.trans (State.setSes_sameMemory _ _ _)
  · rw [State.sesResetEnd_eq, State.ses_setSes_same, hquiet.ses]
  · rw [State.heldBufs_congr (s := s.sesReleased k) fun n hn => ?_, State.sesReleased_heldBufs]
    refine (State.rd_congr hregs _).trans (((s.sesReleased k).clearFields_frame _).1 _ (not_mem_sesClearedFields_off (.inl ?_))
      (not_sendCounter (.inl ?_))) <;> simp only [R.HEVC_POOL_MARK] <;> omega
  · have hlt : (s.sesResetEnd k).rd (R.HEVC_SES_NEXT_SEQ k) < 2 ^ 32 := by
      rw [State.rd_congr hregs]
      exact State.rd_clearFields_lt _ _ _ (.inr (.tail _ (.tail _ (.head _))))
    rw [← Nat.mod_eq_of_lt hlt, ← State.fld_word]
    exact hcleared (F.HEVC_SES_NEXT_SEQ_value k) (.tail _ (.tail _ (.head _)))
  · rw [State.fld_congr hregs, State.fld_clearFields_off _ (not_mem_sesClearedFields_off (.inr rfl)), s.sesReleased_dropped hk]

/-! ## The reset (R304) -/

/-- A session with work in hand waits, and one without any ends its reset at once. -/
theorem State.sesReset_eq (s : State) (k : Nat) : s.sesReset k =
    if (s.ses k).busy then s.put (F.HEVC_SES_STATUS_resetting k) 1 else (s.put (F.HEVC_SES_STATUS_resetting k) 1).sesResetEnd k := by
  have hbit : (s.put (F.HEVC_SES_STATUS_resetting k) 1).bit (F.HEVC_SES_STATUS_resetting k) = true := by
    rw [State.bit, State.fld_put_same _ _ 1 (show (5 : Nat) < 32 by decide)]
    rfl
  have hnone : ((s.ses k).pic.isNone && (s.ses k).hold.isNone && (s.ses k).recs.isEmpty) = !(s.ses k).busy := by
    simp [HevcSes.busy, Bool.not_or]
  simp only [State.sesReset, State.sesResetCheck, hbit, Bool.true_and, State.ses_put, hnone]
  cases (s.ses k).busy <;> rfl

theorem hevcSessionReset_answers_reset {m : Master} {k : Nat} {v : Word} {h : Shape} {s : State} (hk : k < 64)
    (hshape : s.shape 11 k = some h) (ha : Admitted s m (R.HEVC_SES_CTRL k)) (hcommit : bitsOf v.toNat 0 0 = 0) :
    Answers (.hevcSessionReset m k v) s (settle (s.sesReset k)) := by
  have hset : bitsOf (putBits v.toNat 1 1 1) 1 1 = 1 := bitsOf_putBits_same ..
  have hno : putBits v.toNat 1 1 1 % 2 = 0 := by
    rw [← bitsOf_lowest, bitsOf_putBits_ne _ _ (.inl (by decide)), hcommit]
  have hans := answers_of_admitted (c := .hevcSessionReset m k v) ha (f := fun s => s.hevcCtrl k (putBits v.toNat 1 1 1)) (by
    show execHevcSessionReset m k v s = _
    rw [execHevcSessionReset, Nat.mod_eq_of_lt hk])
  simpa only [State.hevcCtrl, hshape, Option.isNone_some, Bool.false_eq_true, if_false, hset, if_true, hno, Nat.zero_ne_one] using hans

theorem hevcSessionReset_answers {m : Master} {k : Nat} {v : Word} {h : Shape} {s : State} (hk : k < 64) (hshape : s.shape 11 k = some h)
    (ha : Admitted s m (R.HEVC_SES_CTRL k)) (hcommit : bitsOf v.toNat 0 0 = 0) :
    ∃ t, Answers (.hevcSessionReset m k v) s t ∧ SameMemory s t ∧
      if (s.ses k).busy then t.fld (F.HEVC_SES_STATUS_resetting k) = 1 ∧ OnlyRegs [R.HEVC_SES_STATUS k] s t
      else t.ses k = { HevcSes.clear with skip := (s.ses k).skip } ∧ t.heldBufs k = [] ∧ (∀ f ∈ sesClearedFields k, t.fld f = 0)
        ∧ t.rd (R.HEVC_SES_NEXT_SEQ k) = 0 ∧ t.fld (F.HEVC_SES_DROPPED_dropped k)
          = ringDist (s.fld (F.HEVC_SES_SQ_TAIL_index k)) (s.fld (F.HEVC_SES_SQ_HEAD_index k)) := by
  refine ⟨_, hevcSessionReset_answers_reset hk hshape ha hcommit, ?_⟩
  have hframe : OnlyRegs [R.HEVC_SES_STATUS k] s (s.put (F.HEVC_SES_STATUS_resetting k) 1) := (OnlyRegs.refl _ s).put 1 (.head _)
  rw [State.sesReset_eq]
  cases hbusy : (s.ses k).busy with
  | true =>
    refine ⟨hframe.2.sameMemory.settle, ?_, hframe.settle⟩
    rw [if_pos rfl, settle_fld_session _ (o := 4) (by decide) hk rfl]
    exact State.fld_put_same _ _ 1 (show (5 : Nat) < 32 by decide)
  | false =>
    obtain ⟨hmem, hses, hheld, hcleared, hseq, hdropped⟩ := (s.put (F.HEVC_SES_STATUS_resetting k) 1).sesResetEnd_leaves hk
    simp only [Bool.false_eq_true, if_false]
    refine ⟨(hframe.2.sameMemory.trans hmem).settle, (settle_ses ..).trans hses, ?_, fun f hf => ?_, ?_, ?_⟩
    · refine (State.heldBufs_congr (fun n hn => settle_rd _ _ (not_sendCounter (.inl ?_))) k).trans hheld
      simp only [R.HEVC_POOL_MARK]
      omega
    · refine (settle_fld_rigging _ f ?_).trans (hcleared f hf)
      have hoff := List.mem_map_of_mem (f := Fld.off) hf
      simp only [sesClearedFields_off, R.HEVC_SES_SQ_HEAD, R.HEVC_SES_SQ_TAIL, R.HEVC_SES_NEXT_SEQ, R.HEVC_SES_GEN, R.HEVC_SES_GEN_PEND,
        R.HEVC_SES_STATUS, List.mem_cons, List.not_mem_nil, or_false] at hoff
      omega
    · refine (settle_rd _ _ (not_sendCounter (.inl ?_))).trans hseq
      simp only [R.HEVC_SES_NEXT_SEQ]
      omega
    · rw [settle_fld_session _ (o := 0xA0) (by decide) hk rfl, hdropped, State.fld_put_off, State.fld_put_off] <;>
        simp only [F.HEVC_SES_SQ_TAIL_index, F.HEVC_SES_SQ_HEAD_index, F.HEVC_SES_STATUS_resetting] <;> omega

/-! ## The submission tail (R299) -/

theorem hevcSqTail_answers {m : Master} {k : Nat} {v : Word} {h : Shape} {s : State} (hk : k < 64) (hshape : s.shape 11 k = some h)
    (ha : Admitted s m (R.HEVC_SES_SQ_TAIL k)) (hidle : s.fld (F.HEVC_SES_STATUS_resetting k) = 0) :
    ∃ t, Answers (.hevcSqTail m k v) s t ∧ OnlyRegs [R.HEVC_SES_SQ_TAIL k, R.HEVC_SES_STATUS k] s t ∧
      if ringDist (v.toNat % 65536) (s.fld (F.HEVC_SES_SQ_HEAD_index k)) ≤ s.sesRing k then
        t.fld (F.HEVC_SES_SQ_TAIL_index k) = v.toNat % 65536
      else t.fld (F.HEVC_SES_SQ_TAIL_index k) = s.fld (F.HEVC_SES_SQ_TAIL_index k) ∧ t.fld (F.HEVC_SES_STATUS_bad_tail k) = 1 := by
  have hans := answers_of_admitted (c := .hevcSqTail m k v) ha (f := fun s => s.hevcTail k v.toNat) (by
    show execHevcSqTail m k v s = _
    rw [execHevcSqTail, Nat.mod_eq_of_lt hk])
  simp only [State.hevcTail, hshape, Option.isNone_some, Bool.false_eq_true, if_false, State.bit_of_zero hidle] at hans
  refine ⟨_, hans, ?_⟩
  have htail : ∀ u : State, (settle u).fld (F.HEVC_SES_SQ_TAIL_index k) = u.fld (F.HEVC_SES_SQ_TAIL_index k) :=
    fun u => settle_fld_session u (o := 0x94) (by decide) hk rfl
  by_cases hfits : ringDist (v.toNat % 65536) (s.fld (F.HEVC_SES_SQ_HEAD_index k)) ≤ s.sesRing k
  · rw [if_pos hfits, if_neg (Nat.not_lt.mpr hfits)]
    exact ⟨(OnlyRegs.put (f := F.HEVC_SES_SQ_TAIL_index k) (.refl _ s) _ (.head _)).settle,
      (htail _).trans (s.fld_put_same _ _ (show (15 : Nat) < 32 by decide))⟩
  · rw [if_neg hfits, if_pos (Nat.lt_of_not_le hfits)]
    refine ⟨(OnlyRegs.put (f := F.HEVC_SES_STATUS_bad_tail k) (.refl _ s) 1 (.tail _ (.head _))).settle,
      (htail _).trans (s.fld_put_off _ _ 1 ?_), ?_⟩
    · simp only [F.HEVC_SES_SQ_TAIL_index, F.HEVC_SES_STATUS_bad_tail]
      omega
    · exact (settle_fld_session _ (o := 4) (by decide) hk rfl).trans (s.fld_put_same _ 1 (show (6 : Nat) < 32 by decide))

end Sys2Proof.Machine
end

section
/-! The reference pool's settings (R285, R286, R288) and the quotas (R287). -/
namespace Sys2Proof.Machine

/-! ## The pool disabled (R288) -/

/-- The pool is disabled and no buffer carries a mark. -/
def State.PoolEmpty (s : State) : Prop := s.fld F.HEVC_POOL_CTRL_enable = 0 ∧ ∀ n, n < 512 → s.rd (R.HEVC_POOL_MARK n) = 0

theorem State.fld_poolEnable_poolCounts (s : State) {k : Nat} (hk : k < 64) :
    (s.poolCounts k).fld F.HEVC_POOL_CTRL_enable = s.fld F.HEVC_POOL_CTRL_enable := by
  refine (s.poolCounts_frame k).1.fld ?_ (by decide)
  simp only [F.HEVC_POOL_CTRL_enable, R.HEVC_SES_HELD, R.HEVC_POOL_STATUS, List.mem_cons, List.not_mem_nil, or_false, not_or]
  omega

/-- No buffer of a disabled pool shows as free (R307). -/
theorem State.free_poolCounts_of_disabled {s : State} {k : Nat} (hk : k < 64) (h : s.fld F.HEVC_POOL_CTRL_enable = 0) :
    (s.poolCounts k).fld F.HEVC_POOL_STATUS_free = 0 := by
  have henable : (s.put (F.HEVC_SES_HELD_held k) (s.heldBufs k).length).bit F.HEVC_POOL_CTRL_enable = false := by
    refine State.bit_of_zero ((s.fld_put_off _ _ _ ?_).trans h)
    simp only [F.HEVC_POOL_CTRL_enable, F.HEVC_SES_HELD_held]
    omega
  rw [State.poolCounts, State.poolFree, henable]
  exact State.fld_put_same _ _ 0 (by decide)

theorem State.PoolEmpty.poolCounts {s : State} (h : s.PoolEmpty) {k : Nat} (hk : k < 64) : (s.poolCounts k).PoolEmpty :=
  ⟨(s.fld_poolEnable_poolCounts hk).trans h.1, fun n hn => (s.rd_poolCounts_mark k hn).trans (h.2 n hn)⟩

/-- The marks of the buffers of a list cleared where they are set. -/
def State.clearMarks (s : State) (l : List Nat) : State :=
  l.foldl (fun s n => if s.rd (R.HEVC_POOL_MARK n) = 0 then s else s.wr (R.HEVC_POOL_MARK n) 0) s

/-- The counts of the sessions of a list shown again where they show a buffer. -/
def State.clearHeld (s : State) (l : List Nat) : State :=
  l.foldl (fun s k => if s.fld (F.HEVC_SES_HELD_held k) = 0 then s else s.poolCounts k) s

theorem State.clearMarks_undisturbed (s : State) (l : List Nat) : Undisturbed s (s.clearMarks l) :=
  foldl_related (r := Undisturbed) (fun _ => rfl) Undisturbed.trans (fun u n => by split <;> rfl) l s

/-- A mark is cleared, and every other register stands. -/
theorem State.rd_clearMarks (s : State) (l : List Nat) (o : Nat) :
    (s.clearMarks l).rd o = if o ∈ l.map R.HEVC_POOL_MARK then 0 else s.rd o := by
  induction l generalizing s with
  | nil => rfl
  | cons n l ih =>
    have hfirst : (if s.rd (R.HEVC_POOL_MARK n) = 0 then s else s.wr (R.HEVC_POOL_MARK n) 0).rd o
        = if o = R.HEVC_POOL_MARK n then 0 else s.rd o := by
      by_cases ho : o = R.HEVC_POOL_MARK n
      · subst ho
        rw [if_pos rfl]
        split
        · assumption
        · exact State.rd_wr_same ..
      · rw [if_neg ho]
        split_ifs
        · rfl
        · exact s.rd_wr_ne 0 ho
    rw [State.clearMarks, List.foldl_cons, ← State.clearMarks, ih, hfirst]
    by_cases hl : o ∈ l.map R.HEVC_POOL_MARK <;> simp only [hl, List.map_cons, List.mem_cons, if_true, or_true, or_false, if_false]

/-- Every buffer loses its marks once the pool is disabled. -/
theorem State.clearMarks_poolEmpty (s : State) : ((s.put F.HEVC_POOL_CTRL_enable 0).clearMarks (List.range 512)).PoolEmpty := by
  refine ⟨?_, fun n hn => ?_⟩
  · rw [State.fld, State.rd_clearMarks, if_neg]
    · exact State.fld_put_same _ _ 0 (by decide)
    · simp only [List.mem_map, F.HEVC_POOL_CTRL_enable, R.HEVC_POOL_MARK]
      omega
  · rw [State.rd_clearMarks, if_pos (List.mem_map_of_mem (List.mem_range.mpr hn))]

/-- Showing the counts of a disabled pool again leaves it empty and shows none free. -/
theorem State.PoolEmpty.clearHeld {s : State} (h : s.PoolEmpty) (hfree : s.fld F.HEVC_POOL_STATUS_free = 0) {l : List Nat}
    (hl : ∀ k ∈ l, k < 64) : (s.clearHeld l).PoolEmpty ∧ (s.clearHeld l).fld F.HEVC_POOL_STATUS_free = 0 := by
  refine List.foldlRecOn (motive := fun u : State => u.PoolEmpty ∧ u.fld F.HEVC_POOL_STATUS_free = 0) l _ ⟨h, hfree⟩ ?_
  intro u hu k hk
  split
  · exact hu
  · exact ⟨hu.1.poolCounts (hl k hk), State.free_poolCounts_of_disabled (hl k hk) hu.1.1⟩

theorem State.clearHeld_undisturbed (s : State) (l : List Nat) : Undisturbed s (s.clearHeld l) := by
  refine foldl_related (r := Undisturbed) (fun _ => rfl) Undisturbed.trans (fun u k => ?_) l s
  split
  · rfl
  · exact (u.poolCounts_frame k).2

/-- A session that has lost its buffers. -/
def HevcSes.unbuffered (x : HevcSes) : HevcSes :=
  { x with refs := [], dpb := [], recs := x.recs.map (fun r => { r with pic := r.pic.map (fun p => { p with buf := 512 }) }) }

/-- The state with every session without buffers. -/
def State.unbuffered (s : State) : State := { s with hevc := ⟨s.hevc.ses.map (fun e => (e.1, e.2.unbuffered))⟩ }

theorem State.unbuffered_leaves (s : State) : (∀ o, s.unbuffered.rd o = s.rd o) ∧ SameMemory s s.unbuffered :=
  ⟨fun _ => rfl, .of_eq rfl rfl rfl rfl⟩

/-- The state once the pool is disabled, its marks cleared and the sessions without buffers. -/
def State.poolDropped (s : State) : State := ((s.put F.HEVC_POOL_CTRL_enable 0).clearMarks (List.range 512)).unbuffered

theorem State.poolDropped_leaves (s : State) : s.poolDropped.PoolEmpty ∧ SameMemory s s.poolDropped := by
  have hempty := s.clearMarks_poolEmpty
  have hmem := ((s.put F.HEVC_POOL_CTRL_enable 0).clearMarks_undisturbed (List.range 512)).sameMemory
  rw [State.poolDropped]
  generalize (s.put F.HEVC_POOL_CTRL_enable 0).clearMarks (List.range 512) = u at *
  obtain ⟨hrd, hsame⟩ := u.unbuffered_leaves
  refine ⟨⟨(congrArg (bitsOf · 0 0) (hrd _)).trans hempty.1, fun n hn => (hrd _).trans (hempty.2 n hn)⟩, ?_⟩
  exact (SameMemory.of_eq rfl rfl rfl rfl).trans (hmem.trans hsame)

theorem State.hevcPoolWrite_disables {s : State} {v : Nat} (hruns : s.anyRuns = false) (hv : v % 2 = 0) :
    s.hevcPoolWrite R.HEVC_POOL_CTRL v = (s.poolDropped.poolCounts 0).clearHeld (List.range 64) := by
  have hone : ¬ v % 2 = 1 := by omega
  simp only [State.hevcPoolWrite, hruns, Bool.false_eq_true, if_false, if_true, hone, State.clearHeld, State.poolDropped, State.unbuffered,
    State.clearMarks, HevcSes.unbuffered]

/-- Disabling the pool frees every buffer. -/
theorem State.hevcPoolWrite_disables_leaves {s : State} {v : Nat} (hruns : s.anyRuns = false) (hv : v % 2 = 0) :
    (s.hevcPoolWrite R.HEVC_POOL_CTRL v).PoolEmpty ∧ (s.hevcPoolWrite R.HEVC_POOL_CTRL v).fld F.HEVC_POOL_STATUS_free = 0
      ∧ SameMemory s (s.hevcPoolWrite R.HEVC_POOL_CTRL v) := by
  rw [State.hevcPoolWrite_disables hruns hv]
  obtain ⟨hempty, hmem⟩ := s.poolDropped_leaves
  obtain ⟨hempty', hfree⟩ := (hempty.poolCounts (k := 0) (by decide)).clearHeld
    (State.free_poolCounts_of_disabled (by decide) hempty.1) (l := List.range 64) (fun k => List.mem_range.mp)
  exact ⟨hempty', hfree, (hmem.trans (State.poolCounts_frame _ 0).2.sameMemory).trans (State.clearHeld_undisturbed _ _).sameMemory⟩

/-! ## The pool enabled (R285, R286) -/

/-- Enabling the pool takes effect where R285 holds, and shows bad_cfg otherwise. -/
theorem State.hevcPoolWrite_enables {s : State} {v : Nat} (hruns : s.anyRuns = false) (hv : v % 2 = 1) :
    s.hevcPoolWrite R.HEVC_POOL_CTRL v =
      if s.poolOk then (s.put F.HEVC_POOL_CTRL_enable 1).poolCounts 0 else s.put F.HEVC_POOL_STATUS_bad_cfg 1 := by
  simp only [State.hevcPoolWrite, hruns, Bool.false_eq_true, if_false, if_true, hv]

theorem hevcPoolEnable_answers {m : Master} {v : Word} {s : State} (ha : Admitted s m R.HEVC_POOL_CTRL) :
    ∃ t, Answers (.hevcPoolEnable m v) s t ∧ SameMemory s t ∧
      if s.anyRuns then t.fld F.HEVC_POOL_STATUS_bad_cfg = 1 ∧ OnlyRegs [R.HEVC_POOL_STATUS] s t
      else if v.toNat % 2 = 0 then t.fld F.HEVC_POOL_CTRL_enable = 0 ∧ t.fld F.HEVC_POOL_STATUS_free = 0
        ∧ ∀ n, n < 512 → t.rd (R.HEVC_POOL_MARK n) = 0
      else if s.poolOk then t.fld F.HEVC_POOL_CTRL_enable = 1
      else t.fld F.HEVC_POOL_CTRL_enable = s.fld F.HEVC_POOL_CTRL_enable ∧ t.fld F.HEVC_POOL_STATUS_bad_cfg = 1 := by
  refine ⟨_, answers_of_admitted (c := .hevcPoolEnable m v) ha (f := fun s => s.hevcPoolWrite R.HEVC_POOL_CTRL v.toNat) rfl, ?_⟩
  have hbad : OnlyRegs [R.HEVC_POOL_STATUS] s (s.put F.HEVC_POOL_STATUS_bad_cfg 1) := (OnlyRegs.refl _ s).put 1 (.head _)
  have hbadShown : (settle (s.put F.HEVC_POOL_STATUS_bad_cfg 1)).fld F.HEVC_POOL_STATUS_bad_cfg = 1 :=
    (settle_fld_rigging _ _ (by decide)).trans (s.fld_put_same _ 1 (by decide))
  split_ifs with hruns hoff hok
  · simp only [State.hevcPoolWrite, hruns, if_true]
    exact ⟨hbad.2.sameMemory.settle, hbadShown, hbad.settle⟩
  · obtain ⟨⟨henable, hmarks⟩, hfree, hmem⟩ := State.hevcPoolWrite_disables_leaves (Bool.eq_false_iff.mpr hruns) hoff
    refine ⟨hmem.settle, (settle_fld_rigging _ _ (by decide)).trans henable, (settle_fld_rigging _ _ (by decide)).trans hfree,
      fun n hn => (settle_rd _ _ (not_sendCounter (.inl ?_))).trans (hmarks n hn)⟩
    simp only [R.HEVC_POOL_MARK]
    omega
  · rw [State.hevcPoolWrite_enables (Bool.eq_false_iff.mpr hruns) (by omega), if_pos hok]
    refine ⟨(SameMemory.trans (t := s.put F.HEVC_POOL_CTRL_enable 1) (.of_eq rfl rfl rfl rfl)
      (State.poolCounts_frame _ 0).2.sameMemory).settle, ?_⟩
    rw [settle_fld_rigging _ _ (by decide), State.fld_poolEnable_poolCounts _ (by decide)]
    exact s.fld_put_same _ 1 (by decide)
  · rw [State.hevcPoolWrite_enables (Bool.eq_false_iff.mpr hruns) (by omega), if_neg hok]
    exact ⟨hbad.2.sameMemory.settle, hbad.settle.1.fld (by decide) (by decide), hbadShown⟩

/-! ## Quotas (R287) -/

/-- The sum of the quotas with that of one session replaced. -/
def State.quotaSum (s : State) (k quota : Nat) : Nat :=
  ((List.range 64).map (fun j => if j = k then quota else s.fld (F.HEVC_SES_QUOTA_quota j))).sum

/-- A quota within R287 is taken with the sum, and any other leaves the session's as it was. -/
theorem State.hevcQuota_leaves (s : State) {k : Nat} (v : Nat) (hk : k < 64) :
    OnlyRegs [R.HEVC_SES_QUOTA k, R.HEVC_POOL_STATUS] s (s.hevcQuota k v) ∧
      if v % 1024 ≤ 512 ∧ s.quotaSum k (v % 1024) ≤ s.fld F.HEVC_POOL_COUNT_count
          ∧ (genRuns (s.ses k).active k = true → (s.heldBufs k).length ≤ v % 1024) then
        (s.hevcQuota k v).fld (F.HEVC_SES_QUOTA_quota k) = v % 1024
          ∧ (s.hevcQuota k v).fld F.HEVC_POOL_STATUS_quota_sum = s.quotaSum k (v % 1024)
      else (s.hevcQuota k v).rd (R.HEVC_SES_QUOTA k) = s.rd (R.HEVC_SES_QUOTA k)
        ∧ (s.hevcQuota k v).fld F.HEVC_POOL_STATUS_quota_busy = 1 := by
  have hoff : (F.HEVC_SES_QUOTA_quota k).off ≠ F.HEVC_POOL_STATUS_quota_sum.off := by
    simp only [F.HEVC_SES_QUOTA_quota, F.HEVC_POOL_STATUS_quota_sum]
    omega
  have hcount : s.fld F.HEVC_POOL_COUNT_count < 2 ^ 10 := bitsOf_lt _ 9 0
  rw [State.hevcQuota, ← State.quotaSum]
  split_ifs with hbad hgood hgood
  · obtain ⟨hmost, hsum, hheld⟩ := hgood
    rcases hbad with h | h | ⟨hruns, h⟩
    · exact absurd hmost (Nat.not_le.mpr h)
    · exact absurd hsum (Nat.not_le.mpr h)
    · exact absurd (hheld hruns) (Nat.not_le.mpr h)
  · exact ⟨(OnlyRegs.refl _ s).put 1 (.tail _ (.head _)), s.rd_put_ne _ 1 hoff, s.fld_put_same _ 1 (by decide)⟩
  · refine ⟨(OnlyRegs.put (f := F.HEVC_SES_QUOTA_quota k) (.refl _ s) _ (.head _)).put _ (.tail _ (.head _)), ?_, ?_⟩
    · rw [State.fld_put_off _ _ _ _ hoff]
      exact (s.fld_put_same _ _ (show (9 : Nat) < 32 by decide)).trans (Nat.mod_mod ..)
    · exact (State.fld_put_same _ _ _ (by decide)).trans (Nat.mod_eq_of_lt (hgood.2.1.trans_lt hcount))
  · simp only [not_or, not_and, Nat.not_lt] at hbad
    exact absurd hbad hgood

theorem quotaWrite_answers {m : Master} {k : Nat} {v : Word} {h : Shape} {s : State} (hk : k < 64) (hshape : s.shape 11 k = some h)
    (ha : Admitted s m (R.HEVC_SES_QUOTA k)) :
    Answers (.quotaWrite m k v) s (settle (s.hevcQuota k v.toNat)) := by
  have hans := answers_of_admitted (c := .quotaWrite m k v) ha
    (f := fun s => if (s.shape 11 k).isNone then s.shapeMiss else s.hevcQuota k v.toNat) (by
    show execQuotaWrite m k v s = _
    rw [execQuotaWrite, Nat.mod_eq_of_lt hk])
  simpa only [hshape, Option.isNone_some, Bool.false_eq_true, if_false] using hans

/-! ## The settled statement -/

/-- Settles O46: each write reaches its operation on the session or on the pool, and the closing step moves none of their
registers. -/
theorem codingSessions : Obligations.CodingSessions := by
  unfold Obligations.CodingSessions
  intro m k v h s hk hshape
  refine ⟨hevcCommit_answers hk hshape, fun ha hcommit => ?_, hevcPoolEnable_answers, fun ha => ?_, hevcSqTail_answers hk hshape⟩
  · obtain ⟨t, hans, hmem, hshown⟩ := hevcSessionReset_answers hk hshape ha hcommit
    refine ⟨t, hans, hmem, ?_⟩
    split_ifs at hshown ⊢ with hbusy
    · exact hshown
    · obtain ⟨hses, hheld, hcleared, hseq, hdropped⟩ := hshown
      simp only [sesClearedFields, List.forall_mem_cons] at hcleared
      obtain ⟨hhead, htail, -, -, -, hrunning, -, hresetting, -⟩ := hcleared
      exact ⟨hses, hheld, hresetting, hrunning, hhead, htail, hseq, hdropped⟩
  · obtain ⟨hframe, hshown⟩ := s.hevcQuota_leaves v.toNat hk
    refine ⟨_, quotaWrite_answers hk hshape ha, hframe.settle, ?_⟩
    rw [settle_fld_session _ (o := 0x10) (by decide) hk rfl, settle_fld_rigging _ _ (by decide), settle_fld_rigging _ _ (by decide),
      settle_rd _ _ (not_sendCounter (.inl (by simp only [R.HEVC_SES_QUOTA]; omega)))]
    exact hshown

end Sys2Proof.Machine
end

section
/-! The work of a coding session on its pictures (R288, R297, R300): what records, references and the output of decoded pictures
move. -/
namespace Sys2Proof.Machine

/-! ## The session's own record -/

/-- What a session counts, and the picture that it works on. -/
def HevcSes.progress (x : HevcSes) : HevcGen × Nat × Nat × Option HevcPic := (x.active, x.pics, x.aus, x.pic)

/-- What queueing records, marking buffers and the output of decoded pictures leave alone: all but registers of the pool and the
sessions, whose counts and pictures in progress stay. -/
structure DpbWork (k : Nat) (s t : State) : Prop where
  frame : ∃ r h, t = { s with regs := r, hevc := h }
  regs : RegsBut (poolRegs k) s t
  progress : (t.ses k).progress = (s.ses k).progress

theorem DpbWork.refl (k : Nat) (s : State) : DpbWork k s s := ⟨⟨_, _, rfl⟩, .refl _ s, rfl⟩

theorem DpbWork.trans {k : Nat} {s t u : State} (h : DpbWork k s t) (g : DpbWork k t u) : DpbWork k s u := by
  obtain ⟨⟨r, v, rfl⟩, hregs, hprogress⟩ := h
  obtain ⟨⟨r', v', rfl⟩, gregs, gprogress⟩ := g
  exact ⟨⟨r', v', rfl⟩, hregs.trans gregs, gprogress.trans hprogress⟩

theorem DpbWork.foldl {α : Type} {k : Nat} {f : State → α → State} (hf : ∀ s x, DpbWork k s (f s x)) (l : List α) (s : State) :
    DpbWork k s (l.foldl f s) := foldl_related (.refl k) .trans hf l s

theorem DpbWork.setSes {k : Nat} {s t : State} (h : DpbWork k s t) {x : HevcSes} (hx : x.progress = (t.ses k).progress) :
    DpbWork k s (t.setSes k x) :=
  h.trans ⟨⟨_, _, rfl⟩, fun _ _ _ => rfl, (congrArg HevcSes.progress (t.ses_setSes_same k x)).trans hx⟩

theorem DpbWork.queueRec {k : Nat} {s t : State} (h : DpbWork k s t) (r : HevcRec) : DpbWork k s (t.queueRec k r) := h.setSes rfl

theorem State.markBuf_regs (s : State) (k n set clear : Nat) : ∃ r, s.markBuf k n set clear = { s with regs := r } := by
  unfold State.markBuf
  dsimp only
  split
  · exact ⟨_, rfl⟩
  · exact ⟨_, rfl⟩

@[simp] theorem State.ses_markBuf (s : State) (j n set clear k : Nat) : (s.markBuf j n set clear).ses k = s.ses k := by
  obtain ⟨r, h⟩ := s.markBuf_regs j n set clear
  rw [h]
  rfl

theorem State.markBuf_work (s : State) (k n set clear : Nat) : DpbWork k s (s.markBuf k n set clear) := by
  obtain ⟨r, h⟩ := s.markBuf_regs k n set clear
  exact ⟨⟨r, s.hevc, h⟩, (s.markBuf_frame k n set clear).1, congrArg HevcSes.progress (s.ses_markBuf k n set clear k)⟩

theorem State.dropRefs_work (s : State) (k : Nat) (l : List Nat) : DpbWork k s (s.dropRefs k l) :=
  .foldl (fun t n => t.markBuf_work k n 0 markShort) l s

@[simp] theorem State.ses_dropRefs (s : State) (j : Nat) (l : List Nat) (k : Nat) : (s.dropRefs j l).ses k = s.ses k :=
  foldl_keeps (fun u : State => u.ses k) (fun u n => u.ses_markBuf j n 0 markShort k) l s

/-! ## The decoded picture buffer (R297) -/

theorem State.bump1_work (s : State) (k : Nat) : DpbWork k s (s.bump1 k) := by
  unfold State.bump1
  dsimp only
  split
  · exact .refl k s
  · refine DpbWork.queueRec (DpbWork.setSes (.refl k s) ?_) _
    rfl

theorem State.pruneDpb_work (s : State) (k : Nat) : DpbWork k s (s.pruneDpb k) := by
  refine DpbWork.setSes (.refl k s) ?_
  rfl

theorem State.bumpWhile_work (k : Nat) (test : List DecPic → Bool) (n : Nat) (s : State) : DpbWork k s (State.bumpWhile k test n s) := by
  induction n generalizing s with
  | zero => exact .refl k s
  | succ n ih =>
    unfold State.bumpWhile
    split
    · exact ((s.bump1_work k).trans (State.pruneDpb_work _ k)).trans (ih _)
    · exact .refl k s

/-- A decoded picture that is taken is the picture in progress, after work on the decoded picture buffer alone (R297, R302). -/
theorem State.decodePrepare_work (s : State) (k : Nat) (p : HevcPic) :
    ∃ u x q, DpbWork k s u ∧ s.decodePrepare k p = u.setSes k x ∧ x.progress = ((u.ses k).active, (u.ses k).pics, (u.ses k).aus, some q) := by
  unfold State.decodePrepare
  dsimp only
  split
  · refine ⟨_, _, p, ?_, rfl, rfl⟩
    refine DpbWork.trans (DpbWork.trans ?_ (DpbWork.foldl (fun t (q : DecPic) => t.markBuf_work k q.buf 0 (markShort + markLong)) (s.ses k).dpb _))
      (State.pruneDpb_work _ k)
    split
    · refine .foldl (fun t (q : DecPic) => DpbWork.queueRec (DpbWork.setSes (t.markBuf_work k q.buf 0 markOut) ?_) _) _ s
      rw [State.ses_markBuf]
      rfl
    · exact State.bumpWhile_work k _ _ s
  · exact ⟨_, _, _, ((DpbWork.foldl (fun t (q : DecPic) => t.markBuf_work k q.buf _ _) (s.ses k).dpb s).trans (State.pruneDpb_work _ k)).trans
      (State.bumpWhile_work k _ _ _), rfl, rfl⟩

end Sys2Proof.Machine
end

section
/-! What taking an input changes in a coding session (R283, R284, R290, R296, R297, R301): its binding, its start and its count. -/
namespace Sys2Proof.Machine

/-! ## Registers of a session -/

/-- The registers that work on an input moves, beside the ring's index and the counter of discarded pictures. -/
def sesWorkRegs (k : Nat) : List Nat :=
  [R.HEVC_SES_GEN k, R.HEVC_SES_STATUS k, R.HEVC_SES_SEI_BAD k, R.RIG_JNL_RING_DROP] ++ poolRegs k

theorem not_mem_sesWorkRegs {k o : Nat} (hlow : 0xA1000 ≤ o) (hgen : o ≠ R.HEVC_SES_GEN k) (hstatus : o ≠ R.HEVC_SES_STATUS k)
    (hsei : o ≠ R.HEVC_SES_SEI_BAD k) (hheld : o ≠ R.HEVC_SES_HELD k) : o ∉ sesWorkRegs k := by
  simp only [sesWorkRegs, List.mem_append, List.mem_cons, List.not_mem_nil, or_false, hgen, hstatus, hsei, false_or, R.RIG_JNL_RING_DROP,
    not_or]
  exact ⟨by omega, not_mem_poolRegs hheld (by simp only [R.HEVC_POOL_STATUS]; omega) (.inr hlow)⟩

/-- The ring's index and the counter of discarded pictures stay as they are while other registers of the session move. -/
theorem sqHead_not_mem_sesWorkRegs (k : Nat) : R.HEVC_SES_SQ_HEAD k ∉ sesWorkRegs k := by
  apply not_mem_sesWorkRegs <;>
    simp only [R.HEVC_SES_SQ_HEAD, R.HEVC_SES_GEN, R.HEVC_SES_STATUS, R.HEVC_SES_SEI_BAD, R.HEVC_SES_HELD] <;> omega

@[inherit_doc sqHead_not_mem_sesWorkRegs]
theorem discarded_not_mem_sesWorkRegs (k : Nat) : R.HEVC_SES_DISCARDED k ∉ sesWorkRegs k := by
  apply not_mem_sesWorkRegs <;>
    simp only [R.HEVC_SES_DISCARDED, R.HEVC_SES_GEN, R.HEVC_SES_STATUS, R.HEVC_SES_SEI_BAD, R.HEVC_SES_HELD] <;> omega

/-! ## Work on an input -/

/-- What work on an input leaves alone: all but registers, sessions, the journal and free values; a reset that waits goes on
waiting. -/
structure SesWork (k : Nat) (s t : State) : Prop where
  frame : ∃ r h j f, t = { s with regs := r, hevc := h, jnl := j, freeCtr := f }
  regs : RegsBut (sesWorkRegs k) s t
  resetting : t.fld (F.HEVC_SES_STATUS_resetting k) = s.fld (F.HEVC_SES_STATUS_resetting k)

theorem SesWork.refl (k : Nat) (s : State) : SesWork k s s := ⟨⟨_, _, _, _, rfl⟩, .refl _ s, rfl⟩

theorem SesWork.trans {k : Nat} {s t u : State} (h : SesWork k s t) (g : SesWork k t u) : SesWork k s u := by
  obtain ⟨⟨r, v, j, f, rfl⟩, hregs, hresetting⟩ := h
  obtain ⟨⟨r', v', j', f', rfl⟩, gregs, gresetting⟩ := g
  exact ⟨⟨r', v', j', f', rfl⟩, hregs.trans gregs, gresetting.trans hresetting⟩

theorem SesWork.sameMemory {k : Nat} {s t : State} (h : SesWork k s t) : SameMemory s t := by
  obtain ⟨⟨r, v, j, f, rfl⟩, -⟩ := h
  exact .of_eq rfl rfl rfl rfl

theorem SesWork.rig {k : Nat} {s t : State} (h : SesWork k s t) : t.rig = s.rig := by
  obtain ⟨⟨r, v, j, f, rfl⟩, -⟩ := h
  rfl

theorem SesWork.setSes {k : Nat} {s t : State} (h : SesWork k s t) (x : HevcSes) : SesWork k s (t.setSes k x) :=
  h.trans ⟨⟨_, _, _, _, rfl⟩, fun _ _ _ => rfl, rfl⟩

/-- A field of a register apart from that of the reset, or beside it in the same register, is stored. -/
theorem SesWork.put {k : Nat} {s t : State} (h : SesWork k s t) {f : Fld} (v : Nat) (hf : f.off ∈ sesWorkRegs k)
    (hapart : f.off ≠ R.HEVC_SES_STATUS k ∨ (f.off = R.HEVC_SES_STATUS k ∧ (5 < f.lo ∨ f.hi < 5))) : SesWork k s (t.put f v) := by
  refine h.trans ⟨⟨_, _, _, _, rfl⟩, (RegsBut.refl _ t).put v hf, ?_⟩
  rcases hapart with hoff | ⟨hoff, hbits⟩
  · exact t.fld_put_off _ _ v hoff.symm
  · exact t.fld_put_ne _ _ v hoff.symm (show (5 : Nat) < 32 by decide) hbits

theorem SesWork.unblock {k : Nat} {s t : State} (h : SesWork k s t) (kind target unit frame : Nat) :
    SesWork k s (t.unblock kind target unit frame) := h.trans ⟨⟨_, _, _, _, rfl⟩, fun _ _ _ => rfl, rfl⟩

theorem SesWork.jnlWrite {k : Nat} {s t : State} (h : SesWork k s t) (kind target unit frame a b c : Nat) (replayed override : Bool) :
    SesWork k s (t.jnlWrite kind target unit frame a b c replayed override) := by
  obtain ⟨⟨r, q, l, hd, sl, f, hw⟩, -, hrd⟩ := t.jnlWrite_writes kind target unit frame a b c replayed override
  have hstatus : R.HEVC_SES_STATUS k ≠ R.RIG_JNL_RING_DROP := by simp only [R.HEVC_SES_STATUS, R.RIG_JNL_RING_DROP]; omega
  refine h.trans ⟨⟨r, _, _, _, hw⟩, fun o ho _ => hrd o fun e => ho ?_, congrArg (bitsOf · 5 5) (hrd _ hstatus)⟩
  exact List.mem_append_left _ (e ▸ .tail _ (.tail _ (.tail _ (.head _))))

@[simp] theorem State.ses_jnlWrite (s : State) (kind target unit frame a b c : Nat) (replayed override : Bool) (k : Nat) :
    (s.jnlWrite kind target unit frame a b c replayed override).ses k = s.ses k := by
  obtain ⟨r, q, l, hd, sl, f, hw⟩ := (s.jnlWrite_writes kind target unit frame a b c replayed override).frame
  rw [hw]
  rfl

theorem DpbWork.sesWork {k : Nat} {s t : State} (hk : k < 64) (h : DpbWork k s t) : SesWork k s t := by
  obtain ⟨⟨r, v, rfl⟩, hregs, -⟩ := h
  refine ⟨⟨r, v, s.jnl, s.freeCtr, rfl⟩, hregs.mono (List.subset_append_right ..), hregs.fld ?_ ?_⟩
  · apply not_mem_poolRegs <;> simp only [F.HEVC_SES_STATUS_resetting, R.HEVC_SES_HELD, R.HEVC_POOL_STATUS] <;> omega
  · simp only [F.HEVC_SES_STATUS_resetting]
    omega

/-! ## The binding of a picture (R283) -/

/-- No kind of decision is another unit's while nothing is followed. -/
theorem Leads.ruling {s : State} (h : Leads s) (kind target unit frame t : Nat) (cls : Option (Nat × Nat)) (own : Bool) :
    s.ruling kind target unit frame t cls own = .locally := by
  simp [State.ruling, h.follows]

/-- The next picture bound to the newest generation that is pending, and the binding noted in the journal. -/
def State.bindNewest (s : State) (k : Nat) : State := (s.hevcBind k ((s.ses k).pend.length - 1)).hevcNoted k 0

theorem State.hevcTake_leads {s : State} (h : Leads s) (k : Nat) (sh : Shape) (inp : HevcIn) (force : Bool) :
    s.hevcTake k sh inp force = (s.bindNewest k).hevcStart k sh inp 0 := by
  simp only [State.hevcTake, State.hevcDecide, h.ruling, State.bindNewest]

/-- The newest entry written is among those remembered. -/
def NewestKept (s t : State) : Prop := ∀ e, s.jnl.applied.head? = some e → e ∈ t.jnl.applied

theorem NewestKept.of_eq {s t : State} (h : t.jnl.applied = s.jnl.applied) : NewestKept s t := fun _ he => h ▸ List.mem_of_mem_head? he

/-- One more entry does not push it out. -/
theorem State.jnlWrite_newestKept (s : State) {kind : Nat} (target unit frame a b c : Nat) (replayed override : Bool) (hk : kind ≠ 9) :
    NewestKept s (s.jnlWrite kind target unit frame a b c replayed override) := by
  intro e he
  rw [(s.jnlWrite_writes kind target unit frame a b c replayed override).applied hk, List.take_succ_cons]
  obtain ⟨l, hl⟩ : ∃ l, s.jnl.applied = e :: l := ⟨_, List.eq_cons_of_mem_head? he⟩
  rw [hl, List.take_succ_cons]
  exact .tail _ (.head _)

/-- A session bound to its newest generation is `t`, where it was `s`. -/
structure BoundNewest (k : Nat) (s t : State) : Prop where
  work : SesWork k s t
  ses : ∃ n w l, t.ses k = { s.ses k with active := (s.ses k).nextBank, pend := [], needIdr := n, waitIrap := w, lastGen := l }
  newest : NewestKept s t

theorem State.hevcBind_newest (s : State) (k : Nat) : BoundNewest k s (s.hevcBind k ((s.ses k).pend.length - 1))
    ∧ (s.hevcBind k ((s.ses k).pend.length - 1)).jnl = s.jnl := by
  unfold State.hevcBind
  dsimp only
  split
  · next hnone =>
    have hnil : (s.ses k).pend = [] := by
      rw [List.getElem?_eq_none_iff] at hnone
      exact List.length_eq_zero_iff.mp (by omega)
    refine ⟨⟨.refl k s, ⟨(s.ses k).needIdr, (s.ses k).waitIrap, (s.ses k).lastGen, ?_⟩, .of_eq rfl⟩, rfl⟩
    have hactive : (s.ses k).nextBank = (s.ses k).active := by rw [HevcSes.nextBank, hnil]; rfl
    rw [hactive, ← hnil]
  · next g hg =>
    have hactive : (s.ses k).nextBank = g := by rw [HevcSes.nextBank, List.getLast?_eq_getElem?, hg]; rfl
    have hrest : (s.ses k).pend.drop ((s.ses k).pend.length - 1 + 1) = [] := List.drop_eq_nil_of_le (by omega)
    have hgen : (F.HEVC_SES_GEN_value k).off ≠ R.HEVC_SES_STATUS k := by
      simp only [F.HEVC_SES_GEN_value, R.HEVC_SES_STATUS]
      omega
    subst hactive
    rw [hrest, List.isEmpty_nil, if_pos rfl]
    refine ⟨⟨?_, ⟨_, _, _, State.ses_setSes_same ..⟩, .of_eq rfl⟩, rfl⟩
    have hshown (x : HevcSes) := ((SesWork.refl k s).setSes x).put (s.ses k).nextBank.num (.head _) (.inl hgen)
    have hcommitted (x : HevcSes) := (hshown x).put (f := F.HEVC_SES_STATUS_commit_state k) 2 (.tail _ (.head _))
      (.inr ⟨rfl, .inr (by decide : 3 < 5)⟩)
    exact (hcommitted _).put (f := F.HEVC_SES_STATUS_running k) _ (.tail _ (.head _)) (.inr ⟨rfl, .inr (by decide : 4 < 5)⟩)

theorem State.hevcNoted_local (s : State) (k : Nat) : SesWork k s (s.hevcNoted k 0)
    ∧ (∃ l, (s.hevcNoted k 0).ses k = { s.ses k with lastGen := l }) ∧ NewestKept s (s.hevcNoted k 0) := by
  have hwork (u : State) (hu : SesWork k s u) (hses : u.ses k = s.ses k) (hnew : NewestKept s u) (l : Nat) :
      let t := (u.setSes k { u.ses k with lastGen := l }).unblock 7 3 k (s.ses k).pics
      SesWork k s t ∧ (∃ l, t.ses k = { s.ses k with lastGen := l }) ∧ NewestKept s t :=
    ⟨(hu.setSes _).unblock .., ⟨l, by rw [← hses]; exact State.ses_setSes_same ..⟩, hnew⟩
  simp only [State.hevcNoted, Nat.reduceEqDiff, if_false, true_and]
  split
  · exact hwork _ ((SesWork.refl k s).jnlWrite ..) (State.ses_jnlWrite ..) (s.jnlWrite_newestKept _ _ _ _ _ _ _ _ (by decide)) _
  · exact hwork s (.refl k s) rfl (.of_eq rfl) _

theorem State.bindNewest_bound (s : State) (k : Nat) : BoundNewest k s (s.bindNewest k) := by
  obtain ⟨⟨hwork, ⟨n, w, l, hses⟩, -⟩, hjnl⟩ := s.hevcBind_newest k
  obtain ⟨gwork, ⟨l', gses⟩, gnew⟩ := (s.hevcBind k ((s.ses k).pend.length - 1)).hevcNoted_local k
  refine ⟨hwork.trans gwork, ⟨n, w, l', ?_⟩, fun e he => gnew e ?_⟩
  · rw [State.bindNewest, gses, hses]
  · rw [hjnl]
    exact he

end Sys2Proof.Machine
end

section
/-! A taken input goes to work (R284, R290, R296, R297, R299): it is discarded, refused, or becomes the picture in progress. -/
namespace Sys2Proof.Machine

/-! ## Counting a picture (R283, R580) -/

/-- What a session counts beside its records. -/
def HevcSes.counts (x : HevcSes) : HevcGen × Nat × Nat := (x.active, x.pics, x.aus)

/-- Work on an input before its picture is counted: neither the journal nor the session's counts move. -/
structure Readied (k : Nat) (s t : State) : Prop where
  work : SesWork k s t
  jnl : t.jnl = s.jnl
  counts : (t.ses k).counts = (s.ses k).counts

theorem Readied.refl (k : Nat) (s : State) : Readied k s s := ⟨.refl k s, rfl, rfl⟩

theorem Readied.trans {k : Nat} {s t u : State} (h : Readied k s t) (g : Readied k t u) : Readied k s u :=
  ⟨h.work.trans g.work, g.jnl.trans h.jnl, g.counts.trans h.counts⟩

theorem Readied.setSes {k : Nat} {s t : State} (h : Readied k s t) {x : HevcSes} (hx : x.counts = (t.ses k).counts) :
    Readied k s (t.setSes k x) :=
  h.trans ⟨(SesWork.refl k t).setSes x, rfl, (congrArg HevcSes.counts (t.ses_setSes_same k x)).trans hx⟩

theorem Readied.put {k : Nat} {s t : State} (h : Readied k s t) {f : Fld} (v : Nat) (hf : f.off ∈ sesWorkRegs k)
    (hapart : f.off ≠ R.HEVC_SES_STATUS k ∨ (f.off = R.HEVC_SES_STATUS k ∧ (5 < f.lo ∨ f.hi < 5))) : Readied k s (t.put f v) :=
  h.trans ⟨(SesWork.refl k t).put v hf hapart, rfl, rfl⟩

theorem Readied.unsupported {k : Nat} {s t : State} (h : Readied k s t) (v : Nat) :
    Readied k s (t.put (F.HEVC_SES_STATUS_unsupported k) v) := h.put v (.tail _ (.head _)) (.inr ⟨rfl, .inl (by decide : 5 < 8)⟩)

theorem Readied.seiBad {k : Nat} {s t : State} (h : Readied k s t) (n : Nat) : Readied k s (t.bump (F.HEVC_SES_SEI_BAD_count k) n) :=
  h.put _ (.tail _ (.tail _ (.head _))) (.inl (by simp only [F.HEVC_SES_SEI_BAD_count, R.HEVC_SES_STATUS]; omega))

theorem Readied.queueRec {k : Nat} {s t : State} (h : Readied k s t) (r : HevcRec) : Readied k s (t.queueRec k r) := h.setSes rfl

theorem DpbWork.readied {k : Nat} {s t : State} (hk : k < 64) (h : DpbWork k s t) : Readied k s t := by
  refine ⟨h.sesWork hk, ?_, congrArg (fun p => (p.1, p.2.1, p.2.2.1)) h.progress⟩
  obtain ⟨r, v, rfl⟩ := h.frame
  rfl

/-- Work on an input whose picture has been counted. -/
structure Counted (k : Nat) (s t : State) : Prop where
  work : SesWork k s t
  applied : t.jnl.applied = s.jnl.applied
  active : (t.ses k).active = (s.ses k).active
  pics : (t.ses k).pics = ((s.ses k).pics + 1) % 2 ^ 32
  aus : (t.ses k).aus = (s.ses k).aus

/-- A seal is no decision that is remembered. -/
theorem State.seal_applied (s : State) (cls unit frame : Nat) : (s.seal cls unit frame).jnl.applied = s.jnl.applied := by
  simp only [State.seal, State.jnlWrite, if_true]
  split_ifs <;> rfl

theorem State.ses_countPicture (s : State) (k : Nat) : (s.countPicture k).ses k = { s.ses k with pics := ((s.ses k).pics + 1) % 2 ^ 32 } :=
  (State.ses_jnlWrite ..).trans (State.ses_setSes_same ..)

theorem Readied.counted {k : Nat} {s t : State} (h : Readied k s t) : Counted k s (t.countPicture k) := by
  obtain ⟨hactive, hpics, haus⟩ : (t.ses k).active = (s.ses k).active ∧ (t.ses k).pics = (s.ses k).pics ∧ (t.ses k).aus = (s.ses k).aus := by
    simpa [HevcSes.counts] using h.counts
  refine ⟨(h.work.setSes _).jnlWrite .., (State.seal_applied ..).trans (congrArg (fun j => j.applied) h.jnl), ?_, ?_, ?_⟩ <;>
    simp only [State.ses_countPicture, hactive, hpics, haus]

/-! ## The end of a descriptor (R299) -/

/-- The head of a session's submission ring moves on. -/
def State.headOn (s : State) (k : Nat) : State :=
  s.put (F.HEVC_SES_SQ_HEAD_index k) ((s.fld (F.HEVC_SES_SQ_HEAD_index k) + 1) % 65536)

theorem State.fld_headOn (s : State) (k : Nat) :
    (s.headOn k).fld (F.HEVC_SES_SQ_HEAD_index k) = (s.fld (F.HEVC_SES_SQ_HEAD_index k) + 1) % 65536 :=
  (s.fld_put_same _ _ (show (15 : Nat) < 32 by decide)).trans (Nat.mod_mod ..)

/-- An input that came by a strand has no descriptor. -/
def State.passInput (s : State) (k : Nat) (inp : HevcIn) : State := if inp.strand then s else s.headOn k

/-! ## Starting (R284) -/

section Starting
variable {s : State} {k : Nat} {sh : Shape} {inp : HevcIn} {how : Nat}

/-- The state once an input is discarded, but for its descriptor. -/
def State.discardInput (s : State) (k : Nat) : State :=
  (((s.setSes k { s.ses k with hold := none }).bump (F.HEVC_SES_DISCARDED_count k) 1).setSes k
    { (s.setSes k { s.ses k with hold := none }).ses k with needIdr := true, waitIrap := true }).countPicture k

theorem State.discardInput_counted (s : State) (k : Nat) : Counted k (s.bump (F.HEVC_SES_DISCARDED_count k) 1) (s.discardInput k)
    ∧ ((s.discardInput k).ses k).pic = (s.ses k).pic ∧ ((s.discardInput k).ses k).recs = (s.ses k).recs := by
  have hready : Readied k (s.bump (F.HEVC_SES_DISCARDED_count k) 1)
      ((s.bump (F.HEVC_SES_DISCARDED_count k) 1).setSes k { s.ses k with hold := none }) := .setSes (.refl ..) rfl
  refine ⟨Readied.counted (.setSes hready ?_), ?_, ?_⟩
  · rw [State.ses_setSes_same, State.ses_setSes_same]
    rfl
  · rw [State.discardInput, State.ses_countPicture, State.ses_setSes_same, State.ses_setSes_same]
  · rw [State.discardInput, State.ses_countPicture, State.ses_setSes_same, State.ses_setSes_same]

/-- An input bound to a generation that does not run is discarded (R284). -/
theorem State.hevcStart_discards (hg : genRuns (s.ses k).active k = false) : s.hevcStart k sh inp how =
    let t := (s.discardInput k).passInput k inp
    if inp.strand && !sh.decodes then t.setSes k { t.ses k with skip := true } else t := by
  unfold State.hevcStart
  simp only [hg, Bool.not_false, if_true]
  rfl

/-- A refused access unit: its record is queued, and its picture counted. -/
theorem Readied.refused {u : State} (h : Readied k s u) (ctx : Nat) (r : HevcRec) :
    Counted k s (((u.setSes k { u.ses k with ctx := ctx }).queueRec k r).countPicture k) :=
  Readied.counted (.queueRec (.setSes h (x := { u.ses k with ctx := ctx }) rfl) r)

/-- An access unit that becomes the picture in progress. -/
theorem Readied.prepared {u : State} (hk : k < 64) (h : Readied k s u) (p : HevcPic) :
    Counted k s (((u.decodePrepare k p).put (F.HEVC_SES_STATUS_unsupported k) 0).countPicture k) := by
  obtain ⟨v, y, q, hwork, heq, hy⟩ := u.decodePrepare_work k p
  rw [heq]
  exact Readied.counted (.unsupported (.setSes (h.trans (hwork.readied hk)) (congrArg (fun p => (p.1, p.2.1, p.2.2.1)) hy)) 0)

/-- `t` is the state once an input has gone to work from `s`: its picture has been counted, and its descriptor, where it has one,
taken. -/
def Started (k : Nat) (inp : HevcIn) (s t : State) : Prop := ∃ u, t = u.passInput k inp ∧ Counted k s u

/-- An access unit is refused with a record, or its picture is in progress; either takes a count (R296, R297). -/
theorem State.hevcStart_decodes (hk : k < 64) (hg : genRuns (s.ses k).active k = true) (hd : sh.decodes = true) :
    Started k inp s (s.hevcStart k sh inp how) := by
  unfold State.hevcStart
  extract_lets x g e idle passed skip mk pic us y0 discarded i flagged irap flags fresh noRasl refuse y readied
  have hidle : Readied k s idle := .setSes (.refl k s) (x := { x with hold := none }) rfl
  have hflagged : Readied k s flagged := hidle.seiBad _
  have hrefused (u : State) (hu : Readied k s u) (st : Nat) : Started k inp s (refuse u st) := ⟨_, rfl, hu.refused ..⟩
  rw [if_neg (show ¬ (!genRuns g k) = true by simp [g, x, hg]), if_pos hd]
  split
  · exact hrefused flagged hflagged 5
  split
  · exact hrefused _ (hflagged.unsupported 1) 3
  split
  · exact hrefused flagged hflagged 5
  split
  · exact hrefused flagged hflagged 5
  · have hready : Readied k s readied := .setSes hflagged rfl
    exact ⟨_, rfl, hready.prepared hk _⟩

/-- Whether the frame of an input has the format and size of a bank (R290). -/
def HevcIn.fits (inp : HevcIn) (e : EncBank) : Bool :=
  !(inp.fmt != (if e.chroma = 1 then 4 else 6) || inp.width != e.width || inp.height != e.height)

/-- A frame that does not have the session's format is consumed with a record (R290). -/
theorem State.hevcStart_mismatch (hg : genRuns (s.ses k).active k = true) (hd : sh.decodes = false) (hs : inp.strand = true)
    (hfit : inp.fits (encBank (s.ses k).active.regs k) = false) :
    ∃ r, r.status = 4 ∧ SesWork k s (s.hevcStart k sh inp how)
      ∧ (s.hevcStart k sh inp how).ses k = { s.ses k with hold := none, skip := true, recs := (s.ses k).recs ++ [r] } := by
  unfold State.hevcStart
  extract_lets x g e idle passed skip mk pic us y0 discarded i flagged irap flags fresh noRasl refuse y readied prepared r
  have hbad : (inp.strand && (inp.fmt != (if e.chroma = 1 then 4 else 6) || inp.width != e.width || inp.height != e.height)) = true := by
    rw [hs, Bool.true_and]
    simpa only [HevcIn.fits, Bool.not_eq_false'] using hfit
  rw [if_neg (show ¬ (!genRuns g k) = true by simp [g, x, hg]), if_neg (show ¬ sh.decodes = true by simp [hd]), if_pos hbad]
  have hskip (u : State) : skip u = u.setSes k { u.ses k with skip := true } := if_pos (by simp [hs, hd])
  have hwork : SesWork k s r.2 := ((SesWork.refl k s).setSes _).trans ⟨⟨_, _, _, _, rfl⟩, fun _ _ _ => rfl, rfl⟩
  have hses : r.2.ses k = { s.ses k with hold := none } := State.ses_setSes_same ..
  refine ⟨r.1, rfl, ?_, ?_⟩
  · rw [hskip]
    exact (hwork.setSes _).setSes _
  · rw [hskip, State.ses_setSes_same, State.queueRec, State.ses_setSes_same, hses]

end Starting

end Sys2Proof.Machine
end

section
/-! A picture to encode starts (R284, R290, R292), and what a read of DRAM by a session leaves alone (R476, R481). -/
namespace Sys2Proof.Machine

/-! ## Reads of DRAM -/

theorem DramServed.hevc {s t : State} (h : DramServed s t) : t.hevc = s.hevc := by
  obtain ⟨-, r, m, d, o, rfl⟩ := h
  rfl

theorem DramServed.jnl {s t : State} (h : DramServed s t) : t.jnl = s.jnl := by
  obtain ⟨-, r, m, d, o, rfl⟩ := h
  rfl

theorem State.meetPoison_served (s : State) (lines : List Nat) : DramServed s (s.meetPoison lines) := by
  obtain ⟨h, r, p, e⟩ := s.meetPoison_frame lines
  exact ⟨h, r, _, s.dram, s.out, e⟩

theorem State.dramFetch_served (s : State) (a n : Nat) : DramServed s (s.dramFetch a n).2.2 :=
  (s.dramTurn_served a n).trans (State.meetPoison_served _ _)

/-- Recording poisoned lines queues nothing. -/
theorem DramIdle.meetPoison {s : State} (h : DramIdle s) (lines : List Nat) : DramIdle (s.meetPoison lines) := by
  obtain ⟨-, r, p, e⟩ := s.meetPoison_frame lines
  rw [e]
  exact h

theorem DramIdle.dramFetch {s : State} (h : DramIdle s) (a n : Nat) : DramIdle (s.dramFetch a n).2.2 :=
  (s.dramTurn_idle a n h).1.meetPoison _

/-! ## Work that also reads DRAM -/

/-- What work on an input leaves alone that also reads DRAM: other registers, and with nothing queued there every memory. -/
structure MemWork (k : Nat) (s t : State) : Prop where
  regs : RegsBut (sesWorkRegs k ++ dramErrRegs) s t
  idle : DramIdle s → DramIdle t ∧ SameMemory s t

theorem MemWork.trans {k : Nat} {s t u : State} (h : MemWork k s t) (g : MemWork k t u) : MemWork k s u :=
  ⟨h.regs.trans g.regs, fun hs => ⟨(g.idle (h.idle hs).1).1, (h.idle hs).2.trans (g.idle (h.idle hs).1).2⟩⟩

theorem SesWork.memWork {k : Nat} {s t : State} (h : SesWork k s t) : MemWork k s t := by
  refine ⟨h.regs.mono (List.subset_append_left ..), fun hs => ⟨?_, h.sameMemory⟩⟩
  obtain ⟨r, v, j, f, rfl⟩ := h.frame
  exact hs

theorem State.dramFetch_memWork (s : State) (k a n : Nat) : MemWork k s (s.dramFetch a n).2.2 := by
  refine ⟨(s.dramFetch_served a n).1.mono (List.subset_append_right ..), fun hs => ⟨hs.dramFetch a n, ?_⟩⟩
  obtain ⟨-, -, -, r, m, h⟩ := s.dramFetch_idle a n hs
  rw [h]
  exact .of_eq rfl rfl rfl rfl

/-- A job that begins moves the rigging's list of old work alone. -/
theorem State.workBegins_memWork (s : State) (k engine c : Nat) (old : Bool) : MemWork k s (s.workBegins engine c old) :=
  ⟨fun _ _ _ => rfl, fun hs => ⟨hs, .of_eq rfl rfl rfl rfl⟩⟩

theorem dramErrRegs_ge {o : Nat} (h : o ∈ dramErrRegs) : 0x300000 ≤ o := by
  simp only [dramErrRegs, List.mem_cons, List.mem_flatMap, List.mem_range, List.not_mem_nil, or_false, R.MEMC_EVT, R.MEMC_x_UE,
    R.MEMC_x_ERR_LO, R.MEMC_x_ERR_HI] at h
  omega

/-- A field of HEVC that such work does not name. -/
theorem MemWork.fld {k : Nat} {s t : State} (h : MemWork k s t) {f : Fld} (hf : f.off ∉ sesWorkRegs k) (hlt : f.off < 0xE8000) :
    t.fld f = s.fld f :=
  h.regs.fld (fun hm => (List.mem_append.mp hm).elim hf fun hd => by have := dramErrRegs_ge hd; omega) hlt

/-! ## The picture -/

/-- What a picture is when its input is taken. -/
structure FreshPic (x : HevcSes) (inp : HevcIn) (p : HevcPic) : Prop where
  gen : p.gen = x.active
  num : p.num = x.pics
  done : p.done = 0
  ended : p.ended = !inp.strand
  lines : inp.strand = true → p.lines = []
  inp : p.inp = inp

/-- A frame that has the session's format, or one in memory, becomes the picture in progress (R290). -/
theorem State.hevcStart_encodes {s : State} {k : Nat} {sh : Shape} {inp : HevcIn} {how : Nat} (hk : k < 64)
    (hg : genRuns (s.ses k).active k = true) (hd : sh.decodes = false)
    (hfit : inp.strand = true → inp.fits (encBank (s.ses k).active.regs k) = true) :
    ∃ u p, s.hevcStart k sh inp how = u.passInput k inp ∧ (u.ses k).pic = some p ∧ FreshPic (s.ses k) inp p
      ∧ (u.ses k).active = (s.ses k).active ∧ (u.ses k).pics = ((s.ses k).pics + 1) % 2 ^ 32
      ∧ MemWork k s u ∧ (inp.strand = true → SesWork k s u) := by
  unfold State.hevcStart
  extract_lets x g e idle passed skip mk pic us y0 discarded i flagged irap flags fresh noRasl refuse y readied prepared r idr d ex y1
    cleared y2 started
  have hgood : ¬ (inp.strand && (inp.fmt != (if e.chroma = 1 then 4 else 6) || inp.width != e.width || inp.height != e.height)) = true := by
    intro hbad
    obtain ⟨hs, hbad⟩ := Bool.and_eq_true_iff.mp hbad
    have := hfit hs
    simp only [HevcIn.fits, Bool.not_eq_true'] at this
    exact Bool.noConfusion (hbad.symm.trans this)
  rw [if_neg (show ¬ (!genRuns g k) = true by simp [g, x, hg]), if_neg (show ¬ sh.decodes = true by simp [hd]), if_neg hgood]
  have hidle : Readied k s idle := .setSes (.refl k s) (x := { x with hold := none }) rfl
  have hstarted : Readied k d.2.2 started := by
    refine Readied.setSes ?_ rfl
    simp only [cleared]
    split
    · exact .setSes (((d.2.2.dropRefs_work k x.refs).readied hk)) (congrArg HevcSes.counts (State.ses_dropRefs _ _ _ k)).symm
    · exact .refl k _
  have hfetch : MemWork k idle d.2.2 ∧ d.2.2.ses k = idle.ses k ∧ (inp.strand = true → d.2.2 = idle) := by
    simp only [d]
    split
    · exact ⟨(SesWork.refl k idle).memWork, rfl, fun _ => rfl⟩
    · next hs => exact ⟨idle.dramFetch_memWork k _ _, State.ses_congr (idle.dramFetch_served _ _).hevc k, fun h => absurd h hs⟩
  obtain ⟨hmem, hses, hsame⟩ := hfetch
  obtain ⟨hwork, -, hactive, hpics, -⟩ := hstarted.counted
  have hidleSes : idle.ses k = { x with hold := none } := State.ses_setSes_same ..
  rw [hses, hidleSes] at hactive hpics
  have hpic : ((started.countPicture k).ses k).pic = (started.ses k).pic := by rw [State.ses_countPicture]
  refine ⟨started.countPicture k, _, rfl, hpic.trans (congrArg HevcSes.pic (cleared.ses_setSes_same k _)),
    ⟨rfl, rfl, rfl, rfl, fun h => if_pos h, rfl⟩, hactive, hpics,
    (hidle.work.memWork.trans hmem).trans hwork.memWork, fun h => hidle.work.trans ?_⟩
  rw [hsame h] at hwork
  exact hwork

end Sys2Proof.Machine
end

section
/-! A memory-fed session takes its next descriptor (R283, R284, R290, R296, R299). -/
namespace Sys2Proof.Machine

/-! ## The descriptor (R299) -/

/-- A session's next descriptor as DRAM gives it. -/
def State.descriptorFetch (s : State) (k : Nat) : List Byte × Bool × State :=
  s.dramFetch (s.base2 (F.HEVC_SES_SQ_LO_base_lo k) (F.HEVC_SES_SQ_HI_base_hi k)
    + 32 * (s.fld (F.HEVC_SES_SQ_HEAD_index k) % s.sesRing k)) 32

/-- The state once a session has read its next descriptor and begins its work. -/
def State.descriptorRead (s : State) (k : Nat) : State := (s.descriptorFetch k).2.2.workBegins 11 k false

theorem State.workBegins_jnl (s : State) (engine k : Nat) (old : Bool) : (s.workBegins engine k old).jnl = s.jnl := rfl
theorem State.workBegins_ses (s : State) (engine k : Nat) (old : Bool) (j : Nat) : (s.workBegins engine k old).ses j = s.ses j := rfl
theorem State.workBegins_bodies (s : State) (engine k : Nat) (old : Bool) : (s.workBegins engine k old).bodies = s.bodies := rfl

theorem State.descriptorFetch_served (s : State) (k : Nat) : DramServed s (s.descriptorFetch k).2.2 := s.dramFetch_served _ _

theorem State.descriptorRead_memWork (s : State) (k : Nat) : MemWork k s (s.descriptorRead k) :=
  (s.dramFetch_memWork k _ _).trans (State.workBegins_memWork ..)

theorem State.descriptorRead_jnl (s : State) (k : Nat) : (s.descriptorRead k).jnl = s.jnl :=
  (State.workBegins_jnl ..).trans (s.descriptorFetch_served k).jnl

theorem State.descriptorRead_ses (s : State) (k : Nat) : (s.descriptorRead k).ses k = s.ses k :=
  (State.workBegins_ses ..).trans (State.ses_congr (s.descriptorFetch_served k).hevc k)

theorem DramServed.bodies {s t : State} (h : DramServed s t) : t.bodies = s.bodies := by
  obtain ⟨-, r, m, d, o, rfl⟩ := h
  rfl

theorem State.descriptorRead_bodies (s : State) (k : Nat) : (s.descriptorRead k).bodies = s.bodies :=
  (State.workBegins_bodies ..).trans (s.descriptorFetch_served k).bodies

/-- The checks of a descriptor look at the regions of the active configuration alone. -/
theorem State.descriptorChecks_congr {s t : State} (h : t.bodies = s.bodies) (k : Nat) (sh : Shape) (g : HevcGen) (l : List Byte) :
    t.descriptorChecks k sh g l = s.descriptorChecks k sh g l := by
  simp only [State.descriptorChecks, State.inRegion, h]

/-- The input that a descriptor names. -/
def State.descriptorInput (s : State) (k : Nat) (sh : Shape) (l : List Byte) : HevcIn :=
  ⟨false, 0, 0, 0, leAt l 20 2, leAt l 2 2, leAt l 1 1 % 2 = 1, leAt l 8 8, leAt l 16 4, [], (s.ses k).aus, false, s.nowNs, sh.decodes,
    ⟨false, false, false⟩⟩

/-- The input of an AU descriptor with its access unit. -/
def State.unitInput (s : State) (k : Nat) (sh : Shape) (l : List Byte) : HevcIn :=
  let inp := s.descriptorInput k sh l
  let b := s.dramFetch inp.addr (leAt l 4 4)
  { inp with au := b.1, marks := ⟨b.2.1, false, false⟩ }

/-- A descriptor that is refused: the ring's head moves on, and a record is queued. -/
def State.refuseDescriptor (s : State) (k : Nat) (sh : Shape) (l : List Byte) (st : Nat) : State :=
  let r := (s.headOn k).refusedRec (s.descriptorInput k sh l) (s.descriptorInput k sh l).id st (s.ses k).active
  r.2.queueRec k r.1

/-- A good descriptor goes to work by its form. -/
def State.acceptDescriptor (s : State) (k : Nat) (sh : Shape) (l : List Byte) : State :=
  if sh.decodes then (s.dramFetch (s.descriptorInput k sh l).addr (leAt l 4 4)).2.2.hevcAccept k sh (s.unitInput k sh l) false
  else s.hevcTake k sh (s.descriptorInput k sh l) false

/-- The first breach of a session's next descriptor, if it is bound to a generation that runs. -/
def State.descriptorVerdict (s : State) (k : Nat) (sh : Shape) : Option Nat :=
  if genRuns (s.ses k).nextBank k then s.descriptorChecks k sh (s.ses k).nextBank (s.descriptorFetch k).1 else none

section Descriptor
variable {s : State} {k : Nat} {sh : Shape}

theorem State.descriptorVerdict_read (s : State) (k : Nat) (sh : Shape) : s.descriptorVerdict k sh =
    if genRuns ((s.descriptorRead k).ses k).nextBank k then
      (s.descriptorRead k).descriptorChecks k sh ((s.descriptorRead k).ses k).nextBank (s.descriptorFetch k).1
    else none := by
  rw [s.descriptorRead_ses k, State.descriptorChecks_congr (s.descriptorRead_bodies k)]
  rfl

/-- The fetch stands as a variable here: the kernel would otherwise compute it. -/
theorem State.hevcDescriptor_fetched {d : List Byte × Bool × State} (hshape : s.sesShape k = some sh) (hfeed : sh.byStrand = false)
    (hready : s.sesDescriptor k = true) (hd : s.descriptorFetch k = d) :
    let v := d.2.2.workBegins 11 k false
    s.hevcDescriptor k (decide (leAt d.1 0 1 = 2)) =
      (if genRuns (v.ses k).nextBank k then v.descriptorChecks k sh (v.ses k).nextBank d.1 else none).elim
        (v.acceptDescriptor k sh d.1) (v.refuseDescriptor k sh d.1) := by
  have htakes : (!sh.byStrand && s.sesDescriptor k) = true := by rw [hfeed, hready]; rfl
  intro v
  unfold State.hevcDescriptor
  split
  · next hnone => rw [hshape] at hnone; cases hnone
  next h hsome =>
    obtain rfl := Option.some.inj (hshape.symm.trans hsome)
    rw [if_pos htakes]
    extract_lets +onlyGivenNames a e
    rw [show e = d from hd]
    extract_lets +onlyGivenNames l u
    rw [if_neg (not_not.mpr rfl)]
    extract_lets +onlyGivenNames w x g inp
    change _ = Option.elim (if genRuns g k = true then w.descriptorChecks k sh g l else none) _ _
    obtain ⟨verdict, hverdict⟩ : ∃ o, (if genRuns g k = true then w.descriptorChecks k sh g l else none) = o := ⟨_, rfl⟩
    rw [hverdict]
    cases verdict with
    | some st => rfl
    | none => rfl

theorem State.hevcDescriptor_eq (hshape : s.sesShape k = some sh) (hfeed : sh.byStrand = false) (hready : s.sesDescriptor k = true) :
    s.hevcDescriptor k (decide (leAt (s.descriptorFetch k).1 0 1 = 2)) =
      (s.descriptorVerdict k sh).elim ((s.descriptorRead k).acceptDescriptor k sh (s.descriptorFetch k).1)
        ((s.descriptorRead k).refuseDescriptor k sh (s.descriptorFetch k).1) := by
  rw [State.descriptorVerdict_read]
  exact State.hevcDescriptor_fetched hshape hfeed hready rfl

/-! ## The binding of an access unit in memory (R296) -/

/-- An access unit in memory is accepted whole, with its entry. -/
def State.acceptUnit (s : State) (k : Nat) (inp : HevcIn) : State :=
  let u := s.jnlWrite 3 0 k inp.auNum inp.au.length 0 0 false false
  u.setSes k { u.ses k with aus := (inp.auNum + 1) % 2 ^ 32 }

/-- The input of an access unit that is accepted whole. -/
def HevcIn.whole (inp : HevcIn) : HevcIn :=
  { inp with
    au := inp.au.take inp.au.length, open3 := false, cut := inp.cut || decide (inp.au.length < inp.au.length)
    marks := ⟨inp.marks.excluded, inp.marks.replayed || decide (0 = 1), inp.marks.override || decide (0 = 2)⟩ }

theorem State.hevcAccept_leads (h : Leads s) (inp : HevcIn) (force : Bool) :
    s.hevcAccept k sh inp force = (s.acceptUnit k inp).hevcTake k sh inp.whole false := by
  simp only [State.hevcAccept, h.ruling]
  rfl

theorem Leads.jnlWrite (h : Leads s) (kind target unit frame a b c : Nat) (replayed override : Bool) :
    Leads (s.jnlWrite kind target unit frame a b c replayed override) := by
  obtain ⟨r, q, l, hd, sl, f, hw⟩ := (s.jnlWrite_writes kind target unit frame a b c replayed override).frame
  rw [hw]
  exact h

theorem State.acceptUnit_leads (h : Leads s) (inp : HevcIn) : Leads (s.acceptUnit k inp) := h.jnlWrite ..

theorem State.acceptUnit_ses (s : State) (k : Nat) (inp : HevcIn) :
    (s.acceptUnit k inp).ses k = { s.ses k with aus := (inp.auNum + 1) % 2 ^ 32 } := by
  rw [State.acceptUnit, State.ses_setSes_same, State.ses_jnlWrite]

theorem State.acceptUnit_work (s : State) (k : Nat) (inp : HevcIn) : SesWork k s (s.acceptUnit k inp) :=
  ((SesWork.refl k s).jnlWrite ..).setSes _

/-- The entry of an accepted access unit is the newest. -/
theorem State.acceptUnit_newest (s : State) (k : Nat) (inp : HevcIn) :
    (s.acceptUnit k inp).jnl.applied.head? = some (s.ownEntry 3 0 k inp.auNum inp.au.length 0 0 false false) := by
  have happlied := (s.jnlWrite_writes 3 0 k inp.auNum inp.au.length 0 0 false false).applied (show 3 ≠ 9 by decide)
  exact (congrArg List.head? happlied).trans rfl

/-! ## The descriptor's input bound (R283) -/

/-- The entry of an access unit that a session accepts whole (R296). -/
def UnitEntry (k num bytes : Nat) (e : Entry) : Prop := e.kind = 3 ∧ e.unit = k ∧ e.frame = num ∧ e.a = bytes ∧ e.replayed = false

/-- The input of a session's next descriptor `l` goes to work from `u`, bound to the newest generation (R283, R299). -/
structure DescriptorBound (s : State) (k : Nat) (sh : Shape) (l : List Byte) (inp : HevcIn) (u : State) : Prop where
  eq : s.hevcDescriptor k (decide (leAt l 0 1 = 2)) = u.hevcStart k sh inp 0
  strand : inp.strand = false
  id : inp.id = leAt l 2 2
  addr : inp.addr = leAt l 8 8
  work : MemWork k s u
  active : (u.ses k).active = (s.ses k).nextBank
  pics : (u.ses k).pics = (s.ses k).pics
  pic : (u.ses k).pic = (s.ses k).pic
  unit : sh.decodes = true → (u.ses k).aus = ((s.ses k).aus + 1) % 2 ^ 32
    ∧ ∃ e ∈ u.jnl.applied, UnitEntry k (s.ses k).aus (leAt l 4 4) e

/-- A frame in memory is bound (R290). -/
theorem State.descriptor_bound_picture {v : State} {l : List Byte} (hleads : Leads v) (hread : MemWork k s v) (hses : v.ses k = s.ses k)
    (hd : sh.decodes = false)
    (heq : s.hevcDescriptor k (decide (leAt l 0 1 = 2)) = v.hevcTake k sh (v.descriptorInput k sh l) false) :
    ∃ inp u, DescriptorBound s k sh l inp u := by
  rw [State.hevcTake_leads hleads] at heq
  obtain ⟨hwork, ⟨n, w, g, hbound⟩, -⟩ := v.bindNewest_bound k
  rw [hses] at hbound
  refine ⟨_, _, heq, rfl, rfl, rfl, hread.trans hwork.memWork, ?_, ?_, ?_, fun h => absurd (hd.symm.trans h) Bool.false_ne_true⟩ <;>
    rw [hbound]

theorem State.dramFetch_length (s : State) (a n : Nat) : (s.dramFetch a n).1.length = n := memRead_length ..

/-- An access unit in memory is accepted and bound (R296). -/
theorem State.descriptor_bound_unit {v : State} {l : List Byte} (hleads : Leads v) (hread : MemWork k s v) (hses : v.ses k = s.ses k)
    (heq : s.hevcDescriptor k (decide (leAt l 0 1 = 2))
      = (v.dramFetch (leAt l 8 8) (leAt l 4 4)).2.2.hevcAccept k sh (v.unitInput k sh l) false) :
    ∃ inp u, DescriptorBound s k sh l inp u := by
  have hfetch := v.dramFetch_served (leAt l 8 8) (leAt l 4 4)
  have hmem := hread.trans (v.dramFetch_memWork k (leAt l 8 8) (leAt l 4 4))
  have hlen : (v.unitInput k sh l).au.length = leAt l 4 4 := v.dramFetch_length ..
  have hnum : (v.unitInput k sh l).auNum = (s.ses k).aus := congrArg HevcSes.aus hses
  have hfleads := hleads.of_jnl hfetch.jnl
  have hfses := (State.ses_congr hfetch.hevc k).trans hses
  generalize (v.dramFetch (leAt l 8 8) (leAt l 4 4)).2.2 = f at *
  rw [State.hevcAccept_leads hfleads, State.hevcTake_leads (State.acceptUnit_leads hfleads _)] at heq
  obtain ⟨hwork, ⟨n, w, g, hbound⟩, hnew⟩ := (f.acceptUnit k (v.unitInput k sh l)).bindNewest_bound k
  rw [f.acceptUnit_ses, hfses, hnum] at hbound
  refine ⟨_, _, heq, rfl, rfl, rfl, hmem.trans ((f.acceptUnit_work k _).trans hwork).memWork, ?_, ?_, ?_, fun _ =>
    ⟨?_, _, hnew _ (f.acceptUnit_newest k _), rfl, rfl, hnum, hlen, rfl⟩⟩ <;> rw [hbound]
  rfl

theorem State.descriptor_bound (hleads : Leads s) (hshape : s.sesShape k = some sh) (hfeed : sh.byStrand = false)
    (hready : s.sesDescriptor k = true)
    (hgood : genRuns (s.ses k).nextBank k = true → s.descriptorChecks k sh (s.ses k).nextBank (s.descriptorFetch k).1 = none) :
    ∃ inp u, DescriptorBound s k sh (s.descriptorFetch k).1 inp u := by
  have heq := State.hevcDescriptor_eq hshape hfeed hready
  have hverdict : s.descriptorVerdict k sh = none := by
    unfold State.descriptorVerdict
    split
    · next hg => exact hgood hg
    · rfl
  rw [hverdict, Option.elim, State.acceptDescriptor] at heq
  have hlead := hleads.of_jnl (s.descriptorRead_jnl k)
  cases hd : sh.decodes with
  | false =>
    rw [hd, if_neg Bool.false_ne_true] at heq
    exact State.descriptor_bound_picture hlead (s.descriptorRead_memWork k) (s.descriptorRead_ses k) hd heq
  | true =>
    rw [hd, if_pos rfl] at heq
    exact State.descriptor_bound_unit hlead (s.descriptorRead_memWork k) (s.descriptorRead_ses k) heq

end Descriptor

end Sys2Proof.Machine
end

section
/-! A memory-fed session takes its next descriptor: the state that answers (R283, R284, R290, R296, R299, R580). -/
namespace Sys2Proof.Machine

/-! ## The ring's head (R299) -/

section Head
variable {s u v : State} {k : Nat} {sh : Shape}

/-- One descriptor has been taken, and no memory written. -/
structure DescriptorTaken (k : Nat) (s t : State) : Prop where
  memory : DramIdle s → SameMemory s t
  head : t.fld (F.HEVC_SES_SQ_HEAD_index k) = (s.fld (F.HEVC_SES_SQ_HEAD_index k) + 1) % 65536

theorem MemWork.head (hk : k < 64) (h : MemWork k s u) : u.fld (F.HEVC_SES_SQ_HEAD_index k) = s.fld (F.HEVC_SES_SQ_HEAD_index k) :=
  h.fld (sqHead_not_mem_sesWorkRegs k) (by simp only [F.HEVC_SES_SQ_HEAD_index]; omega)

theorem MemWork.headOn (hk : k < 64) (h : MemWork k s u) : DescriptorTaken k s (u.headOn k) :=
  ⟨fun hs => (h.idle hs).2.trans (.of_eq rfl rfl rfl rfl), (u.fld_headOn k).trans (by rw [h.head hk])⟩

theorem DescriptorTaken.work (hk : k < 64) (h : DescriptorTaken k s u) (hw : SesWork k u v) : DescriptorTaken k s v :=
  ⟨fun hs => (h.memory hs).trans hw.sameMemory, (hw.memWork.head hk).trans h.head⟩

theorem DescriptorTaken.settle (hk : k < 64) (h : DescriptorTaken k s u) : DescriptorTaken k s (settle u) :=
  ⟨fun hs => (h.memory hs).settle, (settle_fld_session u (o := 0x98) (by decide) hk rfl).trans h.head⟩

/-! ## The three outcomes -/

theorem State.refuseDescriptor_refuses (s : State) (k : Nat) (sh : Shape) (l : List Byte) (st : Nat) :
    SesWork k (s.headOn k) (s.refuseDescriptor k sh l st)
      ∧ ∃ r, (s.refuseDescriptor k sh l st).ses k = { s.ses k with recs := (s.ses k).recs ++ [r] } ∧ r.id = leAt l 2 2 ∧ r.status = st := by
  refine ⟨?_, _, State.ses_setSes_same .., rfl, rfl⟩
  exact SesWork.setSes (SesWork.trans (.refl k _) ⟨⟨_, _, _, _, rfl⟩, fun _ _ _ => rfl, rfl⟩) _

/-- A descriptor that breaks a check leaves a record (R299). -/
theorem State.hevcDescriptor_refuses (hk : k < 64) (hshape : s.sesShape k = some sh) (hfeed : sh.byStrand = false)
    (hready : s.sesDescriptor k = true) {st : Nat} (hbad : s.descriptorVerdict k sh = some st) :
    ∃ t, s.hevcDescriptor k (decide (leAt (s.descriptorFetch k).1 0 1 = 2)) = t ∧ DescriptorTaken k s t
      ∧ ∃ r, t.ses k = { s.ses k with recs := (s.ses k).recs ++ [r] } ∧ r.id = leAt (s.descriptorFetch k).1 2 2 ∧ r.status = st := by
  refine ⟨_, State.hevcDescriptor_eq hshape hfeed hready, ?_⟩
  rw [hbad, Option.elim]
  obtain ⟨hwork, hrec⟩ := (s.descriptorRead k).refuseDescriptor_refuses k sh (s.descriptorFetch k).1 st
  rw [s.descriptorRead_ses k] at hrec
  exact ⟨((s.descriptorRead_memWork k).headOn hk).work hk hwork, hrec⟩

variable {l : List Byte} {inp : HevcIn}

theorem DescriptorBound.running (h : DescriptorBound s k sh l inp u) : genRuns (u.ses k).active k = genRuns (s.ses k).nextBank k := by
  rw [h.active]

theorem DescriptorBound.passInput (h : DescriptorBound s k sh l inp u) (v : State) : v.passInput k inp = v.headOn k :=
  if_neg (by rw [h.strand]; decide)

/-- A picture bound to a generation that does not run is discarded and counted (R283, R284). -/
theorem DescriptorBound.discards (hk : k < 64) (h : DescriptorBound s k sh l inp u) (hg : genRuns (s.ses k).nextBank k = false) :
    ∃ t, s.hevcDescriptor k (decide (leAt l 0 1 = 2)) = t ∧ DescriptorTaken k s t ∧ (t.ses k).pic = (s.ses k).pic
      ∧ (t.ses k).pics = ((s.ses k).pics + 1) % 2 ^ 32 ∧ (t.ses k).active = (s.ses k).nextBank
      ∧ t.fld (F.HEVC_SES_DISCARDED_count k) = min (s.fld (F.HEVC_SES_DISCARDED_count k) + 1) (2 ^ 32 - 1) := by
  obtain ⟨⟨hwork, -, hactive, hpics, -⟩, hpic, -⟩ := u.discardInput_counted k
  refine ⟨(u.discardInput k).headOn k, ?_, ?_, hpic.trans h.pic, hpics.trans ?_, hactive.trans h.active, ?_⟩
  · rw [h.eq, State.hevcStart_discards (h.running.trans hg)]
    simp only [h.strand, h.passInput, Bool.false_and, Bool.false_eq_true, if_false]
  · have hbump : (u.bump (F.HEVC_SES_DISCARDED_count k) 1).fld (F.HEVC_SES_SQ_HEAD_index k) = s.fld (F.HEVC_SES_SQ_HEAD_index k) := by
      refine (u.fld_put_off _ _ _ ?_).trans (h.work.head hk)
      simp only [F.HEVC_SES_SQ_HEAD_index, F.HEVC_SES_DISCARDED_count]
      omega
    refine ⟨fun hs => ?_, ?_⟩
    · exact ((h.work.idle hs).2.trans (.of_eq rfl rfl rfl rfl)).trans (hwork.sameMemory.trans (.of_eq rfl rfl rfl rfl))
    · rw [State.fld_headOn, hwork.memWork.head hk, hbump]
  · rw [State.bump, State.ses_put, h.pics]
  · have hlt : (F.HEVC_SES_DISCARDED_count k).off < 0xE8000 := by simp only [F.HEVC_SES_DISCARDED_count]; omega
    have hoff : (F.HEVC_SES_DISCARDED_count k).off ≠ (F.HEVC_SES_SQ_HEAD_index k).off := by
      simp only [F.HEVC_SES_SQ_HEAD_index, F.HEVC_SES_DISCARDED_count]
      omega
    rw [State.headOn, State.fld_put_off _ _ _ _ hoff, hwork.memWork.fld (discarded_not_mem_sesWorkRegs k) hlt,
      State.fld_bump_same _ _ _ (show (31 : Nat) < 32 by decide), h.work.fld (discarded_not_mem_sesWorkRegs k) hlt]
    rfl

/-- A frame in memory becomes the picture in progress (R290). -/
theorem DescriptorBound.encodes (hk : k < 64) (h : DescriptorBound s k sh l inp u) (hg : genRuns (s.ses k).nextBank k = true)
    (hd : sh.decodes = false) :
    ∃ t p, s.hevcDescriptor k (decide (leAt l 0 1 = 2)) = t ∧ DescriptorTaken k s t ∧ (t.ses k).pics = ((s.ses k).pics + 1) % 2 ^ 32
      ∧ (t.ses k).active = (s.ses k).nextBank ∧ (t.ses k).pic = some p ∧ FreshPic (u.ses k) inp p := by
  obtain ⟨v, p, heq, hpic, hfresh, hactive, hpics, hwork, -⟩ := State.hevcStart_encodes (how := 0) hk (h.running.trans hg) hd
    (inp := inp) fun hs => absurd (h.strand.symm.trans hs) Bool.false_ne_true
  exact ⟨_, p, h.eq.trans (heq.trans (h.passInput v)), (h.work.trans hwork).headOn hk, hpics.trans (by rw [h.pics]), hactive.trans h.active,
    hpic, hfresh⟩

/-- An access unit in memory is accepted whole, and its picture counted (R296). -/
theorem DescriptorBound.decodes (hk : k < 64) (h : DescriptorBound s k sh l inp u) (hg : genRuns (s.ses k).nextBank k = true)
    (hd : sh.decodes = true) :
    ∃ t, s.hevcDescriptor k (decide (leAt l 0 1 = 2)) = t ∧ DescriptorTaken k s t ∧ (t.ses k).pics = ((s.ses k).pics + 1) % 2 ^ 32
      ∧ (t.ses k).active = (s.ses k).nextBank ∧ (t.ses k).aus = ((s.ses k).aus + 1) % 2 ^ 32
      ∧ ∃ e ∈ t.jnl.applied, UnitEntry k (s.ses k).aus (leAt l 4 4) e := by
  obtain ⟨v, heq, hwork, happlied, hactive, hpics, haus⟩ := State.hevcStart_decodes (inp := inp) (how := 0) hk (h.running.trans hg) hd
  obtain ⟨hunit, e, he, hentry⟩ := h.unit hd
  exact ⟨_, h.eq.trans (heq.trans (h.passInput v)), (h.work.trans hwork.memWork).headOn hk, hpics.trans (by rw [h.pics]),
    hactive.trans h.active, haus.trans hunit, e, happlied ▸ he, hentry⟩

end Head

/-! ## The answers -/

/-- A session that takes an input works on none (R279). -/
theorem State.pic_of_sesTakes {s : State} {k : Nat} (h : s.sesTakes k = true) : (s.ses k).pic = none ∧ (s.ses k).hold = none
    ∧ (s.ses k).skip = false := by
  simp only [State.sesTakes, Bool.and_eq_true, Option.isNone_iff_eq_none, Bool.not_eq_true'] at h
  obtain ⟨⟨⟨⟨-, hpic⟩, hhold⟩, hskip⟩, -⟩ := h
  exact ⟨hpic, hhold, hskip⟩

theorem State.sesTakes_of_sesDescriptor {s : State} {k : Nat} (h : s.sesDescriptor k = true) : s.sesTakes k = true := by
  simp only [State.sesDescriptor, Bool.and_eq_true] at h
  exact h.1.1

/-- A session fed from memory has no strand. -/
theorem State.sesStrand_of_memory {s : State} {k : Nat} {sh : Shape} (hshape : s.sesShape k = some sh) (hfeed : sh.byStrand = false)
    (decode : Bool) : s.sesStrand k decode = none := by
  simp [State.sesStrand, hshape, hfeed]

theorem descriptor_answers {s : State} {k : Nat} {sh : Shape} (hk : k < 64) (hshape : s.sesShape k = some sh) (hfeed : sh.byStrand = false)
    (l : List Byte) : Answers (if leAt l 0 1 = 2 then .au k else .picture k) s (settle (s.hevcDescriptor k (decide (leAt l 0 1 = 2)))) := by
  have hmod := Nat.mod_eq_of_lt hk
  split
  · next hop =>
    refine answers_settle_of_exec_eq_done (c := .au k) ?_
    show execAu k s = _
    rw [execAu, hmod, State.sesStrand_of_memory hshape hfeed, decide_eq_true hop]
    rfl
  · next hop =>
    refine answers_settle_of_exec_eq_done (c := .picture k) ?_
    show execPicture k s = _
    rw [execPicture, hmod, decide_eq_false hop]

/-- Clause of the memory-fed descriptor (R283, R284, R290, R296, R299). -/
theorem memoryDescriptor_answers {k : Nat} {sh : Shape} {s : State} (hk : k < 64) (hshape : s.sesShape k = some sh)
    (hfeed : sh.byStrand = false) (hready : s.sesDescriptor k = true) (hleads : Leads s) :
    let l := (s.descriptorFetch k).1
    let g := (s.ses k).nextBank
    ∃ t, Answers (if leAt l 0 1 = 2 then .au k else .picture k) s t ∧ (DramIdle s → SameMemory s t)
      ∧ t.fld (F.HEVC_SES_SQ_HEAD_index k) = (s.fld (F.HEVC_SES_SQ_HEAD_index k) + 1) % 65536 ∧
      if genRuns g k = false then (t.ses k).pic = none ∧ (t.ses k).pics = ((s.ses k).pics + 1) % 2 ^ 32 ∧ (t.ses k).active = g
        ∧ t.fld (F.HEVC_SES_DISCARDED_count k) = min (s.fld (F.HEVC_SES_DISCARDED_count k) + 1) (2 ^ 32 - 1)
      else
      (∀ st, s.descriptorChecks k sh g l = some st →
        ∃ r, (t.ses k).recs = (s.ses k).recs ++ [r] ∧ r.id = leAt l 2 2 ∧ r.status = st ∧ (t.ses k).pic = none
          ∧ (t.ses k).pics = (s.ses k).pics)
      ∧ (s.descriptorChecks k sh g l = none → (t.ses k).pics = ((s.ses k).pics + 1) % 2 ^ 32 ∧ (t.ses k).active = g
        ∧ (sh.decodes = false → ∃ p, (t.ses k).pic = some p ∧ p.inp.id = leAt l 2 2 ∧ p.inp.addr = leAt l 8 8 ∧ p.num = (s.ses k).pics
          ∧ p.done = 0 ∧ p.ended = true ∧ p.gen = g)
        ∧ (sh.decodes = true → (t.ses k).aus = ((s.ses k).aus + 1) % 2 ^ 32
          ∧ ∃ e ∈ t.jnl.applied, e.kind = 3 ∧ e.unit = k ∧ e.frame = (s.ses k).aus ∧ e.a = leAt l 4 4 ∧ e.replayed = false)) := by
  intro l g
  obtain ⟨hpic, -, -⟩ := State.pic_of_sesTakes (State.sesTakes_of_sesDescriptor hready)
  have hbound := State.descriptor_bound hleads hshape hfeed hready
  refine ⟨_, descriptor_answers hk hshape hfeed l, ?_⟩
  simp only [settle_ses, settle_jnlApplied]
  by_cases hg : genRuns g k = false
  · obtain ⟨inp, u, hu⟩ := hbound fun h => absurd (hg.symm.trans h) Bool.false_ne_true
    obtain ⟨t, ht, htaken, htpic, htpics, htactive, htcount⟩ := hu.discards hk hg
    rw [ht, if_pos hg]
    obtain ⟨hmem, hhead⟩ := htaken.settle hk
    exact ⟨hmem, hhead, htpic.trans hpic, htpics, htactive, (settle_fld_session t (o := 0xA4) (by decide) hk rfl).trans htcount⟩
  rw [if_neg hg]
  have hruns : genRuns g k = true := by simpa using hg
  cases hchecks : s.descriptorChecks k sh g l with
  | some st =>
    obtain ⟨t, ht, htaken, r, hrec, hid, hst⟩ :=
      State.hevcDescriptor_refuses hk hshape hfeed hready ((if_pos hruns).trans hchecks : s.descriptorVerdict k sh = some st)
    rw [ht]
    obtain ⟨hmem, hhead⟩ := htaken.settle hk
    refine ⟨hmem, hhead, fun st' hst' =>
      ⟨r, by rw [hrec], hid, hst.trans (Option.some.inj hst'), by rw [hrec, ← hpic], by rw [hrec]⟩, nofun⟩
  | none =>
    obtain ⟨inp, u, hu⟩ := hbound fun _ => hchecks
    cases hd : sh.decodes with
    | false =>
      obtain ⟨t, p, ht, htaken, htpics, htactive, htpic, hp⟩ := hu.encodes hk hruns hd
      rw [ht]
      obtain ⟨hmem, hhead⟩ := htaken.settle hk
      have hended : p.ended = true := by rw [hp.ended, hu.strand]; rfl
      exact ⟨hmem, hhead, nofun, fun _ => ⟨htpics, htactive, fun _ => ⟨p, htpic, by rw [hp.inp, hu.id], by rw [hp.inp, hu.addr],
        hp.num.trans hu.pics, hp.done, hended, hp.gen.trans hu.active⟩, nofun⟩⟩
    | true =>
      obtain ⟨t, ht, htaken, htpics, htactive, htaus, e, he, hkind, hunit, hframe, ha, hreplayed⟩ := hu.decodes hk hruns hd
      rw [ht]
      obtain ⟨hmem, hhead⟩ := htaken.settle hk
      exact ⟨hmem, hhead, nofun, fun _ => ⟨htpics, htactive, nofun, fun _ => ⟨htaus, e, he, hkind, hunit, hframe, ha, hreplayed⟩⟩⟩

end Sys2Proof.Machine
end

section
/-! What a session takes from its input port by itself (R283, R290, R304). -/
namespace Sys2Proof.Machine

/-! ## Tokens taken -/

/-- Taking tokens fills and ends the picture in progress, or passes a frame that is not coded; frames that come while the session is
resetting are counted. -/
structure Pulled (k : Nat) (s t : State) : Prop where
  frame : ∃ r h g, t = { s with regs := r, hevc := h, rig := { s.rig with strands := g } }
  regs : RegsBut [R.HEVC_SES_DISCARDED k] s t
  quiet : s.fld (F.HEVC_SES_STATUS_resetting k) = 0 → t.regs = s.regs
  ses : ∃ b e l d m, t.ses k = { s.ses k with
    skip := b, excluded := e, pic := (s.ses k).pic.map fun p => { p with lines := l, ended := d, marks := m } }

namespace Pulled

variable {k : Nat} {s t u : State}

theorem of_ses (hf : ∃ r h g, t = { s with regs := r, hevc := h, rig := { s.rig with strands := g } })
    (hregs : RegsBut [R.HEVC_SES_DISCARDED k] s t) (hquiet : s.fld (F.HEVC_SES_STATUS_resetting k) = 0 → t.regs = s.regs) {b e : Bool}
    (hses : t.ses k = { s.ses k with skip := b, excluded := e }) : Pulled k s t := by
  obtain ⟨l, d, m, hpic⟩ : ∃ l d m, (s.ses k).pic.map (fun p => { p with lines := l, ended := d, marks := m }) = (s.ses k).pic := by
    cases (s.ses k).pic with
    | none => exact ⟨[], false, ⟨false, false, false⟩, rfl⟩
    | some p => exact ⟨p.lines, p.ended, p.marks, rfl⟩
  refine ⟨hf, hregs, hquiet, b, e, l, d, m, ?_⟩
  rw [hses, hpic]

theorem refl (k : Nat) (s : State) : Pulled k s s := of_ses ⟨_, _, _, rfl⟩ (.refl _ s) (fun _ => rfl) rfl

/-- A frame is passed over. -/
theorem use_skip (id n : Nat) (b : Bool) : Pulled k s ((s.strandUse id n).setSes k { s.ses k with skip := b }) :=
  of_ses ⟨_, _, _, rfl⟩ (fun _ _ _ => rfl) (fun _ => rfl) (State.ses_setSes_same ..)

/-- Tokens of the picture in progress are taken. -/
theorem use_pic {p : HevcPic} (hp : (s.ses k).pic = some p) (id n : Nat) (e : Bool) (l : SMap (List Nat)) (d : Bool) (m : Marks) :
    Pulled k s ((s.strandUse id n).setSes k { s.ses k with excluded := e, pic := some { p with lines := l, ended := d, marks := m } }) := by
  refine ⟨⟨_, _, _, rfl⟩, fun _ _ _ => rfl, fun _ => rfl, (s.ses k).skip, e, l, d, m, ?_⟩
  rw [State.ses_setSes_same, hp]
  rfl

/-- A frame that comes while the session is resetting is counted. -/
theorem use_count (hr : s.fld (F.HEVC_SES_STATUS_resetting k) ≠ 0) (id n : Nat) (b : Bool) :
    Pulled k s (((s.strandUse id n).bump (F.HEVC_SES_DISCARDED_count k) 1).setSes k { s.ses k with skip := b }) := by
  have hcount : RegsBut [R.HEVC_SES_DISCARDED k] s ((s.strandUse id n).bump (F.HEVC_SES_DISCARDED_count k) 1) :=
    RegsBut.bump (f := F.HEVC_SES_DISCARDED_count k) (fun _ _ _ => rfl) 1 (.head _)
  exact of_ses ⟨_, _, _, rfl⟩ (hcount.of_regs rfl) (fun h => absurd h hr) (State.ses_setSes_same ..)

theorem resetting (hk : k < 64) (h : Pulled k s t) :
    t.fld (F.HEVC_SES_STATUS_resetting k) = s.fld (F.HEVC_SES_STATUS_resetting k) := by
  refine h.regs.fld ?_ ?_ <;> simp only [F.HEVC_SES_STATUS_resetting, R.HEVC_SES_DISCARDED, List.mem_singleton] <;> omega

theorem trans (hk : k < 64) (h : Pulled k s t) (g : Pulled k t u) : Pulled k s u := by
  have hresetting := h.resetting hk
  obtain ⟨⟨r, v, w, rfl⟩, hregs, hquiet, b, e, l, d, m, hses⟩ := h
  obtain ⟨⟨r', v', w', rfl⟩, gregs, gquiet, b', e', l', d', m', gses⟩ := g
  refine ⟨⟨r', v', w', rfl⟩, hregs.trans gregs, fun h0 => (gquiet (hresetting.trans h0)).trans (hquiet h0), b', e', l', d', m', ?_⟩
  rw [gses, hses]
  simp only [Option.map_map]
  rfl

theorem sameMemory (h : Pulled k s t) : SameMemory s t := by
  obtain ⟨⟨r, v, w, rfl⟩, -⟩ := h
  exact .of_eq rfl rfl rfl rfl

theorem pic_none (h : Pulled k s t) (hp : (s.ses k).pic = none) : (t.ses k).pic = none := by
  obtain ⟨-, -, -, b, e, l, d, m, hses⟩ := h
  rw [hses, hp]
  rfl

theorem pic_some (h : Pulled k s t) {p : HevcPic} (hp : (s.ses k).pic = some p) :
    ∃ l d m, (t.ses k).pic = some { p with lines := l, ended := d, marks := m } := by
  obtain ⟨-, -, -, b, e, l, d, m, hses⟩ := h
  refine ⟨l, d, m, ?_⟩
  rw [hses, hp]
  rfl

theorem recs (h : Pulled k s t) : (t.ses k).recs = (s.ses k).recs := by
  obtain ⟨-, -, -, _, _, _, _, _, hses⟩ := h
  rw [hses]

theorem pics (h : Pulled k s t) : (t.ses k).pics = (s.ses k).pics := by
  obtain ⟨-, -, -, _, _, _, _, _, hses⟩ := h
  rw [hses]

end Pulled

theorem State.hevcPull_pulled {k : Nat} (hk : k < 64) (id n : Nat) (s : State) : Pulled k s (State.hevcPull k id n s) := by
  induction n generalizing s with
  | zero => exact .refl k s
  | succ n ih =>
    unfold State.hevcPull
    extract_lets x
    split
    · exact .refl k s
    extract_lets kind len
    split
    · exact .refl k s
    split
    · split
      · split
        · next hr =>
          refine (Pulled.use_count (fun h0 => ?_) id 1 true).trans hk (ih _)
          exact Bool.noConfusion ((State.bit_of_zero h0).symm.trans hr)
        · exact .refl k s
      · exact (Pulled.use_skip id len _).trans hk (ih _)
    · split
      · next p hp =>
        split
        · exact .refl k s
        split
        · exact Pulled.use_pic hp id 1 _ _ _ _
        · exact (Pulled.use_pic hp id len x.excluded _ p.ended p.marks).trans hk (ih _)
      · exact .refl k s

theorem State.hevcIntake_pulled {k : Nat} (hk : k < 64) (s : State) : Pulled k s (s.hevcIntake k) := by
  unfold State.hevcIntake
  split
  · split
    · exact s.hevcPull_pulled hk _ _
    · exact .refl k s
  · exact .refl k s

/-! ## A frame that starts -/

/-- A session that can take a frame leaves its FRAME_START to the taking of it (R283). -/
theorem State.hevcIntake_frameStart {s : State} {k id : Nat} {tok : Token} {rest : List Token} (hstrand : s.sesStrand k false = some id)
    (hstream : s.strandStream id = tok :: rest) (htakes : s.sesTakes k = true) (hkind : tokenField tok 7 0 = 1)
    (hreset : s.fld (F.HEVC_SES_STATUS_resetting k) = 0) : s.hevcIntake k = s := by
  obtain ⟨hpic, hhold, hskip⟩ := State.pic_of_sesTakes htakes
  simp [State.hevcIntake, hstrand, hstream, State.hevcPull, hpic, hhold, hskip, hkind, State.bit_of_zero hreset]

/-- Nothing is taken from a stream that has run dry. -/
theorem State.hevcIntake_dry {s : State} {k id : Nat} (hto : (s.strandTo .hevc k).map (fun e => e.1) = some id)
    (hstream : s.strandStream id = []) : s.hevcIntake k = s := by
  unfold State.hevcIntake
  split
  · next j hj =>
    have hid : j = id := by
      unfold State.sesStrand at hj
      split at hj
      · split at hj
        · exact Option.some.inj (hj.symm.trans hto)
        · cases hj
      · cases hj
    rw [hid, hstream]
    exact ite_self s
  · rfl

/-- The receiver's stream once it has used its first tokens. -/
theorem State.strandStream_strandUse (s : State) (id n : Nat) : (s.strandUse id n).strandStream id = (s.strandStream id).drop n := by
  simp only [State.strandStream, State.strandUse, mapGet_mapSet_same, List.append_assoc, List.take_append_drop]
  rw [← List.drop_append]

theorem State.strandTo_of_sesStrand {s : State} {k id : Nat} {decode : Bool} (h : s.sesStrand k decode = some id) :
    (s.strandTo .hevc k).map (fun e => e.1) = some id ∧ ∀ sh, s.sesShape k = some sh → sh.decodes = decode := by
  unfold State.sesStrand at h
  split at h
  · next sh hsh =>
    split at h
    · next hc =>
      refine ⟨h, fun sh' hsh' => ?_⟩
      obtain rfl := Option.some.inj (hsh.symm.trans hsh')
      exact of_decide_eq_true (Bool.and_eq_true_iff.mp hc).2
    · cases h
  · cases h

end Sys2Proof.Machine
end

section
/-! A strand-fed encode session takes a frame (R283, R284, R290, R580). -/
namespace Sys2Proof.Machine

/-! ## The frame -/

/-- The input that a FRAME_START names. -/
def frameInput (tok : Token) : HevcIn :=
  ⟨true, tokenField tok 15 8, tokenField tok 79 64, tokenField tok 95 80, tokenField tok 31 16, 0, true, 0, 0, [], 0, false, tokenStamp tok,
    false, ⟨false, false, false⟩⟩

/-- The state once a session has taken a frame's FRAME_START, and its picture is bound. -/
def State.frameBound (s : State) (k id : Nat) : State := ((s.sesBegins k).strandUse id 1).bindNewest k

theorem frameInput_fits (tok : Token) (e : EncBank) : (frameInput tok).fits e = true ↔
    tokenField tok 15 8 = (if e.chroma = 1 then 4 else 6) ∧ tokenField tok 79 64 = e.width ∧ tokenField tok 95 80 = e.height := by
  simp [HevcIn.fits, frameInput, and_assoc]

/-- The first token of the frame that starts is a FRAME_START of a session that takes one. -/
structure FrameFront (s : State) (k id : Nat) (sh : Shape) (tok : Token) (rest : List Token) : Prop where
  strand : s.sesStrand k false = some id
  shape : s.sesShape k = some sh
  stream : s.strandStream id = tok :: rest
  takes : s.sesTakes k = true
  kind : tokenField tok 7 0 = 1
  reset : s.fld (F.HEVC_SES_STATUS_resetting k) = 0

section Frame
variable {s u : State} {k id : Nat} {sh : Shape} {tok : Token} {rest : List Token}

theorem FrameFront.encodeInput (h : FrameFront s k id sh tok rest) (hleads : Leads s) :
    s.encodeInput k = ((s.frameBound k id).hevcStart k sh (frameInput tok) 0).hevcIntake k := by
  have hsame := State.hevcIntake_frameStart h.strand h.stream h.takes h.kind h.reset
  have htake := State.hevcTake_leads (s := (s.sesBegins k).strandUse id 1) hleads k sh (frameInput tok) false
  rw [State.frameBound, ← htake]
  simp only [State.encodeInput, hsame, h.strand, h.shape, h.stream, h.takes, h.kind, decide_true, Bool.and_self, if_true]
  rfl

theorem FrameFront.decodes (h : FrameFront s k id sh tok rest) : sh.decodes = false := (State.strandTo_of_sesStrand h.strand).2 sh h.shape

/-- The session's record once a frame is bound. -/
theorem State.frameBound_ses (s : State) (k id : Nat) : ∃ n w l, (s.frameBound k id).ses k =
    { s.ses k with active := (s.ses k).nextBank, pend := [], needIdr := n, waitIrap := w, lastGen := l } :=
  (((s.sesBegins k).strandUse id 1).bindNewest_bound k).ses

theorem State.frameBound_work (s : State) (k id : Nat) : SesWork k ((s.sesBegins k).strandUse id 1) (s.frameBound k id) :=
  (((s.sesBegins k).strandUse id 1).bindNewest_bound k).work

theorem FrameFront.resetting (h : FrameFront s k id sh tok rest) (hw : SesWork k (s.frameBound k id) u) :
    u.fld (F.HEVC_SES_STATUS_resetting k) = 0 := hw.resetting.trans ((s.frameBound_work k id).resetting.trans h.reset)

/-- Taking and binding a frame writes no memory. -/
theorem State.frameBound_sameMemory (s : State) (k id : Nat) : SameMemory s (s.frameBound k id) :=
  (SameMemory.of_eq rfl rfl rfl rfl).trans (s.frameBound_work k id).sameMemory

/-- Nothing more comes by the strand until its sender goes on. -/
theorem FrameFront.dry (h : FrameFront s k id sh tok []) (hw : SesWork k (s.frameBound k id) u) : u.hevcIntake k = u := by
  have hrig : u.rig = ((s.sesBegins k).strandUse id 1).rig := hw.rig.trans (s.frameBound_work k id).rig
  have hto : u.strandTo .hevc k = s.strandTo .hevc k := by
    simp only [State.strandTo, State.strandRecs, State.bodies, hrig]
    rfl
  refine State.hevcIntake_dry (id := id) ?_ ?_
  · rw [hto]
    exact (State.strandTo_of_sesStrand h.strand).1
  · have hstream : ((s.sesBegins k).strandUse id 1).strandStream id = [] := by
      rw [State.strandStream_strandUse]
      exact congrArg (List.drop 1) h.stream
    rw [← hstream, State.strandStream, hrig]
    rfl

/-! ## The three outcomes -/

/-- A frame bound to a generation that does not run is discarded and counted (R283, R284). -/
theorem FrameFront.discards (hk : k < 64) (h : FrameFront s k id sh tok rest) (hleads : Leads s) (hg : genRuns (s.ses k).nextBank k = false) :
    ∃ t, s.encodeInput k = t ∧ SameMemory s t ∧ (t.ses k).pic = none ∧ (t.ses k).pics = ((s.ses k).pics + 1) % 2 ^ 32
      ∧ t.fld (F.HEVC_SES_DISCARDED_count k) = min (s.fld (F.HEVC_SES_DISCARDED_count k) + 1) (2 ^ 32 - 1) := by
  obtain ⟨n, w, g, hses⟩ := s.frameBound_ses k id
  have hmem := s.frameBound_sameMemory k id
  have hbwork := s.frameBound_work k id
  have hreset := h.resetting (.refl k _)
  have heq := h.encodeInput hleads
  generalize s.frameBound k id = b at *
  obtain ⟨⟨hwork, -, -, hpics, -⟩, hpic, -⟩ := b.discardInput_counted k
  have hpassed : (b.discardInput k).passInput k (frameInput tok) = b.discardInput k := rfl
  have hskip : b.hevcStart k sh (frameInput tok) 0 = (b.discardInput k).setSes k { (b.discardInput k).ses k with skip := true } := by
    rw [State.hevcStart_discards (by rw [hses]; exact hg), hpassed]
    exact if_pos (by rw [h.decodes]; rfl)
  rw [hskip] at heq
  have hpull := ((b.discardInput k).setSes k { (b.discardInput k).ses k with skip := true }).hevcIntake_pulled hk
  have hquiet := hpull.quiet ?_
  · refine ⟨_, heq, (hmem.trans ((SameMemory.of_eq rfl rfl rfl rfl).trans (hwork.setSes _).sameMemory)).trans hpull.sameMemory,
      hpull.pic_none ?_, hpull.pics.trans ?_, ?_⟩
    · rw [State.ses_setSes_same, hpic, hses]
      exact (State.pic_of_sesTakes h.takes).1
    · rw [State.ses_setSes_same, hpics, State.bump, State.ses_put, hses]
    · have hlt : (F.HEVC_SES_DISCARDED_count k).off < 0xE8000 := by simp only [F.HEVC_SES_DISCARDED_count]; omega
      have hapart := discarded_not_mem_sesWorkRegs k
      rw [State.fld, State.rd, hquiet]
      refine ((hwork.setSes _).regs.fld hapart hlt).trans ?_
      rw [State.fld_bump_same _ _ _ (show (31 : Nat) < 32 by decide), hbwork.regs.fld hapart hlt]
      rfl
  · refine (hwork.setSes _).resetting.trans ((b.fld_put_off _ _ _ ?_).trans hreset)
    simp only [F.HEVC_SES_STATUS_resetting, F.HEVC_SES_DISCARDED_count]
    omega

/-- A frame of another format is consumed with a record (R290). -/
theorem FrameFront.refuses (hk : k < 64) (h : FrameFront s k id sh tok rest) (hleads : Leads s) (hg : genRuns (s.ses k).nextBank k = true)
    (hfit : (frameInput tok).fits (encBank (s.ses k).nextBank.regs k) = false) :
    ∃ t r, s.encodeInput k = t ∧ SameMemory s t ∧ (t.ses k).pic = none ∧ (t.ses k).recs = (s.ses k).recs ++ [r] ∧ r.status = 4 := by
  obtain ⟨n, w, g, hses⟩ := s.frameBound_ses k id
  have hmem := s.frameBound_sameMemory k id
  have heq := h.encodeInput hleads
  generalize s.frameBound k id = b at *
  obtain ⟨r, hr, hwork, hbses⟩ := State.hevcStart_mismatch (s := b) (how := 0) (by rw [hses]; exact hg) h.decodes rfl (by rw [hses]; exact hfit)
  have hpull := (b.hevcStart k sh (frameInput tok) 0).hevcIntake_pulled hk
  refine ⟨_, r, heq, (hmem.trans hwork.sameMemory).trans hpull.sameMemory, hpull.pic_none ?_, hpull.recs.trans ?_, hr⟩
  · rw [hbses, hses]
    exact (State.pic_of_sesTakes h.takes).1
  · rw [hbses, hses]

/-- A frame of the session's format becomes the picture in progress (R290). -/
theorem FrameFront.encodes (hk : k < 64) (h : FrameFront s k id sh tok rest) (hleads : Leads s) (hg : genRuns (s.ses k).nextBank k = true)
    (hfit : (frameInput tok).fits (encBank (s.ses k).nextBank.regs k) = true) :
    ∃ t p, s.encodeInput k = t ∧ SameMemory s t ∧ (t.ses k).pic = some p ∧ p.inp = frameInput tok ∧ p.num = (s.ses k).pics ∧ p.done = 0
      ∧ p.gen = (s.ses k).nextBank ∧ (rest = [] → p.lines = []) ∧ (t.ses k).pics = ((s.ses k).pics + 1) % 2 ^ 32 := by
  obtain ⟨n, w, g, hses⟩ := s.frameBound_ses k id
  have hmem := s.frameBound_sameMemory k id
  obtain ⟨u, p, hu, hpic, hfresh, -, hpics, -, hstrand⟩ := State.hevcStart_encodes (s := s.frameBound k id) (inp := frameInput tok) (how := 0) hk
    (by rw [hses]; exact hg) h.decodes fun _ => by rw [hses]; exact hfit
  have hwork := hstrand rfl
  have hpassed : u.passInput k (frameInput tok) = u := rfl
  have heq : s.encodeInput k = u.hevcIntake k := by rw [h.encodeInput hleads, hu, hpassed]
  have hpull := u.hevcIntake_pulled hk
  obtain ⟨l, d, m, hq⟩ := hpull.pic_some hpic
  rw [hses] at hpics
  refine ⟨_, _, heq, (hmem.trans hwork.sameMemory).trans hpull.sameMemory, hq, hfresh.inp, hfresh.num.trans (by rw [hses]), hfresh.done,
    hfresh.gen.trans (by rw [hses]), ?_, hpull.pics.trans hpics⟩
  rintro rfl
  rw [h.dry hwork] at hq
  have hlines := congrArg HevcPic.lines (Option.some.inj (hpic.symm.trans hq))
  exact hlines.symm.trans (hfresh.lines rfl)

end Frame

/-! ## The answers -/

theorem encodeInput_answers {s : State} {k : Nat} (hk : k < 64) : Answers (.encodeInput k) s (settle (s.encodeInput k)) := by
  refine answers_settle_of_exec_eq_done (c := .encodeInput k) ?_
  show execEncodeInput k s = _
  rw [execEncodeInput, Nat.mod_eq_of_lt hk]

/-- Clause of the strand-fed frame (R283, R284, R290, R580). -/
theorem strandFrame_answers {k id : Nat} {sh : Shape} {tok : Token} {rest : List Token} {s : State} (hk : k < 64)
    (h : FrameFront s k id sh tok rest) (hleads : Leads s) :
    let g := (s.ses k).nextBank
    let e := encBank g.regs k
    ∃ t, Answers (.encodeInput k) s t ∧ SameMemory s t ∧
      if genRuns g k = false then (t.ses k).pic = none ∧ (t.ses k).pics = ((s.ses k).pics + 1) % 2 ^ 32
        ∧ t.fld (F.HEVC_SES_DISCARDED_count k) = min (s.fld (F.HEVC_SES_DISCARDED_count k) + 1) (2 ^ 32 - 1)
      else if tokenField tok 15 8 = (if e.chroma = 1 then 4 else 6) ∧ tokenField tok 79 64 = e.width ∧ tokenField tok 95 80 = e.height then
        ∃ p, (t.ses k).pic = some p ∧ p.inp.tag = tokenField tok 31 16 ∧ p.num = (s.ses k).pics ∧ p.done = 0 ∧ p.gen = g
          ∧ (rest = [] → p.lines = []) ∧ (t.ses k).pics = ((s.ses k).pics + 1) % 2 ^ 32
      else (t.ses k).pic = none ∧ ∃ r, (t.ses k).recs = (s.ses k).recs ++ [r] ∧ r.status = 4 := by
  intro g e
  refine ⟨_, encodeInput_answers hk, ?_⟩
  simp only [settle_ses]
  have hiff := frameInput_fits tok e
  split
  · next hg =>
    obtain ⟨t, ht, hmem, hpic, hpics, hcount⟩ := h.discards hk hleads hg
    rw [ht]
    exact ⟨hmem.settle, hpic, hpics, (settle_fld_session t (o := 0xA4) (by decide) hk rfl).trans hcount⟩
  next hg =>
  have hruns : genRuns g k = true := by simpa using hg
  by_cases hfit : (frameInput tok).fits e = true
  · obtain ⟨t, p, ht, hmem, hpic, hinp, hrest⟩ := h.encodes hk hleads hruns hfit
    rw [ht, if_pos (hiff.mp hfit)]
    exact ⟨hmem.settle, p, hpic, congrArg HevcIn.tag hinp, hrest⟩
  · obtain ⟨t, r, ht, hmem, hpic, hrecs, hr⟩ := h.refuses hk hleads hruns (Bool.eq_false_iff.mpr hfit)
    rw [ht, if_neg (mt hiff.mpr hfit)]
    exact ⟨hmem.settle, hpic, r, hrecs, hr⟩

end Sys2Proof.Machine
end

section
/-! Rows of a coding session's picture (R279, R288, R292 to R294, R297, R302). -/
namespace Sys2Proof.Machine

/-! ## What a row leaves -/

theorem DpbWork.sameMemory {k : Nat} {s t : State} (h : DpbWork k s t) : SameMemory s t := by
  obtain ⟨r, v, rfl⟩ := h.frame
  exact .of_eq rfl rfl rfl rfl

theorem DpbWork.jnl {k : Nat} {s t : State} (h : DpbWork k s t) : t.jnl = s.jnl := by
  obtain ⟨r, v, rfl⟩ := h.frame
  rfl

theorem DpbWork.pic {k : Nat} {s t : State} (h : DpbWork k s t) : (t.ses k).pic = (s.ses k).pic := congrArg (fun x => x.2.2.2) h.progress

/-- A picture that goes on after a row is `q`, where it was `p`. -/
structure RowDone (encode : Bool) (p q : HevcPic) : Prop where
  done : q.done = p.done + 1
  num : q.num = p.num
  buf : q.buf.isSome = true
  held : p.buf.isSome = true → q.buf = p.buf
  rows : encode = true → q.rows.length = p.rows.length + 1

/-- What the next row needs of the picture once it has its buffer. -/
structure Buffered (p q : HevcPic) : Prop where
  gen : q.gen = p.gen
  num : q.num = p.num
  done : q.done = p.done
  inp : q.inp = p.inp
  rows : q.rows = p.rows
  buf : q.buf.isSome = true
  held : p.buf.isSome = true → q.buf = p.buf

section Rows
variable {s u : State} {k : Nat} {sh : Shape} {p q : HevcPic}

/-! ## The buffer (R279, R288) -/

/-- The choice of a buffer looks at the pool's registers and the session's quota alone. -/
theorem Pulled.takeBuf (hk : k < 64) (h : Pulled k s u) : u.takeBuf k = s.takeBuf k := by
  have hmark (n : Nat) (hn : n < 512) : u.rd (R.HEVC_POOL_MARK n) = s.rd (R.HEVC_POOL_MARK n) := by
    refine h.regs _ ?_ (not_sendCounter (.inl ?_)) <;> simp only [R.HEVC_POOL_MARK, R.HEVC_SES_DISCARDED, List.mem_singleton] <;> omega
  have hquota : u.fld (F.HEVC_SES_QUOTA_quota k) = s.fld (F.HEVC_SES_QUOTA_quota k) := by
    refine h.regs.fld ?_ ?_ <;> simp only [F.HEVC_SES_QUOTA_quota, R.HEVC_SES_DISCARDED, List.mem_singleton] <;> omega
  have hcount : u.fld F.HEVC_POOL_COUNT_count = s.fld F.HEVC_POOL_COUNT_count := by
    refine h.regs.fld ?_ (by decide)
    simp only [F.HEVC_POOL_COUNT_count, R.HEVC_SES_DISCARDED, List.mem_singleton]
    omega
  unfold State.takeBuf
  rw [hquota, hcount, State.heldBufs_congr hmark]
  split
  · rfl
  · refine List.find?_congr fun n hn => ?_
    rw [hmark n (lt_of_lt_of_le (List.mem_range.mp hn) (Nat.min_le_left ..))]

/-- A picture whose row is ready has a buffer, or one is free for it (R279). -/
theorem State.buffer_of_rowReady (hk : k < 64) (hp : (s.ses k).pic = some p) {decode : Bool} (hready : s.rowReady k decode = true) :
    p.buf.isSome = true ∨ (s.takeBuf k).isSome = true := by
  have hpull := s.hevcIntake_pulled hk
  obtain ⟨l, d, m, hq⟩ := hpull.pic_some hp
  unfold State.rowReady at hready
  dsimp only at hready
  rw [hq] at hready
  split at hready
  · next p' sh' hp' _ =>
    obtain rfl := Option.some.inj hp'
    simp only [Bool.and_eq_true, Bool.or_eq_true, hpull.takeBuf hk] at hready
    exact hready.1.2
  · exact absurd hready Bool.false_ne_true

theorem State.rowBuffer_of_rowReady (hk : k < 64) (hp : (s.ses k).pic = some p) {decode : Bool} (hready : s.rowReady k decode = true) :
    ∃ q u, s.rowBuffer k p = some (q, u) ∧ SameMemory s u ∧ u.ses k = { s.ses k with pic := some q } ∧ Buffered p q := by
  unfold State.rowBuffer
  cases hb : p.buf with
  | some b => exact ⟨p, s, rfl, .refl s, by rw [← hp], rfl, rfl, rfl, rfl, rfl, hb ▸ rfl, fun _ => rfl⟩
  | none =>
    have hfree := (State.buffer_of_rowReady hk hp hready).resolve_left (by rw [hb]; exact Bool.false_ne_true)
    obtain ⟨n, hn⟩ := Option.isSome_iff_exists.mp hfree
    refine ⟨_, _, congrArg (Option.map _) hn, ?_, (State.ses_setSes_same ..).trans (by rw [State.ses_markBuf]), rfl, rfl, rfl, rfl, rfl, rfl,
      by simp [hb]⟩
    exact (State.markBuf_work ..).sameMemory.trans (.of_eq rfl rfl rfl rfl)

theorem State.sesRow_eq (hshape : (s.hevcIntake k).sesShape k = some sh) (hp : ((s.hevcIntake k).ses k).pic = some p)
    (hready : (s.hevcIntake k).rowReady k sh.decodes = true) {q : HevcPic} {u : State}
    (hbuf : (s.hevcIntake k).rowBuffer k p = some (q, u)) :
    s.sesRow k = if sh.decodes then u.decodeRow1 k q else (u.encodeRow k q).hevcIntake k := by
  simp only [State.sesRow, hp, hshape, hready, hbuf, if_true]

/-! ## Encoded rows (R292 to R294) -/

/-- Reading the input lines of a row moves free values alone. -/
theorem State.inputLines_free (s : State) (p : HevcPic) (n : Nat) : ∃ f, (s.inputLines p n).2 = { s with freeCtr := f } := by
  unfold State.inputLines
  refine foldl_related (r := fun (a b : List (List Nat) × State) => ∃ f, b.2 = { a.2 with freeCtr := f }) (fun a => ⟨_, rfl⟩) ?_ ?_ _ ([], s)
  · rintro a ⟨-, b⟩ ⟨-, c⟩ ⟨f, rfl⟩ ⟨g, rfl⟩
    exact ⟨g, rfl⟩
  · intro a l
    split
    · exact ⟨_, rfl⟩
    · exact ⟨_, rfl⟩

theorem State.inputLines_sameMemory (s : State) (p : HevcPic) (n : Nat) : SameMemory s (s.inputLines p n).2 := by
  obtain ⟨f, hf⟩ := s.inputLines_free p n
  rw [hf]
  exact .of_eq rfl rfl rfl rfl

/-- A row that is not the last joins the picture's rows (R293). -/
theorem State.encodeRow_goesOn (h : q.done + 1 < (encBank q.gen.regs k).rows) :
    ∃ q', (s.encodeRow k q).ses k = { s.ses k with pic := some q' } ∧ SameMemory s (s.encodeRow k q) ∧ q'.done = q.done + 1
      ∧ q'.num = q.num ∧ q'.buf = q.buf ∧ q'.rows.length = q.rows.length + 1 := by
  unfold State.encodeRow
  extract_lets e x words r poc inl v lines before chosen trial fill codes bytes used qp p'
  rw [if_pos h]
  exact ⟨p', State.ses_setSes_same .., (s.inputLines_sameMemory q _).trans (.of_eq rfl rfl rfl rfl), rfl, rfl, rfl, rfl⟩

/-- The last row queues the record of the access unit (R291, R294, R300). -/
theorem State.encodeRow_ends (h : ¬ q.done + 1 < (encBank q.gen.regs k).rows) :
    SameMemory s (s.encodeRow k q) ∧ ((s.encodeRow k q).ses k).pic = none
      ∧ ∃ r, ((s.encodeRow k q).ses k).recs = (s.ses k).recs ++ [r] ∧ r.status = 0 ∧ r.num = q.num ∧ r.au ≠ none := by
  unfold State.encodeRow
  extract_lets e x words r poc inl v lines before chosen trial fill codes bytes used qp p' rows au epb last buf refs keep marked dropped ended
  rw [if_neg h]
  have hmem : SameMemory s ended :=
    (s.inputLines_sameMemory q _).trans (((State.markBuf_work ..).trans (State.dropRefs_work ..)).sameMemory.trans (.of_eq rfl rfl rfl rfl))
  have hqueued (r : HevcRec) : ((ended.put (F.HEVC_SES_EPB_value k) epb).queueRec k r).ses k = { x with
      pic := none, refs := keep, model := Config.encNext words x.model p'.idr (rowCodes rows), recs := x.recs ++ [r] } := by
    rw [State.queueRec, State.ses_setSes_same, State.ses_put, State.ses_setSes_same]
  refine ⟨hmem.trans (.of_eq rfl rfl rfl rfl), congrArg HevcSes.pic (hqueued _), ?_⟩
  refine ⟨_, congrArg HevcSes.recs (hqueued _), ?_⟩
  exact ⟨rfl, rfl, Option.some_ne_none _⟩

/-! ## Decoded rows (R297, R302) -/

/-- The last row completes a decoded picture, and its digest (R112, R297). -/
theorem State.decodeDone_done (s : State) (k : Nat) (p : HevcPic) :
    SameMemory s (s.decodeDone k p) ∧ ((s.decodeDone k p).ses k).pic = none
      ∧ ∃ d, mapFind (s.decodeDone k p).jnl.digests (768 + k) = some d ∧ d.num = p.num := by
  unfold State.decodeDone
  extract_lets x us i lost f flags buf d older marked stored bumped digested out
  have hout : DpbWork k digested out := by
    simp only [out]
    split
    · exact .refl k _
    · exact (DpbWork.refl k _).queueRec _
  have hwork := hout.trans (State.bumpWhile_work k (fun l => mustBump l i.reorder i.latencyPlus1) (older.length + 1) out)
  have hmem : SameMemory s digested := (State.markBuf_work ..).sameMemory.trans (.of_eq rfl rfl rfl rfl)
  have hdigest := mapFind_mapSet_same bumped.jnl.digests (768 + k)
    ⟨p.num, crc64 (frameBytes f), p.marks.excluded, p.marks.replayed, p.marks.override⟩
  exact ⟨hmem.trans hwork.sameMemory, hwork.pic.trans (congrArg HevcSes.pic (marked.ses_setSes_same k _)), _,
    (congrArg (fun j => mapFind j.digests (768 + k)) hwork.jnl).trans hdigest, rfl⟩

/-- A row that is not the last of its picture (R293, R302). -/
theorem State.sesRow_goesOn (hk : k < 64) (hshape : (s.hevcIntake k).sesShape k = some sh) (hp : ((s.hevcIntake k).ses k).pic = some p)
    (hready : (s.hevcIntake k).rowReady k sh.decodes = true)
    (hrows : p.done + 1 < if sh.decodes
      then (decInfo ((s.hevcIntake k).ses k).ctx (usable ((s.hevcIntake k).ses k).ctx p.inp.au)).rows else (encBank p.gen.regs k).rows) :
    ∃ t q, s.sesRow k = t ∧ SameMemory s t ∧ (t.ses k).pic = some q ∧ (t.ses k).recs = (s.ses k).recs ∧ RowDone (!sh.decodes) p q := by
  have hpull := s.hevcIntake_pulled hk
  obtain ⟨q, u, hbuf, hmem, hses, hq⟩ := State.rowBuffer_of_rowReady hk hp hready
  have heq := State.sesRow_eq hshape hp hready hbuf
  have hbegun := hpull.sameMemory.trans hmem
  have hrecs : (u.ses k).recs = (s.ses k).recs := by rw [hses, ← hpull.recs]
  cases hd : sh.decodes with
  | true =>
    rw [hd, if_pos rfl, ← hq.done, ← hq.inp] at hrows
    rw [hd, if_pos rfl] at heq
    have hrow : u.decodeRow1 k q = u.setSes k { u.ses k with pic := some { q with done := q.done + 1 } } := by
      refine if_pos ?_
      rw [hses]
      exact hrows
    refine ⟨_, { q with done := q.done + 1 }, heq.trans hrow, hbegun.trans (.of_eq rfl rfl rfl rfl), ?_, ?_,
      congrArg (· + 1) hq.done, hq.num, hq.buf, hq.held, nofun⟩
    · rw [State.ses_setSes_same]
    · rw [State.ses_setSes_same, hrecs]
  | false =>
    rw [hd, if_neg Bool.false_ne_true, ← hq.done, ← hq.gen] at hrows
    rw [hd, if_neg Bool.false_ne_true] at heq
    obtain ⟨q1, hq1, hrowmem, hdone, hnum, hbuf1, hlen⟩ := State.encodeRow_goesOn (s := u) hrows
    have hpull1 := (u.encodeRow k q).hevcIntake_pulled hk
    obtain ⟨l, d, m, hq2⟩ := hpull1.pic_some (congrArg HevcSes.pic hq1)
    refine ⟨_, _, heq, (hbegun.trans hrowmem).trans hpull1.sameMemory, hq2, ?_,
      hdone.trans (congrArg (· + 1) hq.done), hnum.trans hq.num, ?_, ?_, ?_⟩
    · rw [hpull1.recs, hq1, ← hrecs]
    · exact (congrArg Option.isSome hbuf1).trans hq.buf
    · exact fun h => hbuf1.trans (hq.held h)
    · exact fun _ => hlen.trans (congrArg (fun l => l.length + 1) hq.rows)

/-- The last row of a picture (R291, R294, R297). -/
theorem State.sesRow_ends (hk : k < 64) (hshape : (s.hevcIntake k).sesShape k = some sh) (hp : ((s.hevcIntake k).ses k).pic = some p)
    (hready : (s.hevcIntake k).rowReady k sh.decodes = true)
    (hrows : ¬ p.done + 1 < if sh.decodes
      then (decInfo ((s.hevcIntake k).ses k).ctx (usable ((s.hevcIntake k).ses k).ctx p.inp.au)).rows else (encBank p.gen.regs k).rows) :
    ∃ t, s.sesRow k = t ∧ SameMemory s t ∧ (t.ses k).pic = none
      ∧ (sh.decodes = false → ∃ r, (t.ses k).recs = (s.ses k).recs ++ [r] ∧ r.status = 0 ∧ r.num = p.num ∧ r.au ≠ none)
      ∧ (sh.decodes = true → ∃ d, mapFind t.jnl.digests (768 + k) = some d ∧ d.num = p.num) := by
  have hpull := s.hevcIntake_pulled hk
  obtain ⟨q, u, hbuf, hmem, hses, hq⟩ := State.rowBuffer_of_rowReady hk hp hready
  have heq := State.sesRow_eq hshape hp hready hbuf
  have hbegun := hpull.sameMemory.trans hmem
  cases hd : sh.decodes with
  | true =>
    rw [hd, if_pos rfl, ← hq.done, ← hq.inp] at hrows
    rw [hd, if_pos rfl] at heq
    have hrow : u.decodeRow1 k q = u.decodeDone k { q with done := q.done + 1 } := by
      refine if_neg ?_
      rw [hses]
      exact hrows
    obtain ⟨hdone, hpic, d, hfind, hnum⟩ := u.decodeDone_done k { q with done := q.done + 1 }
    exact ⟨_, heq.trans hrow, hbegun.trans hdone, hpic, nofun, fun _ => ⟨d, hfind, hnum.trans hq.num⟩⟩
  | false =>
    rw [hd, if_neg Bool.false_ne_true, ← hq.done, ← hq.gen] at hrows
    rw [hd, if_neg Bool.false_ne_true] at heq
    obtain ⟨hrowmem, hpic, r, hrecs, hstatus, hnum, hau⟩ := State.encodeRow_ends (s := u) hrows
    have hpull1 := (u.encodeRow k q).hevcIntake_pulled hk
    refine ⟨_, heq, (hbegun.trans hrowmem).trans hpull1.sameMemory, hpull1.pic_none hpic,
      fun _ => ⟨r, ?_, hstatus, hnum.trans hq.num, hau⟩, nofun⟩
    rw [hpull1.recs, hrecs, hses, ← hpull.recs]

end Rows

/-! ## The answers -/

/-- Clause of the rows (R279, R288, R291 to R294, R297, R302). -/
theorem ctuRow_answers {k : Nat} {sh : Shape} {p : HevcPic} {s : State} (hk : k < 64) :
    let s1 := s.hevcIntake k
    s1.sesShape k = some sh → (s1.ses k).pic = some p → s1.rowReady k sh.decodes = true →
    let rows := if sh.decodes then (decInfo (s1.ses k).ctx (usable (s1.ses k).ctx p.inp.au)).rows else (encBank p.gen.regs k).rows
    ∃ t, Answers (.ctuRow k) s t ∧ SameMemory s t ∧
      if p.done + 1 < rows then
        ∃ q, (t.ses k).pic = some q ∧ q.done = p.done + 1 ∧ q.num = p.num ∧ q.buf.isSome = true ∧ (p.buf.isSome = true → q.buf = p.buf)
          ∧ (sh.decodes = false → q.rows.length = p.rows.length + 1) ∧ (t.ses k).recs = (s.ses k).recs
      else (t.ses k).pic = none
        ∧ (sh.decodes = false → ∃ r, (t.ses k).recs = (s.ses k).recs ++ [r] ∧ r.status = 0 ∧ r.num = p.num ∧ r.au ≠ none)
        ∧ (sh.decodes = true → ∃ d, mapFind t.jnl.digests (768 + k) = some d ∧ d.num = p.num) := by
  intro s1 hshape hp hready rows
  have hans : Answers (.ctuRow k) s (settle (s.sesRow k)) := by
    refine answers_settle_of_exec_eq_done (c := .ctuRow k) ?_
    show execCtuRow k s = _
    rw [execCtuRow, Nat.mod_eq_of_lt hk]
  refine ⟨_, hans, ?_⟩
  simp only [settle_ses, settle_jnlDigests]
  split
  · next hrows =>
    obtain ⟨t, q, ht, hmem, hpic, hrecs, hdone, hnum, hbuf, hheld, hlen⟩ := State.sesRow_goesOn hk hshape hp hready hrows
    rw [ht]
    exact ⟨hmem.settle, q, hpic, hdone, hnum, hbuf, hheld, fun hd => hlen (by rw [hd]; rfl), hrecs⟩
  · next hrows =>
    obtain ⟨t, ht, hmem, hends⟩ := State.sesRow_ends hk hshape hp hready hrows
    rw [ht]
    exact ⟨hmem.settle, hends⟩

end Sys2Proof.Machine
end

section
/-! The records of a coding session (R289, R291, R298, R300). -/
namespace Sys2Proof.Machine

/-! ## Bytes stored -/

theorem leBytes_length (n v : Nat) : (leBytes n v).length = n := by
  induction n generalizing v with
  | zero => rfl
  | succ n ih => exact congrArg (· + 1) (ih _)

theorem recordBytes_length (r : HevcRec) (seq buf offset len : Nat) : (recordBytes r seq buf offset len).length = 32 := by
  simp only [recordBytes, List.length_append, leBytes_length]

theorem DramIdle.of_memc {s t : State} (h : DramIdle s) (he : t.memc = s.memc) : DramIdle t := fun c => by
  rw [State.chan, he]
  exact h c

/-- What storing bytes at places of `p` and registers of `l` leaves alone. -/
structure Stores (l : List Nat) (p : Nat → Prop) (s t : State) : Prop where
  regs : RegsBut l s t
  pool : t.pool = s.pool
  bytes : DramIdle s → DramIdle t ∧ ∀ x, ¬ p x → memGet t.dram x = memGet s.dram x

namespace Stores

variable {l m : List Nat} {p q : Nat → Prop} {s t u : State}

theorem refl (l : List Nat) (p : Nat → Prop) (s : State) : Stores l p s s := ⟨.refl l s, rfl, fun h => ⟨h, fun _ _ => rfl⟩⟩

theorem trans (h : Stores l p s t) (g : Stores l p t u) : Stores l p s u := by
  refine ⟨h.regs.trans g.regs, g.pool.trans h.pool, fun hs => ?_⟩
  obtain ⟨ht, hst⟩ := h.bytes hs
  obtain ⟨hu, htu⟩ := g.bytes ht
  exact ⟨hu, fun x hx => (htu x hx).trans (hst x hx)⟩

theorem mono (h : Stores l p s t) (hl : l ⊆ m) (hp : ∀ x, p x → q x) : Stores m q s t :=
  ⟨h.regs.mono hl, h.pool, fun hs => ⟨(h.bytes hs).1, fun x hx => (h.bytes hs).2 x (mt (hp x) hx)⟩⟩

/-- What touches neither DRAM nor its controllers. -/
theorem of_regs (hregs : RegsBut l s t) (hpool : t.pool = s.pool) (hmemc : t.memc = s.memc) (hdram : t.dram = s.dram) : Stores l p s t :=
  ⟨hregs, hpool, fun h => ⟨h.of_memc hmemc, fun x _ => by rw [hdram]⟩⟩

theorem setSes (l : List Nat) (p : Nat → Prop) (s : State) (k : Nat) (x : HevcSes) : Stores l p s (s.setSes k x) :=
  .of_regs (fun _ _ _ => rfl) rfl rfl rfl

end Stores

/-- A write of DRAM stores its own bytes. -/
theorem State.dramWrite_stores (s : State) (a : Nat) (d : List Byte) :
    Stores dramErrRegs (fun x => a ≤ x ∧ x < a + d.length) s (s.dramWrite a d) := by
  have hserved := (s.dramTurn_served a d.length).trans (State.meetPoison_served _ (mergedLines a d.length))
  refine ⟨hserved.1, (s.dramWrite_stripeWork a d).2, fun h => ⟨?_, fun x hx => State.memGet_dramWrite_out h (by omega)⟩⟩
  exact (s.dramTurn_idle a d.length h).1.meetPoison _

theorem State.dramWrite_hevc (s : State) (a : Nat) (d : List Byte) : (s.dramWrite a d).hevc = s.hevc :=
  ((s.dramTurn_served a d.length).trans (State.meetPoison_served _ (mergedLines a d.length))).hevc

/-- An access unit goes to its ring alone (R289, R291). -/
theorem State.ringWrite_stores (base size n pos : Nat) (d : List Byte) (s : State) :
    Stores dramErrRegs (fun x => base ≤ x ∧ x < base + size) s (State.ringWrite base size n pos d s)
      ∧ (State.ringWrite base size n pos d s).hevc = s.hevc := by
  induction n generalizing pos d s with
  | zero => exact ⟨.refl _ _ s, rfl⟩
  | succ n ih =>
    have hwrite : Stores dramErrRegs (fun x => base ≤ x ∧ x < base + size) s (s.dramWrite (base + pos) (d.take (size - pos))) := by
      refine (s.dramWrite_stores _ _).mono (List.Subset.refl _) fun x => ?_
      rw [List.length_take]
      omega
    unfold State.ringWrite
    dsimp only
    split
    · exact ⟨hwrite, s.dramWrite_hevc _ _⟩
    · obtain ⟨hrest, hhevc⟩ := ih 0 (d.drop (size - pos)) (s.dramWrite (base + pos) (d.take (size - pos)))
      exact ⟨hwrite.trans hrest, hhevc.trans (s.dramWrite_hevc _ _)⟩

/-- The lines of a picture go to its output buffer alone (R289, R298). -/
def State.writeLines (s : State) (base pitch stride : Nat) (l : List (List Nat × Nat)) : State :=
  l.foldl (fun s e => s.dramWrite (base + pitch * e.2) ((e.1.flatMap (leBytes 2)).take (min pitch (stride - pitch * e.2)))) s

@[inherit_doc State.writeLines]
theorem State.writeLines_stores (s : State) (base pitch stride : Nat) (l : List (List Nat × Nat)) :
    Stores dramErrRegs (fun x => base ≤ x ∧ x < base + stride) s (s.writeLines base pitch stride l)
      ∧ (s.writeLines base pitch stride l).hevc = s.hevc := by
  refine foldl_related (r := fun s t => Stores dramErrRegs (fun x => base ≤ x ∧ x < base + stride) s t ∧ t.hevc = s.hevc)
    (fun s => ⟨.refl _ _ s, rfl⟩) (fun h g => ⟨h.1.trans g.1, g.2.trans h.2⟩) (fun s e => ⟨?_, s.dramWrite_hevc _ _⟩) l s
  refine (s.dramWrite_stores _ _).mono (List.Subset.refl _) fun x => ?_
  rw [List.length_take]
  omega

/-! ## The record posted (R300) -/

/-- The registers that posting a record of a session moves. -/
def recordRegs (k : Nat) : List Nat := [R.HEVC_SES_NEXT_SEQ k, R.HEVC_EVT (k / 32)]

/-- The place of a session's next record in its completion ring. -/
def State.recordPlace (s : State) (k : Nat) : Nat :=
  s.base2 (F.HEVC_SES_CQ_LO_base_lo k) (F.HEVC_SES_CQ_HI_base_hi k) + 32 * (s.fld (F.HEVC_SES_NEXT_SEQ_value k) % s.sesRing k)

/-- A record of a session posted from `s` leaves `t`. -/
structure RecordPosted (k : Nat) (r : HevcRec) (buf offset len : Nat) (s t : State) : Prop where
  stored : memRead t.dram (s.recordPlace k) 32 = recordBytes r (s.fld (F.HEVC_SES_NEXT_SEQ_value k)) buf offset len
  stores : Stores (recordRegs k ++ dramErrRegs) (fun x => s.recordPlace k ≤ x ∧ x < s.recordPlace k + 32) s t
  next : t.rd (R.HEVC_SES_NEXT_SEQ k) = (s.fld (F.HEVC_SES_NEXT_SEQ_value k) + 1) % 2 ^ 32
  event : r.irq = true → t.fld ⟨R.HEVC_EVT (k / 32), k % 32, k % 32⟩ = 1
  hevc : t.hevc = s.hevc

theorem State.postRec_posted (s : State) (k : Nat) (r : HevcRec) (buf offset len : Nat) :
    RecordPosted k r buf offset len s (s.postRec k r buf offset len) := by
  have hlen := recordBytes_length r (s.fld (F.HEVC_SES_NEXT_SEQ_value k)) buf offset len
  have hread := s.memRead_dramWrite (s.recordPlace k) (recordBytes r (s.fld (F.HEVC_SES_NEXT_SEQ_value k)) buf offset len)
  have hwrite := s.dramWrite_stores (s.recordPlace k) (recordBytes r (s.fld (F.HEVC_SES_NEXT_SEQ_value k)) buf offset len)
  have hhevc := s.dramWrite_hevc (s.recordPlace k) (recordBytes r (s.fld (F.HEVC_SES_NEXT_SEQ_value k)) buf offset len)
  rw [hlen] at hread hwrite
  have hpost : s.postRec k r buf offset len =
      let t := (s.dramWrite (s.recordPlace k) (recordBytes r (s.fld (F.HEVC_SES_NEXT_SEQ_value k)) buf offset len)).wr (R.HEVC_SES_NEXT_SEQ k)
        ((s.fld (F.HEVC_SES_NEXT_SEQ_value k) + 1) % 2 ^ 32)
      if r.irq then t.hevcEvent k else t := rfl
  rw [hpost]
  obtain ⟨w, hw⟩ : ∃ w, s.dramWrite (s.recordPlace k) (recordBytes r (s.fld (F.HEVC_SES_NEXT_SEQ_value k)) buf offset len) = w :=
    ⟨_, rfl⟩
  rw [hw] at hread hwrite hhevc ⊢
  have hapart : R.HEVC_SES_NEXT_SEQ k ≠ R.HEVC_EVT (k / 32) := by simp only [R.HEVC_SES_NEXT_SEQ, R.HEVC_EVT]; omega
  have hnumber (n : Nat) : (w.wr (R.HEVC_SES_NEXT_SEQ k) (n % 2 ^ 32)).rd (R.HEVC_SES_NEXT_SEQ k) = n % 2 ^ 32 :=
    (State.rd_wr_same ..).trans (Nat.mod_mod ..)
  have hcount (v : Nat) : RegsBut (recordRegs k ++ dramErrRegs) w (w.wr (R.HEVC_SES_NEXT_SEQ k) v) := (RegsBut.refl _ w).wr v (.head _)
  have hstored := hwrite.mono (m := recordRegs k ++ dramErrRegs) (List.subset_append_right ..) fun _ h => h
  dsimp only
  split
  · next hirq =>
    have hevent (v : Nat) := (hcount v).put (f := ⟨R.HEVC_EVT (k / 32), k % 32, k % 32⟩) 1 (.tail _ (.head _))
    refine ⟨hread, hstored.trans (.of_regs (hevent _) rfl rfl rfl), ?_, fun _ => ?_, hhevc⟩
    · exact (State.rd_put_ne _ _ _ hapart).trans (hnumber _)
    · rw [State.hevcEvent, State.fld_put_same _ _ _ (show k % 32 < 32 by omega), Nat.add_sub_cancel_left]
      rfl
  · next hirq => exact ⟨hread, hstored.trans (.of_regs (hcount _) rfl rfl rfl), hnumber _, fun h => absurd h hirq, hhevc⟩

end Sys2Proof.Machine
end

section
/-! A session posts its oldest record, after the access unit or the picture that it reports (R289, R291, R298, R300). -/
namespace Sys2Proof.Machine

/-! ## What goes out before the record -/

/-- Tokens have gone out, or marks have been noted for them. -/
def Relayed (s t : State) : Prop := ∃ g c, t = { s with rig := g, cam := c }

/-- The ring of access units that a session's active bank names: its base and size (R289). -/
def HevcSes.unitRing (x : HevcSes) (k : Nat) : Nat × Nat :=
  (bankFld x.active.regs (F.HEVC_SES_BS_LO_base_lo k) * 2 ^ 12 + bankFld x.active.regs (F.HEVC_SES_BS_HI_base_hi k) * 2 ^ 32,
    max 1 (bankFld x.active.regs (F.HEVC_SES_BS_SIZE_bs_size k) * 4096))

/-- The output buffer that is a session's next, and the bytes of one. -/
def HevcSes.outBuf (x : HevcSes) (k : Nat) : Nat := x.outs % max 1 (bankFld x.active.regs (F.HEVC_SES_OUT_BUF_out_bufs k))
@[inherit_doc HevcSes.outBuf]
def HevcSes.outStride (x : HevcSes) (k : Nat) : Nat := bankFld x.active.regs (F.HEVC_SES_OUT_STRIDE_out_stride k) * 4096

/-- The place of that buffer. -/
def HevcSes.outPlace (x : HevcSes) (k : Nat) : Nat :=
  bankFld x.active.regs (F.HEVC_SES_OUT_LO_base_lo k) * 2 ^ 12 + bankFld x.active.regs (F.HEVC_SES_OUT_HI_base_hi k) * 2 ^ 32
    + x.outBuf k * x.outStride k

/-- Before its record is posted from `u`, only bytes of `p` and registers of `l` have moved, and the session's other records wait. -/
structure Precedes (k : Nat) (l : List Nat) (p : Nat → Prop) (s u : State) : Prop where
  stores : Stores l p s u
  recs : (u.ses k).recs = (s.ses k).recs

theorem State.postUnit_precedes (s : State) (k : Nat) (r : HevcRec) (au : List Byte) (tag stamp : Nat) :
    ∃ u, Precedes k dramErrRegs (fun x => ((s.ses k).unitRing k).1 ≤ x ∧ x < ((s.ses k).unitRing k).1 + ((s.ses k).unitRing k).2) s u
      ∧ Relayed (u.postRec k r 0 ((s.ses k).bsPos % ((s.ses k).unitRing k).2) au.length) (s.postUnit k r au tag stamp) := by
  unfold State.postUnit
  extract_lets x b size base pos written digested posted
  obtain ⟨hstores, -⟩ := State.ringWrite_stores base size (au.length / size + 2) pos au s
  refine ⟨digested, ⟨hstores.trans (.of_regs (fun _ _ _ => rfl) rfl rfl rfl), ?_⟩, ?_⟩
  · have hses : digested.ses k = { x with bsPos := (pos + au.length) % size } := State.ses_setSes_same ..
    rw [hses]
  · split
    · exact ⟨_, _, rfl⟩
    · exact ⟨_, _, rfl⟩

theorem State.postPicture_precedes (s : State) (k : Nat) (r : HevcRec) (d : DecPic) :
    ∃ u, Precedes k (poolRegs k ++ dramErrRegs) (fun x => (s.ses k).outPlace k ≤ x ∧ x < (s.ses k).outPlace k + (s.ses k).outStride k) s u
      ∧ Relayed (u.postRec k r ((s.ses k).outBuf k) (wrapTo 32 r.poc) d.lost) (s.postPicture k r d) := by
  unfold State.postPicture
  extract_lets x b buf pitch stride base written counted posted noted
  obtain ⟨hstores, -⟩ := s.writeLines_stores base pitch stride (outputLines d.frame d.crop).zipIdx
  obtain ⟨q, hq⟩ := counted.markBuf_regs k d.buf 0 markOut
  have hmark : Stores (poolRegs k ++ dramErrRegs) (fun x => base ≤ x ∧ x < base + stride) counted (counted.markBuf k d.buf 0 markOut) :=
    .of_regs ((counted.markBuf_work k d.buf 0 markOut).regs.mono (List.subset_append_left ..)) (by rw [hq]) (by rw [hq]) (by rw [hq])
  refine ⟨counted.markBuf k d.buf 0 markOut, ⟨?_, ?_⟩, ?_⟩
  · exact (hstores.mono (List.subset_append_right ..) fun _ h => h).trans ((Stores.setSes _ _ written k _).trans hmark)
  · have hses : counted.ses k = { x with outs := (x.outs + 1) % 2 ^ 32 } := State.ses_setSes_same ..
    rw [State.ses_markBuf, hses]
  · split
    · exact ⟨_, _, rfl⟩
    · exact ⟨_, _, rfl⟩

/-! ## What posting leaves -/

/-- A session's registers beside its count of buffers are not among those that move before its record is posted. -/
theorem session_not_mem_precedes {k o : Nat} (hlow : 0xA1000 ≤ o) (hhigh : o < 0x300000) (hheld : o ≠ R.HEVC_SES_HELD k) :
    o ∉ poolRegs k ++ dramErrRegs := by
  intro hm
  rcases List.mem_append.mp hm with h | h
  · exact not_mem_poolRegs hheld (by simp only [R.HEVC_POOL_STATUS]; omega) (.inr hlow) h
  · have := dramErrRegs_ge h
    omega

section Posting
variable {s u t : State} {k : Nat} {r : HevcRec} {rest : List HevcRec} {l : List Nat} {p : Nat → Prop} {buf offset len : Nat}

/-- A field of the session stands as it is before its record is posted. -/
theorem Precedes.fld (hk : k < 64) (h : Precedes k l p s u) (hl : l ⊆ poolRegs k ++ dramErrRegs) {f : Fld} (hlow : 0xA1000 + 0x100 * k ≤ f.off)
    (hhigh : f.off < 0xA1100 + 0x100 * k) (hheld : f.off ≠ R.HEVC_SES_HELD k) : u.fld f = s.fld f :=
  h.stores.regs.fld (fun hm => session_not_mem_precedes (by omega) (by omega) hheld (hl hm)) (by omega)

theorem Precedes.recordPlace (hk : k < 64) (h : Precedes k l p s u) (hl : l ⊆ poolRegs k ++ dramErrRegs) :
    u.recordPlace k = s.recordPlace k ∧ u.fld (F.HEVC_SES_NEXT_SEQ_value k) = s.fld (F.HEVC_SES_NEXT_SEQ_value k) := by
  have hseq : u.fld (F.HEVC_SES_NEXT_SEQ_value k) = s.fld (F.HEVC_SES_NEXT_SEQ_value k) := by
    apply h.fld hk hl <;> simp only [F.HEVC_SES_NEXT_SEQ_value, R.HEVC_SES_HELD] <;> omega
  have hlo : u.fld (F.HEVC_SES_CQ_LO_base_lo k) = s.fld (F.HEVC_SES_CQ_LO_base_lo k) := by
    apply h.fld hk hl <;> simp only [F.HEVC_SES_CQ_LO_base_lo, R.HEVC_SES_HELD] <;> omega
  have hhi : u.fld (F.HEVC_SES_CQ_HI_base_hi k) = s.fld (F.HEVC_SES_CQ_HI_base_hi k) := by
    apply h.fld hk hl <;> simp only [F.HEVC_SES_CQ_HI_base_hi, R.HEVC_SES_HELD] <;> omega
  have hsize : u.fld (F.HEVC_SES_RING_SIZE_log_size k) = s.fld (F.HEVC_SES_RING_SIZE_log_size k) := by
    apply h.fld hk hl <;> simp only [F.HEVC_SES_RING_SIZE_log_size, R.HEVC_SES_HELD] <;> omega
  refine ⟨?_, hseq⟩
  rw [State.recordPlace, State.base2, State.sesRing, hlo, hhi, hsize, hseq]
  rfl

/-- What is left once a record has gone out, with the place and the bytes that its posting wrote. -/
structure RecordLeft (k : Nat) (r : HevcRec) (rest : List HevcRec) (l : List Nat) (p : Nat → Prop) (buf offset len : Nat) (s t : State) :
    Prop where
  recs : (t.ses k).recs = rest
  stored : memRead t.dram (s.recordPlace k) 32 = recordBytes r (s.fld (F.HEVC_SES_NEXT_SEQ_value k)) buf offset len
  stores : Stores (recordRegs k ++ (l ++ dramErrRegs)) (fun x => (s.recordPlace k ≤ x ∧ x < s.recordPlace k + 32) ∨ p x) s t
  next : t.rd (R.HEVC_SES_NEXT_SEQ k) = (s.fld (F.HEVC_SES_NEXT_SEQ_value k) + 1) % 2 ^ 32
  event : r.irq = true → t.fld ⟨R.HEVC_EVT (k / 32), k % 32, k % 32⟩ = 1

theorem Precedes.recordLeft (hk : k < 64) (h : Precedes k l p (s.setSes k { s.ses k with recs := rest }) u) (hl : l ⊆ poolRegs k ++ dramErrRegs)
    (hsent : Relayed (u.postRec k r buf offset len) t) : RecordLeft k r rest l p buf offset len s t := by
  obtain ⟨hplace, hseq⟩ := h.recordPlace hk hl
  obtain ⟨hstored, hstores, hnext, hevent, hhevc⟩ := u.postRec_posted k r buf offset len
  have hplace : u.recordPlace k = s.recordPlace k := hplace
  have hseq : u.fld (F.HEVC_SES_NEXT_SEQ_value k) = s.fld (F.HEVC_SES_NEXT_SEQ_value k) := hseq
  rw [hplace, hseq] at hstored
  rw [hplace] at hstores
  rw [hseq] at hnext
  have hrecs : (u.ses k).recs = rest := h.recs.trans (congrArg HevcSes.recs (s.ses_setSes_same k _))
  have hbegun : Stores l p s u := (Stores.setSes l p s k _).trans h.stores
  obtain ⟨v, hv⟩ : ∃ v, u.postRec k r buf offset len = v := ⟨_, rfl⟩
  rw [hv] at hstored hstores hnext hevent hhevc hsent
  obtain ⟨g, c, rfl⟩ := hsent
  refine ⟨(congrArg HevcSes.recs (State.ses_congr (s := u) hhevc k)).trans hrecs, hstored, ?_, hnext, hevent⟩
  have hfirst : Stores (recordRegs k ++ (l ++ dramErrRegs)) (fun x => (s.recordPlace k ≤ x ∧ x < s.recordPlace k + 32) ∨ p x) s u :=
    hbegun.mono (fun _ ho => List.mem_append_right _ (List.mem_append_left _ ho)) fun _ => .inr
  have hlast : Stores (recordRegs k ++ (l ++ dramErrRegs)) (fun x => (s.recordPlace k ≤ x ∧ x < s.recordPlace k + 32) ∨ p x) u v :=
    hstores.mono (List.append_subset.mpr ⟨List.subset_append_left .., fun _ ho => List.mem_append_right _ (List.mem_append_right _ ho)⟩)
      fun _ => .inl
  exact (hfirst.trans hlast).trans (.of_regs (fun _ _ _ => rfl) rfl rfl rfl)

end Posting

end Sys2Proof.Machine
end

section
/-! The posting of a session's oldest record: the state that answers (R289, R291, R298, R300). -/
namespace Sys2Proof.Machine

section Record
variable {s t : State} {k : Nat} {r : HevcRec} {rest : List HevcRec} {l : List Nat} {p : Nat → Prop} {buf offset len : Nat}

/-- With no reset waiting, nothing ends (R304). -/
theorem State.sesResetCheck_of_idle (h : s.fld (F.HEVC_SES_STATUS_resetting k) = 0) : s.sesResetCheck k = s := by
  simp [State.sesResetCheck, State.bit_of_zero h]

/-- A session's oldest record leaves its queue, with what it reports (R291, R298, R300). -/
def State.sendRecord (s : State) (k noBuf : Nat) (r : HevcRec) : State :=
  match r.au, r.pic with
  | some (au, _, tag, stamp), _ => s.postUnit k r au tag stamp
  | none, some d => s.postPicture k r d
  | none, none => s.postRec k r noBuf (wrapTo 32 r.poc) r.lost

theorem State.sesRecord_eq (hrecs : (s.ses k).recs = r :: rest) (hruns : s.runs .hevc = true)
    (hfree : s.senderBlocked .hevc (fun p => p = k) = false) :
    s.sesRecord k = ((s.setSes k { s.ses k with recs := rest }).sendRecord k (s.noBuffer k) r).sesResetCheck k := by
  have hgo : (s.runs .hevc && !s.senderBlocked .hevc (fun p => p = k)) = true := by rw [hruns, hfree]; rfl
  unfold State.sesRecord
  dsimp only
  split
  · next hnil => exact absurd (hrecs.symm.trans hnil) (List.cons_ne_nil _ _)
  · next hcons =>
    obtain ⟨rfl, rfl⟩ := List.cons.inj (hrecs.symm.trans hcons)
    rw [if_pos hgo]
    rfl

/-- No reset waits once a record has gone out. -/
theorem RecordLeft.resetting (hk : k < 64) (h : RecordLeft k r rest l p buf offset len s t) (hl : l ⊆ poolRegs k ++ dramErrRegs)
    (hreset : s.fld (F.HEVC_SES_STATUS_resetting k) = 0) : t.fld (F.HEVC_SES_STATUS_resetting k) = 0 := by
  refine (h.stores.regs.fld ?_ ?_).trans hreset
  · intro hm
    rcases List.mem_append.mp hm with hrec | hrest
    · simp only [recordRegs, F.HEVC_SES_STATUS_resetting, R.HEVC_SES_NEXT_SEQ, R.HEVC_EVT, List.mem_cons, List.not_mem_nil, or_false] at hrec
      omega
    · refine session_not_mem_precedes (k := k) (o := (F.HEVC_SES_STATUS_resetting k).off) ?_ ?_ ?_
        (List.append_subset.mpr ⟨hl, List.subset_append_right ..⟩ hrest) <;>
        simp only [F.HEVC_SES_STATUS_resetting, R.HEVC_SES_HELD] <;> omega
  · simp only [F.HEVC_SES_STATUS_resetting]
    omega

/-- What the answer shows of a record that has gone out. -/
structure RecordAnswer (k : Nat) (r : HevcRec) (rest : List HevcRec) (l : List Nat) (p : Nat → Prop) (buf offset len : Nat) (s t : State) :
    Prop where
  answers : Answers (.hevcRecord k) s t
  recs : (t.ses k).recs = rest
  pool : t.pool = s.pool
  stored : t.dramRead (s.recordPlace k) 32 = recordBytes r (s.fld (F.HEVC_SES_NEXT_SEQ_value k)) buf offset len
  bytes : DramIdle s → ∀ x, x < s.recordPlace k ∨ s.recordPlace k + 32 ≤ x → ¬ p x → memGet t.dram x = memGet s.dram x
  next : t.rd (R.HEVC_SES_NEXT_SEQ k) = (s.fld (F.HEVC_SES_NEXT_SEQ_value k) + 1) % 2 ^ 32
  event : r.irq = true → t.fld ⟨R.HEVC_EVT (k / 32), k % 32, k % 32⟩ = 1
  regs : RegsBut (recordRegs k ++ (l ++ dramErrRegs)) s t

theorem RecordLeft.answer (hk : k < 64) (h : RecordLeft k r rest l p buf offset len s t) (hl : l ⊆ poolRegs k ++ dramErrRegs)
    (hreset : s.fld (F.HEVC_SES_STATUS_resetting k) = 0) (heq : s.sesRecord k = t.sesResetCheck k) :
    RecordAnswer k r rest l p buf offset len s (settle t) := by
  have hend := heq.trans (State.sesResetCheck_of_idle (h.resetting hk hl hreset))
  obtain ⟨hrecs, hstored, hstores, hnext, hevent⟩ := h
  refine ⟨answers_settle_of_exec_eq_done ?_, by rw [settle_ses, hrecs], by rw [settle_pool, hstores.pool],
    by rw [State.dramRead, settle_dram, hstored], fun hs x hx hp => ?_, ?_, fun hirq => ?_, hstores.regs.settle⟩
  · show execHevcRecord k s = _
    rw [execHevcRecord, Nat.mod_eq_of_lt hk, hend]
  · rw [settle_dram]
    exact (hstores.bytes hs).2 x fun h => h.elim (fun h => by omega) hp
  · rw [settle_rd _ _ (not_sendCounter (.inl (by simp only [R.HEVC_SES_NEXT_SEQ]; omega))), hnext]
  · rw [settle_fld_rigging _ _ (by simp only [R.HEVC_EVT]; omega), hevent hirq]

/-- The record of an access unit (R289, R291). -/
theorem State.unitRecord_left (hk : k < 64) {au : List Byte} {epb tag stamp : Nat} (hau : r.au = some (au, epb, tag, stamp)) (noBuf : Nat) :
    RecordLeft k r rest dramErrRegs (fun x => ((s.ses k).unitRing k).1 ≤ x ∧ x < ((s.ses k).unitRing k).1 + ((s.ses k).unitRing k).2)
      0 ((s.ses k).bsPos % ((s.ses k).unitRing k).2) au.length s ((s.setSes k { s.ses k with recs := rest }).sendRecord k noBuf r) := by
  have hses : (s.setSes k { s.ses k with recs := rest }).ses k = { s.ses k with recs := rest } := State.ses_setSes_same ..
  obtain ⟨u, hbefore, hsent⟩ := (s.setSes k { s.ses k with recs := rest }).postUnit_precedes k r au tag stamp
  rw [hses] at hbefore hsent
  have hsend : (s.setSes k { s.ses k with recs := rest }).sendRecord k noBuf r =
      (s.setSes k { s.ses k with recs := rest }).postUnit k r au tag stamp := by
    simp only [State.sendRecord, hau]
  rw [hsend]
  exact hbefore.recordLeft hk (List.subset_append_right ..) hsent

/-- The record of a decoded picture (R289, R298). -/
theorem State.pictureRecord_left (hk : k < 64) {d : DecPic} (hau : r.au = none) (hd : r.pic = some d) (noBuf : Nat) :
    RecordLeft k r rest (poolRegs k ++ dramErrRegs) (fun x => (s.ses k).outPlace k ≤ x ∧ x < (s.ses k).outPlace k + (s.ses k).outStride k)
      ((s.ses k).outBuf k) (wrapTo 32 r.poc) d.lost s ((s.setSes k { s.ses k with recs := rest }).sendRecord k noBuf r) := by
  have hses : (s.setSes k { s.ses k with recs := rest }).ses k = { s.ses k with recs := rest } := State.ses_setSes_same ..
  obtain ⟨u, hbefore, hsent⟩ := (s.setSes k { s.ses k with recs := rest }).postPicture_precedes k r d
  rw [hses] at hbefore hsent
  have hsend : (s.setSes k { s.ses k with recs := rest }).sendRecord k noBuf r =
      (s.setSes k { s.ses k with recs := rest }).postPicture k r d := by
    simp only [State.sendRecord, hau, hd]
  rw [hsend]
  exact hbefore.recordLeft hk (List.Subset.refl _) hsent

/-- A record that reports neither (R300). -/
theorem State.plainRecord_left (hk : k < 64) (hau : r.au = none) (hd : r.pic = none) (noBuf : Nat) :
    RecordLeft k r rest [] (fun _ => False) noBuf (wrapTo 32 r.poc) r.lost s
      ((s.setSes k { s.ses k with recs := rest }).sendRecord k noBuf r) := by
  have hsend : (s.setSes k { s.ses k with recs := rest }).sendRecord k noBuf r =
      (s.setSes k { s.ses k with recs := rest }).postRec k r noBuf (wrapTo 32 r.poc) r.lost := by
    simp only [State.sendRecord, hau, hd]
  rw [hsend]
  exact Precedes.recordLeft hk ⟨.refl _ _ _, rfl⟩ (List.nil_subset _) ⟨_, _, rfl⟩

/-! ## The registers that a record moves -/

/-- Every register that posting a record can move. -/
def allRecordRegs (k : Nat) : List Nat :=
  [R.HEVC_SES_NEXT_SEQ k, R.HEVC_EVT (k / 32), R.HEVC_SES_HELD k, R.HEVC_POOL_STATUS] ++ dramErrRegs ++ (List.range 512).map R.HEVC_POOL_MARK

theorem recordRegs_subset (hl : l ⊆ poolRegs k ++ dramErrRegs) : recordRegs k ++ (l ++ dramErrRegs) ⊆ allRecordRegs k := by
  have hsplit (a b c d : List Nat) : a ++ ((b ++ c ++ d) ++ d) ⊆ a ++ b ++ d ++ c := by
    intro o
    simp only [List.mem_append]
    tauto
  have hall := hsplit (recordRegs k) [R.HEVC_SES_HELD k, R.HEVC_POOL_STATUS] ((List.range 512).map R.HEVC_POOL_MARK) dramErrRegs
  have htail : l ++ dramErrRegs ⊆ (poolRegs k ++ dramErrRegs) ++ dramErrRegs :=
    List.append_subset.mpr ⟨List.subset_append_of_subset_left _ hl, List.subset_append_right ..⟩
  refine List.Subset.trans (List.append_subset.mpr ⟨List.subset_append_left .., ?_⟩) hall
  exact List.subset_append_of_subset_right _ htail

/-- A record without a picture moves none of the pool's. -/
theorem RecordAnswer.quiet (h : RecordAnswer k r rest l p buf offset len s t) (hl : l ⊆ dramErrRegs) :
    RegsBut ([R.HEVC_SES_NEXT_SEQ k, R.HEVC_EVT (k / 32)] ++ dramErrRegs) s t := by
  refine h.regs.mono fun o ho => ?_
  exact (List.mem_append.mp ho).elim (List.mem_append_left _)
    fun h => List.mem_append_right _ ((List.mem_append.mp h).elim (fun h => hl h) id)

end Record

/-- Clause of the records (R289, R291, R298, R300). -/
theorem hevcRecord_answers {k : Nat} {r : HevcRec} {rest : List HevcRec} {s : State} (hk : k < 64) (hrecs : (s.ses k).recs = r :: rest)
    (hruns : s.runs .hevc = true) (hfree : s.senderBlocked .hevc (fun p => p = k) = false)
    (hreset : s.fld (F.HEVC_SES_STATUS_resetting k) = 0) :
    let seq := s.fld (F.HEVC_SES_NEXT_SEQ_value k)
    let a := s.recordPlace k
    let ring := ((s.ses k).unitRing k).1
    let size := ((s.ses k).unitRing k).2
    let buf := (s.ses k).outBuf k
    let stride := (s.ses k).outStride k
    let out := (s.ses k).outPlace k
    ∃ t, Answers (.hevcRecord k) s t ∧ (t.ses k).recs = rest ∧ t.pool = s.pool
      ∧ t.dramRead a 32 = (match r.au, r.pic with
        | some (au, _, _, _), _ => recordBytes r seq 0 ((s.ses k).bsPos % size) au.length
        | none, some p => recordBytes r seq buf (wrapTo 32 r.poc) p.lost
        | none, none => recordBytes r seq (s.noBuffer k) (wrapTo 32 r.poc) r.lost)
      ∧ (DramIdle s → ∀ x, x < a ∨ a + 32 ≤ x → (r.au ≠ none → x < ring ∨ ring + size ≤ x) →
          (r.au = none → r.pic ≠ none → x < out ∨ out + stride ≤ x) → memGet t.dram x = memGet s.dram x)
      ∧ t.rd (R.HEVC_SES_NEXT_SEQ k) = (seq + 1) % 2 ^ 32
      ∧ (r.irq = true → t.fld ⟨R.HEVC_EVT (k / 32), k % 32, k % 32⟩ = 1)
      ∧ (r.pic = none → RegsBut ([R.HEVC_SES_NEXT_SEQ k, R.HEVC_EVT (k / 32)] ++ dramErrRegs) s t)
      ∧ RegsBut (allRecordRegs k) s t := by
  intro seq a ring size buf stride out
  have heq := State.sesRecord_eq hrecs hruns hfree
  rcases hau : r.au with _ | ⟨au, epb, tag, stamp⟩
  · cases hd : r.pic with
    | none =>
      have h := (State.plainRecord_left hk hau hd (s.noBuffer k)).answer hk (List.nil_subset _) hreset heq
      exact ⟨_, h.answers, h.recs, h.pool, h.stored, fun hs x hx _ _ => h.bytes hs x hx id, h.next, h.event,
        fun _ => h.quiet (List.nil_subset _), h.regs.mono (recordRegs_subset (List.nil_subset _))⟩
    | some d =>
      have h := (State.pictureRecord_left hk hau hd (s.noBuffer k)).answer hk (List.Subset.refl _) hreset heq
      refine ⟨_, h.answers, h.recs, h.pool, h.stored, fun hs x hx _ hout => h.bytes hs x hx ?_, h.next, h.event, nofun,
        h.regs.mono (recordRegs_subset (List.Subset.refl _))⟩
      have := hout rfl (Option.some_ne_none d)
      omega
  · have h := (State.unitRecord_left hk hau (s.noBuffer k)).answer hk (List.subset_append_right ..) hreset heq
    refine ⟨_, h.answers, h.recs, h.pool, h.stored, fun hs x hx hring _ => h.bytes hs x hx ?_, h.next, h.event,
      fun _ => h.quiet (List.Subset.refl _), h.regs.mono (recordRegs_subset (List.subset_append_right ..))⟩
    have := hring (Option.some_ne_none _)
    omega

/-- Settles O47: each clause is the effect of its command followed through the lemmas of the session's work: the descriptor or the
frame that is bound and then discarded, refused or started, the row with its buffer, and the record after what it reports. -/
theorem picturesAndUnits : Obligations.PicturesAndUnits := by
  unfold Obligations.PicturesAndUnits
  refine ⟨fun k sh s hk hshape hfeed hready hleads => memoryDescriptor_answers hk hshape hfeed hready hleads,
    fun k id sh tok rest s hk hshape hstrand hstream htakes hkind hreset hleads =>
      strandFrame_answers hk ⟨hstrand, hshape, hstream, htakes, hkind, hreset⟩ hleads,
    fun k sh p s hk => ctuRow_answers hk, fun k r rest s hk hrecs hruns hfree hreset => hevcRecord_answers hk hrecs hruns hfree hreset⟩

end Sys2Proof.Machine
end

section
/-! A commit of tile contexts (R333, R346): the result word of a context that joins with its layer. -/
namespace Sys2Proof.Machine

/-- A register reads as a word of 32 bits, where its reset value is one. -/
theorem State.rd_lt (s : State) {off : Nat} (h : regReset off < 2 ^ 32) : s.rd off < 2 ^ 32 := by
  unfold State.rd
  split
  · exact BitVec.isLt _
  · exact h

/-- The first number that does not fit the bits of WALL_COMMIT_STATUS from the context's field on (R346). -/
def farCtx : Nat := 65536

/-- Contents of that context with a region of one pixel and the tile number that check 4 of R333 refuses. -/
def farTile : SMap Word := [(R.WALL_TCTX_CTRL farCtx, 1), (R.WALL_TCTX_ID farCtx, 0xFFFF), (R.WALL_TCTX_WH farCtx, 0x10001)]

/-- MGT and WALL run, the table of contexts lists that context, which has a shape, and the committed layer table has a layer of
one pixel that the shadow table has not. The range of the commit is context 0, which has no shape. -/
def farJoin : State :=
  let s := (State.reset.setIsland .mgt { IslState.held with inReset := false }).setIsland .wall { IslState.held with inReset := false }
  { s.wr R.WALL_COMMIT_RANGE 0x10000 with
    rig := { s.rig with active := some ⟨true, 0, 0, [⟨0, 0, .shape 12 farCtx 1 64 64 0 0⟩]⟩ }
    wall := { s.wall with
      tiles := [(farCtx, ⟨⟨1, farTile, []⟩, [], 0⟩)]
      layers := [(R.WALL_LAYER_CTRL 0, 1), (R.WALL_LAYER_SIZE 0, 0x10001)] } }

/-- Refutes O48: its clause on commits reads the number of the context that failed from bit 16 of WALL_COMMIT_STATUS on, whatever
the number, and the register holds 32 bits. The statement leaves the numbers in the table of contexts open: one of 65536, which no
commit could have listed there, joins with the layer that changes and fails check 4 of R333. -/
theorem not_wallControl : ¬ Obligations.WallControl := by
  unfold Obligations.WallControl
  rintro ⟨-, -, -, hcommit⟩
  obtain ⟨t, hanswer⟩ := hcommit .mgt true farJoin ⟨by decide +kernel, by decide +kernel⟩ (fun f hf => nomatch hf)
  rw [if_neg (by decide +kernel), if_neg (by decide +kernel), if_neg (by decide +kernel)] at hanswer
  generalize hchecks : farJoin.tileChecks _ = result at hanswer
  obtain rfl : result = some (7, farCtx) := hchecks.symm.trans (by decide +kernel)
  obtain ⟨-, -, -, hword⟩ := hanswer
  have hlt : 7 + farCtx * 2 ^ 16 < 2 ^ 32 := hword ▸ t.rd_lt (by decide +kernel)
  exact absurd hlt (by decide)

end Sys2Proof.Machine
end

section
/-! A surface's new generation (R319) while the digest of an earlier wall frame is still to complete (R101, R385). -/
namespace Sys2Proof.Machine

/-- A wall frame past its deadline with every binding made and no pass left, whose digest is still to complete. -/
def passOverFrame : WallFrame := { onePixelFrame with passes := [], due := true }

/-- WALL runs with that frame outstanding, and the other unit's digest of it has come first. The RX_DONE of stream 0 on the strand
from NET feeds surface 0, which is enabled. -/
def passOver : State :=
  let s := (State.reset.setIsland .wall { IslState.held with inReset := false }).wr (R.WALL_SURF_CFG 0) 7
  { s with
    rig := { s.rig with
      active := some ⟨true, 0, 0, [⟨0, 0, .strand 5 7 0 12 72 16 0⟩]⟩
      strands := [(5, ⟨[9], [], []⟩)] }
    fclk := { s.fclk with frames := [passOverFrame] }
    wall := { s.wall with surfs := [(0, Surface.clear)] }
    fen := { s.fen with peerDigs := [⟨0, 0, false⟩] } }

/-- Behind RX_DONE the outstanding frames are looked at again: the frame completes, and the two digests are found equal. -/
theorem rxDone_passOver_digMatch {t : State} (h : Answers (.rxDone 0) passOver t) : t.rd R.FEN_DIG_MATCH = 1 := by
  have hexec : (match exec (.rxDone 0) passOver with
    | .next u => some (u.rd R.FEN_DIG_MATCH)
    | _ => none) = some 1 := by decide +kernel
  rw [h] at hexec
  exact Option.some.inj hexec

theorem not_sendCounter_digMatch : ¬ SendCounter R.FEN_DIG_MATCH := by
  unfold SendCounter
  decide

theorem passOver_wallSettled : WallSettled passOver := by
  intro f hf
  obtain rfl : f = passOverFrame := List.mem_singleton.mp hf
  exact ⟨rfl, rfl, rfl⟩

/-- Refutes O49: its clause on tokens keeps every register but the surfaces' AVAIL once every binding is made. `WallSettled` leaves
open a frame past its deadline with no pass left whose digest is still to complete. The model completes it in the same command, and
counts the comparison with the other unit's digest in FEN_DIG_MATCH (R385). -/
theorem not_surfaceGenerations : ¬ Obligations.SurfaceGenerations := by
  unfold Obligations.SurfaceGenerations
  rintro ⟨-, -, htoken⟩
  obtain ⟨t, hans, -, -, -, -, hnew⟩ := htoken 72 0 0 5 16 3 0 (.rxDone 0) 9 [] passOver (by decide +kernel)
    (.inr (.inr (.inl ⟨rfl, rfl, rfl, by decide, by decide⟩))) (by decide +kernel) (by decide +kernel) (by decide)
    (by decide +kernel) (fun _ => by decide +kernel) (by decide)
  obtain ⟨g, -, -, -, -, -, -, -, -, -, hregs⟩ := hnew passOver_wallSettled
  have hkept : t.rd R.FEN_DIG_MATCH = passOver.rd R.FEN_DIG_MATCH := hregs _ (by decide +kernel) not_sendCounter_digMatch
  exact absurd ((rxDone_passOver_digMatch hans).symm.trans hkept) (by decide +kernel)

end Sys2Proof.Machine
end

section
/-! The registers of Fenmas and of the Ethernet ports through the closing step; Fenmas enabled, a link change, forced roles and
calibration loads (R350, R363, R369, R378, R387). -/
namespace Sys2Proof.Machine

/-! ## The closing step -/

/-- Below the counters of packets sent lies one more that the closing step moves, that of JOURNAL packets. -/
theorem not_sendCounter_fenmas {o : Nat} (h : o ≠ R.FEN_JNL_TX) (hlt : o < 0xE8100) : ¬ SendCounter o := by
  rintro (he | ⟨hle, -⟩)
  · exact h he
  · omega

theorem settle_fld_fenmas (s : State) {f : Fld} (h : f.off ≠ R.FEN_JNL_TX) (hlt : f.off < 0xE8100) : (settle s).fld f = s.fld f :=
  settle_fld s f (not_sendCounter_fenmas h hlt)

theorem settle_rd_fenmas (s : State) {o : Nat} (h : o ≠ R.FEN_JNL_TX) (hlt : o < 0xE8100) : (settle s).rd o = s.rd o :=
  settle_rd s o (not_sendCounter_fenmas h hlt)

theorem Undisturbed.fen {s t : State} (h : Undisturbed s t) : t.fen = { s.fen with seq := t.fen.seq, held := t.fen.held } :=
  congrArg State.fen h

/-- Of what Fenmas holds beside its registers the closing step moves sequence numbers and packets that wait. -/
theorem settle_fen (s : State) : (settle s).fen = { s.fen with seq := (settle s).fen.seq, held := (settle s).fen.held } :=
  (settles_settle s).quiet.fen

@[simp] theorem settle_fen_cals (s : State) : (settle s).fen.cals = s.fen.cals := by rw [settle_fen]
@[simp] theorem settle_fen_calNext (s : State) : (settle s).fen.calNext = s.fen.calNext := by rw [settle_fen]
@[simp] theorem settle_fen_claims (s : State) : (settle s).fen.claims = s.fen.claims := by rw [settle_fen]
@[simp] theorem settle_fen_heard (s : State) : (settle s).fen.heard = s.fen.heard := by rw [settle_fen]
@[simp] theorem settle_fen_peerHeard (s : State) : (settle s).fen.peerHeard = s.fen.peerHeard := by rw [settle_fen]
@[simp] theorem settle_fen_demote (s : State) : (settle s).fen.demote = s.fen.demote := by rw [settle_fen]
@[simp] theorem settle_fen_forceLead (s : State) : (settle s).fen.forceLead = s.fen.forceLead := by rw [settle_fen]
@[simp] theorem settle_fen_forceSecond (s : State) : (settle s).fen.forceSecond = s.fen.forceSecond := by rw [settle_fen]
@[simp] theorem settle_fen_digs (s : State) : (settle s).fen.digs = s.fen.digs := by rw [settle_fen]
@[simp] theorem settle_fen_peerDigs (s : State) : (settle s).fen.peerDigs = s.fen.peerDigs := by rw [settle_fen]
@[simp] theorem settle_fen_source (s : State) : (settle s).fen.source = s.fen.source := by rw [settle_fen]

/-- Whether a port is up is read from the register of its physical port (R350). -/
theorem State.portUp_congr {s t : State} {p : Nat} (h : ∀ f : Fld, f.off = R.NET_PHY_CFG (p / 2) → t.fld f = s.fld f) :
    t.portUp p = s.portUp p := by
  simp only [State.portUp, State.portExists, State.bit, h (F.NET_PHY_CFG_split (p / 2)) rfl, h (F.NET_PHY_CFG_link_a (p / 2)) rfl,
    h (F.NET_PHY_CFG_link_b (p / 2)) rfl]

/-! ## One-bit fields -/

theorem State.bit_eq_true_iff (s : State) {f : Fld} (hf : f.hi = f.lo) : s.bit f = true ↔ s.fld f = 1 := by
  have hlt : s.fld f < 2 ^ (f.hi + 1 - f.lo) := bitsOf_lt _ _ _
  rw [hf, Nat.add_sub_cancel_left] at hlt
  rw [State.bit, bne_iff_ne]
  omega

theorem State.bit_of_one {s : State} {f : Fld} (h : s.fld f = 1) : s.bit f = true := by rw [State.bit, h]; rfl

/-! ## Enabling (R369, R387) -/

/-- A write that sets `enable` stores it. -/
theorem State.regWrite_fenCfg (s : State) (v : Nat) :
    ∃ x, s.regWrite R.FEN_CFG (putBits v 0 0 1) = s.wr R.FEN_CFG x ∧ bitsOf x 0 0 = 1 :=
  ⟨_, s.regWrite_eq_wr _ rfl rfl (by decide),
    (bitsOf_writeValue _ _ (by decide) rfl (by decide)).trans (bitsOf_putBits_same v 0 0 1)⟩

/-- Fenmas that is enabled stays as it is. -/
theorem State.fenCfgWrite_on {s : State} (v : Nat) (h : s.fld F.FEN_CFG_enable = 1) :
    s.fenCfgWrite (putBits v 0 0 1) = s.regWrite R.FEN_CFG (putBits v 0 0 1) := by
  simp only [State.fenCfgWrite, State.bit_of_one h, (jnlEnable_operand v).1, if_true]

/-- Fenmas with `enable` just written starts as solo, or as second where `belay` is set, unless R387 does not permit it. -/
def State.fenStart (s : State) : State :=
  if s.fenOk then
    let t := s.fenClear (if s.bit F.FEN_BELAY_CFG_belay then 2 else 3)
    { t with fen := { t.fen with startLead := s.bit F.FEN_BELAY_CFG_belay && t.bit F.FEN_BELAY_CFG_start_lead } }
  else (s.put F.FEN_CFG_enable 0).fenBad

theorem State.fenCfgWrite_off {s : State} (v : Nat) (h : s.fld F.FEN_CFG_enable = 0) :
    s.fenCfgWrite (putBits v 0 0 1) = (s.regWrite R.FEN_CFG (putBits v 0 0 1)).fenStart := by
  simp only [State.fenCfgWrite, State.bit_of_zero h, (jnlEnable_operand v).1, if_true, Bool.false_eq_true, if_false]
  rfl

/-- Loads dropped move the status of the latest one. -/
theorem State.calDrop_frame (s : State) :
    RegsBut [R.FEN_CAL_STATUS] s s.calDrop ∧ SameMemory s s.calDrop ∧ s.calDrop.fen = { s.fen with cals := [] } := by
  unfold State.calDrop
  split
  · exact ⟨((RegsBut.refl _ s).put (f := F.FEN_CAL_STATUS_state) 6 (by decide)).of_regs rfl, .of_eq rfl rfl rfl rfl, rfl⟩
  · exact ⟨(RegsBut.refl _ s).of_regs rfl, .of_eq rfl rfl rfl rfl, rfl⟩

/-- The registers that Fenmas sets beside FEN_CFG when it starts in a role. -/
def State.fenShow (s : State) (role seed : Nat) : State :=
  (((((s.put F.FEN_BELAY_STATUS_role role).put F.FEN_BELAY_STATUS_peer 0).put F.FEN_BELAY_STATUS_peer_silent 0).put
    F.FEN_BELAY_STATUS_missing 0).wr R.FEN_LEAD 255).wr R.FEN_CUR_EPOCH seed

theorem State.fenShow_shows (s : State) {role seed : Nat} (hrole : role < 4) (hseed : seed < 2 ^ 32) :
    OnlyRegs [R.FEN_BELAY_STATUS, R.FEN_LEAD, R.FEN_CUR_EPOCH] s (s.fenShow role seed)
      ∧ (s.fenShow role seed).fld F.FEN_BELAY_STATUS_role = role ∧ (s.fenShow role seed).rd R.FEN_CUR_EPOCH = seed := by
  have hs := RegsBut.refl [R.FEN_BELAY_STATUS, R.FEN_LEAD, R.FEN_CUR_EPOCH] s
  refine ⟨⟨(((((hs.put _ ?_).put _ ?_).put _ ?_).put _ ?_).wr _ ?_).wr _ ?_, rfl⟩, ?_,
    (State.rd_wr_same _ _ _).trans (Nat.mod_eq_of_lt hseed)⟩
  iterate 6 decide
  rw [State.fenShow, State.fld_wr_off _ _ (by decide), State.fld_wr_off _ _ (by decide)]
  simp (disch := decide) only [State.fld_put_ne, State.fld_put_same]
  exact Nat.mod_eq_of_lt hrole

/-- What Fenmas is when it starts in a role: it holds the seed's epoch, and no load waits. -/
theorem State.fenClear_starts (s : State) {role : Nat} (h0 : role ≠ 0) (hlt : role < 4) :
    RegsBut [R.FEN_CAL_STATUS, R.FEN_BELAY_STATUS, R.FEN_LEAD, R.FEN_CUR_EPOCH] s (s.fenClear role) ∧ SameMemory s (s.fenClear role)
      ∧ (s.fenClear role).fld F.FEN_BELAY_STATUS_role = role ∧ (s.fenClear role).rd R.FEN_CUR_EPOCH = s.rd R.FEN_EPOCH_SEED
      ∧ (s.fenClear role).fen.cals = [] ∧ (s.fenClear role).fen.claims = [] := by
  obtain ⟨hregs, hmem, -⟩ := s.calDrop_frame
  obtain ⟨⟨hshow, hquiet⟩, hrole, hepoch⟩ := s.calDrop.fenShow_shows hlt (s.rd_lt (off := R.FEN_EPOCH_SEED) (by decide))
  have hclear : (s.fenClear role).regs = (s.calDrop.fenShow role (s.rd R.FEN_EPOCH_SEED)).regs := by
    simp only [State.fenClear, if_neg h0]; rfl
  refine ⟨((hregs.mono (by decide)).trans (hshow.mono (by decide))).of_regs hclear, ?_, ?_, ?_, rfl, rfl⟩
  · exact hmem.trans (.of_eq rfl rfl rfl rfl)
  · rw [State.fld_congr hclear, hrole]
  · rw [State.rd_congr hclear, hepoch]

theorem State.fenStart_permitted {s : State} (hok : s.fenOk = true) (hon : s.fld F.FEN_CFG_enable = 1) :
    SameMemory s s.fenStart ∧ s.fenStart.fld F.FEN_CFG_enable = 1
      ∧ s.fenStart.fld F.FEN_BELAY_STATUS_role = (if s.bit F.FEN_BELAY_CFG_belay then 2 else 3)
      ∧ s.fenStart.rd R.FEN_CUR_EPOCH = s.rd R.FEN_EPOCH_SEED ∧ s.fenStart.fen.cals = [] ∧ s.fenStart.fen.claims = [] := by
  obtain ⟨hregs, hmem, hrole, hepoch, hcals, hclaims⟩ :=
    s.fenClear_starts (role := if s.bit F.FEN_BELAY_CFG_belay then 2 else 3) (by split <;> decide) (by split <;> decide)
  rw [State.fenStart, if_pos hok]
  generalize s.fenClear _ = t at *
  exact ⟨hmem.trans (.of_eq rfl rfl rfl rfl), (congrArg (bitsOf · _ _) (hregs _ (by decide) (not_sendCounter_fenmas (by decide) (by decide)))).trans hon,
    hrole, hepoch, hcals, hclaims⟩

theorem State.fenStart_refused {s : State} (hok : s.fenOk = false) :
    SameMemory s s.fenStart ∧ s.fenStart.fld F.FEN_CFG_enable = 0 ∧ s.fenStart.fld F.FEN_BELAY_STATUS_bad_cfg = 1 := by
  rw [State.fenStart, if_neg (by rw [hok]; decide), State.fenBad]
  refine ⟨.of_eq rfl rfl rfl rfl, ?_, State.fld_put_same _ _ 1 (by decide)⟩
  rw [State.fld_put_off _ _ _ _ (by decide)]
  exact State.fld_put_same _ _ 0 (by decide)

theorem exec_fenmasEnable (m : Master) (v : Word) (s : State) : exec (.fenmasEnable m v) s =
    done (s.guardedWrite m R.FEN_CFG (fun s => s.fenCfgWrite (putBits v.toNat 0 0 1))) := rfl

theorem fenmasEnable_on {m : Master} {v : Word} {s : State} (ha : Admitted s m R.FEN_CFG) (hon : s.fld F.FEN_CFG_enable = 1) :
    ∃ t, Answers (.fenmasEnable m v) s t ∧ OnlyRegs [R.FEN_CFG] s t ∧ t.fld F.FEN_CFG_enable = 1 := by
  obtain ⟨x, hx, hbit⟩ := s.regWrite_fenCfg v.toNat
  have hans := answers_of_admitted ha (exec_fenmasEnable m v s)
  rw [State.fenCfgWrite_on _ hon, hx] at hans
  refine ⟨_, hans, OnlyRegs.settle ⟨(RegsBut.refl _ s).wr _ (by decide), rfl⟩, ?_⟩
  rw [settle_fld_fenmas _ (by decide) (by decide)]
  exact (s.fld_wr_same (f := F.FEN_CFG_enable) x (by decide)).trans hbit

theorem fenmasEnable_off {m : Master} {v : Word} {s : State} (ha : Admitted s m R.FEN_CFG) (hoff : s.fld F.FEN_CFG_enable = 0) :
    let s1 := s.regWrite R.FEN_CFG (putBits v.toNat 0 0 1)
    ∃ t, Answers (.fenmasEnable m v) s t ∧ SameMemory s t ∧
      if s1.fenOk = true then t.fld F.FEN_CFG_enable = 1
        ∧ t.fld F.FEN_BELAY_STATUS_role = (if s.fld F.FEN_BELAY_CFG_belay = 1 then 2 else 3)
        ∧ t.rd R.FEN_CUR_EPOCH = s.rd R.FEN_EPOCH_SEED ∧ t.fen.cals = [] ∧ t.fen.claims = []
      else t.fld F.FEN_CFG_enable = 0 ∧ t.fld F.FEN_BELAY_STATUS_bad_cfg = 1 := by
  obtain ⟨x, hx, hbit⟩ := s.regWrite_fenCfg v.toNat
  have hans := answers_of_admitted ha (exec_fenmasEnable m v s)
  rw [State.fenCfgWrite_off _ hoff, hx] at hans
  have hmem : SameMemory s (s.wr R.FEN_CFG x) := .of_eq rfl rfl rfl rfl
  have hon : (s.wr R.FEN_CFG x).fld F.FEN_CFG_enable = 1 := (s.fld_wr_same (f := F.FEN_CFG_enable) x (by decide)).trans hbit
  have hseed : (s.wr R.FEN_CFG x).rd R.FEN_EPOCH_SEED = s.rd R.FEN_EPOCH_SEED := s.rd_wr_ne x (by decide)
  have hbelay : (s.wr R.FEN_CFG x).bit F.FEN_BELAY_CFG_belay = true ↔ s.fld F.FEN_BELAY_CFG_belay = 1 := by
    rw [State.bit_eq_true_iff _ rfl, State.fld_wr_off _ _ (by decide)]
  dsimp only
  rw [hx]
  generalize s.wr R.FEN_CFG x = u at *
  cases hok : u.fenOk with
  | true =>
    obtain ⟨hstart, henable, hrole, hepoch, hcals, hclaims⟩ := State.fenStart_permitted hok hon
    refine ⟨_, hans, (hmem.trans hstart).settle, ?_⟩
    rw [if_pos rfl, settle_fld_fenmas _ (by decide) (by decide), settle_fld_fenmas _ (by decide) (by decide),
      settle_rd_fenmas _ (by decide) (by decide), settle_fen_cals, settle_fen_claims]
    exact ⟨henable, hrole.trans (if_congr hbelay rfl rfl), hepoch.trans hseed, hcals, hclaims⟩
  | false =>
    obtain ⟨hstart, henable, hbad⟩ := State.fenStart_refused hok
    refine ⟨_, hans, (hmem.trans hstart).settle, ?_⟩
    rw [if_neg Bool.false_ne_true, settle_fld_fenmas _ (by decide) (by decide), settle_fld_fenmas _ (by decide) (by decide)]
    exact ⟨henable, hbad⟩

/-! ## Links (R350) -/

/-- A link change shows on the port itself, and moves nothing else. -/
theorem State.linkChange_shows (s : State) (port : Nat) (up : Bool) :
    OnlyRegs [R.NET_PHY_CFG (port / 2)] s (s.linkChange port up) ∧
      (s.linkChange port up).portUp port = (up && s.runs .net && s.portExists port && s.bit (F.NET_PHY_CFG_enable (port / 2))) := by
  unfold State.linkChange
  dsimp only
  generalize hup : (up && s.runs .net && s.portExists port && s.bit (F.NET_PHY_CFG_enable (port / 2))) = b
  have hexists : b = true → s.portExists port = true := by rintro rfl; simp_all
  have hflag : ∀ lo, 1 < lo → lo < 32 → (s.flag ⟨R.NET_PHY_CFG (port / 2), lo, lo⟩ b).bit ⟨R.NET_PHY_CFG (port / 2), lo, lo⟩ = b
      ∧ (s.flag ⟨R.NET_PHY_CFG (port / 2), lo, lo⟩ b).portExists port = s.portExists port := fun lo hlo hhi => by
    refine ⟨?_, ?_⟩
    · rw [State.bit, State.flag, State.fld_put_same _ _ _ hhi, Nat.add_sub_cancel_left]
      cases b <;> rfl
    · have hsplit := s.fld_put_ne ⟨R.NET_PHY_CFG (port / 2), lo, lo⟩ (F.NET_PHY_CFG_split (port / 2)) (if b then 1 else 0) rfl
        (show 1 < 32 by decide) (.inl hlo)
      rw [State.portExists, State.bit, State.flag, hsplit]; rfl
  have hshow : (s.portExists port && b) = b := by
    cases b with
    | false => exact Bool.and_false _
    | true => rw [hexists rfl]; rfl
  split
  next heven =>
    obtain ⟨hlink, hex⟩ := hflag 3 (by decide) (by decide)
    refine ⟨(OnlyRegs.refl _ s).put _ (.head _), ?_⟩
    rw [State.portUp, if_pos heven, F.NET_PHY_CFG_link_a, ← R.NET_PHY_CFG, hlink, hex]
    exact hshow
  next hodd =>
    obtain ⟨hlink, hex⟩ := hflag 4 (by decide) (by decide)
    refine ⟨(OnlyRegs.refl _ s).put _ (.head _), ?_⟩
    rw [State.portUp, if_neg hodd, F.NET_PHY_CFG_link_b, ← R.NET_PHY_CFG, hlink, hex]
    exact hshow

theorem settle_portUp (s : State) {p : Nat} (hp : p < 8) : (settle s).portUp p = s.portUp p :=
  State.portUp_congr fun f hf => settle_fld_rigging s f (by rw [hf, R.NET_PHY_CFG]; omega)

theorem linkChange_answers {port : Nat} (up : Bool) (s : State) (hp : port < 8) :
    ∃ t, Answers (.ethernetLinkChange port up) s t ∧ OnlyRegs [R.NET_PHY_CFG (port / 2)] s t ∧
      t.portUp port = (up && s.runs .net && s.portExists port && s.bit (F.NET_PHY_CFG_enable (port / 2))) := by
  have hexec : exec (.ethernetLinkChange port up) s = done (s.linkChange port up) := by
    show execEthernetLinkChange port up s = _
    rw [execEthernetLinkChange, Nat.mod_eq_of_lt hp]
  obtain ⟨hframe, hshown⟩ := s.linkChange_shows port up
  exact ⟨_, answers_settle_of_exec_eq_done hexec, hframe.settle, (settle_portUp _ hp).trans hshown⟩

/-! ## Forced roles (R378) -/

/-- Each command of FEN_BELAY_CTRL forces its own role, on a unit that has the other one. -/
theorem State.belayCtrl_one (s : State) : s.belayCtrl 1 =
    { s with fen := { s.fen with forceLead := s.fen.forceLead || (decide (s.fenRole = 2) && s.fen.rise.isNone) } } := by
  have hlead : Nat.testBit 1 0 = true := rfl
  have hsecond : Nat.testBit 1 1 = false := rfl
  simp only [State.belayCtrl, hlead, hsecond, Bool.false_and, Bool.true_and, Bool.or_false]

theorem State.belayCtrl_two (s : State) : s.belayCtrl 2 =
    { s with fen := { s.fen with forceSecond := s.fen.forceSecond || decide (s.fenRole = 1) } } := by
  have hlead : Nat.testBit 2 0 = false := rfl
  have hsecond : Nat.testBit 2 1 = true := rfl
  simp only [State.belayCtrl, hlead, hsecond, Bool.false_and, Bool.true_and, Bool.or_false]

theorem exec_forceLead (m : Master) (s : State) :
    exec (.forceLead m) s = done (s.guardedWrite m R.FEN_BELAY_CTRL (fun s => s.belayCtrl 1)) := rfl

theorem exec_forceSecond (m : Master) (s : State) :
    exec (.forceSecond m) s = done (s.guardedWrite m R.FEN_BELAY_CTRL (fun s => s.belayCtrl 2)) := rfl

theorem forceLead_answers {m : Master} {s : State} (ha : Admitted s m R.FEN_BELAY_CTRL) :
    ∃ t, Answers (.forceLead m) s t ∧ RegsBut [] s t ∧ SameMemory s t ∧ t.fen.forceSecond = s.fen.forceSecond
      ∧ t.fen.forceLead = (s.fen.forceLead || (decide (s.fenRole = 2) && s.fen.rise.isNone)) := by
  refine ⟨_, answers_of_admitted ha (exec_forceLead m s), RegsBut.settle (.of_regs (.refl _ s) rfl), SameMemory.settle (.of_eq rfl rfl rfl rfl), ?_⟩
  rw [settle_fen_forceSecond, settle_fen_forceLead, State.belayCtrl_one]
  exact ⟨rfl, rfl⟩

theorem forceSecond_answers {m : Master} {s : State} (ha : Admitted s m R.FEN_BELAY_CTRL) :
    ∃ t, Answers (.forceSecond m) s t ∧ RegsBut [] s t ∧ SameMemory s t ∧ t.fen.forceLead = s.fen.forceLead
      ∧ t.fen.forceSecond = (s.fen.forceSecond || decide (s.fenRole = 1)) := by
  refine ⟨_, answers_of_admitted ha (exec_forceSecond m s), RegsBut.settle (.of_regs (.refl _ s) rfl), SameMemory.settle (.of_eq rfl rfl rfl rfl), ?_⟩
  rw [settle_fen_forceSecond, settle_fen_forceLead, State.belayCtrl_two]
  exact ⟨rfl, rfl⟩

/-! ## Calibration loads (R363) -/

/-- A `go` stores what is written of FEN_CAL_CTRL. -/
theorem State.regWrite_calCtrl (s : State) (v : Nat) : ∃ x, s.regWrite R.FEN_CAL_CTRL v = s.wr R.FEN_CAL_CTRL x :=
  ⟨_, s.regWrite_eq_wr v rfl rfl (by decide)⟩

theorem putBits_of_set {v i : Nat} (h : bitsOf v i i = 1) : putBits v i i 1 = v := by
  have hbit : v.testBit i = true := by
    rw [bitsOf_self] at h
    cases hv : v.testBit i <;> simp_all
  refine Nat.eq_of_testBit_eq fun j => ?_
  rw [putBits_testBit]
  split_ifs with h1 h2
  · rfl
  · obtain rfl : j = i := by omega
    simp [hbit]
  · rfl

/-- The refusals of a load in the order of R363, each with its code, and what a load that is taken leaves. -/
theorem State.calSubmit_shows (s : State) :
    let len := s.fld F.FEN_CAL_CTRL_len
    let addr := s.fld F.FEN_CAL_ADDR_LO_addr_lo * 64 + s.fld F.FEN_CAL_ADDR_HI_addr_hi * 2 ^ 32
    let tile := s.fld F.FEN_CAL_DESC_tile_id
    let t := s.calSubmit
    SameMemory s t ∧ RegsBut [R.FEN_CAL_STATUS] s t ∧
      if 1024 < len then t.fld F.FEN_CAL_STATUS_state = 3 ∧ t.fen.cals = s.fen.cals
      else if s.userRegion addr len (fun o _ => o = 7 || o = 5) = false then t.fld F.FEN_CAL_STATUS_state = 4 ∧ t.fen.cals = s.fen.cals
      else if tile ≠ 0xFFFF ∧ s.servedTiles.all (fun c => c.tileId ≠ tile) = true then
        t.fld F.FEN_CAL_STATUS_state = 5 ∧ t.fen.cals = s.fen.cals
      else if s.leads = false then t.fld F.FEN_CAL_STATUS_state = 6 ∧ t.fen.cals = s.fen.cals
      else if 64 ≤ s.fen.cals.length then t.fld F.FEN_CAL_STATUS_state = 7 ∧ t.fen.cals = s.fen.cals
      else t.fld F.FEN_CAL_STATUS_state = 1 ∧ t.fld F.FEN_CAL_STATUS_cal_seq = s.fen.calNext % 65536
        ∧ t.fen.cals = s.fen.cals ++ [⟨s.fen.calNext, tile, s.fld F.FEN_CAL_DESC_class, addr, len⟩]
        ∧ t.fen.calNext = (s.fen.calNext + 1) % 65536 := by
  intro len addr tile
  have hfail : ∀ c, c < 8 → SameMemory s (s.put F.FEN_CAL_STATUS_state c) ∧ RegsBut [R.FEN_CAL_STATUS] s (s.put F.FEN_CAL_STATUS_state c)
      ∧ (s.put F.FEN_CAL_STATUS_state c).fld F.FEN_CAL_STATUS_state = c ∧ (s.put F.FEN_CAL_STATUS_state c).fen.cals = s.fen.cals := fun c hc =>
    ⟨.of_eq rfl rfl rfl rfl, (RegsBut.refl _ s).put _ (.head _), (s.fld_put_same _ c (by decide)).trans (Nat.mod_eq_of_lt hc), rfl⟩
  have htaken : ∀ u : State, u.regs = s.regs → ∀ t, t = (u.put F.FEN_CAL_STATUS_state 1).put F.FEN_CAL_STATUS_cal_seq s.fen.calNext →
      RegsBut [R.FEN_CAL_STATUS] s t ∧ t.fld F.FEN_CAL_STATUS_state = 1 ∧ t.fld F.FEN_CAL_STATUS_cal_seq = s.fen.calNext % 65536 := by
    rintro u hu t rfl
    refine ⟨((RegsBut.of_regs (.refl _ s) hu).put _ (by decide)).put _ (by decide), ?_, State.fld_put_same _ _ _ (by decide)⟩
    rw [State.fld_put_ne _ F.FEN_CAL_STATUS_cal_seq F.FEN_CAL_STATUS_state _ rfl (by decide) (by decide)]
    exact State.fld_put_same _ _ 1 (by decide)
  have htiles : (s.servedTiles.any fun c => c.tileId = s.fld F.FEN_CAL_DESC_tile_id) = false
      ↔ (s.servedTiles.all fun c => c.tileId ≠ s.fld F.FEN_CAL_DESC_tile_id) = true := by simp
  unfold State.calSubmit
  simp only [htiles, Bool.not_eq_true', len, addr, tile]
  split_ifs
  · exact hfail 3 (by decide)
  · exact hfail 4 (by decide)
  · exact hfail 5 (by decide)
  · exact hfail 6 (by decide)
  · exact hfail 7 (by decide)
  · obtain ⟨hr, hstate, hseq⟩ := htaken _ rfl _ rfl
    exact ⟨.of_eq rfl rfl rfl rfl, hr, hstate, hseq, rfl, rfl⟩

theorem exec_calSubmit (m : Master) (v : Word) (s : State) : exec (.calSubmit m v) s =
    done (s.guardedWrite m R.FEN_CAL_CTRL (fun s => s.calCtrlWrite (putBits v.toNat 31 31 1))) := rfl

theorem State.calCtrlWrite_go (s : State) {v : Nat} (h : bitsOf v 31 31 = 1) :
    s.calCtrlWrite (putBits v 31 31 1) = (s.regWrite R.FEN_CAL_CTRL v).calSubmit := by
  have hbit : v.testBit 31 = true := by
    rw [bitsOf_self] at h
    cases hv : v.testBit 31 <;> simp_all
  simp only [State.calCtrlWrite, putBits_of_set h, hbit, if_true]

theorem calSubmit_answers {m : Master} {v : Word} {s : State} (ha : Admitted s m R.FEN_CAL_CTRL) (hgo : bitsOf v.toNat 31 31 = 1) :
    let s1 := s.regWrite R.FEN_CAL_CTRL v.toNat
    let len := s1.fld F.FEN_CAL_CTRL_len
    let addr := s.fld F.FEN_CAL_ADDR_LO_addr_lo * 64 + s.fld F.FEN_CAL_ADDR_HI_addr_hi * 2 ^ 32
    let tile := s.fld F.FEN_CAL_DESC_tile_id
    ∃ t, Answers (.calSubmit m v) s t ∧ SameMemory s t ∧ RegsBut [R.FEN_CAL_CTRL, R.FEN_CAL_STATUS] s t ∧
      if 1024 < len then t.fld F.FEN_CAL_STATUS_state = 3 ∧ t.fen.cals = s.fen.cals
      else if s.userRegion addr len (fun o _ => o = 7 || o = 5) = false then t.fld F.FEN_CAL_STATUS_state = 4 ∧ t.fen.cals = s.fen.cals
      else if tile ≠ 0xFFFF ∧ s.servedTiles.all (fun c => c.tileId ≠ tile) = true then
        t.fld F.FEN_CAL_STATUS_state = 5 ∧ t.fen.cals = s.fen.cals
      else if s.leads = false then t.fld F.FEN_CAL_STATUS_state = 6 ∧ t.fen.cals = s.fen.cals
      else if 64 ≤ s.fen.cals.length then t.fld F.FEN_CAL_STATUS_state = 7 ∧ t.fen.cals = s.fen.cals
      else t.fld F.FEN_CAL_STATUS_state = 1 ∧ t.fld F.FEN_CAL_STATUS_cal_seq = s.fen.calNext % 65536
        ∧ t.fen.cals = s.fen.cals ++ [⟨s.fen.calNext, tile, s.fld F.FEN_CAL_DESC_class, addr, len⟩]
        ∧ t.fen.calNext = (s.fen.calNext + 1) % 65536 := by
  obtain ⟨x, hx⟩ := s.regWrite_calCtrl v.toNat
  have hans := answers_of_admitted ha (exec_calSubmit m v s)
  rw [s.calCtrlWrite_go hgo, hx] at hans
  have hkeep : ∀ f : Fld, f.off ≠ R.FEN_CAL_CTRL → (s.wr R.FEN_CAL_CTRL x).fld f = s.fld f := fun f hf => s.fld_wr_off x hf
  have hleads : (s.wr R.FEN_CAL_CTRL x).leads = s.leads := by
    simp only [State.leads, hkeep F.FEN_BELAY_STATUS_role (by decide)]
  have hregion : (s.wr R.FEN_CAL_CTRL x).userRegion = s.userRegion := rfl
  have htiles : (s.wr R.FEN_CAL_CTRL x).servedTiles = s.servedTiles := rfl
  obtain ⟨hmem, hregs, hshown⟩ := (s.wr R.FEN_CAL_CTRL x).calSubmit_shows
  simp only [hkeep F.FEN_CAL_ADDR_LO_addr_lo (by decide), hkeep F.FEN_CAL_ADDR_HI_addr_hi (by decide), hkeep F.FEN_CAL_DESC_tile_id (by decide),
    hkeep F.FEN_CAL_DESC_class (by decide), hleads, hregion, htiles, State.wr_fen] at hshown
  refine ⟨_, hans, SameMemory.settle (.trans (.of_eq rfl rfl rfl rfl) hmem),
    (((RegsBut.refl _ s).wr x (.head _)).trans (hregs.mono (by simp))).settle, ?_⟩
  rw [hx]
  simp only [settle_fld_fenmas _ (f := F.FEN_CAL_STATUS_state) (by decide) (by decide),
    settle_fld_fenmas _ (f := F.FEN_CAL_STATUS_cal_seq) (by decide) (by decide), settle_fen_cals, settle_fen_calNext]
  exact hshown

end Sys2Proof.Machine
end

section
/-! Received BEACON and DIGEST packets, and invalid ones (R353, R372 to R378, R385). -/
namespace Sys2Proof.Machine

/-! ## The arrival of a packet (R353, R375) -/

/-- Before a packet acts, time has run on and its epoch may have become the running one. -/
theorem State.heard_frame (s : State) (t : Nat) (p : FenRx) :
    ∃ a b e, (s.reach t).hearEpoch p = { s with anchorT := a, real := b, fen := { s.fen with epochE := e } } := by
  obtain ⟨a, b, h⟩ := s.reach_frame t
  rw [h, State.hearEpoch, State.runEpoch]
  split_ifs
  · exact ⟨a, b, p.epoch, rfl⟩
  · exact ⟨a, b, s.fen.epochE, rfl⟩
  · exact ⟨a, b, s.fen.epochE, rfl⟩

theorem State.heard_keeps (s : State) (t : Nat) (p : FenRx) : ((s.reach t).hearEpoch p).regs = s.regs
    ∧ SameMemory s ((s.reach t).hearEpoch p) ∧ ∃ e, ((s.reach t).hearEpoch p).fen = { s.fen with epochE := e } := by
  obtain ⟨a, b, e, h⟩ := s.heard_frame t p
  rw [h]
  exact ⟨rfl, .of_eq rfl rfl rfl rfl, e, rfl⟩

/-- What a frame is to Fenmas does not depend on the time. -/
theorem State.fenSeen_reach (s : State) (t port : Nat) (f : List Byte) : (s.reach t).fenSeen port f = s.fenSeen port f := by
  obtain ⟨a, b, h⟩ := s.reach_frame t
  rw [h]
  rfl

/-- A packet of the type that its command names acts on the state that has heard it. -/
theorem State.fenArrive_packet {s : State} {port ftype : Nat} {f : List Byte} {p : FenRx} (hp : port < 8)
    (hseen : s.fenSeen port f = .packet p) (htype : p.ftype = ftype) (t : Nat) (op : State → FenRx → State) :
    s.fenArrive port t ftype f op = op ((s.reach t).hearEpoch p) p := by
  have hseen' : (s.reach t).fenSeen (port % 8) f = .packet p := by rw [Nat.mod_eq_of_lt hp, State.fenSeen_reach, hseen]
  simp only [State.fenArrive, hseen', htype, if_true]

/-- The epoch of a packet is a number of 32 bits (R352). -/
theorem State.epoch_lt_of_fenSeen {s : State} {port : Nat} {f : List Byte} {p : FenRx} (h : s.fenSeen port f = .packet p) :
    p.epoch < 2 ^ 32 := by
  unfold State.fenSeen at h
  dsimp only at h
  generalize (if beAt f 12 2 = 0x8100 then 16 else 12) = o at h
  split at h
  · split at h
    · split at h
      · split at h
        · obtain rfl := FenSeen.packet.inj h
          exact beAt_lt _ 4 4
        · cases h
      · cases h
    · cases h
  · cases h

/-! ## Marks of tiles and the source of a follower -/

/-- Marking every tile writes registers of tile contexts and the wall's own record. -/
theorem State.markAllTiles_frame (s : State) :
    (∃ r w, s.markAllTiles = { s with regs := r, wall := w }) ∧ ∀ o, o < 0x400000 → s.markAllTiles.rd o = s.rd o := by
  have hstep : ∀ (u : State) (i m : Nat), (∃ r, u.setRepush i m = { u with regs := r }) ∧ ∀ o, o < 0x400000 → (u.setRepush i m).rd o = u.rd o := by
    intro u i m
    refine ⟨⟨_, rfl⟩, fun o ho => ?_⟩
    have h0 : o ≠ R.WALL_TCTX_REPUSH i 0 := by simp only [R.WALL_TCTX_REPUSH]; omega
    have h1 : o ≠ R.WALL_TCTX_REPUSH i 1 := by simp only [R.WALL_TCTX_REPUSH]; omega
    rw [State.setRepush, State.rd_wr_ne _ _ h1, State.rd_wr_ne _ _ h0]
  have hfold := foldl_related (r := fun (a b : State) => (∃ r, b = { a with regs := r }) ∧ ∀ o, o < 0x400000 → b.rd o = a.rd o)
    (fun a => ⟨⟨a.regs, rfl⟩, fun _ _ => rfl⟩)
    (fun {a b c} ⟨⟨r, hr⟩, h⟩ ⟨⟨q, hq⟩, k⟩ => ⟨⟨q, by rw [hq, hr]⟩, fun o ho => (k o ho).trans (h o ho)⟩)
    (fun a (e : Nat × Tile) => hstep a e.1 (tileCtx e.1 e.2.active.regs).allBlocks) s.wall.tiles s
  obtain ⟨⟨r, hr⟩, hrd⟩ := hfold
  unfold State.markAllTiles
  dsimp only
  rw [hr] at hrd ⊢
  exact ⟨⟨r, _, rfl⟩, hrd⟩

/-- Looking at the source of a follower touches the receipt and nothing else. -/
theorem State.sourceCheck_frame (s : State) : ∃ x q w l h,
    s.sourceCheck = { s with fen := { s.fen with source := x, lastSeq := q }, jnl := { s.jnl with wholeFrom := w, seqs := l, held := h } } := by
  unfold State.sourceCheck
  split
  · exact ⟨_, _, _, _, _, rfl⟩
  · exact ⟨_, _, _, _, _, rfl⟩

/-! ## BEACON (R372 to R377) -/

/-- Whether a claim to lead is the best one heard of its pair (R365, R372). -/
def State.claimBest (s : State) (p : FenRx) : Bool :=
  match mapFind s.fen.claims p.pair with
  | some c => beats (p.epoch, p.unit) c
  | none => true

theorem State.claimBest_iff (s : State) (p : FenRx) :
    s.claimBest p = true ↔ ∀ c, mapFind s.fen.claims p.pair = some c → beats (p.epoch, p.unit) c = true := by
  unfold State.claimBest
  cases mapFind s.fen.claims p.pair <;> simp

/-- The best claim of a pair is kept (R372). -/
def State.noteClaim (s : State) (p : FenRx) : State :=
  if beAt p.bytes 16 1 = 1 && s.claimBest p then
    { s with fen := { s.fen with claims := mapSet s.fen.claims p.pair (p.epoch, p.unit) } }
  else s

theorem State.noteClaim_frame (s : State) (p : FenRx) : ∃ l, s.noteClaim p = { s with fen := { s.fen with claims := l } } := by
  unfold State.noteClaim
  split
  · exact ⟨_, rfl⟩
  · exact ⟨s.fen.claims, rfl⟩

/-- The other unit of the pair has been heard: FEN_LEAD shows the pair's best claim (R372, R379). -/
def State.notePeer (s : State) (pair : Nat) : State :=
  let s := match mapFind s.fen.claims pair with
    | some c => s.wr R.FEN_LEAD c.2
    | none => s
  ((({ s with fen := { s.fen with peerHeard := true, peerEver := true } } : State).put F.FEN_BELAY_STATUS_peer 1).put
    F.FEN_BELAY_STATUS_peer_silent 0)

/-- A second hears the lead, whose epoch it takes (R374, R375). -/
def State.hearLead (s : State) (epoch : Nat) : State :=
  (({ s with fen := { s.fen with heard := true } } : State).put F.FEN_BELAY_STATUS_missing 0).setEpoch epoch

/-- A lead hears a claim that its own one beats (R377). -/
def State.hearStale (s : State) : State :=
  let s := s.bump F.FEN_STALE_count 1
  let s := if s.silenceN ≤ s.fen.staleQuiet then s.markAllTiles.put F.FEN_EVT_stale_lead 1 else s
  { s with fen := { s.fen with staleQuiet := 0 } }

/-- A lead is to demote at the next latch point, to the latest epoch that beats it (R376). -/
def State.yieldTo (s : State) (epoch : Nat) : State :=
  let worse := match s.fen.demote with
    | some d => laterThan 32 d.1 epoch
    | none => false
  if worse then s else { s with fen := { s.fen with demote := some (epoch, true) } }

/-- What the lead of the other unit means to this one, by its role. -/
def State.meetLead (s : State) (p : FenRx) (me : Nat) : State :=
  if s.fenRole = 2 then (if laterThan 32 s.fenEpoch p.epoch then s else s.hearLead p.epoch)
  else if s.fenRole = 1 then
    if beats (p.epoch, p.unit) (s.fenEpoch, me) then s.yieldTo p.epoch
    else if !beats (s.fenEpoch, me) (p.epoch, p.unit) then s
    else s.hearStale
  else s

/-- A BEACON of another wall, or the unit's own one, is not looked at. -/
theorem State.beaconOp_foreign {s : State} {p : FenRx} (h : p.wall ≠ s.fld F.FEN_ADDR_wall_id ∨ (p.pair = s.fld F.FEN_ADDR_pair
    ∧ p.unit = s.fld F.FEN_ADDR_unit)) : s.beaconOp p = s := by
  rw [State.beaconOp, if_pos h]

/-- Of another pair of the wall its claim is kept. -/
theorem State.beaconOp_elsewhere {s : State} {p : FenRx} (hwall : p.wall = s.fld F.FEN_ADDR_wall_id) (hpair : p.pair ≠ s.fld F.FEN_ADDR_pair) :
    s.beaconOp p = s.noteClaim p := by
  rw [State.beaconOp, if_neg (by simp [hwall, hpair]), if_pos hpair]
  rfl

/-- A BEACON of the other unit of the pair. -/
theorem State.beaconOp_mine {s : State} {p : FenRx} (hwall : p.wall = s.fld F.FEN_ADDR_wall_id) (hpair : p.pair = s.fld F.FEN_ADDR_pair)
    (hunit : p.unit ≠ s.fld F.FEN_ADDR_unit) :
    s.beaconOp p = if beAt p.bytes 16 1 = 1 then ((s.noteClaim p).notePeer p.pair).meetLead p (s.fld F.FEN_ADDR_unit)
      else (s.noteClaim p).notePeer p.pair := by
  rw [State.beaconOp, if_neg (by simp [hwall, hunit]), if_neg (not_not_intro hpair), ← hpair]
  by_cases hlead : beAt p.bytes 16 1 = 1
  · simp only [hlead, decide_true, if_true, Bool.not_true, Bool.false_eq_true, if_false]
    rw [State.noteClaim, hlead]
    rfl
  · have hclaim : s.noteClaim p = s := if_neg (by simp [hlead])
    rw [hclaim]
    simp only [hlead, decide_false, Bool.false_and, if_false, Bool.not_false, if_true, Bool.false_eq_true]
    rfl

/-- What an operation on a BEACON of the other unit keeps: every memory, and that the unit has been heard. -/
structure PeerKept (s t : State) : Prop where
  memory : SameMemory s t
  heard : t.fen.peerHeard = s.fen.peerHeard
  peer : t.fld F.FEN_BELAY_STATUS_peer = s.fld F.FEN_BELAY_STATUS_peer
  silent : t.fld F.FEN_BELAY_STATUS_peer_silent = s.fld F.FEN_BELAY_STATUS_peer_silent

theorem PeerKept.refl (s : State) : PeerKept s s := ⟨.refl s, rfl, rfl, rfl⟩

theorem State.setEpoch_shows (s : State) {e : Nat} (he : e < 2 ^ 32) :
    SameMemory s (s.setEpoch e) ∧ RegsBut [R.FEN_CUR_EPOCH] s (s.setEpoch e) ∧ (s.setEpoch e).rd R.FEN_CUR_EPOCH = e
      ∧ ∃ x, (s.setEpoch e).fen = { s.fen with epochE := x } := by
  have hregs : (s.setEpoch e).regs = (s.wr R.FEN_CUR_EPOCH e).regs := by rw [State.setEpoch, State.runEpoch]; split <;> rfl
  refine ⟨?_, ((RegsBut.refl _ s).wr e (.head _)).of_regs hregs, ?_, ?_⟩
  · rw [State.setEpoch, State.runEpoch]
    split <;> exact .of_eq rfl rfl rfl rfl
  · rw [State.rd_congr hregs, State.rd_wr_same, Nat.mod_eq_of_lt he]
  · rw [State.setEpoch, State.runEpoch]
    split
    · exact ⟨e, rfl⟩
    · exact ⟨s.fen.epochE, rfl⟩

/-- A field of Fenmas in a register that a frame does not name. -/
theorem RegsBut.fld_fenmas {l : List Nat} {s t : State} (h : RegsBut l s t) {f : Fld} (hl : f.off ∉ l) (hne : f.off ≠ R.FEN_JNL_TX)
    (hlt : f.off < 0xE8100) : t.fld f = s.fld f :=
  congrArg (bitsOf · f.hi f.lo) (h f.off hl (not_sendCounter_fenmas hne hlt))

theorem State.hearLead_shows (s : State) {e : Nat} (he : e < 2 ^ 32) :
    PeerKept s (s.hearLead e) ∧ (s.hearLead e).fen.heard = true ∧ (s.hearLead e).rd R.FEN_CUR_EPOCH = e
      ∧ (s.hearLead e).fld F.FEN_BELAY_STATUS_missing = 0 := by
  rw [State.hearLead]
  generalize hu : ({ s with fen := { s.fen with heard := true } } : State).put F.FEN_BELAY_STATUS_missing 0 = u
  have hfen : u.fen = { s.fen with heard := true } := by rw [← hu]; rfl
  have hmem : SameMemory s u := by rw [← hu]; exact .of_eq rfl rfl rfl rfl
  have hregs : u.regs = (s.put F.FEN_BELAY_STATUS_missing 0).regs := by rw [← hu]; rfl
  obtain ⟨hmem', hframe, hepoch, x, hx⟩ := u.setEpoch_shows he
  have hstatus : ∀ f : Fld, f.off = R.FEN_BELAY_STATUS → (u.setEpoch e).fld f = (s.put F.FEN_BELAY_STATUS_missing 0).fld f := fun f hf =>
    (hframe.fld_fenmas (by rw [hf]; decide) (by rw [hf]; decide) (by rw [hf]; decide)).trans (State.fld_congr hregs f)
  refine ⟨⟨hmem.trans hmem', ?_, ?_, ?_⟩, ?_, hepoch, ?_⟩
  · rw [hx, hfen]
  · rw [hstatus _ rfl, State.fld_put_ne _ F.FEN_BELAY_STATUS_missing F.FEN_BELAY_STATUS_peer _ rfl (by decide) (by decide)]
  · rw [hstatus _ rfl, State.fld_put_ne _ F.FEN_BELAY_STATUS_missing F.FEN_BELAY_STATUS_peer_silent _ rfl (by decide) (by decide)]
  · rw [hx, hfen]
  · rw [hstatus _ rfl]
    exact State.fld_put_same _ _ 0 (by decide)

theorem State.hearStale_shows (s : State) : PeerKept s s.hearStale ∧ s.hearStale.fen.demote = s.fen.demote
    ∧ s.hearStale.fld F.FEN_STALE_count
      = min (s.fld F.FEN_STALE_count + 1) (2 ^ (F.FEN_STALE_count.hi + 1 - F.FEN_STALE_count.lo) - 1) := by
  have hbump : ∀ f : Fld, f.off ≠ R.FEN_STALE → (s.bump F.FEN_STALE_count 1).fld f = s.fld f := fun f hf =>
    s.fld_put_off F.FEN_STALE_count f _ hf
  have hcount := s.fld_bump_same F.FEN_STALE_count 1 (by decide)
  have hmem : SameMemory s (s.bump F.FEN_STALE_count 1) := .of_eq rfl rfl rfl rfl
  have hfen : (s.bump F.FEN_STALE_count 1).fen = s.fen := rfl
  unfold State.hearStale
  dsimp only
  generalize s.bump F.FEN_STALE_count 1 = u at hbump hcount hmem hfen ⊢
  rw [← hfen]
  split
  · obtain ⟨⟨r, w, hmark⟩, hrd⟩ := u.markAllTiles_frame
    have hmem' : SameMemory u u.markAllTiles := by rw [hmark]; exact .of_eq rfl rfl rfl rfl
    have hfen' : u.markAllTiles.fen = u.fen := by rw [hmark]
    have hkeep : ∀ f : Fld, f.off < 0x400000 → f.off ≠ R.FEN_EVT → (u.markAllTiles.put F.FEN_EVT_stale_lead 1).fld f = u.fld f :=
      fun f hf hne => (State.fld_put_off _ _ _ _ hne).trans (congrArg (bitsOf · f.hi f.lo) (hrd _ hf))
    refine ⟨⟨hmem.trans (hmem'.trans (.of_eq rfl rfl rfl rfl)), ?_, ?_, ?_⟩, ?_, ?_⟩
    · exact (congrArg Fen.peerHeard (hfen'.trans hfen) :)
    · exact (hkeep _ (by decide) (by decide)).trans (hbump _ (by decide))
    · exact (hkeep _ (by decide) (by decide)).trans (hbump _ (by decide))
    · exact congrArg Fen.demote hfen'
    · exact (hkeep _ (by decide) (by decide)).trans hcount
  · exact ⟨⟨hmem.trans (.of_eq rfl rfl rfl rfl), (congrArg Fen.peerHeard hfen :), hbump F.FEN_BELAY_STATUS_peer (by decide),
      hbump F.FEN_BELAY_STATUS_peer_silent (by decide)⟩, rfl, hcount⟩

theorem State.yieldTo_kept (s : State) (e : Nat) : PeerKept s (s.yieldTo e) := by
  unfold State.yieldTo
  dsimp only
  split
  · split
    · exact .refl s
    · exact ⟨.of_eq rfl rfl rfl rfl, rfl, rfl, rfl⟩
  · exact ⟨.of_eq rfl rfl rfl rfl, rfl, rfl, rfl⟩

theorem State.meetLead_kept (s : State) {p : FenRx} (he : p.epoch < 2 ^ 32) (me : Nat) : PeerKept s (s.meetLead p me) := by
  unfold State.meetLead
  split_ifs
  · exact .refl s
  · exact (s.hearLead_shows he).1
  · exact s.yieldTo_kept p.epoch
  · exact .refl s
  · exact s.hearStale_shows.1
  · exact .refl s

/-- The other unit heard: it is shown as present, and the role, the epoch and the counters stay. -/
theorem State.notePeer_shows (s : State) (pair : Nat) :
    SameMemory s (s.notePeer pair) ∧ RegsBut [R.FEN_LEAD, R.FEN_BELAY_STATUS] s (s.notePeer pair) ∧ (s.notePeer pair).fenRole = s.fenRole
      ∧ (s.notePeer pair).fen = { s.fen with peerHeard := true, peerEver := true }
      ∧ (s.notePeer pair).fld F.FEN_BELAY_STATUS_peer = 1 ∧ (s.notePeer pair).fld F.FEN_BELAY_STATUS_peer_silent = 0 := by
  have hlead : ∃ u : State, s.notePeer pair = ((({ u with fen := { u.fen with peerHeard := true, peerEver := true } } : State).put
      F.FEN_BELAY_STATUS_peer 1).put F.FEN_BELAY_STATUS_peer_silent 0) ∧ SameMemory s u ∧ RegsBut [R.FEN_LEAD] s u ∧ u.fen = s.fen := by
    unfold State.notePeer
    split
    · exact ⟨_, rfl, .of_eq rfl rfl rfl rfl, (RegsBut.refl _ s).wr _ (.head _), rfl⟩
    · exact ⟨_, rfl, .refl s, .refl _ s, rfl⟩
  obtain ⟨u, hu, hmem, hregs, hfen⟩ := hlead
  rw [hu, ← hfen]
  have hrole : u.fenRole = s.fenRole := hregs.fld_fenmas (f := F.FEN_BELAY_STATUS_role) (by decide) (by decide) (by decide)
  generalize hw : ({ u with fen := { u.fen with peerHeard := true, peerEver := true } } : State) = w
  have hwregs : w.regs = u.regs := by rw [← hw]
  have hwfen : w.fen = { u.fen with peerHeard := true, peerEver := true } := by rw [← hw]
  have hwmem : SameMemory u w := by rw [← hw]; exact .of_eq rfl rfl rfl rfl
  refine ⟨hmem.trans (hwmem.trans (.of_eq rfl rfl rfl rfl)), ?_, ?_, hwfen, ?_, ?_⟩
  · exact (((hregs.mono (by decide)).of_regs hwregs).put _ (by decide)).put _ (by decide)
  · rw [State.fenRole, State.fld_put_ne _ F.FEN_BELAY_STATUS_peer_silent F.FEN_BELAY_STATUS_role _ rfl (by decide) (by decide),
      State.fld_put_ne _ F.FEN_BELAY_STATUS_peer F.FEN_BELAY_STATUS_role _ rfl (by decide) (by decide), State.fld_congr hwregs]
    exact hrole
  · rw [State.fld_put_ne _ F.FEN_BELAY_STATUS_peer_silent F.FEN_BELAY_STATUS_peer _ rfl (by decide) (by decide)]
    exact State.fld_put_same _ _ 1 (by decide)
  · exact State.fld_put_same _ _ 0 (by decide)

/-- What follows a BEACON keeps: registers, memories, and what it has said of the other unit. -/
theorem settle_sourceCheck (s : State) : SameMemory s (settle s.sourceCheck) ∧ RegsBut [] s (settle s.sourceCheck)
    ∧ (settle s.sourceCheck).fen.claims = s.fen.claims ∧ (settle s.sourceCheck).fen.heard = s.fen.heard
    ∧ (settle s.sourceCheck).fen.peerHeard = s.fen.peerHeard ∧ (settle s.sourceCheck).fen.demote = s.fen.demote := by
  obtain ⟨x, q, w, l, h, hcheck⟩ := s.sourceCheck_frame
  have hmem : SameMemory s s.sourceCheck := by rw [hcheck]; exact .of_eq rfl rfl rfl rfl
  have hregs : s.sourceCheck.regs = s.regs := by rw [hcheck]
  have hfen : s.sourceCheck.fen = { s.fen with source := x, lastSeq := q } := by rw [hcheck]
  refine ⟨hmem.settle, ((RegsBut.refl _ s).of_regs hregs).settle, ?_⟩
  rw [settle_fen_claims, settle_fen_heard, settle_fen_peerHeard, settle_fen_demote, hfen]
  exact ⟨rfl, rfl, rfl, rfl⟩

/-- A BEACON of the other unit, as it leaves the roles and the claims of the pair. -/
theorem State.beaconOp_peer {s : State} {p : FenRx} (hwall : p.wall = s.fld F.FEN_ADDR_wall_id) (hpair : p.pair = s.fld F.FEN_ADDR_pair)
    (hunit : p.unit ≠ s.fld F.FEN_ADDR_unit) (he : p.epoch < 2 ^ 32) :
    let me := s.fld F.FEN_ADDR_unit
    let lead := beAt p.bytes 16 1 = 1
    let t := s.beaconOp p
    SameMemory s t ∧ t.fen.peerHeard = true ∧ t.fld F.FEN_BELAY_STATUS_peer = 1 ∧ t.fld F.FEN_BELAY_STATUS_peer_silent = 0
      ∧ (lead → s.fenRole = 2 → laterThan 32 s.fenEpoch p.epoch = false →
          t.fen.heard = true ∧ t.rd R.FEN_CUR_EPOCH = p.epoch ∧ t.fld F.FEN_BELAY_STATUS_missing = 0)
      ∧ (lead → s.fenRole = 1 → beats (p.epoch, p.unit) (s.fenEpoch, me) = true → s.fen.demote = none → t.fen.demote = some (p.epoch, true))
      ∧ (lead → s.fenRole = 1 → beats (s.fenEpoch, me) (p.epoch, p.unit) = true → beats (p.epoch, p.unit) (s.fenEpoch, me) = false →
          t.fen.demote = s.fen.demote ∧ t.fld F.FEN_STALE_count
            = min (s.fld F.FEN_STALE_count + 1) (2 ^ (F.FEN_STALE_count.hi + 1 - F.FEN_STALE_count.lo) - 1)) := by
  dsimp only
  obtain ⟨l, hclaim⟩ := s.noteClaim_frame p
  have hcregs : (s.noteClaim p).regs = s.regs := by rw [hclaim]
  have hcmem : SameMemory s (s.noteClaim p) := by rw [hclaim]; exact .of_eq rfl rfl rfl rfl
  have hcfen : (s.noteClaim p).fen = { s.fen with claims := l } := by rw [hclaim]
  obtain ⟨hmem, hregs, hrole, hfen, hpeer, hsilent⟩ := (s.noteClaim p).notePeer_shows p.pair
  rw [State.beaconOp_mine hwall hpair hunit]
  generalize (s.noteClaim p).notePeer p.pair = u at *
  have hrole : u.fenRole = s.fenRole := hrole.trans (State.fld_congr hcregs _)
  have hepoch : u.fenEpoch = s.fenEpoch :=
    (hregs R.FEN_CUR_EPOCH (by decide) (not_sendCounter_fenmas (by decide) (by decide))).trans (State.rd_congr hcregs _)
  have hstale : u.fld F.FEN_STALE_count = s.fld F.FEN_STALE_count :=
    (hregs.fld_fenmas (by decide) (by decide) (by decide)).trans (State.fld_congr hcregs _)
  have hdemote : u.fen.demote = s.fen.demote := by rw [hfen, hcfen]
  have hheard : u.fen.peerHeard = true := by rw [hfen]
  by_cases hlead : beAt p.bytes 16 1 = 1
  · have hkept := u.meetLead_kept he (s.fld F.FEN_ADDR_unit)
    rw [if_pos hlead]
    refine ⟨hcmem.trans (hmem.trans hkept.memory), hkept.heard.trans hheard, hkept.peer.trans hpeer, hkept.silent.trans hsilent,
      fun _ h2 hnew => ?_, fun _ h1 hbeats hnone => ?_, fun _ h1 hbeats hloses => ?_⟩
    · rw [State.meetLead, hrole, if_pos h2, hepoch, hnew, if_neg Bool.false_ne_true]
      exact (u.hearLead_shows he).2
    · rw [State.meetLead, hrole, h1, if_neg (by decide), if_pos rfl, hepoch, if_pos hbeats, State.yieldTo, hdemote, hnone]
      rfl
    · rw [State.meetLead, hrole, h1, if_neg (by decide), if_pos rfl, hepoch, hloses, if_neg Bool.false_ne_true, hbeats,
        if_neg (by decide), ← hdemote, ← hstale]
      exact u.hearStale_shows.2
  · rw [if_neg hlead]
    exact ⟨hcmem.trans hmem, hheard, hpeer, hsilent, fun h => absurd h hlead, fun h => absurd h hlead, fun h => absurd h hlead⟩

theorem beacon_answers {port at_ : Nat} {frame : List Byte} {p : FenRx} {s : State} (hp : port < 8) (hseen : s.fenSeen port frame = .packet p)
    (htype : p.ftype = 5) :
    let me := s.fld F.FEN_ADDR_unit
    let mine := p.wall = s.fld F.FEN_ADDR_wall_id ∧ p.pair = s.fld F.FEN_ADDR_pair ∧ p.unit ≠ me
    let lead := beAt p.bytes 16 1 = 1
    ∃ t, Answers (.beacon port at_ frame) s t ∧ SameMemory s t
      ∧ (p.wall ≠ s.fld F.FEN_ADDR_wall_id ∨ (p.pair = s.fld F.FEN_ADDR_pair ∧ p.unit = me) → RegsBut [] s t ∧ t.fen.claims = s.fen.claims)
      ∧ (p.wall = s.fld F.FEN_ADDR_wall_id → p.pair ≠ s.fld F.FEN_ADDR_pair → RegsBut [] s t ∧ t.fen.claims =
          if lead ∧ (∀ c, mapFind s.fen.claims p.pair = some c → beats (p.epoch, p.unit) c = true)
          then mapSet s.fen.claims p.pair (p.epoch, p.unit) else s.fen.claims)
      ∧ (mine → t.fen.peerHeard = true ∧ t.fld F.FEN_BELAY_STATUS_peer = 1 ∧ t.fld F.FEN_BELAY_STATUS_peer_silent = 0
        ∧ (lead → s.fenRole = 2 → laterThan 32 s.fenEpoch p.epoch = false →
            t.fen.heard = true ∧ t.rd R.FEN_CUR_EPOCH = p.epoch ∧ t.fld F.FEN_BELAY_STATUS_missing = 0)
        ∧ (lead → s.fenRole = 1 → beats (p.epoch, p.unit) (s.fenEpoch, me) = true → s.fen.demote = none → t.fen.demote = some (p.epoch, true))
        ∧ (lead → s.fenRole = 1 → beats (s.fenEpoch, me) (p.epoch, p.unit) = true → beats (p.epoch, p.unit) (s.fenEpoch, me) = false →
            t.fen.demote = s.fen.demote ∧ t.fld F.FEN_STALE_count
              = min (s.fld F.FEN_STALE_count + 1) (2 ^ (F.FEN_STALE_count.hi + 1 - F.FEN_STALE_count.lo) - 1))) := by
  intro me mine lead
  have hexec : exec (.beacon port at_ frame) s = done (((s.reach at_).hearEpoch p).beaconOp p).sourceCheck :=
    congrArg done (State.fenArrive_packet hp hseen htype at_ (fun s p => (s.beaconOp p).sourceCheck))
  have he : p.epoch < 2 ^ 32 := State.epoch_lt_of_fenSeen hseen
  obtain ⟨hvregs, hvmem, e, hvfen⟩ := s.heard_keeps at_ p
  have hfld : ∀ f : Fld, ((s.reach at_).hearEpoch p).fld f = s.fld f := State.fld_congr hvregs
  generalize (s.reach at_).hearEpoch p = v at *
  obtain ⟨hmem, hregs, hclaims, hheard, hpeerHeard, hdemote⟩ := settle_sourceCheck (v.beaconOp p)
  have hkeep : ∀ f : Fld, f.off ≠ R.FEN_JNL_TX → f.off < 0xE8100 → (settle (v.beaconOp p).sourceCheck).fld f = (v.beaconOp p).fld f :=
    fun f hne hlt => hregs.fld_fenmas List.not_mem_nil hne hlt
  have hvclaims : v.fen.claims = s.fen.claims := by rw [hvfen]
  have hquiet : RegsBut [] s v := (RegsBut.refl _ s).of_regs hvregs
  have hanswer := answers_settle_of_exec_eq_done hexec
  generalize settle (v.beaconOp p).sourceCheck = t at *
  by_cases hforeign : p.wall ≠ s.fld F.FEN_ADDR_wall_id ∨ (p.pair = s.fld F.FEN_ADDR_pair ∧ p.unit = me)
  · rw [State.beaconOp_foreign (by rwa [hfld, hfld, hfld])] at *
    refine ⟨t, hanswer, hvmem.trans hmem, fun _ => ⟨hquiet.trans hregs, hclaims.trans hvclaims⟩, fun hw hne => ?_, fun hm => ?_⟩
    · rcases hforeign with h | ⟨h, -⟩
      · exact absurd hw h
      · exact absurd h hne
    · obtain ⟨hw, hpair, hunit⟩ := hm
      rcases hforeign with h | ⟨-, h⟩
      · exact absurd hw h
      · exact absurd h hunit
  rw [not_or, not_not, not_and] at hforeign
  obtain ⟨hwall, hown⟩ := hforeign
  by_cases hpair : p.pair = s.fld F.FEN_ADDR_pair
  · obtain ⟨hpmem, h1, h2, h3, h4, h5, h6⟩ := v.beaconOp_peer (by rwa [hfld]) (by rwa [hfld]) (by rw [hfld]; exact hown hpair) he
    have hepoch : v.fenEpoch = s.fenEpoch := State.rd_congr hvregs _
    have hrole : v.fenRole = s.fenRole := hfld _
    have hvdemote : v.fen.demote = s.fen.demote := by rw [hvfen]
    simp only [hfld, hepoch, hrole, hvdemote] at h4 h5 h6
    refine ⟨t, hanswer, hvmem.trans (hpmem.trans hmem), fun h => ?_, fun _ h => absurd hpair h, fun _ => ⟨hpeerHeard.trans h1, ?_, ?_, ?_, ?_, ?_⟩⟩
    · rcases h with h | ⟨-, h⟩
      · exact absurd hwall h
      · exact absurd h (hown hpair)
    · rw [hkeep _ (by decide) (by decide), h2]
    · rw [hkeep _ (by decide) (by decide), h3]
    · intro hl hr hn
      obtain ⟨g1, g2, g3⟩ := h4 hl hr hn
      rw [hheard, hkeep _ (by decide) (by decide), hregs _ List.not_mem_nil (not_sendCounter_fenmas (by decide) (by decide))]
      exact ⟨g1, g2, g3⟩
    · exact fun hl hr hb hn => hdemote.trans (h5 hl hr hb hn)
    · intro hl hr hb hn
      rw [hdemote, hkeep _ (by decide) (by decide)]
      exact h6 hl hr hb hn
  · rw [State.beaconOp_elsewhere (by rwa [hfld]) (by rwa [hfld])] at *
    obtain ⟨l, hclaim⟩ := v.noteClaim_frame p
    have hcmem : SameMemory v (v.noteClaim p) := by rw [hclaim]; exact .of_eq rfl rfl rfl rfl
    have hcregs : (v.noteClaim p).regs = v.regs := by rw [hclaim]
    refine ⟨t, hanswer, hvmem.trans (hcmem.trans hmem), fun h => ?_, fun _ _ => ⟨(hquiet.of_regs hcregs).trans hregs, ?_⟩,
      fun h => absurd h.2.1 hpair⟩
    · rcases h with h | ⟨h, -⟩
      · exact absurd hwall h
      · exact absurd h hpair
    · rw [hclaims, State.noteClaim, ← hvclaims]
      simp only [Bool.and_eq_true, decide_eq_true_eq, v.claimBest_iff]
      split_ifs <;> rfl

/-! ## DIGEST (R385) -/

/-- Two digests of a frame: a difference is counted and reported, unless one of them is excluded. -/
theorem State.digMeet_shows (s : State) (a b : WallDig) : SameMemory s (s.digMeet a b) ∧
    if a.excluded = true ∨ b.excluded = true then s.digMeet a b = s
    else if a.val = b.val then
      (s.digMeet a b).fld F.FEN_DIG_MATCH_count = min (s.fld F.FEN_DIG_MATCH_count + 1) (2 ^ 32 - 1)
    else (s.digMeet a b).fld F.FEN_DIG_MISMATCH_count = min (s.fld F.FEN_DIG_MISMATCH_count + 1) (2 ^ 32 - 1)
      ∧ (s.digMeet a b).fld F.FEN_EVT_dig_mismatch = 1 ∧ (s.digMeet a b).rd R.FEN_DIG_LAST_BAD = a.frame % 2 ^ 32 := by
  simp only [State.digMeet, Bool.or_eq_true]
  split_ifs
  · exact ⟨.refl s, rfl⟩
  · exact ⟨.of_eq rfl rfl rfl rfl, s.fld_bump_same _ 1 (by decide)⟩
  · refine ⟨.of_eq rfl rfl rfl rfl, ?_, State.fld_put_same _ _ 1 (by decide), ?_⟩
    · rw [State.fld_put_off _ _ _ _ (by decide), State.fld_wr_off _ _ (by decide)]
      exact s.fld_bump_same F.FEN_DIG_MISMATCH_count 1 (by decide)
    · rw [State.rd_put_ne _ _ _ (by decide), State.rd_wr_same]

/-- A digest that comes before the unit's own waits, where the unit keeps none yet and room is left. -/
theorem State.digPeer_waits {s : State} {d : WallDig} (hown : s.fen.digs.find? (fun x => x.frame = d.frame) = none) :
    ∃ l, s.digPeer d = { s with fen := { s.fen with peerDigs := l } }
      ∧ (s.fen.digs = [] → s.fen.peerDigs.length < 512 → l = s.fen.peerDigs ++ [d]) := by
  cases hlast : s.fen.digs.getLast? with
  | none =>
    refine ⟨(s.fen.peerDigs ++ [d]).drop ((s.fen.peerDigs ++ [d]).length - 512), by simp only [State.digPeer, hown, hlast, if_true], ?_⟩
    intro _ hroom
    rw [Nat.sub_eq_zero_of_le (by rw [List.length_append, List.length_singleton]; omega), List.drop_zero]
  | some x =>
    have hne : s.fen.digs ≠ [] := fun h => by simp [h] at hlast
    simp only [State.digPeer, hown, hlast]
    split
    · exact ⟨_, rfl, fun h => absurd h hne⟩
    · exact ⟨s.fen.peerDigs, rfl, fun h => absurd h hne⟩

theorem digest_answers {port at_ : Nat} {frame : List Byte} {p : FenRx} {s : State} (hp : port < 8) (hseen : s.fenSeen port frame = .packet p)
    (htype : p.ftype = 6) (hmine : p.wall = s.fld F.FEN_ADDR_wall_id ∧ p.pair = s.fld F.FEN_ADDR_pair ∧ p.unit ≠ s.fld F.FEN_ADDR_unit) :
    let peer : WallDig := ⟨p.frame, beAt p.bytes 16 8, beAt p.bytes 24 1 % 2 = 1⟩
    ∃ t, Answers (.digest port at_ frame) s t ∧ SameMemory s t ∧
      match s.fen.digs.find? (fun d => d.frame = p.frame) with
      | some d =>
        if d.excluded = true ∨ peer.excluded = true then RegsBut [] s t
        else if d.val = peer.val then t.fld F.FEN_DIG_MATCH_count = min (s.fld F.FEN_DIG_MATCH_count + 1) (2 ^ 32 - 1)
        else t.fld F.FEN_DIG_MISMATCH_count = min (s.fld F.FEN_DIG_MISMATCH_count + 1) (2 ^ 32 - 1)
          ∧ t.fld F.FEN_EVT_dig_mismatch = 1 ∧ t.rd R.FEN_DIG_LAST_BAD = d.frame % 2 ^ 32
      | none => RegsBut [] s t ∧ t.fen.digs = s.fen.digs
        ∧ (s.fen.digs = [] → s.fen.peerDigs.length < 512 → t.fen.peerDigs = s.fen.peerDigs ++ [peer]) := by
  intro peer
  obtain ⟨hvregs, hvmem, e, hvfen⟩ := s.heard_keeps at_ p
  have hfld : ∀ f : Fld, ((s.reach at_).hearEpoch p).fld f = s.fld f := State.fld_congr hvregs
  have hop : ((s.reach at_).hearEpoch p).digestOp p = ((s.reach at_).hearEpoch p).digPeer peer := by
    rw [State.digestOp, hfld, hfld, hfld, if_pos hmine]
  have hexec : exec (.digest port at_ frame) s = done (((s.reach at_).hearEpoch p).digPeer peer) :=
    (congrArg done (State.fenArrive_packet hp hseen htype at_ State.digestOp)).trans (congrArg done hop)
  generalize (s.reach at_).hearEpoch p = v at *
  have hdigs : v.fen.digs = s.fen.digs := by rw [hvfen]
  have hpeers : v.fen.peerDigs = s.fen.peerDigs := by rw [hvfen]
  have hquiet : RegsBut [] s v := (RegsBut.refl _ s).of_regs hvregs
  rw [← hdigs, ← hpeers]
  cases hfind : v.fen.digs.find? (fun d => d.frame = p.frame) with
  | none =>
    obtain ⟨l, hwaits, hl⟩ := State.digPeer_waits (d := peer) hfind
    rw [hwaits] at hexec
    refine ⟨_, answers_settle_of_exec_eq_done hexec, SameMemory.settle (hvmem.trans (.of_eq rfl rfl rfl rfl)),
      RegsBut.settle (hquiet.of_regs rfl), settle_fen_digs _, ?_⟩
    rw [settle_fen_peerDigs]
    exact hl
  | some d =>
    obtain ⟨hmem, hshown⟩ := v.digMeet_shows d peer
    have hmeet : v.digPeer peer = v.digMeet d peer := by simp only [State.digPeer, peer, hfind]
    rw [hmeet] at hexec
    refine ⟨_, answers_settle_of_exec_eq_done hexec, (hvmem.trans hmem).settle, ?_⟩
    simp only [hfld] at hshown
    dsimp only
    rw [settle_fld_fenmas _ (f := F.FEN_DIG_MATCH_count) (by decide) (by decide),
      settle_fld_fenmas _ (f := F.FEN_DIG_MISMATCH_count) (by decide) (by decide),
      settle_fld_fenmas _ (f := F.FEN_EVT_dig_mismatch) (by decide) (by decide), settle_rd_fenmas _ (by decide) (by decide)]
    by_cases hex : d.excluded = true ∨ peer.excluded = true
    · rw [if_pos hex] at hshown ⊢
      rw [hshown]
      exact hquiet.settle
    · rw [if_neg hex] at hshown ⊢
      exact hshown

/-! ## Invalid packets (R353) -/

theorem invalidPacket_answers {port at_ : Nat} {frame : List Byte} {s : State} (hp : port < 8) (hseen : s.fenSeen port frame = .invalid) :
    ∃ t, Answers (.invalidFenmasPacket port at_ frame) s t ∧ RegsBut [R.FEN_RX_BAD] s t ∧ SameMemory s t
      ∧ t.fld F.FEN_RX_BAD_count = min (s.fld F.FEN_RX_BAD_count + 1) (2 ^ 32 - 1) := by
  have hexec : exec (.invalidFenmasPacket port at_ frame) s = done ((s.reach at_).bump F.FEN_RX_BAD_count 1) := by
    show execInvalidFenmasPacket port at_ frame s = _
    simp only [execInvalidFenmasPacket, Nat.mod_eq_of_lt hp, State.fenSeen_reach, hseen]
  obtain ⟨a, b, hreach⟩ := s.reach_frame at_
  have hregs : (s.reach at_).regs = s.regs := by rw [hreach]
  have hmem : SameMemory s (s.reach at_) := by rw [hreach]; exact .of_eq rfl rfl rfl rfl
  generalize s.reach at_ = v at *
  refine ⟨_, answers_settle_of_exec_eq_done hexec, RegsBut.settle (((RegsBut.refl _ s).of_regs hregs).bump 1 (by decide)),
    SameMemory.settle (hmem.trans (.of_eq rfl rfl rfl rfl)), ?_⟩
  rw [settle_fld_fenmas _ (by decide) (by decide), ← State.fld_congr hregs]
  exact v.fld_bump_same F.FEN_RX_BAD_count 1 (by decide)

end Sys2Proof.Machine
end

section
/-! Received JOURNAL packets (R382, R383): what becomes of each entry follows from the receipt before it. -/
namespace Sys2Proof.Machine

/-! ## The receipt -/

/-- Two states with the same journal and the same receipt, in which the receive streams have the same types: they treat an entry
alike. -/
structure SameReceipt (s t : State) : Prop where
  jnl : t.jnl = s.jnl
  lastSeq : t.fen.lastSeq = s.fen.lastSeq
  types : ∀ r, t.fld (F.NET_RX_CFG_type r) = s.fld (F.NET_RX_CFG_type r)

/-- The configuration of stream r lies at a multiple of 64. -/
theorem State.rxType_wr (s : State) {off : Nat} (v : Nat) (h : off < 0xE2000 ∨ off % 64 ≠ 0) (r : Nat) :
    (s.wr off v).fld (F.NET_RX_CFG_type r) = s.fld (F.NET_RX_CFG_type r) :=
  s.fld_wr_off v (by simp only [F.NET_RX_CFG_type]; omega)

theorem SameReceipt.jnlSort {s t : State} (h : SameReceipt s t) (e : Entry) : t.jnlSort e = s.jnlSort e := by
  have htwins : t.videoTwin e = s.videoTwin e := funext fun f => by simp only [State.videoTwin, h.types]
  simp only [State.jnlSort, h.jnl, htwins]

/-- What entries of a JOURNAL packet leave alone. -/
structure Receives (s t : State) : Prop where
  memory : SameMemory s t
  waits : t.jnl.waits = s.jnl.waits
  source : t.fen.source = s.fen.source
  regs : RegsBut [R.RIG_JNL_CRC_BAD, R.RIG_JNL_STATUS, R.RIG_JNL_SRC_SEQ, R.FEN_JNL_DUP] s t
  types : ∀ r, t.fld (F.NET_RX_CFG_type r) = s.fld (F.NET_RX_CFG_type r)

theorem Receives.refl (s : State) : Receives s s := ⟨.refl s, rfl, rfl, .refl _ s, fun _ => rfl⟩

theorem Receives.trans {s t u : State} (h : Receives s t) (k : Receives t u) : Receives s u :=
  ⟨h.memory.trans k.memory, k.waits.trans h.waits, k.source.trans h.source, h.regs.trans k.regs, fun r => (k.types r).trans (h.types r)⟩

theorem Receives.wr {s t : State} (h : Receives s t) {off : Nat} (v : Nat)
    (ho : off ∈ [R.RIG_JNL_CRC_BAD, R.RIG_JNL_STATUS, R.RIG_JNL_SRC_SEQ, R.FEN_JNL_DUP]) : Receives s (t.wr off v) := by
  have hoff : off < 0xE2000 ∨ off % 64 ≠ 0 := by
    simp only [List.mem_cons, List.not_mem_nil, or_false] at ho
    rcases ho with rfl | rfl | rfl | rfl <;> decide
  exact ⟨h.memory.trans (.of_eq rfl rfl rfl rfl), h.waits, h.source, h.regs.wr v ho, fun r => (t.rxType_wr v hoff r).trans (h.types r)⟩

theorem Receives.put {s t : State} (h : Receives s t) {f : Fld} (v : Nat)
    (ho : f.off ∈ [R.RIG_JNL_CRC_BAD, R.RIG_JNL_STATUS, R.RIG_JNL_SRC_SEQ, R.FEN_JNL_DUP]) : Receives s (t.put f v) := h.wr _ ho

/-! ## One entry (R107) -/

theorem State.noteGap_receives (s : State) (q : Nat) :
    Receives s (s.noteGap q) ∧ (s.noteGap q).jnl = s.jnl := by
  unfold State.noteGap
  split
  · split
    · exact ⟨.refl s, rfl⟩
    · exact ⟨(Receives.refl s).put 1 (by decide), rfl⟩
  · exact ⟨.refl s, rfl⟩

/-- An entry to be held for which there is no room is left out, as a gap. -/
theorem State.jnlReceive_full {s : State} {b : List Byte} (h : leAt b 28 4 = crc32c (b.take 28))
    (hfull : s.jnlSort (Entry.ofBytes b) = .keep ∧ 4096 ≤ s.jnl.held.length) : (s.jnlReceive b).2 = s.put F.RIG_JNL_STATUS_gap 1 := by
  rw [State.jnlReceive, if_neg (not_not_intro h), if_pos hfull]

/-- Any other entry with a right check is accepted. -/
theorem State.jnlReceive_taken {s : State} {b : List Byte} (h : leAt b 28 4 = crc32c (b.take 28))
    (hroom : ¬ (s.jnlSort (Entry.ofBytes b) = .keep ∧ 4096 ≤ s.jnl.held.length)) :
    let e := Entry.ofBytes b
    let u := ((s.noteGap e.seq).takeEntry e (s.jnlSort e = .keep)).wr R.RIG_JNL_SRC_SEQ e.seq
    (s.jnlReceive b).2 = if s.jnlSort e = .conflict then u.put F.RIG_JNL_STATUS_conflict 1 else u := by
  simp only [State.takeEntry, decide_eq_true_eq]
  rw [State.jnlReceive, if_neg (not_not_intro h), if_neg hroom]
  rfl

theorem State.jnlReceive_receives (s : State) (b : List Byte) : Receives s (s.jnlReceive b).2 := by
  by_cases hcrc : leAt b 28 4 = crc32c (b.take 28)
  · by_cases hfull : s.jnlSort (Entry.ofBytes b) = .keep ∧ 4096 ≤ s.jnl.held.length
    · rw [State.jnlReceive_full hcrc hfull]
      exact (Receives.refl s).put 1 (by decide)
    · rw [State.jnlReceive_taken hcrc hfull]
      obtain ⟨hgap, -⟩ := s.noteGap_receives (Entry.ofBytes b).seq
      have htake : Receives s ((s.noteGap (Entry.ofBytes b).seq).takeEntry (Entry.ofBytes b) (s.jnlSort (Entry.ofBytes b) = .keep)) :=
        ⟨hgap.memory.trans (.of_eq rfl rfl rfl rfl), hgap.waits, hgap.source, hgap.regs.of_regs rfl, hgap.types⟩
      split
      · exact (htake.wr _ (by decide)).put 1 (by decide)
      · exact htake.wr _ (by decide)
  · rw [State.jnlReceive_bad hcrc]
    exact ((Receives.refl s).put _ (by decide)).put _ (by decide)

/-- What is held and which number was accepted last, after an entry. -/
theorem State.jnlReceive_shows (s : State) (b : List Byte) :
    let e := Entry.ofBytes b
    let t := (s.jnlReceive b).2
    if leAt b 28 4 ≠ crc32c (b.take 28) then t.jnl = s.jnl ∧ t.fen.lastSeq = s.fen.lastSeq ∧ t.fld F.RIG_JNL_STATUS_crc_bad = 1
    else if s.jnlSort e = .keep ∧ 4096 ≤ s.jnl.held.length then
      t.jnl = s.jnl ∧ t.fen.lastSeq = s.fen.lastSeq ∧ t.fld F.RIG_JNL_STATUS_gap = 1
    else t.jnl = (s.takeEntry e (s.jnlSort e = .keep)).jnl ∧ t.fen.lastSeq = some e.seq ∧ t.rd R.RIG_JNL_SRC_SEQ = e.seq := by
  dsimp only
  split_ifs with hcrc hfull
  · rw [State.jnlReceive_bad hcrc]
    exact ⟨rfl, rfl, State.fld_put_same _ _ 1 (by decide)⟩
  · rw [State.jnlReceive_full (not_not.mp hcrc) hfull]
    exact ⟨rfl, rfl, State.fld_put_same _ _ 1 (by decide)⟩
  · rw [State.jnlReceive_taken (not_not.mp hcrc) hfull]
    obtain ⟨-, hgap⟩ := s.noteGap_receives (Entry.ofBytes b).seq
    have hseq := Entry.ofBytes_seq_lt b
    generalize Entry.ofBytes b = e at hgap hseq ⊢
    have htake : ∀ k, ((s.noteGap e.seq).takeEntry e k).jnl = (s.takeEntry e k).jnl := fun k => by simp only [State.takeEntry, hgap]
    split
    · refine ⟨htake _, rfl, ?_⟩
      rw [State.rd_put_ne _ _ _ (by decide), State.rd_wr_same, Nat.mod_eq_of_lt hseq]
    · exact ⟨htake _, rfl, (State.rd_wr_same _ _ _).trans (Nat.mod_eq_of_lt hseq)⟩

/-! ## The entries of a packet (R383) -/

theorem State.journalEntry_receives (s : State) (b : List Byte) : Receives s (s.journalEntry b) := by
  unfold State.journalEntry
  split
  · split
    · exact s.jnlReceive_receives b
    · exact (Receives.refl s).put (f := F.FEN_JNL_DUP_count) _ (by decide)
  · exact s.jnlReceive_receives b

theorem SameReceipt.jnlReceive {s t : State} (h : SameReceipt s t) (b : List Byte) : SameReceipt (s.jnlReceive b).2 (t.jnlReceive b).2 := by
  have hs := s.jnlReceive_shows b
  have ht := t.jnlReceive_shows b
  have htypes : ∀ r, (t.jnlReceive b).2.fld (F.NET_RX_CFG_type r) = (s.jnlReceive b).2.fld (F.NET_RX_CFG_type r) := fun r =>
    ((t.jnlReceive_receives b).types r).trans ((h.types r).trans ((s.jnlReceive_receives b).types r).symm)
  dsimp only at hs ht
  rw [h.jnlSort, h.jnl] at ht
  split_ifs at hs ht
  · exact ⟨ht.1.trans hs.1.symm, ht.2.1.trans (h.lastSeq.trans hs.2.1.symm), htypes⟩
  · exact ⟨ht.1.trans hs.1.symm, ht.2.1.trans (h.lastSeq.trans hs.2.1.symm), htypes⟩
  · refine ⟨ht.1.trans (Eq.trans ?_ hs.1.symm), ht.2.1.trans hs.2.1.symm, htypes⟩
    simp only [State.takeEntry, h.jnl]

theorem SameReceipt.journalEntry {s t : State} (h : SameReceipt s t) (b : List Byte) : SameReceipt (s.journalEntry b) (t.journalEntry b) := by
  unfold State.journalEntry
  rw [h.lastSeq]
  split
  · split
    · exact h.jnlReceive b
    · have hdup : ∀ u : State, ∀ r, (u.bump F.FEN_JNL_DUP_count 1).fld (F.NET_RX_CFG_type r) = u.fld (F.NET_RX_CFG_type r) :=
        fun u r => u.rxType_wr _ (.inr (by decide)) r
      exact ⟨h.jnl, h.lastSeq, fun r => (hdup t r).trans ((h.types r).trans (hdup s r).symm)⟩
  · exact h.jnlReceive b

/-- The entries of a packet, in order. -/
def State.journalEntries (s : State) (p : FenRx) : State :=
  (List.range (beAt p.bytes 16 1)).foldl (fun (x : State) i => x.journalEntry (slice p.bytes (24 + 32 * i) 32)) s

theorem State.journalEntries_receives (s : State) (p : FenRx) : Receives s (s.journalEntries p) :=
  foldl_related (r := Receives) .refl .trans (fun x _ => x.journalEntry_receives _) _ s

theorem SameReceipt.journalEntries {s t : State} (h : SameReceipt s t) (p : FenRx) : SameReceipt (s.journalEntries p) (t.journalEntries p) := by
  unfold State.journalEntries
  generalize List.range (beAt p.bytes 16 1) = l
  induction l generalizing s t with
  | nil => exact h
  | cons i l ih => exact ih (h.journalEntry _)

theorem State.journalEntries_one {s : State} {p : FenRx} (h : beAt p.bytes 16 1 = 1) :
    s.journalEntries p = s.journalEntry (slice p.bytes 24 32) := by
  rw [State.journalEntries, h]
  rfl

/-- An entry later than the last accepted one is received. -/
theorem State.journalEntry_later {s : State} {b : List Byte} (h : ∀ q, s.fen.lastSeq = some q → laterThan 32 (Entry.ofBytes b).seq q = true) :
    s.journalEntry b = (s.jnlReceive b).2 := by
  unfold State.journalEntry
  split
  next q hq => exact if_pos (h q hq)
  next => rfl

/-! ## The command -/

/-- Looking at the source sees neither the time nor the running epoch. -/
theorem State.sourceCheck_heard (s : State) (t : Nat) (p : FenRx) :
    SameReceipt s.sourceCheck ((s.reach t).hearEpoch p).sourceCheck ∧ ((s.reach t).hearEpoch p).sourceCheck.fen.source = s.sourceCheck.fen.source
      ∧ ((s.reach t).hearEpoch p).sourceCheck.regs = s.regs ∧ SameMemory s ((s.reach t).hearEpoch p).sourceCheck := by
  obtain ⟨a, b, e, hv⟩ := s.heard_frame t p
  rw [hv]
  by_cases h : s.jnl.mode = 1 ∧ s.fen.source ≠ s.followSource
  · have hs : s.sourceCheck = ({ s with fen := { s.fen with source := s.followSource } } : State).newReceipt := if_pos h
    have hu : ({ s with anchorT := a, real := b, fen := { s.fen with epochE := e } } : State).sourceCheck
        = ({ s with anchorT := a, real := b, fen := { s.fen with epochE := e, source := s.followSource } } : State).newReceipt := if_pos h
    rw [hs, hu]
    exact ⟨⟨rfl, rfl, fun _ => rfl⟩, rfl, rfl, .of_eq rfl rfl rfl rfl⟩
  · have hs : s.sourceCheck = s := if_neg h
    have hu : ({ s with anchorT := a, real := b, fen := { s.fen with epochE := e } } : State).sourceCheck
        = ({ s with anchorT := a, real := b, fen := { s.fen with epochE := e } } : State) := if_neg h
    rw [hs, hu]
    exact ⟨⟨rfl, rfl, fun _ => rfl⟩, rfl, rfl, .of_eq rfl rfl rfl rfl⟩

theorem State.sourceCheck_source {s : State} (hmode : s.jnl.mode = 1) : s.sourceCheck.fen.source = s.followSource := by
  unfold State.sourceCheck
  split
  · rfl
  next h => exact not_not.mp fun hne => h ⟨hmode, hne⟩

theorem State.sourceCheck_waits (s : State) : s.sourceCheck.jnl.waits = s.jnl.waits ∧ s.sourceCheck.jnl.mode = s.jnl.mode := by
  obtain ⟨x, q, w, l, h, hcheck⟩ := s.sourceCheck_frame
  rw [hcheck]
  exact ⟨rfl, rfl⟩

theorem settle_jnlSeqs (s : State) : (settle s).jnl.seqs = s.jnl.seqs := congrArg (fun u => u.jnl.seqs) (settles_settle s).quiet

/-- A packet of the source that the unit follows: it is counted, and its entries are received. -/
theorem State.journalOp_follows {v s : State} {p : FenRx} (hsame : SameReceipt s.sourceCheck v.sourceCheck)
    (hsource : v.sourceCheck.fen.source = some (p.pair, p.unit)) (hregs : v.sourceCheck.regs = s.regs) (hmode : s.jnl.mode = 1)
    (hepoch : s.fld F.FEN_FOLLOW_src_pair = s.fld F.FEN_ADDR_pair → laterThan 32 s.fenEpoch p.epoch = false) (hwaits : s.jnl.waits = []) :
    v.journalOp p = (v.sourceCheck.bump F.FEN_JNL_RX_count 1).journalEntries p := by
  have hmode' : v.sourceCheck.jnl.mode = 1 := by rw [hsame.jnl, s.sourceCheck_waits.2, hmode]
  have hwaits' : v.sourceCheck.jnl.waits = [] := by rw [hsame.jnl, s.sourceCheck_waits.1, hwaits]
  have hlate : ¬ (v.sourceCheck.fld F.FEN_FOLLOW_src_pair = v.sourceCheck.fld F.FEN_ADDR_pair ∧ laterThan 32 v.sourceCheck.fenEpoch p.epoch = true) := by
    rw [State.fld_congr hregs, State.fld_congr hregs, State.fenEpoch, State.rd_congr hregs]
    rintro ⟨hpair, hlater⟩
    exact Bool.false_ne_true ((hepoch hpair).symm.trans hlater)
  have hdone : ((v.sourceCheck.bump F.FEN_JNL_RX_count 1).journalEntries p).jnl.waits = [] :=
    ((State.journalEntries_receives _ p).waits).trans hwaits'
  rw [State.journalOp]
  dsimp only
  rw [if_neg (not_or.mpr ⟨not_not_intro hmode', not_or.mpr ⟨not_not_intro hsource, hlate⟩⟩)]
  exact State.resumeAll_of_no_waits hdone

theorem journal_answers {port at_ : Nat} {frame : List Byte} {p : FenRx} {s : State} (hp : port < 8) (hseen : s.fenSeen port frame = .packet p)
    (htype : p.ftype = 7) (hmode : s.jnl.mode = 1) (hfollow : s.followSource = some (p.pair, p.unit))
    (hepoch : s.fld F.FEN_FOLLOW_src_pair = s.fld F.FEN_ADDR_pair → laterThan 32 s.fenEpoch p.epoch = false) (hwaits : s.jnl.waits = []) :
    let s1 := s.sourceCheck
    let r := s1.journalEntries p
    let b := slice p.bytes 24 32
    let e := Entry.ofBytes b
    ∃ t, Answers (.journal port at_ frame) s t ∧ SameMemory s t
      ∧ t.fld F.FEN_JNL_RX_count = min (s.fld F.FEN_JNL_RX_count + 1) (2 ^ 32 - 1)
      ∧ t.jnl.held = r.jnl.held ∧ t.fen.lastSeq = r.fen.lastSeq ∧ t.jnl.seqs = r.jnl.seqs ∧ t.fen.source = some (p.pair, p.unit)
      ∧ (beAt p.bytes 16 1 = 1 → (∀ q, s1.fen.lastSeq = some q → laterThan 32 e.seq q = true) →
        if leAt b 28 4 ≠ crc32c (b.take 28) then
          t.jnl.held = s1.jnl.held ∧ t.fen.lastSeq = s1.fen.lastSeq ∧ t.fld F.RIG_JNL_STATUS_crc_bad = 1
        else if s1.jnlSort e = .keep ∧ 4096 ≤ s1.jnl.held.length then
          t.jnl.held = s1.jnl.held ∧ t.fen.lastSeq = s1.fen.lastSeq ∧ t.fld F.RIG_JNL_STATUS_gap = 1
        else t.fen.lastSeq = some e.seq ∧ t.rd R.RIG_JNL_SRC_SEQ = e.seq
          ∧ t.jnl.held = (if s1.jnlSort e = .keep then s1.jnl.held ++ [e] else s1.jnl.held)) := by
  intro s1 r b e
  obtain ⟨hsame, hsource, hregs, hmem⟩ := s.sourceCheck_heard at_ p
  have hsource := hsource.trans ((State.sourceCheck_source hmode).trans hfollow)
  have hexec : exec (.journal port at_ frame) s
      = done ((((s.reach at_).hearEpoch p).sourceCheck.bump F.FEN_JNL_RX_count 1).journalEntries p) :=
    (congrArg done (State.fenArrive_packet hp hseen htype at_ State.journalOp)).trans
      (congrArg done (State.journalOp_follows hsame hsource hregs hmode hepoch hwaits))
  generalize ((s.reach at_).hearEpoch p).sourceCheck = v at *
  have hcount : (v.bump F.FEN_JNL_RX_count 1).fld F.FEN_JNL_RX_count = min (s.fld F.FEN_JNL_RX_count + 1) (2 ^ 32 - 1) := by
    rw [← State.fld_congr hregs]
    exact v.fld_bump_same F.FEN_JNL_RX_count 1 (by decide)
  have hbump : SameReceipt s1 (v.bump F.FEN_JNL_RX_count 1) :=
    ⟨hsame.jnl, hsame.lastSeq, fun q => (v.rxType_wr _ (.inr (by decide)) q).trans (hsame.types q)⟩
  have hmem' : SameMemory s (v.bump F.FEN_JNL_RX_count 1) := hmem.trans (.of_eq rfl rfl rfl rfl)
  have hsource' : (v.bump F.FEN_JNL_RX_count 1).fen.source = some (p.pair, p.unit) := hsource
  generalize v.bump F.FEN_JNL_RX_count 1 = w at *
  have hr : SameReceipt r (w.journalEntries p) := hbump.journalEntries p
  have hwork := w.journalEntries_receives p
  refine ⟨_, answers_settle_of_exec_eq_done hexec, (hmem'.trans hwork.memory).settle, ?_, ?_, ?_, ?_, ?_, fun hone hlater => ?_⟩
  · rw [settle_fld_fenmas _ (by decide) (by decide), hwork.regs.fld_fenmas (by decide) (by decide) (by decide), hcount]
  · rw [settle_jnlHeld, hr.jnl]
  · rw [settle_fenLastSeq, hr.lastSeq]
  · rw [settle_jnlSeqs, hr.jnl]
  · rw [settle_fen_source, hwork.source, hsource']
  · have hentry : w.journalEntries p = (w.jnlReceive b).2 := by
      rw [State.journalEntries_one hone]
      exact State.journalEntry_later (by rw [hbump.lastSeq]; exact hlater)
    have hshown := w.jnlReceive_shows b
    rw [hentry, settle_jnlHeld, settle_fenLastSeq, settle_fld_rigging _ F.RIG_JNL_STATUS_crc_bad (by decide),
      settle_fld_rigging _ F.RIG_JNL_STATUS_gap (by decide), settle_rd_fenmas _ (by decide) (by decide), ← hbump.jnlSort, ← hbump.jnl, ← hbump.lastSeq]
    dsimp only at hshown
    split_ifs at hshown ⊢ with hcrc hfull hkeep
    · exact ⟨congrArg Jnl.held hshown.1, hshown.2⟩
    · exact ⟨congrArg Jnl.held hshown.1, hshown.2⟩
    · exact ⟨hshown.2.1, hshown.2.2, (congrArg Jnl.held hshown.1).trans (if_pos (decide_eq_true hkeep))⟩
    · exact ⟨hshown.2.1, hshown.2.2, (congrArg Jnl.held hshown.1).trans (if_neg (by simpa using hkeep))⟩

end Sys2Proof.Machine
end

section
/-! Sent JOURNAL packets (R381, R382), and what Fenmas does at a command. -/
namespace Sys2Proof.Machine

/-! ## The entries that wait -/

theorem State.fenLeave_jnl (s : State) (k : FenPkt) : (s.fenLeave k).jnl = s.jnl := by
  unfold State.fenLeave
  dsimp only
  split
  · split
    · rfl
    · rfl
  · rfl

theorem State.fenSend_jnl (s : State) (frame port ftype : Nat) (body : List Byte) : (s.fenSend frame port ftype body).jnl = s.jnl := by
  unfold State.fenSend
  dsimp only
  split
  · split
    · rfl
    · exact s.fenLeave_jnl _
  · rfl

/-- One JOURNAL packet on one port: it is counted where it leaves (R382). -/
def State.jnlSendOn (body : List Byte) (s : State) (p : Nat) : State :=
  let s := if s.fenOn && s.portUp p then s.bump F.FEN_JNL_TX_count 1 else s
  s.fenSend (s.rd R.ANCHOR_FC_FRAME) p 7 body

/-- The entries that a packet carries anew leave the queue, and are those that the next one repeats. -/
def State.jnlTaken (s : State) : State :=
  { s with jnl := { s.jnl with forwardQ := s.jnl.forwardQ.drop s.jnlNew.length, recent := s.jnlNew } }

/-- A packet with entries goes out on every port of `jnl_ports`. -/
theorem State.jnlPacket_eq (s : State) : (s.jnl.recent ++ s.jnlNew = [] ∧ s.jnlPacket = s.jnlTaken)
    ∨ ∃ body, s.jnlPacket = (portsOf (s.fld F.FEN_PORTS_jnl_ports)).foldl (State.jnlSendOn body) s.jnlTaken := by
  unfold State.jnlPacket
  dsimp only
  split
  · exact .inr ⟨_, rfl⟩
  next h => exact .inl ⟨List.head?_eq_none_iff.mp h, rfl⟩

theorem State.jnlSendOn_jnl (body : List Byte) (s : State) (p : Nat) : (s.jnlSendOn body p).jnl = s.jnl := by
  unfold State.jnlSendOn
  dsimp only
  rw [State.fenSend_jnl]
  split <;> rfl

theorem State.jnlPacket_jnl (s : State) : s.jnlPacket.jnl = s.jnlTaken.jnl := by
  rcases s.jnlPacket_eq with ⟨-, h⟩ | ⟨body, h⟩
  · rw [h]
  · rw [h]
    exact foldl_keeps State.jnl (State.jnlSendOn_jnl body) _ _

theorem entryRun_ne_nil (n : Nat) {l : List Entry} (h : l ≠ []) : entryRun (n + 1) l ≠ [] := by
  match l with
  | [] => exact absurd rfl h
  | [e] => simp [entryRun]
  | e :: f :: r =>
    rw [entryRun]
    split <;> simp

/-- Where entries wait and the packet carries none anew, it repeats those of the packet before (R382). -/
theorem State.recent_of_jnlNew_nil {s : State} (hq : s.jnl.forwardQ ≠ []) (hnew : s.jnlNew = []) : s.jnl.recent ≠ [] := by
  intro hrecent
  have hrun : s.jnlNew = entryRun 16 s.jnl.forwardQ := by rw [State.jnlNew, hrecent]; rfl
  exact entryRun_ne_nil 15 hq (hrun.symm.trans hnew)

/-- A bound on the packets that the waiting entries take: two for each, one that only repeats and one that carries it. -/
def State.jnlOwed (s : State) : Nat := 2 * s.jnl.forwardQ.length + if s.jnl.recent = [] then 0 else 1

theorem State.jnlOwed_le (s : State) : s.jnlOwed ≤ 2 * s.jnl.forwardQ.length + 1 := by
  unfold State.jnlOwed
  split <;> omega

theorem State.jnlPacket_owes {s : State} (hq : s.jnl.forwardQ ≠ []) : s.jnlPacket.jnlOwed < s.jnlOwed := by
  have hjnl := s.jnlPacket_jnl
  have hqueue : s.jnlPacket.jnl.forwardQ.length = s.jnl.forwardQ.length - s.jnlNew.length := by
    rw [hjnl]
    exact List.length_drop
  have hrecent : s.jnlPacket.jnl.recent = s.jnlNew := by rw [hjnl]; rfl
  have hpos := List.length_pos_iff.mpr hq
  rw [State.jnlOwed, State.jnlOwed, hqueue, hrecent]
  by_cases hnew : s.jnlNew = []
  · rw [if_pos hnew, if_neg (State.recent_of_jnlNew_nil hq hnew)]
    omega
  · have := List.length_pos_iff.mpr hnew
    split_ifs <;> omega

/-- Packets go out until fewer than 16 entries wait. -/
theorem State.jnlPump_lt (n : Nat) (s : State) (h : s.jnlOwed < n + 32) : (State.jnlPump n s).jnl.forwardQ.length < 16 := by
  induction n generalizing s with
  | zero =>
    have : 2 * s.jnl.forwardQ.length ≤ s.jnlOwed := Nat.le_add_right _ _
    show s.jnl.forwardQ.length < 16
    omega
  | succ n ih =>
    unfold State.jnlPump
    split
    next hmany =>
      have hq : s.jnl.forwardQ ≠ [] := fun hnil => by simp [hnil] at hmany
      exact ih _ (by have := State.jnlPacket_owes hq; omega)
    next hfew => exact Nat.lt_of_not_le hfew

theorem State.jnlPump_of_few {s : State} (h : s.jnl.forwardQ.length < 16) (n : Nat) : State.jnlPump n s = s := by
  cases n with
  | zero => rfl
  | succ n => exact if_neg (Nat.not_le.mpr h)

theorem State.retireStrands_jnl (s : State) : s.retireStrands.jnl = s.jnl := by
  unfold State.retireStrands
  split <;> rfl

theorem State.deliverFn_jnl (s : State) (fn : Nat) : (s.deliverFn fn).jnl = s.jnl :=
  (foldl_keeps (f := State.emit) State.jnl (fun _ _ => rfl) _ _).trans rfl

theorem State.deliverMgt_jnl (s : State) : s.deliverMgt.jnl = s.jnl :=
  (foldl_keeps (f := State.emit) State.jnl (fun _ _ => rfl) _ _).trans rfl

/-- Of the closing step only the packets that go out by their count move the journal. -/
theorem settle_jnl_pumped (s : State) : (settle s).jnl = (State.jnlPump (2 * s.jnl.forwardQ.length) s.retireStrands).jnl := by
  rw [settle, State.deliverMgt_jnl, State.deliverFn_jnl, State.deliverFn_jnl]

/-- Never 16 entries wait after a command. -/
theorem settle_forwardQ_lt (s : State) : (settle s).jnl.forwardQ.length < 16 := by
  rw [settle_jnl_pumped]
  refine State.jnlPump_lt _ _ ?_
  have := s.retireStrands.jnlOwed_le
  rw [s.retireStrands_jnl] at this
  omega

theorem forwardQ_lt_of_answers {i : Instr} {s t : State} (h : Answers i s t) : t.jnl.forwardQ.length < 16 := by
  obtain ⟨u, hu⟩ := exec_eq_done i s
  obtain rfl : settle u = t := Host.Outcome.next.inj (hu.symm.trans h)
  exact settle_forwardQ_lt u

/-- Where fewer wait, the closing step leaves the journal alone. -/
theorem settle_jnl_of_few {s : State} (h : s.jnl.forwardQ.length < 16) : (settle s).jnl = s.jnl := by
  rw [settle_jnl_pumped, State.jnlPump_of_few (by rwa [s.retireStrands_jnl]), s.retireStrands_jnl]

/-! ## The packet of the send timer -/

theorem Settles.fenOn {s t : State} (h : Settles s t) : t.fenOn = s.fenOn := by
  have hisl : t.isl = s.isl := (congrArg State.isl h.quiet :)
  have hsys : t.sys = s.sys := (congrArg State.sys h.quiet :)
  have hcfg : t.fld F.FEN_CFG_enable = s.fld F.FEN_CFG_enable := h.rd.fld_fenmas (by decide) (by decide) (by decide)
  simp only [State.fenOn, State.bit, hcfg, State.runs, State.island, hisl, hsys]

theorem Settles.portUp {s t : State} (h : Settles s t) {p : Nat} (hp : p < 8) : t.portUp p = s.portUp p :=
  State.portUp_congr fun f hf => h.rd.fld List.not_mem_nil (by rw [hf, R.NET_PHY_CFG]; omega)

theorem Settles.mem_out {s t : State} (h : Settles s t) {o : Output} (ho : o ∈ s.out) : o ∈ t.out := by
  obtain ⟨l, hl⟩ := h.out
  rw [hl]
  exact List.mem_append_right _ ho

theorem Settles.jnlSendOn (body : List Byte) (s : State) {p : Nat} (hp : p < 8) : Settles s (s.jnlSendOn body p) := by
  unfold State.jnlSendOn
  refine Settles.trans ?_ (.fenSend _ _ _ _ _ hp (by decide))
  split
  · exact .bump _ F.FEN_JNL_TX_count 1 (.inl rfl)
  · exact .refl _

/-- On a port that is up the packet leaves. -/
theorem State.jnlSendOn_sends (body : List Byte) {s : State} {p : Nat} (hp : p < 8) (hon : s.fenOn = true) (hup : s.portUp p = true) :
    ∃ bytes, .ethernet p bytes ∈ (s.jnlSendOn body p).out := by
  have hbump : Settles s (s.bump F.FEN_JNL_TX_count 1) := .bump _ _ 1 (.inl rfl)
  have hon' := hbump.fenOn.trans hon
  have hup' := (hbump.portUp hp).trans hup
  rw [State.jnlSendOn, hon, hup, Bool.and_self, if_pos rfl]
  generalize s.bump F.FEN_JNL_TX_count 1 = u at hon' hup'
  rw [State.fenSend, if_pos hon']
  dsimp only
  rw [if_neg (fun h => absurd h.1 (by decide)), State.fenLeave, if_pos hup']
  exact ⟨_, List.mem_cons_self ..⟩

theorem jnlSendOn_all (body : List Byte) (l : List Nat) (s : State) (hl : ∀ p ∈ l, p < 8) (hon : s.fenOn = true) {p : Nat} (hp : p ∈ l)
    (hup : s.portUp p = true) : ∃ bytes, .ethernet p bytes ∈ (l.foldl (State.jnlSendOn body) s).out := by
  induction l generalizing s with
  | nil => cases hp
  | cons q l ih =>
    have hstep : Settles s (s.jnlSendOn body q) := .jnlSendOn body s (hl q (.head _))
    rcases List.mem_cons.mp hp with rfl | hp'
    · obtain ⟨bytes, hsent⟩ := State.jnlSendOn_sends body (hl p (.head _)) hon hup
      exact ⟨bytes, (Settles.foldl_mem _ l (fun u r hr => .jnlSendOn body u (hl r (.tail _ hr))) _).mem_out hsent⟩
    · exact ih _ (fun r hr => hl r (.tail _ hr)) (hstep.fenOn.trans hon) hp' ((hstep.portUp (hl p hp)).trans hup)

theorem journalSendTimer_answers {s : State} (hfew : s.jnl.forwardQ.length < 16) :
    ∃ t, Answers .journalSendTimer s t ∧ t.jnl.forwardQ = s.jnl.forwardQ.drop s.jnlNew.length ∧ t.jnl.recent = s.jnlNew
      ∧ RegsBut [] s t ∧ SameMemory s t
      ∧ (s.jnl.recent ++ s.jnlNew ≠ [] → s.fenOn = true → ∀ p ∈ portsOf (s.fld F.FEN_PORTS_jnl_ports), s.portUp p = true →
          ∃ bytes, .ethernet p bytes ∈ t.out) := by
  have hframe : Settles s (settle s.jnlPacket) := (Settles.jnlPacket s).trans (settles_settle _)
  have hjnl : (settle s.jnlPacket).jnl = s.jnlTaken.jnl := by
    refine (settle_jnl_of_few ?_).trans s.jnlPacket_jnl
    rw [s.jnlPacket_jnl]
    show (s.jnl.forwardQ.drop s.jnlNew.length).length < 16
    rw [List.length_drop]
    omega
  refine ⟨settle s.jnlPacket, rfl, congrArg Jnl.forwardQ hjnl, congrArg Jnl.recent hjnl, hframe.rd, hframe.quiet.sameMemory,
    fun hsome hon p hp hup => ?_⟩
  rcases s.jnlPacket_eq with ⟨hnone, -⟩ | ⟨body, hpacket⟩
  · exact absurd hnone hsome
  · obtain ⟨bytes, hsent⟩ := jnlSendOn_all body _ s.jnlTaken (portsOf_lt _) hon hp hup
    exact ⟨bytes, mem_settle_out _ _ (hpacket ▸ hsent)⟩

/-- Settles O51, clause by clause. -/
theorem fenmasCommands : Obligations.FenmasCommands := by
  unfold Obligations.FenmasCommands
  refine ⟨fun m v s ha hon => fenmasEnable_on ha hon, fun m v s ha hoff => fenmasEnable_off ha hoff, fun port up s hp => linkChange_answers up s hp,
    fun m s ha => ⟨forceLead_answers ha, forceSecond_answers ha⟩, fun m v s ha hgo => calSubmit_answers ha hgo, ?_,
    fun port at_ frame s hp hseen => invalidPacket_answers hp hseen, fun i s t h => forwardQ_lt_of_answers h,
    fun s hfew => journalSendTimer_answers hfew⟩
  intro port at_ frame p s hp hseen
  exact ⟨beacon_answers hp hseen, digest_answers hp hseen, journal_answers hp hseen⟩

end Sys2Proof.Machine
end

section
/-! NET streams enabled and disabled (R395, R402, R404). -/
namespace Sys2Proof.Machine

/-! ## Frames and plain writes -/

/-- A frame that also lets a part of the state change meets the closing step, where the step keeps that part. -/
theorem OnlyRegsAnd.settle {l : List Nat} {f : State → State → State} {s t : State} (hf : f (settle t) s = f t s)
    (h : OnlyRegsAnd l f s t) : OnlyRegsAnd l f s (settle t) :=
  ⟨h.1.settle, by rw [hf]; exact h.2.settle⟩

theorem settle_rd_rigging (s : State) {o : Nat} (h : o < 0xE8000) : (settle s).rd o = s.rd o := settle_rd s o (not_sendCounter (.inl h))

/-- No register of the NET streams is an interrupt source (R508). -/
theorem eventRegs_not_net {off : Nat} (h1 : 0xE0000 ≤ off) (h2 : off < 0xE8000) :
    eventRegs.find? (fun e => e.2.1 == off || e.2.2 == off) = none := by
  have hout : ∀ e ∈ eventRegs, (e.2.1 < 0xE0000 ∨ 0xE8000 ≤ e.2.1) ∧ (e.2.2 < 0xE0000 ∨ 0xE8000 ≤ e.2.2) := by decide
  refine List.find?_eq_none.mpr fun e he => ?_
  obtain ⟨hevt, hmask⟩ := hout e he
  simp only [Bool.or_eq_true, beq_iff_eq]
  omega

theorem regReset_rxCfg {r : Nat} (hr : r < 64) : regReset (R.NET_RX_CFG r) < 2 ^ 32 := by
  have hall : ∀ r, r < 64 → regReset (R.NET_RX_CFG r) < 2 ^ 32 := by decide +kernel
  exact hall r hr

theorem regRow_txCfg {k : Nat} (hk : k < 80) :
    regRow (R.NET_TX_CFG k) = some ⟨"NET_TX_CFG", 0xe4000, 0x40, 80, 0x4, 1, 0xffff3fb9, 0, 0, 0, 0x3000, false⟩ := by
  have hall : ∀ k, k < 80 → regRow (R.NET_TX_CFG k)
      = some ⟨"NET_TX_CFG", 0xe4000, 0x40, 80, 0x4, 1, 0xffff3fb9, 0, 0, 0, 0x3000, false⟩ := by decide +kernel
  exact hall k hk

/-- A write of a send stream's configuration stores the written `enable`. -/
theorem State.regWrite_txCfg (s : State) {k : Nat} (v : Nat) (hk : k < 80) :
    ∃ x, s.regWrite (R.NET_TX_CFG k) v = s.wr (R.NET_TX_CFG k) x ∧ bitsOf x 0 0 = v % 2 := by
  refine ⟨_, s.regWrite_eq_wr v (regRow_txCfg hk) (eventRegs_not_net ?_ ?_) ?_, ?_⟩
  · simp only [R.NET_TX_CFG]; omega
  · simp only [R.NET_TX_CFG]; omega
  · simp only [R.NET_TX_CFG]; omega
  · exact (bitsOf_writeValue _ _ (by decide) rfl (by decide)).trans rfl

/-! ## Receive streams (R395) -/

@[simp] theorem State.rx_setRx_same (s : State) (r : Nat) (x : NetRx) : (s.setRx r x).rx r = x := mapGet_mapSet_same ..

/-- What a receive stream's enable may move: its two registers and what it holds open. -/
def RxFrame (r : Nat) (s t : State) : Prop :=
  OnlyRegsAnd [R.NET_RX_CFG r, R.NET_RX_STATUS r] (fun t s => { s with media := t.media }) s t

theorem RxFrame.refl (r : Nat) (s : State) : RxFrame r s s := ⟨.refl _ s, rfl⟩

theorem RxFrame.wr {r : Nat} {s t : State} (h : RxFrame r s t) (v : Nat) : RxFrame r s (t.wr (R.NET_RX_CFG r) v) :=
  ⟨h.1.wr v (.head _), h.2.trans rfl⟩

theorem RxFrame.put {r : Nat} {s t : State} (h : RxFrame r s t) {f : Fld} (v : Nat) (hf : f.off = R.NET_RX_STATUS r) : RxFrame r s (t.put f v) :=
  ⟨h.1.put v (by rw [hf]; exact .tail _ (.head _)), h.2.trans rfl⟩

theorem RxFrame.setRx {r : Nat} {s t : State} (h : RxFrame r s t) (x : NetRx) : RxFrame r s (t.setRx r x) := by
  obtain ⟨hregs, hquiet⟩ := h
  exact ⟨hregs.of_regs rfl, congrArg (fun u : State => u.setRx r x) hquiet⟩

/-- A stream that is off: it starts where its settings permit. -/
theorem State.rxCfgWrite_off {s : State} {r v : Nat} (hoff : s.rd (R.NET_RX_CFG r) % 2 = 0) :
    let w := v &&& 0xFFFF3FFF
    let u := s.wr (R.NET_RX_CFG r) (w / 2 * 2)
    s.rxCfgWrite r v = if w % 2 = 1 then
        (if u.rxOk r then ((u.wr (R.NET_RX_CFG r) w).put (F.NET_RX_STATUS_active r) 1).setRx r NetRx.clear else u.rxBad r)
      else u := by
  simp only [State.rxCfgWrite, hoff, Nat.zero_ne_one, if_false]

/-- A stream that is on: it stops unless its group holds it. -/
theorem State.rxCfgWrite_on {s : State} {r v : Nat} (hon : s.rd (R.NET_RX_CFG r) % 2 = 1) :
    let w := v &&& 0xFFFF3FFF
    let u := if w / 2 ≠ s.rd (R.NET_RX_CFG r) / 2 then s.rxBad r else s
    s.rxCfgWrite r v = if w % 2 = 1 then u
      else if u.fld (F.NET_RX_CFG_type r) = 3 && u.bit (F.NET_RX_CFG_member r) && u.grpHeld (u.fld (F.NET_RX_MEDIA_group r)) then u.rxBad r
      else ((u.wr (R.NET_RX_CFG r) (s.rd (R.NET_RX_CFG r) - 1)).put (F.NET_RX_STATUS_active r) 0).setRx r NetRx.clear := by
  simp only [State.rxCfgWrite, hon, if_true]

/-- A stream that is off, after a write of its configuration. -/
theorem State.rxCfgWrite_off_shows {s : State} {r : Nat} (v : Nat) (hoff : s.rd (R.NET_RX_CFG r) % 2 = 0) :
    let w := v &&& 0xFFFF3FFF
    let t := s.rxCfgWrite r v
    RxFrame r s t ∧
      if w % 2 = 1 ∧ (s.wr (R.NET_RX_CFG r) (w / 2 * 2)).rxOk r = true then
        t.rd (R.NET_RX_CFG r) = w ∧ t.fld (F.NET_RX_STATUS_active r) = 1 ∧ t.rx r = NetRx.clear
      else t.rd (R.NET_RX_CFG r) = w / 2 * 2 ∧ t.media = s.media ∧ (w % 2 = 1 → t.fld (F.NET_RX_STATUS_bad_cfg r) = 1) := by
  dsimp only
  rw [State.rxCfgWrite_off hoff]
  have hw : v &&& 0xFFFF3FFF < 2 ^ 32 := Nat.lt_of_le_of_lt Nat.and_le_right (by decide)
  have hstatus : R.NET_RX_CFG r ≠ R.NET_RX_STATUS r := by simp only [R.NET_RX_CFG, R.NET_RX_STATUS]; omega
  generalize v &&& 0xFFFF3FFF = w at hw ⊢
  have hu : RxFrame r s (s.wr (R.NET_RX_CFG r) (w / 2 * 2)) := (RxFrame.refl r s).wr _
  have hrd : (s.wr (R.NET_RX_CFG r) (w / 2 * 2)).rd (R.NET_RX_CFG r) = w / 2 * 2 :=
    (State.rd_wr_same _ _ _).trans (Nat.mod_eq_of_lt (by omega))
  have hmedia : (s.wr (R.NET_RX_CFG r) (w / 2 * 2)).media = s.media := rfl
  generalize s.wr (R.NET_RX_CFG r) (w / 2 * 2) = u at hu hrd hmedia ⊢
  by_cases hodd : w % 2 = 1
  · by_cases hok : u.rxOk r = true
    · rw [if_pos hodd, if_pos hok, if_pos ⟨hodd, hok⟩]
      refine ⟨((hu.wr w).put 1 rfl).setRx _, ?_, ?_, State.rx_setRx_same _ _ _⟩
      · exact (State.rd_put_ne _ (F.NET_RX_STATUS_active r) 1 hstatus).trans ((State.rd_wr_same _ _ _).trans (Nat.mod_eq_of_lt hw))
      · exact State.fld_put_same _ (F.NET_RX_STATUS_active r) 1 (show (0 : Nat) < 32 by decide)
    · rw [if_pos hodd, if_neg hok, if_neg fun h => hok h.2]
      exact ⟨hu.put 1 rfl, (State.rd_put_ne _ (F.NET_RX_STATUS_bad_cfg r) 1 hstatus).trans hrd, hmedia,
        fun _ => u.fld_put_same (F.NET_RX_STATUS_bad_cfg r) 1 (show (1 : Nat) < 32 by decide)⟩
  · rw [if_neg hodd, if_neg fun h => hodd h.1]
    exact ⟨hu, hrd, hmedia, fun h => absurd h hodd⟩

/-- A stream that is on, after a write of its configuration. -/
theorem State.rxCfgWrite_on_shows {s : State} {r : Nat} (v : Nat) (hr : r < 64) (hon : s.rd (R.NET_RX_CFG r) % 2 = 1) :
    let old := s.rd (R.NET_RX_CFG r)
    let w := v &&& 0xFFFF3FFF
    let t := s.rxCfgWrite r v
    RxFrame r s t ∧
      if w % 2 = 1 ∨ (s.fld (F.NET_RX_CFG_type r) = 3 ∧ s.bit (F.NET_RX_CFG_member r) = true
          ∧ s.grpHeld (s.fld (F.NET_RX_MEDIA_group r)) = true) then
        t.rd (R.NET_RX_CFG r) = old ∧ t.media = s.media ∧ (w ≠ old → t.fld (F.NET_RX_STATUS_bad_cfg r) = 1)
      else t.rd (R.NET_RX_CFG r) = old - 1 ∧ t.fld (F.NET_RX_STATUS_active r) = 0 ∧ t.rx r = NetRx.clear := by
  dsimp only
  rw [State.rxCfgWrite_on hon]
  have hold : s.rd (R.NET_RX_CFG r) < 2 ^ 32 := s.rd_lt (regReset_rxCfg hr)
  have hstatus : R.NET_RX_CFG r ≠ R.NET_RX_STATUS r := by simp only [R.NET_RX_CFG, R.NET_RX_STATUS]; omega
  generalize v &&& 0xFFFF3FFF = w
  have hbad : ∀ u : State, (u.rxBad r).fld (F.NET_RX_STATUS_bad_cfg r) = 1 := fun u =>
    u.fld_put_same (F.NET_RX_STATUS_bad_cfg r) 1 (show (1 : Nat) < 32 by decide)
  have hkeep : ∀ (u : State) (f : Fld), f.off ≠ R.NET_RX_STATUS r → (u.rxBad r).fld f = u.fld f := fun u f hf => u.fld_put_off _ f 1 hf
  have hmark : ∃ u, (if w / 2 ≠ s.rd (R.NET_RX_CFG r) / 2 then s.rxBad r else s) = u ∧ RxFrame r s u ∧ u.media = s.media
      ∧ u.rd (R.NET_RX_CFG r) = s.rd (R.NET_RX_CFG r) ∧ (∀ f : Fld, f.off ≠ R.NET_RX_STATUS r → u.fld f = s.fld f)
      ∧ (w / 2 ≠ s.rd (R.NET_RX_CFG r) / 2 → u.fld (F.NET_RX_STATUS_bad_cfg r) = 1) := by
    split
    · exact ⟨_, rfl, (RxFrame.refl r s).put 1 rfl, rfl, s.rd_put_ne _ 1 hstatus, hkeep s, fun _ => hbad s⟩
    next h => exact ⟨_, rfl, .refl r s, rfl, rfl, fun _ _ => rfl, fun hne => absurd hne h⟩
  obtain ⟨u, hu, hframe, hmedia, hrd, hfld, hdiffers⟩ := hmark
  have hheld : u.grpHeld (u.fld (F.NET_RX_MEDIA_group r)) = s.grpHeld (s.fld (F.NET_RX_MEDIA_group r)) := by
    rw [hfld _ (by simp only [F.NET_RX_MEDIA_group, R.NET_RX_STATUS]; omega), State.grpHeld, State.grpHeld, State.bit, State.bit,
      hfld _ (by simp only [F.AUD_GRP_CFG_enable, R.NET_RX_STATUS]; omega)]
  have hmember : u.bit (F.NET_RX_CFG_member r) = s.bit (F.NET_RX_CFG_member r) := by
    rw [State.bit, State.bit, hfld _ (by simp only [F.NET_RX_CFG_member, R.NET_RX_STATUS]; omega)]
  have htype : u.fld (F.NET_RX_CFG_type r) = s.fld (F.NET_RX_CFG_type r) :=
    hfld _ (by simp only [F.NET_RX_CFG_type, R.NET_RX_STATUS]; omega)
  simp only [hu, hheld, hmember, htype, Bool.and_eq_true, decide_eq_true_eq, and_assoc]
  by_cases hodd : w % 2 = 1
  · rw [if_pos hodd, if_pos (.inl hodd)]
    exact ⟨hframe, hrd, hmedia, fun hne => hdiffers (by omega)⟩
  rw [if_neg hodd]
  by_cases hgroup : s.fld (F.NET_RX_CFG_type r) = 3 ∧ s.bit (F.NET_RX_CFG_member r) = true ∧ s.grpHeld (s.fld (F.NET_RX_MEDIA_group r)) = true
  · rw [if_pos hgroup, if_pos (.inr hgroup)]
    exact ⟨hframe.put 1 rfl, (u.rd_put_ne _ 1 hstatus).trans hrd, hmedia, fun _ => hbad u⟩
  · rw [if_neg hgroup, if_neg (not_or.mpr ⟨hodd, hgroup⟩)]
    refine ⟨((hframe.wr _).put 0 rfl).setRx _, ?_, ?_, State.rx_setRx_same _ _ _⟩
    · exact (State.rd_put_ne _ (F.NET_RX_STATUS_active r) 0 hstatus).trans ((State.rd_wr_same _ _ _).trans (Nat.mod_eq_of_lt (by omega)))
    · exact State.fld_put_same _ (F.NET_RX_STATUS_active r) 0 (show (0 : Nat) < 32 by decide)

theorem rxStreamEnable_answers {m : Master} {r : Nat} {v : Word} {s : State} (hr : r < 64) (ha : Admitted s m (R.NET_RX_CFG r)) :
    let old := s.rd (R.NET_RX_CFG r)
    let w := v.toNat &&& 0xFFFF3FFF
    ∃ t, Answers (.rxStreamEnable m r v) s t
      ∧ OnlyRegsAnd [R.NET_RX_CFG r, R.NET_RX_STATUS r] (fun t s => { s with media := t.media }) s t ∧
      if old % 2 = 0 then
        (if w % 2 = 1 ∧ (s.wr (R.NET_RX_CFG r) (w / 2 * 2)).rxOk r = true then
          t.rd (R.NET_RX_CFG r) = w ∧ t.fld (F.NET_RX_STATUS_active r) = 1 ∧ t.rx r = NetRx.clear
        else t.rd (R.NET_RX_CFG r) = w / 2 * 2 ∧ t.media = s.media ∧ (w % 2 = 1 → t.fld (F.NET_RX_STATUS_bad_cfg r) = 1))
      else if w % 2 = 1 ∨ (s.fld (F.NET_RX_CFG_type r) = 3 ∧ s.bit (F.NET_RX_CFG_member r) = true
          ∧ s.grpHeld (s.fld (F.NET_RX_MEDIA_group r)) = true) then
        t.rd (R.NET_RX_CFG r) = old ∧ t.media = s.media ∧ (w ≠ old → t.fld (F.NET_RX_STATUS_bad_cfg r) = 1)
      else t.rd (R.NET_RX_CFG r) = old - 1 ∧ t.fld (F.NET_RX_STATUS_active r) = 0 ∧ t.rx r = NetRx.clear := by
  have hexec : exec (.rxStreamEnable m r v) s = done (s.guardedWrite m (R.NET_RX_CFG r) (fun s => s.rxCfgWrite r v.toNat)) := by
    show execRxStreamEnable m r v s = _
    rw [execRxStreamEnable, Nat.mod_eq_of_lt hr]
  have hcfg : R.NET_RX_CFG r < 0xE8000 := by simp only [R.NET_RX_CFG]; omega
  have hstatus : R.NET_RX_STATUS r < 0xE8000 := by simp only [R.NET_RX_STATUS]; omega
  have hrx : ∀ u : State, (settle u).rx r = u.rx r := fun u => by rw [State.rx, settle_media]; rfl
  have hframe : ∀ {u : State}, RxFrame r s u → RxFrame r s (settle u) := fun h => OnlyRegsAnd.settle (by rw [settle_media]) h
  refine ⟨_, answers_of_admitted ha hexec, ?_⟩
  rw [settle_rd_rigging _ hcfg, settle_fld_rigging _ (F.NET_RX_STATUS_active r) hstatus, settle_fld_rigging _ (F.NET_RX_STATUS_bad_cfg r) hstatus,
    settle_media, hrx]
  rcases Nat.mod_two_eq_zero_or_one (s.rd (R.NET_RX_CFG r)) with hoff | hon
  · rw [if_pos hoff]
    obtain ⟨hkept, hshown⟩ := State.rxCfgWrite_off_shows v.toNat hoff
    exact ⟨hframe hkept, hshown⟩
  · rw [if_neg (by rw [hon]; decide)]
    obtain ⟨hkept, hshown⟩ := State.rxCfgWrite_on_shows v.toNat hr hon
    exact ⟨hframe hkept, hshown⟩

/-! ## Send streams (R402) -/

/-- The first packet of an audio stream is read from the stream's own settings and its group. -/
theorem State.txFirst_congr {s t : State} {j : Nat} (haud : t.aud = s.aud)
    (hfld : ∀ f : Fld, f.off = R.NET_TX_MEDIA_A j → t.fld f = s.fld f) : t.txFirst j = s.txFirst j := by
  simp only [State.txFirst, State.grp, State.bit, haud, hfld (F.NET_TX_MEDIA_A_group j) rfl, hfld (F.NET_TX_MEDIA_A_short j) rfl]

@[simp] theorem State.tx_setTx_same (s : State) (k : Nat) (x : NetTx) : (s.setTx k x).tx k = x := mapGet_mapSet_same ..

/-- A send stream that starts: a video stream from sequence number 0, an audio stream with the packet that comes next. -/
theorem State.txStart_shows (s : State) (k : Nat) :
    let f := if k < 8 then (0, s) else s.free
    let first := f.2.txFirst (k - 72)
    let t := f.2.setTx k (if 72 ≤ k then ⟨f.1 % 65536, first.1, first.2⟩ else ⟨f.1 % 65536, 0, 0⟩)
    t.regs = s.regs ∧ SameMemory s t ∧ (k < 8 → (t.tx k).seq = 0) ∧ (72 ≤ k → ((t.tx k).next, (t.tx k).origin) = s.txFirst (k - 72)) := by
  dsimp only
  rw [State.tx_setTx_same]
  by_cases hvideo : k < 8
  · rw [if_pos hvideo, if_neg (by omega)]
    exact ⟨rfl, .of_eq rfl rfl rfl rfl, fun _ => rfl, fun h => absurd h (by omega)⟩
  · rw [if_neg hvideo]
    have hfirst : s.free.2.txFirst (k - 72) = s.txFirst (k - 72) := State.txFirst_congr rfl fun _ _ => rfl
    refine ⟨rfl, .of_eq rfl rfl rfl rfl, fun h => absurd h hvideo, fun haudio => ?_⟩
    rw [if_pos haudio, hfirst]

theorem txStreamEnable_answers {m : Master} {k : Nat} {v : Word} {s : State} (hk : k < 80) (ha : Admitted s m (R.NET_TX_CFG k)) :
    ∃ t, Answers (.txStreamEnable m k v) s t ∧ SameMemory s t ∧ RegsBut [R.NET_TX_CFG k, R.NET_TX_STATUS k] s t ∧
      if v.toNat % 2 = 0 then t.fld (F.NET_TX_CFG_enable k) = 0 ∧ t.fld (F.NET_TX_STATUS_active k) = 0 ∧ t.media = s.media
      else if s.bit (F.NET_TX_CFG_enable k) = true then t.fld (F.NET_TX_CFG_enable k) = 1 ∧ t.media = s.media
      else if (s.regWrite (R.NET_TX_CFG k) v.toNat).txOk k = true then
        t.fld (F.NET_TX_CFG_enable k) = 1 ∧ t.fld (F.NET_TX_STATUS_active k) = 1
          ∧ (k < 8 → (t.tx k).seq = 0)
          ∧ (72 ≤ k → ((t.tx k).next, (t.tx k).origin) = s.txFirst (k - 72))
      else t.fld (F.NET_TX_CFG_enable k) = 0 ∧ t.fld (F.NET_TX_STATUS_bad_cfg k) = 1 ∧ t.media = s.media := by
  have hexec : exec (.txStreamEnable m k v) s = done (s.guardedWrite m (R.NET_TX_CFG k) (fun s => s.txCfgWrite k v.toNat)) := by
    show execTxStreamEnable m k v s = _
    rw [execTxStreamEnable, Nat.mod_eq_of_lt hk]
  have hcfg : R.NET_TX_CFG k < 0xE8000 := by simp only [R.NET_TX_CFG]; omega
  have hstatus : R.NET_TX_STATUS k < 0xE8000 := by simp only [R.NET_TX_STATUS]; omega
  have hoff : (F.NET_TX_CFG_enable k).off ≠ R.NET_TX_STATUS k := by simp only [F.NET_TX_CFG_enable, R.NET_TX_STATUS]; omega
  have htx : ∀ u : State, (settle u).tx k = u.tx k := fun u => by rw [State.tx, settle_media]; rfl
  obtain ⟨x, hx, hbit⟩ := s.regWrite_txCfg v.toNat hk
  have henable : (s.wr (R.NET_TX_CFG k) x).fld (F.NET_TX_CFG_enable k) = v.toNat % 2 :=
    (s.fld_wr_same (f := F.NET_TX_CFG_enable k) x (show (0 : Nat) < 32 by decide)).trans hbit
  have hfirst : (s.wr (R.NET_TX_CFG k) x).txFirst (k - 72) = s.txFirst (k - 72) :=
    State.txFirst_congr rfl fun f hf => s.fld_wr_off x (by rw [hf, R.NET_TX_MEDIA_A, R.NET_TX_CFG]; omega)
  have hregs : RegsBut [R.NET_TX_CFG k, R.NET_TX_STATUS k] s (s.wr (R.NET_TX_CFG k) x) := (RegsBut.refl _ s).wr x (.head _)
  have hmem : SameMemory s (s.wr (R.NET_TX_CFG k) x) := .of_eq rfl rfl rfl rfl
  have hmedia : (s.wr (R.NET_TX_CFG k) x).media = s.media := rfl
  have hans := answers_of_admitted ha hexec
  rw [State.txCfgWrite, hx] at hans
  rw [hx]
  generalize s.wr (R.NET_TX_CFG k) x = u at *
  refine ⟨_, hans, ?_⟩
  rw [settle_fld_rigging _ (F.NET_TX_CFG_enable k) hcfg, settle_fld_rigging _ (F.NET_TX_STATUS_active k) hstatus,
    settle_fld_rigging _ (F.NET_TX_STATUS_bad_cfg k) hstatus, settle_media, htx]
  have hput : ∀ (w : State) (f : Fld) (y : Nat), f.off = R.NET_TX_STATUS k → (w.put f y).fld (F.NET_TX_CFG_enable k) = w.fld (F.NET_TX_CFG_enable k) :=
    fun w f y hf => w.fld_put_off f _ y (hf ▸ hoff)
  rcases Nat.mod_two_eq_zero_or_one v.toNat with hv | hv
  · rw [if_neg (by rw [hv]; decide), if_pos hv]
    exact ⟨SameMemory.settle (hmem.trans (.of_eq rfl rfl rfl rfl)), (hregs.put 0 (.tail _ (.head _))).settle,
      (hput _ (F.NET_TX_STATUS_active k) 0 rfl).trans (henable.trans hv),
      u.fld_put_same (F.NET_TX_STATUS_active k) 0 (show (0 : Nat) < 32 by decide), hmedia⟩
  rw [if_pos hv, if_neg (show ¬ v.toNat % 2 = 0 by rw [hv]; decide)]
  by_cases hon : s.bit (F.NET_TX_CFG_enable k) = true
  · rw [if_pos hon, if_pos hon]
    exact ⟨hmem.settle, hregs.settle, henable.trans hv, hmedia⟩
  rw [if_neg hon, if_neg hon]
  by_cases hok : u.txOk k = true
  · rw [if_pos hok, if_pos hok]
    obtain ⟨hsregs, hsmem, hseq, hnext⟩ := u.txStart_shows k
    dsimp only at hsregs hsmem hseq hnext ⊢
    generalize State.setTx _ k _ = w at hsregs hsmem hseq hnext ⊢
    refine ⟨SameMemory.settle (hmem.trans (hsmem.trans (.of_eq rfl rfl rfl rfl))), ((hregs.of_regs hsregs).put 1 (.tail _ (.head _))).settle, ?_,
      w.fld_put_same (F.NET_TX_STATUS_active k) 1 (show (0 : Nat) < 32 by decide), hseq, fun h => (hnext h).trans hfirst⟩
    rw [hput _ (F.NET_TX_STATUS_active k) 1 rfl, State.fld_congr hsregs, henable, hv]
  · rw [if_neg hok, if_neg hok]
    refine ⟨SameMemory.settle (hmem.trans (.of_eq rfl rfl rfl rfl)), ((hregs.put 0 (.head _)).put 1 (.tail _ (.head _))).settle, ?_,
      State.fld_put_same _ (F.NET_TX_STATUS_bad_cfg k) 1 (show (1 : Nat) < 32 by decide), hmedia⟩
    rw [hput _ (F.NET_TX_STATUS_bad_cfg k) 1 rfl]
    exact u.fld_put_same (F.NET_TX_CFG_enable k) 0 (show (0 : Nat) < 32 by decide)

end Sys2Proof.Machine
end

section
/-! Received media frames (R394, R395, R396): whom a frame is for, and the first packet of a video frame. -/
namespace Sys2Proof.Machine

/-! ## Frames of a command that runs time on -/

/-- Only some registers and the time have moved. -/
def Arrives (l : List Nat) (s t : State) : Prop := OnlyRegsAnd l (fun t s => { s with anchorT := t.anchorT, real := t.real }) s t

/-- Only some registers, the time and the media streams have moved. -/
def ArrivesMedia (l : List Nat) (s t : State) : Prop :=
  OnlyRegsAnd l (fun t s => { s with anchorT := t.anchorT, real := t.real, media := t.media }) s t

theorem Arrives.reach (l : List Nat) (s : State) (t : Nat) : Arrives l s (s.reach t) := by
  obtain ⟨a, b, hreach⟩ := s.reach_frame t
  rw [hreach]
  exact ⟨.of_regs (.refl l s) rfl, rfl⟩

theorem Arrives.bump {l : List Nat} {s t : State} (h : Arrives l s t) {f : Fld} (n : Nat) (ho : f.off ∈ l) : Arrives l s (t.bump f n) :=
  ⟨h.1.bump n ho, h.2.trans rfl⟩

theorem Arrives.put {l : List Nat} {s t : State} (h : Arrives l s t) {f : Fld} (v : Nat) (ho : f.off ∈ l) : Arrives l s (t.put f v) :=
  ⟨h.1.put v ho, h.2.trans rfl⟩

theorem Arrives.settle {l : List Nat} {s t : State} (h : Arrives l s t) : Arrives l s (settle t) :=
  OnlyRegsAnd.settle (by rw [settle_anchorT, settle_real]) h

theorem Arrives.media {l : List Nat} {s t : State} (h : Arrives l s t) (m : Media) : ArrivesMedia l s { t with media := m } :=
  ⟨h.1.of_regs rfl, (congrArg (fun u : State => { u with media := m }) h.2 :)⟩

theorem ArrivesMedia.settle {l : List Nat} {s t : State} (h : ArrivesMedia l s t) : ArrivesMedia l s (settle t) :=
  OnlyRegsAnd.settle (by rw [settle_anchorT, settle_real, settle_media]) h

theorem State.regs_reach (s : State) (t : Nat) : (s.reach t).regs = s.regs := by
  obtain ⟨a, b, hreach⟩ := s.reach_frame t
  rw [hreach]

theorem State.fld_reach (s : State) (t : Nat) (f : Fld) : (s.reach t).fld f = s.fld f := State.fld_congr (s.regs_reach t) f

/-- A frame that moves one counter and nothing else. -/
theorem arrival_counted (s : State) (t : Nat) {f : Fld} (hhi : f.hi = 31) (hlo : f.lo = 0) (hoff : f.off < 0xE8000) :
    (settle ((s.reach t).bump f 1)).fld f = min (s.fld f + 1) (2 ^ 32 - 1) ∧ Arrives [f.off] s (settle ((s.reach t).bump f 1)) := by
  refine ⟨?_, ((Arrives.reach _ s t).bump 1 (.head _)).settle⟩
  rw [settle_fld_rigging _ f hoff, State.fld_bump_same _ f 1 (by omega), s.fld_reach, hhi, hlo]

/-! ## Whom a frame is for (R394) -/

/-- A frame that arrives whole and that neither Fenmas nor PTP takes goes to the media streams. -/
theorem State.mediaFrame_taken {s : State} {port : Nat} {f : List Byte} (t : Nat) (hnet : s.runs .net = true) (hup : s.portUp port = true)
    (hlen : 18 ≤ f.length) (hcheck : f.drop (f.length - 4) = frameCheck (f.take (f.length - 4)))
    (hfen : s.fenSeen port f = .ignored) (hptp : s.ptpTakes port f = false) :
    s.mediaFrame port t f = (s.reach t).mediaIn port t f := by
  have hptp' : (s.reach t).ptpTakes port f = false := by
    obtain ⟨a, b, hreach⟩ := s.reach_frame t
    rw [hreach]
    exact hptp
  rw [State.mediaFrame, if_pos (by simp only [hnet, hup, hlen, hcheck, decide_true, Bool.and_true])]
  simp only [State.fenSeen_reach, hfen, hptp', Bool.false_eq_true, if_false]

theorem State.mediaIn_not_ip (s : State) (port t : Nat) {f : List Byte} (h : beAt f 12 2 ≠ 0x0800) :
    s.mediaIn port t f = s.bump F.NET_RX_UNMATCHED_count 1 := by
  rw [State.mediaIn, if_pos (.inl h)]

/-- IP options, or a fragment. -/
theorem State.mediaIn_fragment (s : State) (port t : Nat) {f ip : List Byte} (hip : (f.take (f.length - 4)).drop 14 = ip)
    (htype : beAt f 12 2 = 0x0800) (hlen : 20 ≤ ip.length) (hver : beAt ip 0 1 / 16 = 4)
    (h : beAt ip 0 1 ≠ 0x45 ∨ beAt ip 6 2 % 0x4000 ≠ 0) : s.mediaIn port t f = s.bump F.NET_RX_FRAG_count 1 := by
  rw [State.mediaIn, hip, if_neg (by omega), if_pos (by omega)]

/-- Whether a stream waits for packets with these addresses and this port (R394). -/
def State.awaits (s : State) (port : Nat) (ip seg : List Byte) (r : Nat) : Bool :=
  s.bit (F.NET_RX_CFG_enable r) && s.fld (F.NET_RX_CFG_port r) = port && s.rd (R.NET_RX_DST_IP r) = beAt ip 16 4
    && s.fld (F.NET_RX_CFG_udp_port r) = beAt seg 2 2 && (s.rd (R.NET_RX_SRC_IP r) = 0 || s.rd (R.NET_RX_SRC_IP r) = beAt ip 12 4)

/-- What a stream waits for, as the statements write it. -/
def State.Awaits (s : State) (port : Nat) (ip seg : List Byte) (q : Nat) : Prop :=
  s.fld (F.NET_RX_CFG_enable q) = 1 ∧ s.fld (F.NET_RX_CFG_port q) = port ∧ s.rd (R.NET_RX_DST_IP q) = beAt ip 16 4
    ∧ s.fld (F.NET_RX_CFG_udp_port q) = beAt seg 2 2 ∧ (s.rd (R.NET_RX_SRC_IP q) = 0 ∨ s.rd (R.NET_RX_SRC_IP q) = beAt ip 12 4)

theorem State.awaits_iff (s : State) (port : Nat) (ip seg : List Byte) (r : Nat) : s.awaits port ip seg r = true ↔ s.Awaits port ip seg r := by
  simp only [State.awaits, State.Awaits, Bool.and_eq_true, Bool.or_eq_true, decide_eq_true_eq, and_assoc,
    s.bit_eq_true_iff (f := F.NET_RX_CFG_enable r) rfl]

theorem find?_awaits_none {s : State} {port : Nat} {ip seg : List Byte} (h : ∀ q, q < 64 → ¬ s.Awaits port ip seg q) :
    (List.range 64).find? (s.awaits port ip seg) = none :=
  List.find?_eq_none.mpr fun q hq => mt (s.awaits_iff port ip seg q).mp (h q (List.mem_range.mp hq))

theorem find?_awaits_first {s : State} {port r : Nat} {ip seg : List Byte} (hr : r < 64) (hmine : s.Awaits port ip seg r)
    (hfirst : ∀ q, q < r → ¬ s.Awaits port ip seg q) : (List.range 64).find? (s.awaits port ip seg) = some r := by
  refine List.find?_range_eq_some.mpr ⟨(s.awaits_iff port ip seg r).mpr hmine, List.mem_range.mpr hr, fun q hq => ?_⟩
  rw [Bool.not_eq_true', Bool.eq_false_iff]
  exact mt (s.awaits_iff port ip seg q).mp (hfirst q hq)

theorem State.awaits_reach (s : State) (t port : Nat) (ip seg : List Byte) : (s.reach t).awaits port ip seg = s.awaits port ip seg :=
  funext fun r => by simp only [State.awaits, State.bit, State.fld_reach, State.rd_congr (s.regs_reach t)]

/-- A whole UDP packet without a checksum goes to the first stream that waits for it. -/
theorem State.mediaIn_udp (s : State) (port t : Nat) {f ip seg : List Byte} (hip : (f.take (f.length - 4)).drop 14 = ip)
    (hseg : slice ip 20 (beAt ip 2 2 - 20) = seg) (htype : beAt f 12 2 = 0x0800) (hver : beAt ip 0 1 = 0x45)
    (hwhole : beAt ip 6 2 % 0x4000 = 0) (htotal : beAt ip 2 2 ≤ ip.length) (hproto : beAt ip 9 1 = 17) (hmin : 20 ≤ seg.length)
    (hlen : beAt seg 4 2 = seg.length) (hsum : beAt seg 6 2 = 0) (hlong : 20 ≤ ip.length) :
    s.mediaIn port t f = ((List.range 64).find? (s.awaits port ip seg)).elim (s.bump F.NET_RX_UNMATCHED_count 1)
      fun r => s.rtpIn r t (seg.drop 8) := by
  rw [State.mediaIn, hip, if_neg (by omega), if_neg (by omega)]
  dsimp only
  rw [Nat.min_eq_left htotal, hseg, hlen, if_neg (by omega)]
  have hno : ¬ (beAt seg 6 2 ≠ 0 ∧ onesSum (slice ip 12 8 ++ [0, 17] ++ beBytes 2 seg.length ++ seg.take seg.length) ≠ 65535) :=
    fun h => h.1 hsum
  have hudp : slice seg 8 (seg.length - 8) = seg.drop 8 := List.take_of_length_le (by rw [List.length_drop])
  simp only [if_neg hno, hudp]
  split
  next h => rw [show (List.range 64).find? (s.awaits port ip seg) = none from h]; rfl
  next r h => rw [show (List.range 64).find? (s.awaits port ip seg) = some r from h]; rfl

/-! ## An RTP packet of a stream (R394, R395) -/

/-- The packet is counted and its sequence number shown. -/
def State.rtpSeen (s : State) (r : Nat) (udp : List Byte) : State :=
  (s.bump (F.NET_RX_PKTS_count r) 1).put (F.NET_RX_STATUS_last_seq r) (beAt udp 2 2)

theorem State.rtpSeen_fld (s : State) (r : Nat) (udp : List Byte) {f : Fld} (hpkts : f.off ≠ R.NET_RX_PKTS r) (hstatus : f.off ≠ R.NET_RX_STATUS r) :
    (s.rtpSeen r udp).fld f = s.fld f :=
  (State.fld_put_off _ _ _ _ hstatus).trans (s.fld_put_off _ _ _ hpkts)

theorem State.rtpSeen_pkts (s : State) (r : Nat) (udp : List Byte) :
    (s.rtpSeen r udp).fld (F.NET_RX_PKTS_count r) = min (s.fld (F.NET_RX_PKTS_count r) + 1) (2 ^ 32 - 1) :=
  (State.fld_put_off _ _ _ _ (by simp only [F.NET_RX_PKTS_count, F.NET_RX_STATUS_last_seq]; omega)).trans
    (s.fld_bump_same (F.NET_RX_PKTS_count r) 1 (show (31 : Nat) < 32 by decide))

theorem State.rtpSeen_seq (s : State) (r : Nat) (udp : List Byte) : (s.rtpSeen r udp).fld (F.NET_RX_STATUS_last_seq r) = beAt udp 2 2 :=
  (State.fld_put_same _ (F.NET_RX_STATUS_last_seq r) _ (show (31 : Nat) < 32 by decide)).trans (Nat.mod_eq_of_lt (beAt_lt udp 2 2))

theorem Arrives.rtpSeen {l : List Nat} {s t : State} (h : Arrives l s t) {r : Nat} (udp : List Byte) (hpkts : R.NET_RX_PKTS r ∈ l)
    (hstatus : R.NET_RX_STATUS r ∈ l) : Arrives l s (t.rtpSeen r udp) := (h.bump 1 hpkts).put _ hstatus

/-- No setting of a receive stream lies where its packets are counted. -/
theorem State.rtpSeen_cfg (s : State) (r : Nat) (udp : List Byte) {f : Fld} (h : f.off = R.NET_RX_CFG r) : (s.rtpSeen r udp).fld f = s.fld f :=
  s.rtpSeen_fld r udp (by rw [h, R.NET_RX_CFG, R.NET_RX_PKTS]; omega) (by rw [h, R.NET_RX_CFG, R.NET_RX_STATUS]; omega)

/-- A packet of another payload type is discarded. -/
theorem State.rtpIn_other_type {s : State} {r : Nat} {udp : List Byte} (t : Nat) (hlen : 12 ≤ udp.length)
    (hpt : beAt udp 1 1 % 128 ≠ s.fld (F.NET_RX_CFG_pt r)) : s.rtpIn r t udp = (s.rtpSeen r udp).rxDrop r := by
  have hseen : (if 12 ≤ udp.length then (s.bump (F.NET_RX_PKTS_count r) 1).put (F.NET_RX_STATUS_last_seq r) (beAt udp 2 2)
      else s.bump (F.NET_RX_PKTS_count r) 1) = s.rtpSeen r udp := if_pos hlen
  rw [State.rtpIn, hseen]
  exact if_pos (.inr (.inr (.inl (by rwa [s.rtpSeen_cfg r udp rfl]))))

/-- A packet of a video stream with a plain RTP header and no marker. -/
theorem State.rtpIn_video {s : State} {r : Nat} {udp : List Byte} (t : Nat) (hlen : 12 ≤ udp.length) (hplain : beAt udp 0 1 = 0x80)
    (hpt : beAt udp 1 1 = s.fld (F.NET_RX_CFG_pt r)) (htype : s.fld (F.NET_RX_CFG_type r) = 1) :
    s.rtpIn r t udp = (s.rtpSeen r udp).videoPacket r t (beAt udp 4 4) false (udp.drop 12) := by
  have hseen : (if 12 ≤ udp.length then (s.bump (F.NET_RX_PKTS_count r) 1).put (F.NET_RX_STATUS_last_seq r) (beAt udp 2 2)
      else s.bump (F.NET_RX_PKTS_count r) 1) = s.rtpSeen r udp := if_pos hlen
  have hsmall : s.fld (F.NET_RX_CFG_pt r) < 2 ^ 7 := bitsOf_lt ..
  have hmarker : (s.fld (F.NET_RX_CFG_pt r)).testBit 7 = false := Nat.testBit_lt_two_pow hsmall
  have hflags : Nat.testBit 0x80 4 = false ∧ Nat.testBit 0x80 5 = false := by decide
  have hpayload : slice udp 12 (udp.length - 12) = udp.drop 12 := List.take_of_length_le (by rw [List.length_drop])
  rw [State.rtpIn, hseen]
  simp only [hplain, hflags, hmarker, Bool.false_eq_true, if_false, s.rtpSeen_cfg r udp (f := F.NET_RX_CFG_pt r) rfl,
    s.rtpSeen_cfg r udp (f := F.NET_RX_CFG_type r) rfl, htype, hpt, Nat.reduceMod, Nat.reduceMul, Nat.add_zero,
    Nat.reduceDiv, Nat.sub_zero, hpayload]
  rw [if_neg (by omega)]

/-! ## The first packet of a video frame (R396) -/

/-- Pieces of lines change a frame's pgroups and nothing else. -/
theorem VidFrame.foldl_add (fmt : Nat) (ps : List Srd) (f : VidFrame) :
    ps.foldl (fun f p => f.add fmt p) f = { f with groups := (ps.foldl (fun f p => f.add fmt p) f).groups } := by
  induction ps generalizing f with
  | nil => rfl
  | cons p ps ih => exact ih (f.add fmt p)

/-- A frame of which no packet with a marker has come, and whose hold stands, stays open on a unit that leads. -/
theorem State.vidCheck_open {s : State} {r num : Nat} {f : VidFrame} (hlead : Leads s) (hf : (s.rx r).vids.find? (fun g => g.num = num) = some f)
    (hsurf : s.surfsOf 3 r ≠ []) (hdead : f.dead = false) (hmarker : f.marker = false) (hdue : f.due = false) : s.vidCheck r num false = s := by
  have hfed : (s.surfsOf 3 r).isEmpty = false := List.isEmpty_eq_false_iff.mpr hsurf
  simp only [State.vidCheck, hf, hdead, hfed, hmarker, hdue, hlead.follows, Bool.or_self, Bool.false_and, Bool.false_eq_true, if_false]

/-- A frame opened with its first packet. -/
def State.openVid (s : State) (r : Nat) (f : VidFrame) : State :=
  s.setRx r { s.rx r with count := (s.rx r).count + 1, vids := (s.rx r).vids ++ [f] }

theorem State.openVid_rx (s : State) (r : Nat) (f : VidFrame) :
    (s.openVid r f).rx r = { s.rx r with count := (s.rx r).count + 1, vids := (s.rx r).vids ++ [f] } := State.rx_setRx_same ..

/-- The frame last opened is found, where no other agrees. -/
theorem find?_append_singleton {p : VidFrame → Bool} {l : List VidFrame} {f : VidFrame} (hl : ∀ g ∈ l, p g = false) (hf : p f = true) :
    (l ++ [f]).find? p = some f := by
  rw [List.find?_append, List.find?_eq_none.mpr fun g hg => by rw [hl g hg]; exact Bool.false_ne_true]
  exact List.find?_cons_of_pos hf

/-- The frame last opened is changed alone, where no other has its number. -/
theorem State.setVid_openVid_rx {s : State} {r : Nat} {f g : VidFrame} (hnum : g.num = f.num) (hnew : ∀ x ∈ (s.rx r).vids, x.num ≠ f.num) :
    ((s.openVid r f).setVid r g).rx r = { s.rx r with count := (s.rx r).count + 1, vids := (s.rx r).vids ++ [g] } := by
  have hold : (s.rx r).vids.map (fun x => if x.num = g.num then g else x) = (s.rx r).vids :=
    (List.map_congr_left fun x hx => if_neg (hnum ▸ hnew x hx)).trans (List.map_id' _)
  rw [State.setVid, State.rx_setRx_same, State.openVid_rx, List.map_append, hold]
  simp only [List.map_cons, List.map_nil, if_pos hnum.symm]

/-- The first packet of a video frame opens it. -/
theorem State.videoPacket_first {s : State} {r ts n fmt : Nat} {rest : List Nat} {payload : List Byte} {ps : List Srd} (t : Nat) (hlead : Leads s)
    (hsurf : s.surfsOf 3 r = n :: rest) (hfmt : s.fld (F.WALL_SURF_CFG_fmt n) = fmt)
    (hps : videoPieces fmt (s.surfW n) (s.surfH n) payload = some ps) (hroom : ((s.rx r).vids.filter (fun f => !f.due)).length < 2)
    (hnew : ∀ f ∈ (s.rx r).vids, f.ts ≠ ts ∧ f.num ≠ (s.rx r).count) (hopen : ts ∉ (s.rx r).closed) :
    ∃ m, s.videoPacket r t ts false payload = { s with media := m }
      ∧ (({ s with media := m } : State).rx r) = { s.rx r with count := (s.rx r).count + 1, vids := (s.rx r).vids ++
          [ps.foldl (fun f p => f.add fmt p) ⟨(s.rx r).count, ts, t, [], false, false, false⟩] } := by
  generalize hfresh : (⟨(s.rx r).count, ts, t, [], false, false, false⟩ : VidFrame) = fresh
  generalize hg : ps.foldl (fun f p => f.add fmt p) fresh = g
  have hgroups : g = { fresh with groups := g.groups } := hg ▸ VidFrame.foldl_add fmt ps fresh
  have hclosed : (s.rx r).closed.contains ts = false := by simpa only [List.contains_eq_mem, decide_eq_false_iff_not] using hopen
  have hnone : (s.rx r).vids.any (fun f => f.ts = ts) = false := by
    simp only [List.any_eq_false, decide_eq_true_eq]
    exact fun f hf => (hnew f hf).1
  have hfind : ((s.openVid r fresh).rx r).vids.find? (fun f => f.ts = ts) = some fresh := by
    rw [State.openVid_rx]
    exact find?_append_singleton (fun f hf => decide_eq_false (hnew f hf).1) (by rw [← hfresh]; exact decide_eq_true rfl)
  have hnum : g.num = fresh.num := by rw [hgroups]
  have hothers : ∀ f ∈ (s.rx r).vids, f.num ≠ fresh.num := fun f hf => by rw [← hfresh]; exact (hnew f hf).2
  have hrx := State.setVid_openVid_rx hnum hothers
  have hmarked : { g with marker := g.marker || false } = g := by rw [Bool.or_false]
  have hfew : (s.rx r).vids.filter (fun f => !f.due) = [] ∨ ∃ f, (s.rx r).vids.filter (fun f => !f.due) = [f] := by
    rcases Nat.lt_succ_iff_lt_or_eq.mp hroom with h | h
    · exact .inl (List.length_eq_zero_iff.mp (by omega))
    · exact .inr (List.length_eq_one_iff.mp h)
  have hcheck : ((s.openVid r fresh).setVid r g).vidCheck r fresh.num false = (s.openVid r fresh).setVid r g := by
    refine State.vidCheck_open (hlead.of_jnl rfl) (f := g) ?_ ?_ ?_ ?_ ?_
    · rw [hrx]
      exact find?_append_singleton (fun f hf => decide_eq_false (hothers f hf)) (decide_eq_true hnum)
    · rw [show ((s.openVid r fresh).setVid r g).surfsOf 3 r = s.surfsOf 3 r from rfl, hsurf]
      exact List.cons_ne_nil _ _
    all_goals rw [hgroups, ← hfresh]
  have hpacket : s.videoPacket r t ts false payload = (s.openVid r fresh).setVid r g := by
    have hdead : fresh.dead = false := by rw [← hfresh]
    have hsetting : ∀ f : Fld, (s.openVid r fresh).fld f = s.fld f := fun _ => rfl
    have hopened : s.setRx r ⟨(s.rx r).count + 1, (s.rx r).vids ++ [fresh], (s.rx r).units, (s.rx r).closed⟩ = s.openVid r fresh := rfl
    rw [State.videoPacket]
    obtain h | ⟨f, h⟩ := hfew <;>
      simp only [hclosed, hsurf, List.head?_cons, hfmt, hps, hnone, h, Bool.false_eq_true, if_false, Option.isNone_some, hfresh, hopened, hfind,
        hdead, Option.map_some, Option.getD_some, hsetting, hg, hmarked, hcheck]
  exact ⟨((s.openVid r fresh).setVid r g).media, hpacket, hrx⟩

/-! ## The effect on the state before (R394 to R396) -/

/-- The surfaces of a source are told by the configurations of the surfaces. -/
theorem State.surfsOf_congr {s t : State} (hsurfs : t.wall.surfs = s.wall.surfs)
    (hcfg : ∀ (n : Nat) (f : Fld), f.off = R.WALL_SURF_CFG n → t.fld f = s.fld f) (feed src : Nat) : t.surfsOf feed src = s.surfsOf feed src := by
  have henable : ∀ n, t.bit (F.WALL_SURF_CFG_enable n) = s.bit (F.WALL_SURF_CFG_enable n) := fun n => by rw [State.bit, State.bit, hcfg n _ rfl]
  have hfeed : t.feed = s.feed := funext fun n => hcfg n _ rfl
  have hsrc : t.src = s.src := funext fun n => hcfg n _ rfl
  simp only [State.surfsOf, hsurfs, henable, hfeed, hsrc]

theorem beAt_drop (l : List Byte) (k a n : Nat) : beAt (l.drop k) a n = beAt l (k + a) n := by
  rw [beAt, beAt, slice, slice, List.drop_drop]

/-- A packet of another payload type, after a frame that arrives at an instant. -/
theorem rtpIn_other_type_shows {s : State} {r : Nat} {udp : List Byte} (t : Nat) (hr : r < 64) (hlen : 12 ≤ udp.length)
    (hpt : beAt udp 1 1 % 128 ≠ s.fld (F.NET_RX_CFG_pt r)) :
    let u := settle ((s.reach t).rtpIn r t udp)
    u.fld (F.NET_RX_PKTS_count r) = min (s.fld (F.NET_RX_PKTS_count r) + 1) (2 ^ 32 - 1)
      ∧ u.fld (F.NET_RX_DROP_count r) = min (s.fld (F.NET_RX_DROP_count r) + 1) (2 ^ 32 - 1)
      ∧ Arrives [R.NET_RX_PKTS r, R.NET_RX_DROP r, R.NET_RX_STATUS r] s u := by
  have hpkts : R.NET_RX_PKTS r < 0xE8000 := by simp only [R.NET_RX_PKTS]; omega
  have hdrop : R.NET_RX_DROP r < 0xE8000 := by simp only [R.NET_RX_DROP]; omega
  have hapart : R.NET_RX_PKTS r ≠ R.NET_RX_DROP r := by simp only [R.NET_RX_PKTS, R.NET_RX_DROP]; omega
  have hstatus : R.NET_RX_DROP r ≠ R.NET_RX_STATUS r := by simp only [R.NET_RX_STATUS, R.NET_RX_DROP]; omega
  rw [State.rtpIn_other_type t hlen (by rwa [s.fld_reach])]
  refine ⟨?_, ?_, (((Arrives.reach _ s t).rtpSeen udp (.head _) (.tail _ (.tail _ (.head _)))).bump (f := F.NET_RX_DROP_count r) 1 (.tail _ (.head _))).settle⟩
  · rw [settle_fld_rigging _ (F.NET_RX_PKTS_count r) hpkts, ← s.fld_reach t]
    exact (State.fld_put_off _ _ _ _ hapart).trans (State.rtpSeen_pkts ..)
  · rw [settle_fld_rigging _ (F.NET_RX_DROP_count r) hdrop, ← s.fld_reach t,
      ← (s.reach t).rtpSeen_fld r udp (f := F.NET_RX_DROP_count r) hapart.symm hstatus]
    exact State.fld_bump_same _ (F.NET_RX_DROP_count r) 1 (show (31 : Nat) < 32 by decide)

/-- The first packet of a video frame, after a frame that arrives at an instant. -/
theorem rtpIn_first_video_shows {s : State} {r n ts seq : Nat} {rest : List Nat} {udp : List Byte} {ps : List Srd} (t : Nat) (hr : r < 64)
    (hlen : 12 ≤ udp.length) (hts : beAt udp 4 4 = ts) (hno : beAt udp 2 2 = seq) (hplain : beAt udp 0 1 = 0x80) (hpt : beAt udp 1 1 = s.fld (F.NET_RX_CFG_pt r))
    (htype : s.fld (F.NET_RX_CFG_type r) = 1) (hsurf : s.surfsOf 3 r = n :: rest) (hlead : Leads s)
    (hroom : ((s.rx r).vids.filter (fun f => !f.due)).length < 2)
    (hnew : ∀ f ∈ (s.rx r).vids, f.ts ≠ ts ∧ f.num ≠ (s.rx r).count) (hopen : ts ∉ (s.rx r).closed)
    (hps : videoPieces (s.fld (F.WALL_SURF_CFG_fmt n)) (s.surfW n) (s.surfH n) (udp.drop 12) = some ps) :
    let u := settle ((s.reach t).rtpIn r t udp)
    u.fld (F.NET_RX_PKTS_count r) = min (s.fld (F.NET_RX_PKTS_count r) + 1) (2 ^ 32 - 1)
      ∧ u.fld (F.NET_RX_STATUS_last_seq r) = seq
      ∧ ArrivesMedia [R.NET_RX_PKTS r, R.NET_RX_STATUS r] s u
      ∧ (u.rx r).count = (s.rx r).count + 1
      ∧ (u.rx r).vids = (s.rx r).vids ++ [ps.foldl (fun f p => f.add (s.fld (F.WALL_SURF_CFG_fmt n)) p)
          ⟨(s.rx r).count, ts, t, [], false, false, false⟩] := by
  have hpkts : R.NET_RX_PKTS r < 0xE8000 := by simp only [R.NET_RX_PKTS]; omega
  have hstatus : R.NET_RX_STATUS r < 0xE8000 := by simp only [R.NET_RX_STATUS]; omega
  subst hts hno
  rw [State.rtpIn_video t hlen hplain (by rwa [s.fld_reach]) (by rwa [s.fld_reach])]
  have harrives : Arrives [R.NET_RX_PKTS r, R.NET_RX_STATUS r] s ((s.reach t).rtpSeen r udp) :=
    (Arrives.reach _ s t).rtpSeen udp (.head _) (.tail _ (.head _))
  have hcount := (s.reach t).rtpSeen_pkts r udp
  have hseq := (s.reach t).rtpSeen_seq r udp
  have hwall : ∀ f : Fld, f.off % 64 < 32 → ((s.reach t).rtpSeen r udp).fld f = s.fld f := fun f hf => by
    rw [State.rtpSeen_fld _ r udp (by simp only [R.NET_RX_PKTS]; omega) (by simp only [R.NET_RX_STATUS]; omega), s.fld_reach]
  rw [s.fld_reach] at hcount
  obtain ⟨hrx, hjnl, hsurfs⟩ : ((s.reach t).rtpSeen r udp).rx = s.rx ∧ ((s.reach t).rtpSeen r udp).jnl = s.jnl
      ∧ ((s.reach t).rtpSeen r udp).wall = s.wall := by
    obtain ⟨a, b, hreach⟩ := s.reach_frame t
    rw [hreach]
    exact ⟨rfl, rfl, rfl⟩
  generalize (s.reach t).rtpSeen r udp = w at harrives hcount hseq hwall hrx hjnl hsurfs ⊢
  have hfed : w.surfsOf 3 r = n :: rest := by
    rw [← hsurf]
    exact State.surfsOf_congr (by rw [hsurfs]) (fun k f hf => hwall f (by rw [hf, R.WALL_SURF_CFG]; omega)) 3 r
  have hfmt : w.fld (F.WALL_SURF_CFG_fmt n) = s.fld (F.WALL_SURF_CFG_fmt n) := hwall _ (by simp only [F.WALL_SURF_CFG_fmt]; omega)
  have hsize : w.surfW n = s.surfW n ∧ w.surfH n = s.surfH n :=
    ⟨hwall _ (by simp only [F.WALL_SURF_SIZE_width]; omega), hwall _ (by simp only [F.WALL_SURF_SIZE_height]; omega)⟩
  obtain ⟨m, hpacket, hvids⟩ := State.videoPacket_first t (hlead.of_jnl hjnl) hfed hfmt (by rwa [hsize.1, hsize.2]) (by rwa [hrx])
    (by rwa [hrx]) (by rwa [hrx])
  have hsettled : ∀ u : State, (settle u).rx r = u.rx r := fun u => by rw [State.rx, settle_media]; rfl
  rw [hpacket]
  refine ⟨?_, ?_, (harrives.media m).settle, ?_, ?_⟩
  · rw [settle_fld_rigging _ (F.NET_RX_PKTS_count r) hpkts]
    exact hcount
  · rw [settle_fld_rigging _ (F.NET_RX_STATUS_last_seq r) hstatus]
    exact hseq
  · rw [hsettled, hvids, hrx]
  · rw [hsettled, hvids, hrx]

/-- Settles O52: a stream is enabled or refused by the settings that its write leaves, and a frame's effect follows from the one
stream, if any, that waits for it. -/
theorem mediaStreams : Obligations.MediaStreams := by
  unfold Obligations.MediaStreams
  refine ⟨fun m r v s hr ha => rxStreamEnable_answers hr ha, fun m k v s hk ha => txStreamEnable_answers hk ha, ?_⟩
  intro port at_ f s hport hnet hup hlen hcheck hfen hptp ip seg mine time
  have hans : Answers (.mediaFrame port at_ f) s (settle ((s.reach at_).mediaIn port at_ f)) := by
    refine answers_settle_of_exec_eq_done ?_
    show execMediaFrame port at_ f s = _
    rw [execMediaFrame, Nat.mod_eq_of_lt hport, State.mediaFrame_taken at_ hnet hup hlen hcheck hfen hptp]
  refine ⟨_, hans, fun htype => ?_, fun htype hlong hver hother => ?_, fun htype hver hwhole htotal hproto hmin hseg hsum hplain => ?_⟩
  · rw [State.mediaIn_not_ip _ _ _ htype]
    exact arrival_counted s at_ (f := F.NET_RX_UNMATCHED_count) rfl rfl (by decide)
  · rw [State.mediaIn_fragment _ _ _ rfl htype hlong hver hother]
    exact arrival_counted s at_ (f := F.NET_RX_FRAG_count) rfl rfl (by decide)
  · have hlength : seg.length = beAt ip 2 2 - 20 := by
      simp only [seg, slice, List.length_take, List.length_drop]
      omega
    rw [State.mediaIn_udp _ port at_ (ip := ip) (seg := seg) rfl rfl htype hver hwhole htotal hproto (by omega) hseg hsum (by omega), State.awaits_reach]
    refine ⟨fun hnone => ?_, fun r hr hmine hfirst => ?_⟩
    · rw [find?_awaits_none hnone, Option.elim_none]
      exact arrival_counted s at_ (f := F.NET_RX_UNMATCHED_count) rfl rfl (by decide)
    · rw [find?_awaits_first hr hmine hfirst, Option.elim_some]
      have hudp : 12 ≤ (seg.drop 8).length := by rw [List.length_drop]; omega
      refine ⟨fun hpt => rtpIn_other_type_shows at_ hr hudp (by rwa [beAt_drop]), ?_⟩
      intro n rest ps hpt hvideo hsurf hlead hroom hnew hopen hps
      exact rtpIn_first_video_shows at_ hr hudp (beAt_drop ..) (beAt_drop ..) ((beAt_drop ..).trans hplain) ((beAt_drop ..).trans hpt)
        hvideo hsurf hlead hroom hnew hopen (by rwa [List.drop_drop])

end Sys2Proof.Machine
end
